-- ==== Sys2Proof/Word.lean ====
section
/-! DEFINITION. The word types of the device and nothing else. -/

namespace Sys2Proof

/-- A byte of memory or of a message. -/
abbrev Byte := BitVec 8
/-- A status code 0xUUNN (R10). -/
abbrev Status := BitVec 16
/-- The 32-bit words of records, counters and FP32 patterns. -/
abbrev W32 := BitVec 32
/-- Registers, addresses and record words are 64 bits wide (R4). -/
abbrev W64 := BitVec 64
/-- A tensor descriptor as it stands in a t register (R76). -/
abbrev Desc := BitVec 512
/-- A predicate register of a press (R74). -/
abbrev Pred := BitVec 16384

end Sys2Proof
end

