-- ==== Sys2Proof/Syntax.lean ====
section
/-! DEFINITION. The commands of the ZH-M8: one constructor for each row of spec/opcode_table.json, with the
operands that the governing rule of the row gives it. -/

namespace Sys2Proof

/-- The path by which a control-space access arrives (R469, R471, R487). -/
inductive RegPath where
  | firmware
  | session0
  | i3c
  deriving DecidableEq, Repr

/-- A core that runs scalar instructions: a press 0 to 127 or a compositor 0 to 63 (R74). -/
inductive CoreId where
  | press (n : Nat)
  | comp (n : Nat)
  deriving DecidableEq, Repr

/-- The Line that carries a slot operation (R73): its core and its header. A Line whose slots number more
than one arrives as one command per slot, in any order, `more` being true on all but the last. `stray` names the slots
with a bit set that R74 requires to be zero and that no command carries: any bit while VALID is 0, or a reserved one.
`unlisted` names the valid slots whose operation code or class no table lists (R79, R88 to R91); such a slot has no row,
and the commands of the other slots, or a scalar NOP, carry its Line. Bits 0 to 5 stand for S0, S1, TM, PL, RL, CT. -/
structure Line where
  core  : CoreId
  more  : Bool
  wait  : BitVec 16
  split : BitVec 2
  lpred : BitVec 4
  lneg  : Bool
  lpen  : Bool
  rsv   : BitVec 2
  imm   : W64
  stray    : BitVec 6 := 0
  unlisted : BitVec 6 := 0
  deriving DecidableEq, Repr

/-- Which of the two scalar slots holds an operation. -/
inductive ScalarSlot where
  | s0
  | s1
  deriving DecidableEq, Repr

/-- Form A of a scalar instruction (R79). -/
structure FormA where
  slot : ScalarSlot
  rd   : BitVec 6
  rs1  : BitVec 6
  rs2  : BitVec 6
  sub  : BitVec 7
  deriving DecidableEq, Repr

/-- Form B of a scalar instruction (R79). -/
structure FormB where
  slot : ScalarSlot
  rd   : BitVec 6
  rs1  : BitVec 6
  imm  : BitVec 13
  deriving DecidableEq, Repr

/-- Form S of a scalar instruction (R79). -/
structure FormS where
  slot : ScalarSlot
  rs2  : BitVec 6
  rs1  : BitVec 6
  imm  : BitVec 13
  deriving DecidableEq, Repr

/-- The fields of the tensor-move slot beyond OP (R88). -/
structure TmF where
  td     : BitVec 5
  ts     : BitVec 5
  nc     : BitVec 4
  mark   : BitVec 4
  markEn : Bool
  xa     : BitVec 6
  xb     : BitVec 6
  rsv    : BitVec 60
  deriving DecidableEq, Repr

/-- The fields of the platen slot beyond OP (R89). -/
structure PlF where
  tr     : Bool
  acc    : Bool
  plat   : BitVec 4
  ta     : BitVec 5
  tw     : BitVec 5
  tile   : BitVec 6
  nc     : BitVec 4
  mark   : BitVec 4
  markEn : Bool
  pm     : BitVec 4
  chk    : Bool
  pass   : BitVec 2
  rel    : Bool
  rsv    : BitVec 53
  deriving DecidableEq, Repr

/-- The fields of the roller slot beyond CLASS (*Roller slot*, after R90). -/
structure RlF where
  fn     : BitVec 6
  td     : BitVec 5
  ta     : BitVec 5
  tb     : BitVec 5
  xs     : BitVec 6
  xsImm  : Bool
  pm     : BitVec 4
  pmn    : Bool
  pd     : BitVec 4
  nc     : BitVec 4
  mark   : BitVec 4
  markEn : Bool
  xn     : BitVec 6
  bc     : Bool
  bcax   : Bool
  rsv    : BitVec 36
  deriving DecidableEq, Repr

/-- The fields of the control slot beyond OP (R91). -/
structure CtF where
  cp     : BitVec 4
  cpn    : Bool
  xa     : BitVec 6
  xb     : BitVec 6
  xd     : BitVec 6
  mark   : BitVec 4
  markEn : Bool
  imm    : BitVec 14
  rsv    : BitVec 16
  deriving DecidableEq, Repr

/-- A MANAGE request (R358): the session it arrives on, its head and its items (R475). -/
structure MReq where
  session : Nat
  reqId   : W32
  part    : Nat
  items   : List (Nat × W64)
  deriving DecidableEq, Repr

/-- An operation that a start command names: the press of a tensor move, or the place of a command in the control queue; and,
where a pre-emption stops it, the point at which it does, in 4 KiB pieces written, spans of 128 keys, or slices (R186, R210,
R307; log 102). -/
structure StartAt where
  num  : Nat
  stop : Option Nat := none
  deriving DecidableEq, Repr

/-- The engines of a press whose operations complete under R85. -/
inductive Engine where
  | tm
  | platen
  | roller
  | control
  deriving DecidableEq, Repr

/-- What a read of stored bits finds (R240, R287, R289). -/
inductive Ecc where
  | good
  | corrected (lane : Nat)
  | uncorrectable
  /-- The DRAM gives bits that the controller did not write there, without an ECC error: a ciphertext and a tag. -/
  | altered (cipher : List Byte) (tag : BitVec 56)
  deriving DecidableEq, Repr

/-- Who makes a request of HBM (R281): an access of the partition, or of firmware for it, is charged; a scrub write and an
access of the management controller are exempt. -/
inductive ReqSrc where
  | access
  | firmware
  | scrub
  | management
  deriving DecidableEq, Repr

/-- A request at the ingress of a partition (R281): the range, and the tag sectors that miss the tag cache. -/
structure HbmReq where
  pa      : Nat
  len     : Nat
  write   : Bool
  tagMiss : Nat
  deriving DecidableEq, Repr

/-- An operation at one sector of HBM (R283 to R286). `write` is a plain write that shares the sector's order. -/
inductive AtomBody where
  | atomic (op fmt : BitVec 4) (operands : List W64)
  | write (data : List Byte)
  deriving DecidableEq, Repr

/-- Who asks for an atomic or write, for the report of a failure (R286, R98). -/
inductive AtomSrc where
  | press (n : Nat) (pc : W64)
  | remote (device : Nat) (tag : W32)
  | internal
  deriving DecidableEq, Repr

/-- The fields of HELLO_1 (R335). -/
structure Hello1 where
  typ     : Nat
  protect : Nat
  session : Nat
  mss     : Nat
  w       : Nat
  ticket  : W64
  nonce   : List Byte
  x25519  : List Byte
  mlkem   : List Byte
  wellSized : Bool
  deriving DecidableEq, Repr

/-- An acknowledgement body (R330). -/
structure AckBody where
  largest     : Nat
  delay       : Nat
  ceCount     : W32
  creditLimit : W32
  ranges      : List (Nat × Nat)
  deriving DecidableEq, Repr

/-- The fields of a received Taosh segment packet that the transport reads (R326). -/
structure Segment where
  version : Nat
  cls     : Nat
  phase   : Bool
  first   : Bool
  last    : Bool
  sealed  : Bool
  session : Nat
  pn      : Nat
  msn     : Nat
  offset  : Nat
  mlen    : Nat
  rsvZero : Bool
  ce      : Bool
  payload : List Byte
  deriving DecidableEq, Repr

/-- What a packet that is not valid Taosh is (R323, R325, R327). -/
inductive BadPacket where
  | notTaosh
  | pauseOrTagged
  | badHeader
  deriving DecidableEq, Repr

/-- Which neighbour question arrives (R325). -/
inductive Neighbor where
  | arp (ip : W32)
  | nd (ip : BitVec 128)
  | echo4 (ident : Nat) (body : List Byte)
  | echo6 (ident : Nat) (body : List Byte)
  deriving DecidableEq, Repr

/-- A Quoin packet (R369) with its data. -/
structure Packet where
  typ      : Nat
  reissue  : Bool
  ossel    : Bool
  origin   : Bool
  rdir     : Bool
  rdim     : Nat
  rvcHi    : Bool
  rsvZero  : Bool
  dest     : Nat
  src      : Nat
  pseq     : Nat
  origLink : Nat
  op       : BitVec 4
  fmt      : BitVec 4
  len      : Nat
  jobTag   : W32
  addr     : W64
  tag      : W32
  status   : Status
  data     : List Byte
  deriving DecidableEq, Repr

/-- A flit header as received (R366), with the packets that its body completes. -/
structure Flit where
  kind    : Nat
  vc      : Nat
  seq     : Nat
  ack     : Nat
  cvc     : Nat
  credits : Nat
  packets : List Packet
  deriving DecidableEq, Repr

/-- What one start step reports (R435, R436, R444): the step, whether it failed, its status, its end time,
and the units it names (chases, pseudo-channels or links). -/
structure StepReport where
  step   : Nat
  failed : Bool
  status : Status
  endMs  : Nat
  units  : List Nat
  /-- Step 13: pseudo-channels and lanes that fail to train (R291). -/
  lanes  : List (Nat × Nat) := []
  deriving DecidableEq, Repr

/-- The JTAG instructions that the levels of R421 and the condition of R489 tell apart. -/
inductive JtagOp where
  | bypass | idcode | samplePreload | extest | otherDrive | scanChains | selfTest | fuseProgram | debugAccess
  deriving DecidableEq, Repr

/-- A firmware image header (R414) with what the security engine found of it. -/
structure ImageFacts where
  magic   : W32
  kind    : Nat
  svn     : Nat
  version : W64
  digest  : List Byte
  body    : List Byte
  edPub   : List Byte
  mlPub   : List Byte
  edSig   : List Byte
  mlSig   : List Byte
  header  : List Byte
  rsvZero : Bool
  deriving DecidableEq, Repr

/-- One command, event or operation of the device, one constructor for each row of the opcode table. -/
inductive Instr where
  -- control space (R4 to R8, R30)
  | registerWrite (path : RegPath) (addr : Nat) (v : W64)
  | controlAccessMisaligned (write : Bool) (addr size : Nat)
  | unmappedAccess (write : Bool) (addr : Nat)
  | readClear (path : RegPath) (addr : Nat) (event : Option Nat)
  -- formes and takes
  | formeInstall (r : MReq) (body : List Byte)
  | formeRelease (r : MReq)
  | imposerSplit (queue : Nat)
  | subtakeComplete (press : Nat)
  | fencePublish (queue seq : Nat)
  | deviceIdSet (r : MReq)
  | mgmtUnset (path : RegPath)
  | map (r : MReq)
  | unmap (r : MReq)
  | protect (r : MReq)
  | unmapComplete (idx : Nat)
  | asyncFault (press : Nat) (status : Status) (slot : BitVec 3) (pc va : W64)
  | partitionReset (r : MReq)
  -- scalar slots (R79 to R84)
  | scalarNop (l : Line) (slot : ScalarSlot) (rest : BitVec 25)
  | alu (l : Line) (a : FormA)
  | addi (l : Line) (b : FormB)
  | andi (l : Line) (b : FormB)
  | ori (l : Line) (b : FormB)
  | xori (l : Line) (b : FormB)
  | slli (l : Line) (b : FormB)
  | srli (l : Line) (b : FormB)
  | srai (l : Line) (b : FormB)
  | slti (l : Line) (b : FormB)
  | lis (l : Line) (b : FormB)
  | lb (l : Line) (b : FormB)
  | lh (l : Line) (b : FormB)
  | lw (l : Line) (b : FormB)
  | ld (l : Line) (b : FormB)
  | lbu (l : Line) (b : FormB)
  | lhu (l : Line) (b : FormB)
  | lwu (l : Line) (b : FormB)
  | sb (l : Line) (c : FormS)
  | sh (l : Line) (c : FormS)
  | sw (l : Line) (c : FormS)
  | sd (l : Line) (c : FormS)
  | ldc (l : Line) (b : FormB)
  | stc (l : Line) (c : FormS)
  | cmp (l : Line) (a : FormA)
  | plog (l : Line) (a : FormA)
  | pget (l : Line) (a : FormA)
  | pset (l : Line) (a : FormA)
  | fadd (l : Line) (a : FormA)
  | fsub (l : Line) (a : FormA)
  | fmul (l : Line) (a : FormA)
  | fdiv (l : Line) (a : FormA)
  | fsqrt (l : Line) (a : FormA)
  | fmin (l : Line) (a : FormA)
  | fmax (l : Line) (a : FormA)
  | fcmp (l : Line) (a : FormA)
  | fcvt (l : Line) (hi : Bool) (a : FormA)
  | bnz (l : Line) (b : FormB)
  | bz (l : Line) (b : FormB)
  | jal (l : Line) (b : FormB)
  | jalr (l : Line) (b : FormB)
  | rdcsr (l : Line) (b : FormB)
  | wrcsr (l : Line) (b : FormB)
  | tset (l : Line) (b : FormB)
  | tget (l : Line) (b : FormB)
  -- tensor-move slot (R88)
  | tmNop (l : Line) (f : TmF)
  | copy (l : Line) (f : TmF)
  | dload (l : Line) (f : TmF)
  | dstore (l : Line) (f : TmF)
  | prefetch (l : Line) (f : TmF)
  | fill (l : Line) (f : TmF)
  | slugPack (l : Line) (f : TmF)
  | slugUnpack (l : Line) (f : TmF)
  | tmEngineStart (o : StartAt)
  -- platen slot (R89)
  | plNop (l : Line) (f : PlF)
  | wload (l : Line) (f : PlF)
  | mm (l : Line) (f : PlF)
  | drain (l : Line) (f : PlF)
  | tzero (l : Line) (f : PlF)
  | tfree (l : Line) (f : PlF)
  | tload (l : Line) (f : PlF)
  | platenStart (press : Nat) (corrupt : List (Nat × Nat × Nat × W32))
  -- roller slot
  | elementWiseArithmetic (l : Line) (f : RlF)
  | transcendental (l : Line) (f : RlF)
  | conversion (l : Line) (f : RlF)
  | comparison (l : Line) (f : RlF)
  | reduction (l : Line) (f : RlF)
  | scan (l : Line) (f : RlF)
  | segmentedScan (l : Line) (f : RlF)
  | permutationGather (l : Line) (f : RlF)
  | rollerStart (press : Nat)
  | operationComplete (press : Nat) (e : Engine) (idx : Nat)
  -- control slot (R91)
  | ctNop (l : Line) (f : CtF)
  | br (l : Line) (f : CtF)
  | brx (l : Line) (f : CtF)
  | call (l : Line) (f : CtF)
  | dbnz (l : Line) (f : CtF)
  | fence (l : Line) (f : CtF)
  | cbarinit (l : Line) (f : CtF)
  | cbar (l : Line) (f : CtF)
  | wcinit (l : Line) (f : CtF)
  | wcfa (l : Line) (f : CtF)
  | fbar (l : Line) (f : CtF)
  | rsignal (l : Line) (f : CtF)
  | rwait (l : Line) (f : CtF)
  | popen (l : Line) (f : CtF)
  | pcommit (l : Line) (f : CtF)
  | preject (l : Line) (f : CtF)
  | endTake (l : Line) (f : CtF)
  | proofCommitEngine (chase region : Nat)
  | proofRejectEngine (chase region : Nat)
  -- kern pipeline (R162 to R188)
  | kernOpen (l : Line) (f : CtF)
  | kernAppend (l : Line) (f : CtF)
  | kernAttend (l : Line) (f : CtF)
  | kernFork (l : Line) (f : CtF)
  | kernTruncate (l : Line) (f : CtF)
  | kernRelease (l : Line) (f : CtF)
  | kernExecute (press idx : Nat)
  | attendExecute (press : Nat) (o : StartAt)
  -- galley unit (R189 to R212)
  | galleyCreate (l : Line) (f : CtF)
  | galleyStick (l : Line) (f : CtF)
  | galleyFork (l : Line) (f : CtF)
  | galleyReset (l : Line) (f : CtF)
  | galleyLoad (l : Line) (f : CtF)
  | galleyStore (l : Line) (f : CtF)
  | galleySwapOut (l : Line) (f : CtF)
  | galleySwapIn (l : Line) (f : CtF)
  | galleyRelease (l : Line) (f : CtF)
  | galleyQuery (l : Line) (f : CtF)
  | galleyExecute (press idx : Nat)
  | stickExecute (press : Nat) (o : StartAt)
  | swapOutEnd (stream : Nat)
  | swapInEnd (stream : Nat) (slotGood : Bool)
  | runtimeSwapOut (r : MReq)
  | runtimeSwapIn (r : MReq)
  | autoswapDisable (r : MReq)
  | autoswapEnable (r : MReq)
  | runtimeReset (r : MReq)
  | runtimeLoad (r : MReq)
  -- placement and streaming (R251 to R271)
  | poisonRepair (entry : Nat) (good : Bool)
  | placementEpoch (part : Nat)
  | pageMoveComplete (entry : Nat) (used : Nat) (good : Bool)
  | placeRegister (r : MReq)
  | placeEnd (r : MReq)
  | placePin (r : MReq)
  | migrate (r : MReq)
  | streamJobCreate (r : MReq)
  | streamJobEnd (r : MReq)
  /-- `entry` is the library entry that the device takes where it is free (R264; log 44). -/
  | modelLoad (r : MReq) (entry : Nat)
  | modelUnload (r : MReq)
  | tableset (r : MReq)
  -- HBM (R272 to R297)
  | memoryAtomic (src : AtomSrc) (pa : Nat) (body : AtomBody) (ecc : Ecc)
  | regulatorAdmit (part : Nat) (src : ReqSrc) (q : HbmReq) (cycles served : Nat)
  | hbmPatrol (pc addr : Nat) (ecc : Ecc)
  /-- The pseudo-channel `k` of a stack, 0 to 63 (R272, R292). -/
  | hbmRetrainWindow (stack k : Nat)
  | hbmRegWrite (path : RegPath) (p : Nat) (v : W64)
  | hbmLoopbackStart (r : MReq)
  | hbmLoopbackEnd (pass : Bool) (signature : W32)
  -- scheduling (R298 to R321)
  | contextCreate (r : MReq)
  | contextDestroy (r : MReq)
  | teardownComplete (ctx : Nat)
  | preemptSave (press : Nat) (cycles : Nat)
  | pressDispatch (press : Nat)
  | longopSuspend (r : MReq)
  | longopResume (r : MReq)
  | longopCancel (r : MReq)
  | longopStop (handle : Nat) (defects : List (Nat × Nat))
  -- port and Taosh (R322 to R362)
  | portLinkChange (up : Bool)
  | portFallback
  | neighborRequest (q : Neighbor)
  | packetDiscard (why : BadPacket)
  | ack (session pn : Nat) (a : AckBody)
  | submit (session queue : Nat) (headZero : Bool) (descs : List (List W64))
  | readBuf (session : Nat) (reqId : W32) (buf genReq offset length : Nat)
  | readMem (session : Nat) (reqId : W32) (ctx vaddr length : Nat)
  | release (session : Nat) (reqId : W32) (buf gen : Nat)
  | writeMem (session : Nat) (reqId : W32) (ctx addr : Nat) (data : List Byte)
  | writeAck (session : Nat) (reqId : W32) (status : Status)
  | pullResp (session : Nat) (reqId : W32) (status : Status) (data : List Byte)
  | hello1 (h : Hello1)
  | hello3 (session : Nat) (finished edSig mlSig : List Byte)
  | helloTimeout (session : Nat)
  | retransmitTimeout (session : Nat)
  | sessionFail (session : Nat)
  | ackTimer (session : Nat)
  | cwndUpdate (session acked marked : Nat)
  | segmentSend (session : Nat)
  | keyUpdate (session : Nat)
  | ticketIssue (r : MReq)
  | ticketRevoke (r : MReq)
  | colophon (r : MReq) (nonce : List Byte)
  | fwStage (r : MReq) (slot : Nat) (img : ImageFacts)
  | fwActivate (r : MReq) (slot : Nat)
  | svnCommit (r : MReq)
  | tokenOverride (r : MReq)
  | tokenReturn (r : MReq)
  | tokenRedeploy (r : MReq)
  | tokenDecommission (r : MReq)
  | tokenDebug (r : MReq)
  | provision (ownerEd ownerMl : List Byte)
  | scrub (r : MReq)
  | bist (r : MReq)
  | telemetry (r : MReq)
  | regRead (r : MReq)
  | regWrite (r : MReq)
  | ledgerRead (r : MReq)
  | netConfig (r : MReq)
  | linkRetrain (r : MReq)
  | queueCreate (r : MReq)
  | queueDestroy (r : MReq)
  | queueBind (r : MReq)
  | bufRegister (r : MReq)
  | bufUnregister (r : MReq)
  | hostwinMap (r : MReq)
  | echo (r : MReq) (body : List Byte)
  | close (r : MReq)
  | ethLoopbackStart (r : MReq)
  | ethLoopbackEnd (errors : W32)
  | taoshCcCfgWrite (path : RegPath) (v : W64)
  -- Quoin (R363 to R398)
  | flitReceive (link : Nat) (f : Flit) (crcGood : Bool)
  | nak (link ack : Nat)
  | rdReq (link : Nat) (p : Packet)
  | rdResp (link : Nat) (p : Packet)
  | wr (link : Nat) (p : Packet)
  | wrAck (link : Nat) (p : Packet)
  | atom (link : Nat) (p : Packet)
  | atomAck (link : Nat) (p : Packet)
  | coll (link : Nat) (p : Packet)
  | collCtl (link : Nat) (p : Packet)
  | requestTimeout (tag : W32)
  | collectiveChunkTimeout (handle : Nat)
  | fecLockLoss (link : Nat)
  | retrainComplete (link : Nat) (good : Bool) (peerId peerLink peerDim : Nat) (peerDir : Bool)
  | quoinTopoWrite (path : RegPath) (v : W64)
  | quoinLinkCfgWrite (path : RegPath) (link : Nat) (v : W64)
  | quoinCfgWrite (path : RegPath) (v : W64)
  | quoinLoopbackStart (r : MReq)
  | quoinLoopbackEnd (errors : W32)
  | doorbell (ctx : Nat)
  | collective (ctx : Nat)
  | updSet (ctx : Nat)
  | updFreeze (ctx : Nat)
  | updClear (ctx : Nat)
  -- conservation (R399 to R410)
  | auditSnap (path : RegPath) (v : W64)
  | auditWalk (path : RegPath) (v : W64)
  | auditDone
  -- start-up and reliability (R435 to R456)
  | deviceStart (steps : List StepReport) (upto : Nat)
  | stepTimeout (step : Nat)
  | bootSkipWrite (path : RegPath) (v : W64)
  | bootAltWrite (path : RegPath) (v : W64)
  | clearFails (path : RegPath)
  | restart (path : RegPath)
  | suspectClear (path : RegPath) (k : Nat) (v : W64)
  | fatalError (cause : Nat) (status : Status) (locKind loc : Nat)
  -- power and pins (R457 to R466, R478 to R490)
  | inputSag (centivolts : Nat)
  | surge (centivolts : Nat)
  | overvolt (centivolts : Nat)
  | currentClamp
  | sagRelease (centivolts : Nat)
  | dropout
  | inputRestore (centivolts : Nat)
  | bulkUndervoltage
  | throttleInAssert
  | throttleInDeassert
  | throttleRelease
  | thermalSample (temps : List (BitVec 16)) (held10ms : Bool)
  | pwrCapWrite (path : RegPath) (v : W64)
  | placeCfgWrite (path : RegPath) (addr : Nat) (v : W64)
  | resetNAssert
  | resetNDeassert (steps : List StepReport) (upto : Nat)
  | i3cPointerWrite (bytes : List Byte)
  | i3cRegisterWrite (bytes : List Byte)
  | i3cRead
  | i3cDynamicAddress (addr : BitVec 7)
  | jtagInstruction (ir : JtagOp)
  | jtagTrst
  -- rows that stand at the table's end
  | segmentReceive (g : Segment) (authGood : Bool)
  | retrainingWindowEnd (pc : Nat) (failed : Bool)
  | oldKeyExpiry (session : Nat)
  deriving DecidableEq, Repr

end Sys2Proof
end

