-- ==== Sys2Proof/Config.lean ====
section
/-! DEFINITION. What the manual leaves open, as constants without a body: free values, free choices, the results of
functions given only to an accuracy, and the cryptographic functions, which the manual names by their standards. -/

namespace Sys2Proof.Config

/-- Free word number `n`: a value that no rule fixes, such as a cycle count (R12, R321) [log 3]. -/
opaque freeWord : Nat → W64
/-- Free choice number `n`: which of several allowed orders or assignments the device takes (R71, R86, R495) [log 3]. -/
opaque pick : Nat → Nat
/-- Which result a transcendental function takes where R148 gives it only to an accuracy: function code, FP64 compute,
argument pattern [log 10]. -/
opaque transcendental : Nat → Bool → Nat → Nat
/-- Which values the cosine and the sine of a rotary angle take (R182): base, offset position, pair, dimension [log 10]. -/
opaque rotary : W32 → Int → Nat → Nat → Nat × Nat
/-- Code lengths that SLUG_PACK's build chooses among equal minima (R247): counts of the 256 byte values [log 11]. -/
opaque codeLengths : List Nat → List Nat
/-- A value that an integer conversion, division or other operation leaves without a stated result, by its
operands [log 12]. -/
opaque unstated : Nat → Nat → Nat → Nat

/-- SHA-384 (FIPS 180-4) [log 13]. -/
opaque sha384 : List Byte → List Byte
/-- Ed25519 verification (RFC 8032): key, message, signature [log 13]. -/
opaque edVerify : List Byte → List Byte → List Byte → Bool
/-- ML-DSA-65 verification (FIPS 204): key, message, signature [log 13]. -/
opaque mlVerify : List Byte → List Byte → List Byte → Bool
/-- The device's Ed25519 and ML-DSA-65 signatures (R412) over a message [log 13]. -/
opaque edSign : List Byte → List Byte
opaque mlSign : List Byte → List Byte
/-- The public identity keys of the device (R412): Ed25519 then ML-DSA-65 [log 13]. -/
opaque identityKeys : List Byte
/-- HKDF-Extract and HKDF-Expand with SHA-384 (RFC 5869): salt and input; secret, label and length [log 13]. -/
opaque hkdfExtract : List Byte → List Byte → List Byte
opaque hkdfExpand : List Byte → List Byte → Nat → List Byte
/-- HMAC-SHA-384 [log 13]. -/
opaque hmac : List Byte → List Byte → List Byte
/-- The X25519 and ML-KEM-768 shared secrets from the peer's public values and the device's draw [log 13]. -/
opaque x25519 : List Byte → Nat → List Byte
opaque mlkem : List Byte → Nat → List Byte
/-- The device's X25519 public key and ML-KEM ciphertext for a draw [log 13]. -/
opaque x25519Pub : Nat → List Byte
opaque mlkemCt : List Byte → Nat → List Byte
/-- `n` bytes of the DRBG for a draw (R427) [log 13]. -/
opaque drbg : Nat → Nat → List Byte
/-- AES-256-GCM: ciphertext with its tag, from key, nonce, associated data and plain text; the tag alone where nothing is
encrypted (R328); and the plain text of a ciphertext with its tag, none where the tag fails [log 13]. -/
opaque gcmSeal : List Byte → List Byte → List Byte → List Byte → List Byte
opaque gcmTag : List Byte → List Byte → List Byte → List Byte
opaque gcmOpen : List Byte → List Byte → List Byte → List Byte → Option (List Byte)
/-- XTS-AES-256 of a sector and its inverse (R288): key set, its generation, data-unit number, bytes [log 13]. -/
opaque xtsEncrypt : Nat → W64 → Nat → List Byte → List Byte
opaque xtsDecrypt : Nat → W64 → Nat → List Byte → List Byte
/-- AES-256-CMAC under the integrity key of a key set (R289): key set, its generation, message [log 13]. -/
opaque cmac : Nat → W64 → List Byte → BitVec 128
/-- Digest of the contents of the boot ROM of a stepping (R415) [log 13]. -/
opaque romDigest : Nat → List Byte

end Sys2Proof.Config
end

