-- ==== Sys2Proof/Machine/Units.lean ====
section
/-! DEFINITION. The pieces of state of the ZH-M8, one structure per unit. Every field has its reset value beside it.
A field whose docstring carries a mark rests on the log entry named in it; every other reset value is the spec's, or
is the empty content of a table that holds nothing at reset. Sparse arrays list only the entries that differ from the
default of their kind, in rising order. -/

namespace Sys2Proof.Machine

/-- A sparse array: rising keys, no entry equal to the default of its kind. -/
abbrev Map (α : Type) := List (Nat × α)

/-! ### Presses -/

/-- The kinds of operation that the tensor-move engine performs (R88). -/
inductive TmKind where
  | copy | dload | dstore | prefetch | fill | slugPack | slugUnpack
  deriving DecidableEq, Repr

/-- An entry of the tensor-move queue, as captured at issue (R76, R88). -/
structure TmOp where
  kind    : TmKind := .copy
  td      : Desc := 0
  ts      : Desc := 0
  tdList  : List W64 := []
  tsList  : List W64 := []
  nc      : BitVec 4 := 0
  offA    : W64 := 0
  offB    : W64 := 0
  imm     : W64 := 0
  /-- The descriptor register that a DLOAD writes. -/
  treg    : Nat := 0
  discard : Bool := false
  mark    : Option Nat := none
  pc      : W64 := 0
  /-- The 4 KiB pieces of its writes after which it stops, and the writes that remain when it has stopped there (R307). -/
  cut     : Option Nat := none
  left    : List (W64 × List Byte) := []
  /-- Requests outstanding for it, and the bytes that have landed, by virtual address (R375, R352). -/
  need    : Nat := 0
  asked   : Bool := false
  got     : Map Byte := []
  done    : Bool := false
  /-- Issued inside the press's open region (R217). -/
  prov    : Bool := false
  /-- The Line that issued it, counted by RETIRED (R68). -/
  line    : Nat := 0
  deriving DecidableEq, Repr

/-- The kinds of platen operation (R89). -/
inductive PlKind where
  | nop | wload | mm | drain | tzero | tfree | tload
  deriving DecidableEq, Repr

/-- The tag of a bound tile (R107). -/
inductive TileTag where
  | unset | fp32 | int32
  deriving DecidableEq, Repr

/-- The record of the resident weight window (R102). -/
structure WRec where
  fmt  : Nat := 0
  mx   : Bool := false
  axis : Nat := 0
  kExt : Nat := 0
  nExt : Nat := 0
  part : Nat := 0
  deriving DecidableEq, Repr

/-- An entry of the platen queue, as captured at issue (R76, R89). `tags` holds the type that each tile had before it,
`tiles` the tile numbers, by platen and handle step, and `wrec` the record it was checked against. -/
structure PlOp where
  kind  : PlKind := .nop
  tr    : Bool := false
  acc   : Bool := false
  plat  : BitVec 4 := 0
  ta    : List Desc := []
  tw    : Desc := 0
  tile  : Nat := 0
  tiles : List (List Nat) := []
  fresh : List (List Bool) := []
  tags  : List (List TileTag) := []
  nc    : BitVec 4 := 0
  pm    : Pred := 0
  chk   : Bool := false
  pass  : Nat := 0
  wrec  : WRec := {}
  mark  : Option Nat := none
  pc    : W64 := 0
  line  : Nat := 0
  deriving DecidableEq, Repr

/-- An entry of the roller queue, as captured at issue (R76, R142, R143). -/
structure RlOp where
  cls    : Nat := 0
  fn     : Nat := 0
  td     : Desc := 0
  ta     : Desc := 0
  tb     : Desc := 0
  scalar : W64 := 0
  swidth : Nat := 64
  mask   : Pred := 0
  pd     : Nat := 0
  pdVal  : Pred := 0
  n      : Nat := 0
  nc     : BitVec 4 := 0
  bc     : Bool := false
  bcax   : Bool := false
  mark   : Option Nat := none
  pc     : W64 := 0
  line   : Nat := 0
  deriving DecidableEq, Repr

/-- A kern stream (R167 to R169). -/
structure KStream where
  ctx    : Nat := 0
  part   : Nat := 0
  kfmt   : Nat := 0
  kmx    : Bool := false
  vfmt   : Nat := 0
  vmx    : Bool := false
  folio  : Nat := 0
  hkv    : Nat := 0
  dk     : Nat := 0
  dv     : Nat := 0
  ropeBase : W32 := 0
  ropeOff  : W32 := 0
  len    : Nat := 0
  root   : Nat := 0
  /-- Chase and region to which the stream is bound (R219). -/
  bound  : Option (Nat × Nat) := none
  deriving DecidableEq, Repr

/-- Residency of a galley stream (R204). -/
inductive Resid where
  | resident | swappingOut | swapped | swappingIn
  deriving DecidableEq, Repr

/-- The running maximum, sum and accumulators of a row of an ATTEND that has stopped, as FP32 patterns, with the
conditions that it has met (R186). -/
structure AttendRow where
  m  : W32 := 0
  l  : W32 := 0
  o  : List W32 := []
  fl : BitVec 8 := 0
  deriving DecidableEq, Repr

/-- What the runtime has asked of a galley stream that does not stand between two commands (R205, R209). -/
inductive GAct where
  | swapOut
  | reset
  | load (vals : Map Nat)
  deriving DecidableEq, Repr

/-- A kern command between acceptance and completion (R164, R165). `len` is the stream's length before it, `stm` the
stream as it stood after, `new` a stream that it made, `value` the VALUE of its result record, `copies` the folios to
copy first (R172), `slots` the folio and slot of each position it writes, `keys` the data folios that an ATTEND reads, in
position order, `descs` the descriptors read at acceptance, `rows` the progress of an ATTEND that has stopped, `next` the key
at which it goes on and `free` where its free choices begin (R186). -/
structure KernCmd where
  words  : List W64 := []
  op     : Nat := 0
  stream : Nat := 0
  new    : Option Nat := none
  stm    : KStream := {}
  len    : Nat := 0
  value  : W32 := 0
  copies : List (Nat × Nat) := []
  slots  : List (Nat × Nat) := []
  keys   : List Nat := []
  descs  : List Desc := []
  rows   : List AttendRow := []
  next   : Nat := 0
  free   : Nat := 0
  seq    : Nat := 0
  ctx    : Nat := 0
  mark   : Option Nat := none
  pc     : W64 := 0
  line   : Nat := 0
  deriving DecidableEq, Repr

/-- A galley command between acceptance and completion (R196, R197). `agen` is the generation recorded in a stick,
`descs` the descriptors read at acceptance, in the order U, A, R, Y, H or the one state descriptor, `part` the slices
that a stopped stick has finished and `free` where its free choices begin (R210). -/
structure GalleyCmd where
  words   : List W64 := []
  op      : Nat := 0
  stream  : Nat := 0
  new     : Nat := 0
  agen    : W32 := 0
  steps   : Nat := 0
  descs   : List Desc := []
  refused : Bool := false
  /-- Remote and host bytes asked for and landed, by virtual address. -/
  asked   : Bool := false
  got     : Map Byte := []
  part    : Option Nat := none
  free    : Nat := 0
  seq     : Nat := 0
  ctx     : Nat := 0
  region  : Option Nat := none
  mark    : Option Nat := none
  pc      : W64 := 0
  line    : Nat := 0
  deriving DecidableEq, Repr

/-- An entry of the shared control queue of a press (R87, R492). -/
inductive CtOp where
  | kern (c : KernCmd)
  | galley (c : GalleyCmd)
  | rsignal (va addend : W64) (mark : Option Nat) (pc : W64)
  deriving DecidableEq, Repr

/-- A scalar access that is stalled in memory (R83, R252, R348). -/
inductive Stalled where
  | load (va : W64) (size : Nat) (signed : Bool) (rd : Nat) (prov : Bool) (pc : W64) (slot : Nat)
  | store (va : W64) (size : Nat) (v : W64) (prov : Bool) (pc : W64) (slot : Nat)
  deriving DecidableEq, Repr

/-- What a press waits for after a Line has issued (R91, R93, R227, R229). -/
inductive Hold where
  | none
  | fence
  | cbar (k : Nat)
  | cbarWait (k : Nat)
  | fbar (h : Nat) (xd : Nat)
  | fbarWait (h : Nat) (xd : Nat)
  | rwait (xd : Nat)
  | commit (r : Nat)
  | reject (r : Nat)
  | ending
  deriving DecidableEq, Repr

/-- A word that a waiting RWAIT watches (R96). -/
structure Watch where
  va     : W64 := 0
  /-- Address of the RWAIT's Line. -/
  pc     : W64 := 0
  thresh : W64 := 0
  forme  : Nat := 0
  met    : Bool := false
  deriving DecidableEq, Repr

/-- A bound handle of one platen: its tile and its tag (R107, R109). -/
structure Bind where
  tile    : Nat := 0
  tag     : TileTag := .unset
  deriving DecidableEq, Repr

/-- The proofing sums of a tile: validity, sums and bounds by row and by column (R125). -/
structure TileSum where
  chkOk   : Bool := true
  rowSum  : Map W32 := []
  colSum  : Map W32 := []
  rowBnd  : Map W32 := []
  colBnd  : Map W32 := []
  deriving DecidableEq, Repr

/-- The fault registers of a press (R98). -/
structure FaultRec where
  /-- PRESS.FAULT_INFO.VALID (R98). -/
  valid  : Bool := false
  /-- PRESS.FAULT_INFO.ASYNC (R98). -/
  async  : Bool := false
  /-- PRESS.FAULT_INFO.STATUS (R98). -/
  status : Status := 0
  /-- PRESS.FAULT_INFO.SLOT (R98). -/
  slot   : BitVec 3 := 0
  /-- PRESS.FAULT_PC (R98). -/
  pc     : W64 := 0
  /-- PRESS.FAULT_VA (R98). -/
  va     : W64 := 0
  deriving DecidableEq, Repr

/-- The press state of one context on one press, without its case and tympans (R304). -/
structure PressCtx where
  /-- Program counter: the byte address of the current Line (R73) [log 2]. -/
  pc        : W64 := 0
  /-- Scalar registers x1 to x63, 64 bits each; x0 reads zero (R75) [log 2]. -/
  x         : Map W64 := []
  /-- Tensor-descriptor registers t0 to t31, 512 bits each (R75) [log 2]. -/
  t         : Map Desc := []
  /-- Predicate registers p1 to p15, 16,384 bits each; p0 reads ones (R75) [log 2]. -/
  p         : Map Pred := []
  /-- Pending counts of marks m0 to m15 (R85) [log 2]. -/
  marks     : Map Nat := []
  /-- Tensor-move queue, depth 8 (R87). -/
  tmq       : List TmOp := []
  /-- Tensor moves that run, at most 8 (R492). -/
  tmRun     : List TmOp := []
  /-- Platen queue, depth 8 (R87). -/
  plq       : List PlOp := []
  /-- The platen operations that run (R113). -/
  plRun     : List PlOp := []
  /-- Roller queue, depth 8 (R87). -/
  rlq       : List RlOp := []
  /-- The roller operation that runs (R161). -/
  rlRun     : List RlOp := []
  /-- Shared control queue, depth 8 (R87, R492). -/
  ctq       : List CtOp := []
  /-- Control operations that have left the queue and have not completed (R492). -/
  ctRun     : List CtOp := []
  /-- Record of the resident weight window as of the last issued WLOAD (R102). -/
  wrec      : Option WRec := none
  /-- Record of the window that the sorts hold, as of the last performed WLOAD (R102). -/
  wNow      : Option WRec := none
  /-- Weights in the sorts, as bit patterns of the record's format, by row × 64 + column (R102). -/
  weights   : Map Nat := []
  /-- Scale codes of block-scaled weights, by block (R102, R66). -/
  wscales   : Map Nat := []
  /-- Checksum sorts: the sum of each weight row, and of its magnitudes, as bit patterns (R125). -/
  wSum      : Map W32 := []
  wAbs      : Map W32 := []
  /-- Handle bindings, by platen × 64 + handle (R109). -/
  binds     : Map Bind := []
  /-- Proofing sums, by platen × 16 + tile (R125). -/
  tsums     : Map TileSum := []
  /-- Claim drop latch (R124). -/
  dropLatch : Bool := false
  /-- A duplicate claim was made by this sub-take (R124). -/
  dupSeen   : Bool := false
  /-- PRESS.NUM_STATUS, 8 bits (R68). -/
  numStatus : BitVec 8 := 0
  /-- PRESS.NUM_COUNT[0..7], 32 bits each (R68). -/
  numCount  : Map W32 := []
  /-- Conditions already counted for a Line, by its number, while work of it is outstanding (R68). -/
  raised    : Map (BitVec 8) := []
  /-- PRESS.SR_SEED, 64 bits (R57). -/
  srSeed    : W64 := 1
  /-- Fault registers FAULT_PC, FAULT_INFO, FAULT_VA (R98). -/
  fault     : FaultRec := {}
  /-- PRESS.PROOF_STATUS.MISMATCH (R127). -/
  proofMis  : Bool := false
  /-- PRESS.PROOF_COUNT, 32 bits (R127). -/
  proofCnt  : W32 := 0
  /-- PRESS.PROOF_LOC, 64 bits (R127). -/
  proofLoc  : W64 := 0
  /-- PRESS.ROLLER_STATUS.RANGE (R160). -/
  rlRange   : Bool := false
  /-- PRESS.ROLLER_COUNT, 32 bits (R160). -/
  rlCount   : W32 := 0
  /-- PRESS.PROOF_REGION: the open region, if any (R233). -/
  region    : Option Nat := none
  /-- PRESS.SLUG_STAT.BLOCKS, 32 bits (R250). -/
  slugBlk   : W32 := 0
  /-- PRESS.SLUG_STAT.RAW, 32 bits (R250). -/
  slugRaw   : W32 := 0
  /-- State register RETIRED: Lines issued (R84). -/
  retired   : W64 := 0
  /-- Accesses stalled in memory (R83, R310). -/
  stall     : List Stalled := []
  /-- What the press waits for (R91). -/
  hold      : Hold := .none
  /-- The word that a waiting RWAIT watches (R96). -/
  watch     : Option Watch := none
  /-- The Line that could not issue, as its slot commands (R78) [log 5]. -/
  held      : List Instr := []
  /-- Bytes of pointer lists on remote and host pages that the waiting Line has read, by virtual address, and whether it
  has asked for them (R119). -/
  lists     : Map Byte := []
  listAsked : Bool := false
  /-- The sub-take in progress, by its number (R342). -/
  sub       : Option Nat := none
  deriving DecidableEq, Repr

/-- What a press does (SCHED.PRESS_STATE.STATE, R303 to R307). -/
inductive PressSt where
  | idle | running | saving | restoring | zeroizing | parking
  deriving DecidableEq, Repr

/-- A save slot: the owner and its press state, with its case and tympans (R304, R309, R310). -/
structure Slot where
  ctx     : Nat := 0
  st      : PressCtx := {}
  cells   : List Host.Cell := []
  /-- Landing table: how often each status bit was set by completions while saved (R310). -/
  landing : Map W32 := []
  deriving DecidableEq, Repr

/-- One press (R74, R303, R309). -/
structure Press where
  /-- SCHED.PRESS_STATE.STATE (R303). -/
  st       : PressSt := .idle
  /-- SCHED.PRESS_STATE.RUN_CTX with RUN_VALID (R303). -/
  run      : Option Nat := none
  /-- The state of the context on the press (R304). -/
  cur      : PressCtx := {}
  /-- Save slot A: the parked state of the reserving context (R309). -/
  slotA    : Option Slot := none
  /-- Save slot B: one pre-empted best-effort context (R309). -/
  slotB    : Option Slot := none
  /-- A pre-emption request is latched (R306, R307). -/
  preempt  : Bool := false
  /-- Slot commands of the Line being gathered (R73) [log 5]. -/
  gathered : List Instr := []
  deriving DecidableEq, Repr

/-- One compositor (R75, R82): registers, local memory of 64 KiB, program counter, the context it runs. -/
structure Comp where
  /-- Program counter of the compositor (R82) [log 2]. -/
  pc    : W64 := 0
  /-- x1 to x63 (R75) [log 2]. -/
  x     : Map W64 := []
  /-- p1 to p15, 64 bits each (R75) [log 2]. -/
  p     : Map W64 := []
  /-- Local memory, 64 KiB (R79) [log 2]. -/
  lmem  : List Host.Cell := []
  /-- Context it runs (R84) [log 6]. -/
  ctx   : Nat := 0
  /-- A fault has stopped it (R97) [log 6]. -/
  fault : FaultRec := {}
  /-- Its stalled access (R83). -/
  stall : List Stalled := []
  deriving DecidableEq, Repr

/-! ### Chases: barriers, counters, proof regions, cabinet -/

/-- A chase barrier (R92, R93). -/
structure Barrier where
  ctx     : Option Nat := none
  expect  : Nat := 0
  arrived : List Nat := []
  deriving DecidableEq, Repr

/-- A work counter with its claim bitmap of 4,096 bits (R94, R122, R123). -/
structure WorkCounter where
  ctx    : Option Nat := none
  value  : W64 := 0
  claim  : Bool := false
  bitmap : BitVec 4096 := 0
  dups   : W32 := 0
  deriving DecidableEq, Repr

/-- A proof-queue entry, with the Line and slot that queued it (R98, R217, R220); an RSIGNAL stands in the CT slot. A write
has its place from the issue of its Line, by RETIRED; its data follows. -/
inductive Queued where
  | write (ctx page : Nat) (runs : List (W64 × List Byte)) (pc : W64) (slot line : Nat)
  | signal (ctx : Nat) (va addend : W64) (pc : W64)
  deriving DecidableEq, Repr

/-- A bound kern stream: its snapshot root and length; none for a stream born in the region (R219). -/
structure KBind where
  stream : Nat := 0
  snap   : Option (Nat × Nat) := none
  releasing : Bool := false
  deriving DecidableEq, Repr

/-- The snapshot of a bound galley stream (R219): state words, or RESET, and the fields it restores. -/
structure GSnap where
  reset : Bool := false
  vals  : Map Nat := []
  steps : W64 := 0
  err   : W32 := 0
  comp  : W32 := 0
  deriving DecidableEq, Repr

/-- A bound galley stream (R219). `pages` are the proof pages its snapshot takes. -/
structure GBind where
  stream : Nat := 0
  born   : Bool := false
  pages  : Nat := 0
  snap   : Option GSnap := none
  releasing : Bool := false
  deriving DecidableEq, Repr

/-- How far a proof region has come (R227, R229): `copying` from step 2 of R227 to step 5, `issuing` in steps 6 and 7. -/
inductive RegSt where
  | opened | committing | rejecting | copying | issuing
  deriving DecidableEq, Repr

/-- A proof region (R213 to R220). -/
structure Region where
  press    : Nat := 0
  ctx      : Nat := 0
  /-- The partition whose pools it draws on (R214, R215). -/
  part     : Nat := 0
  branch   : W32 := 0
  depth    : Nat := 0
  frames   : Nat := 0
  kMax     : Nat := 0
  gMax     : Nat := 0
  kFolios  : Nat := 0
  pages    : Nat := 0
  used     : Nat := 0
  homes    : List Nat := []
  /-- Proof-queue entries taken at issue (R220). -/
  entries  : Nat := 0
  shadow   : Map (List Byte) := []
  queue    : List Queued := []
  kBound   : List KBind := []
  gBound   : List GBind := []
  st       : RegSt := .opened
  deriving DecidableEq, Repr

/-- A cabinet line (R236, R237): the address of a line of local HBM, its place in the order of use, and whether it is dirty. -/
structure CabLine where
  addr   : Nat := 0
  dirty  : Bool := false
  stamp  : Nat := 0
  deriving DecidableEq, Repr

/-- One chase (R92, R94, R216, R236). -/
structure Chase where
  /-- 16 barriers (R92). -/
  barriers : Map Barrier := []
  /-- 64 work counters (R94). -/
  counters : Map WorkCounter := []
  /-- 64 proof-region slots (R216). -/
  regions  : Map Region := []
  /-- Cabinet lines held (R236). -/
  cabinet  : List CabLine := []
  deriving DecidableEq, Repr

/-! ### Contexts, formes, takes -/

/-- Where a mapped page leads (R33, R35, R251, R352). -/
inductive Target where
  | frame (pa : Nat)
  | placed (entry : Nat)
  | remote (device pa : Nat)
  | host (window off : Nat)
  deriving DecidableEq, Repr

/-- A page-table entry that maps a page (R34). `own` marks a frame that MAP allocated (R33). -/
structure Page where
  rd   : Bool := false
  wr   : Bool := false
  ex   : Bool := false
  tgt  : Target := .frame 0
  own  : Bool := false
  deriving DecidableEq, Repr

/-- The state of a context number (R298). -/
inductive CtxSt where
  | free | active | teardown
  deriving DecidableEq, Repr

/-- An event record (R355). -/
structure Event where
  status : Status := 0
  ctx    : Nat := 0
  wide   : Bool := true
  count  : W32 := 0
  detail : W64 := 0
  cycle  : W64 := 0
  domain : Nat := 0
  deriving DecidableEq, Repr

/-- A context record (R298 to R300) with the pages its tables map (R31 to R34) and its held events (R355). -/
structure Ctx where
  /-- STATE (R298). -/
  st       : CtxSt := .free
  /-- CLASS: latency-critical (R301). -/
  critical : Bool := false
  /-- RETAIN (R301). -/
  retain   : Bool := false
  /-- PRIV (R277). -/
  priv     : Bool := false
  /-- PART (R299). -/
  part     : Nat := 0
  /-- JOB_TAG (R41). -/
  jobTag   : W32 := 0
  /-- ROOT: physical address of the first-level table (R33) [log 7]. -/
  root     : Nat := 0
  /-- RESV, 128 bits (R301). -/
  resv     : BitVec 128 := 0
  /-- END_STATUS (R314). -/
  endStatus : Status := 0
  /-- PREEMPTS, 32 bits (R306). -/
  preempts : W32 := 0
  /-- REMOTE_OUT, 32 bits (R300). -/
  remoteOut : Nat := 0
  /-- 64 KiB pages, by VA[47:16] (R33). -/
  pages    : Map Page := []
  /-- 2 MiB pages, by VA[47:21] (R33). -/
  large    : Map Page := []
  /-- Held event records, at most 256 (R355). -/
  events   : List Event := []
  /-- Records of its collectives held for want of an event session: status, items, whether the last (R381). -/
  heldLongs : List (Status × List (Nat × W64) × Bool) := []
  /-- The press that raised the first fault, for the completion record (R316). -/
  faultPress : Option Nat := none
  /-- The fault registers latched for the completion record (R316). -/
  fault    : FaultRec := {}
  deriving DecidableEq, Repr

/-- A member of a forme (R13, R14). -/
structure Member where
  isForme : Bool := false
  level   : Nat := 0
  index   : Nat := 0
  device  : Nat := 0
  deriving DecidableEq, Repr

/-- An installed forme descriptor (R16). -/
structure Forme where
  level   : Nat := 0
  ctx     : Nat := 0
  head    : Nat := 0
  jobTag  : W32 := 0
  members : List Member := []
  /-- R25 applies to this forme. -/
  lost    : Bool := false
  deriving DecidableEq, Repr

/-- Where a take stands (R18, R24, R343); `publishing` while its fence is to be published (R347). -/
inductive TakeSt where
  | queued | running | publishing | done
  deriving DecidableEq, Repr

/-- A take, from its acceptance to the end of its completion record (R340, R344). `ends` holds, per member in
the R19 order, the statuses of completed sub-takes; `left` counts the sub-takes outstanding. -/
structure Take where
  queue   : Nat := 0
  seq     : Nat := 0
  ctx     : Nat := 0
  marker  : Bool := false
  waitPrev : Bool := false
  forme   : Nat := 0
  entry   : W64 := 0
  descs   : List Desc := []
  window  : Option (List W64) := none
  granule : Nat := 0
  fence   : Option (Nat × Nat) := none
  arg     : W64 := 0
  user    : W64 := 0
  st      : TakeSt := .queued
  left    : Nat := 0
  ends    : Map Status := []
  status  : Status := 0
  faulted : Bool := false
  order   : Nat := 0
  /-- The completion record has not yet been sent (R17). -/
  unsent  : Bool := false
  deriving DecidableEq, Repr

/-- A sub-take on a press of this device (R20, R134, R342). `via` lists the formes it came through. -/
structure SubTake where
  take   : Nat := 0
  ctx    : Nat := 0
  press  : Nat := 0
  member : Nat := 0
  via    : List Nat := []
  descs  : List Desc := []
  arg    : W64 := 0
  entry  : W64 := 0
  window : Option (List W64) := none
  order  : Nat := 0
  started : Bool := false
  deriving DecidableEq, Repr

/-- A forme barrier with arrivals (R93, R95). -/
structure FBarrier where
  expect  : List Nat := []
  arrived : List Nat := []
  /-- Presses of other devices take part. -/
  remote  : Bool := false
  deriving DecidableEq, Repr

/-! ### Kern and galley -/

/-- A folio (R169 to R171): a data folio holds bytes, a root or list folio holds the numbers of its children. -/
structure Folio where
  part  : Nat := 0
  code  : Nat := 0
  refs  : Nat := 0
  kids  : Map Nat := []
  bytes : Map Byte := []
  /-- Frozen under R407. -/
  frozen : Bool := false
  deriving DecidableEq, Repr

/-- A galley table entry (R193 to R195). Sets and slots stand by their numbers. -/
structure GEntry where
  cur     : Option Nat := none
  spare   : Option Nat := none
  slot    : Option Nat := none
  chans   : Nat := 1
  elems   : Nat := 1
  blk     : Nat := 0
  sfmt    : Nat := 0
  stick   : Nat := 0
  reset   : Bool := false
  res     : Resid := .resident
  owner   : Nat := 0
  part    : Nat := 0
  chase   : Nat := 0
  isOpen  : Bool := false
  gen     : W32 := 0
  agen    : W32 := 0
  refs    : Nat := 0
  steps   : W64 := 0
  err     : W32 := 0
  comp    : W32 := 0
  /-- Sets that CREATE or FORK took and no set field names yet (R208). -/
  extra   : List Nat := []
  /-- A swap-in waits for sets (R206). -/
  waiting : Bool := false
  /-- The press and Line of the waiting command that started the swap-in under way (R204, R206). -/
  starter : Option (Nat × W64) := none
  /-- What the runtime has asked for, to be done between two commands (R205, R209). -/
  acts    : List GAct := []
  lastExec : Nat := 0
  bound   : Option (Nat × Nat) := none
  /-- Frozen under R407. -/
  frozen  : Bool := false
  deriving DecidableEq, Repr

/-- A state set (R193, R194): its partition, class, share count, reserve and state words. -/
structure GSet where
  part    : Nat := 0
  cls     : Nat := 0
  share   : Nat := 0
  reserve : List Nat := []
  vals    : Map Nat := []
  /-- Frozen under R407. -/
  frozen  : Bool := false
  deriving DecidableEq, Repr

/-- A swap slot (R204): units taken, header generation and state words. -/
structure GSlot where
  part  : Nat := 0
  units : Nat := 0
  gen   : W32 := 0
  vals  : Map Nat := []
  deriving DecidableEq, Repr

/-! ### Placement, images, table sets, streaming -/

/-- The tier of a placed page (R251). -/
inductive Tier where
  | t2p | t2c | t3 | moving
  deriving DecidableEq, Repr

/-- What a move under way does (R256). -/
inductive Move where
  | promote | demote | fetch
  deriving DecidableEq, Repr

/-- A placement entry (R251) with the place of its data. `bytes` holds the logical bytes while the page is not at
T2P [log 9]. -/
structure PlaceEnt where
  part    : Nat := 0
  tier    : Tier := .t2p
  /-- The tier that a move leaves. -/
  was     : Tier := .t2p
  move    : Option Move := none
  clean   : Bool := false
  pin     : Nat := 0
  poison  : Bool := false
  incomp  : Bool := false
  holds   : Nat := 0
  heat    : Nat := 0
  tbase   : Nat := 0
  image   : Option Nat := none
  originOff : Nat := 0
  frame   : Nat := 0
  /-- First granule and number of granules in the cold heap (R257). -/
  heap    : Nat × Nat := (0, 0)
  used    : Nat := 0
  bytes   : Map Byte := []
  tries   : Nat := 0
  lost    : Bool := false
  /-- A fetch from the origin (R256, R268): whether it has been asked for, whether a part of it failed, and the bytes of the
  area that have landed, by offset in the image. -/
  asked   : Bool := false
  failed  : Bool := false
  area    : Map Byte := []
  deriving DecidableEq, Repr

/-- A loaded model image (R263 to R266). -/
structure Image where
  part    : Nat := 0
  modelId : W64 := 0
  digest  : List Byte := []
  tbase   : Nat := 0
  tsets   : Nat := 0
  origin  : Nat := 0
  originSession : Nat := 0
  originDevice : Nat := 0
  hostAddr : W64 := 0
  exportable : Bool := false
  pages   : List Nat := []
  areas   : List (Nat × Nat) := []
  /-- The image as it has been read, header first (R264, R265), the length of the part that is being read, what has landed of
  it, by offset in the image, and the status of a read that failed. -/
  raw     : List Byte := []
  asking  : Nat := 0
  coming  : Map Byte := []
  failed  : Option Status := none
  deriving DecidableEq, Repr

/-- A table set: four tables of 256 code lengths, generation, seed (R245, R247). -/
structure TableSet where
  lens  : List (List Nat) := []
  seeds : List (List Nat) := []
  seedw : Nat := 0
  tgen  : Nat := 0
  deriving DecidableEq, Repr

/-- A streaming job (R260, R261). -/
structure StreamJob where
  ctx      : Nat := 0
  layers   : List (Nat × Nat) := []
  window   : Nat := 0
  wrap     : Bool := false
  progress : W64 := 0
  held     : List Nat := []
  deriving DecidableEq, Repr

/-- A partition (R38, R39, R426, R473). -/
structure Part where
  /-- SEC.PART_STATE: 0 ABSENT, 1 ACTIVE, 2 SCRUBBING, 3 QUARANTINED (R430). -/
  st       : Nat := 0
  /-- PART.CFG.CHASES (R473). -/
  chases   : BitVec 16 := 0
  /-- PART.CFG.GROUPS (R473). -/
  groups   : BitVec 32 := 0
  /-- PART.CFG.CONF (R356). -/
  conf     : Bool := false
  /-- PART.CFG.WHOLE (R38). -/
  whole    : Bool := false
  /-- Share of HBM bandwidth in 1/64 (R281). -/
  share    : Nat := 0
  /-- PART.LIMITS.CTX_QUOTA (R299). -/
  quota    : Nat := 0
  /-- PART.LIMITS.SESS_FIRST (R336). -/
  sessFirst : Nat := 0
  /-- PART.LIMITS.SESS_LAST (R336). -/
  sessLast : Nat := 0
  /-- SEC.KEY_EPOCH (R428). -/
  keyEpoch : W64 := 0
  /-- POOL TOTAL, by offset in the POOL group divided by 8 (R473). -/
  total    : Map Nat := []
  /-- POOL FREE, by offset in the POOL group divided by 8 (R473). -/
  free     : Map Nat := []
  /-- Autoswap enabled (R207). -/
  autoswap : Bool := false
  /-- Table sets, by number (R245). -/
  tsets    : Map TableSet := []
  /-- Streaming jobs 0 to 15 (R260). -/
  jobs     : Map StreamJob := []
  /-- Regulator tokens, in sectors (R281) [log 2]. -/
  tokens   : Nat := 0
  /-- Requests that wait at the ingress, oldest first (R281). -/
  ingress  : List HbmReq := []
  /-- Runs of cold-heap granules that R268 retired: first granule and number. -/
  deadHeap : List (Nat × Nat) := []
  deriving DecidableEq, Repr

end Sys2Proof.Machine
end

