-- ==== Sys2Proof/Machine/Ports.lean ====
section
/-! DEFINITION. The pieces of state of the ZH-M8 that face outward: long operations, queues, buffers, sessions,
Quoin, audit, security, boot ledger, error records and power, and the messages sent. -/

namespace Sys2Proof.Machine

/-! ### Scheduling and host port -/

/-- State of a long operation (R319). -/
inductive LongSt where
  | running | suspending | suspended | cancelling | done
  deriving DecidableEq, Repr

/-- A self-test (R451, R453): the partitions that it quarantines, its chases and stacks that wait and those that are under
test, APPLY, and the defects found so far. -/
structure BistRun where
  parts    : List Nat := []
  /-- The partition that the request names, whose group windows alone are tested (R452); none where it names units. -/
  part     : Option Nat := none
  chases   : List Nat := []
  stackNos : List Nat := []
  onChases : List Nat := []
  onStacks : List Nat := []
  apply    : Bool := false
  found    : Nat := 0
  deriving DecidableEq, Repr

/-- What a long operation does (R318). -/
inductive LongKind where
  | modelLoad (image tier : Nat)
  | migrate (ctx va pages next : Nat)
  | collective (ctx : Nat) (collId : W32)
  /-- A scrub; `next` is the layout that a partition reset brings, `keyed` that steps 2 and 3 of R431 are past. -/
  | scrub (part : Nat) (next : Option Part) (keyed : Bool)
  | bist (run : BistRun)
  | fwStage (kind slot : Nat) (img : ImageFacts)
  deriving DecidableEq, Repr

/-- A long operation (R318, R319, R360). -/
structure LongOp where
  kind    : LongKind := .scrub 0 none false
  session : Nat := 0
  reqId   : W32 := 0
  st      : LongSt := .running
  ctx     : Option Nat := none
  value   : W32 := 0
  deriving DecidableEq, Repr

/-- A completion record (R344). -/
structure Completion where
  status   : Status := 0
  ctx      : Nat := 0
  queue    : Nat := 0
  fault    : Option FaultRec := none
  press    : Nat := 0
  device   : Nat := 0
  user     : W64 := 0
  seq      : W32 := 0
  fenceGen : W32 := 0
  endCycle : W64 := 0
  deriving DecidableEq, Repr

/-- A command queue (R339, R340). `takes` holds the numbers of the takes that hold a place. -/
structure CmdQueue where
  ctx     : Nat := 0
  part    : Nat := 0
  session : Option Nat := none
  depth   : Nat := 16
  next    : Nat := 0
  takes   : List Nat := []
  records : List Completion := []
  deriving DecidableEq, Repr

/-- A result buffer (R346, R347). -/
structure Buffer where
  ctx     : Nat := 0
  base    : Nat := 0
  len     : Nat := 0
  wake    : W64 := 0
  gen     : Nat := 0
  sealed  : Bool := false
  /-- One more than the last generation accepted; zero for none (R341). -/
  accepted : Nat := 0
  deriving DecidableEq, Repr

/-- A host window (R352, R357). -/
structure HostWin where
  ctx     : Nat := 0
  va      : Nat := 0
  len     : Nat := 0
  addr    : Nat := 0
  session : Nat := 0
  bounce  : Bool := false
  deriving DecidableEq, Repr

/-- A ticket (R334). -/
structure Ticket where
  id      : W64 := 0
  secret  : List Byte := []
  part    : Nat := 0
  minProtect : Nat := 0
  deriving DecidableEq, Repr

/-- Whether a session is open (R334). -/
inductive SessSt where
  | closed | isOpen
  deriving DecidableEq, Repr

/-- The keys of a session direction and the secrets they came from (R337, R338). -/
structure Keys where
  h2d     : List Byte := []
  d2h     : List Byte := []
  h2dIv   : List Byte := []
  d2hIv   : List Byte := []
  finished : List Byte := []
  record  : List Byte := []
  update  : List Byte := []
  deriving DecidableEq, Repr

/-- A handshake under way: HELLO_1 as received, HELLO_2 as sent, the parameters and the keys that HELLO_3 will bring into
use (R334 to R337). -/
structure Hand where
  hello1   : List Byte := []
  hello2   : List Byte := []
  protect  : Nat := 0
  mss      : Nat := 1024
  w        : Nat := 16
  ticket   : W64 := 0
  keys     : Keys := {}
  /-- Packets sent for it. -/
  sent     : Nat := 0
  deriving DecidableEq, Repr

/-- A message to be sent on a session (R327), or a response or record that waits for it. -/
inductive Msg where
  | complete (records : List Completion)
  | readResp (reqId : W32) (status : Status) (gen : Nat) (data : List Byte)
  | writeHost (reqId : W32) (addr : Nat) (data : List Byte)
  | writeAck (reqId : W32) (status : Status)
  | pullReq (reqId : W32) (addr len : Nat)
  | event (e : Event)
  | manage (reqId : W32) (status : Status) (items : List (Nat × W64)) (body : List Byte) (last : Bool)
  deriving DecidableEq, Repr

/-- A segment sent and not acknowledged (R329): the packet number that carried it last, what its header says of the message,
and its payload. -/
structure SentSeg where
  pn      : Nat := 0
  msn     : Nat := 0
  off     : Nat := 0
  cls     : Nat := 0
  mlen    : Nat := 0
  sealed  : Bool := false
  last    : Bool := false
  len     : Nat := 0
  payload : List Byte := []
  deriving DecidableEq, Repr

/-- The message that is being cut into segments (R329): its number, class and length, its body as it travels, and the bytes
sent of it. -/
structure CutMsg where
  msn    : Nat := 0
  cls    : Nat := 0
  sealed : Bool := false
  mlen   : Nat := 0
  body   : List Byte := []
  sent   : Nat := 0
  deriving DecidableEq, Repr

/-- The fields of the header of a packet that the device sends (R326). -/
structure SegHead where
  cls     : Nat := 0
  phase   : Bool := false
  first   : Bool := false
  last    : Bool := false
  sealed  : Bool := false
  session : Nat := 0
  pn      : Nat := 0
  msn     : Nat := 0
  off     : Nat := 0
  mlen    : Nat := 0
  len     : Nat := 0
  deriving DecidableEq, Repr

/-- A message in assembly (R329). -/
structure RxMsg where
  cls  : Nat := 0
  mlen : Nat := 0
  sealed : Bool := false
  got  : List (Nat × List Byte) := []
  deriving DecidableEq, Repr

/-- A Taosh session (R331 to R338). cwnd and α are exact rationals (R332). -/
structure Session where
  st       : SessSt := .closed
  part     : Nat := 0
  ticket   : W64 := 0
  protect  : Nat := 0
  mss      : Nat := 0
  w        : Nat := 0
  /-- A handshake that is not finished. -/
  pend     : Option Hand := none
  keys     : Keys := {}
  oldKeys  : Option Keys := none
  phase    : Bool := false
  authFails : Nat := 0
  /-- Sending side: next PN, MSN, new segments sent, peer's credit limit, congestion window, α. -/
  txPn     : Nat := 0
  txMsn    : Nat := 0
  txNew    : Nat := 0
  limit    : Nat := 0
  cwnd     : Rat := 16
  alpha    : Rat := 0
  /-- A loss has halved cwnd in this round trip (R332). -/
  halved   : Bool := false
  /-- Retransmission timer in microseconds: RTO_MIN doubled at each expiry (R333). -/
  rtoUs    : Nat := 0
  flight   : List SentSeg := []
  lost     : List SentSeg := []
  queue    : List Msg := []
  /-- Completion records in COMPLETE messages not yet acknowledged, by message number (R340). -/
  unackedRecs : Map (List Completion) := []
  /-- The message being cut. -/
  cut      : Option CutMsg := none
  /-- Receiving side: PNs received, next MSN, messages in assembly, segments received and processed, limit sent. -/
  rxPns    : List Nat := []
  rxMsn    : Nat := 0
  rx       : Map RxMsg := []
  rxSegs   : Nat := 0
  rxDone   : Nat := 0
  rxLimit  : Nat := 0
  rxCe     : W32 := 0
  unacked  : Nat := 0
  /-- Record sequence numbers of a confidential session: of the next record sent, after the last that opened (R357). -/
  txRseq   : Nat := 0
  rxRseq   : Nat := 0
  deriving DecidableEq, Repr

/-- Why a PULL, a host write or a Quoin request is outstanding (R310, R352, R375). -/
inductive Cause where
  | load (press : Nat) (rd size : Nat) (signed : Bool)
  | store (press : Nat)
  | tensorRead (press : Nat) (idx : Nat)
  | tensorWrite (press : Nat) (idx : Nat)
  | galleyRead (press : Nat) (seq : Nat)
  | galleyWrite (press : Nat) (seq : Nat)
  | signal (press : Nat)
  | region (chase region : Nat)
  | listRead (press : Nat)
  /-- The slug area of a placed page, or the image of a model load, read from its origin (R256, R264, R268). -/
  | origin (entry : Nat)
  | image (image : Nat)
  deriving DecidableEq, Repr

/-- A remote or host request that holds a token or a request number (R352, R375). -/
structure Request where
  kind    : Nat := 0
  cause   : Cause := .store 0
  ctx     : Nat := 0
  pc      : W64 := 0
  mark    : Option Nat := none
  slot    : Nat := 0
  va      : W64 := 0
  len     : Nat := 0
  session : Option Nat := none
  /-- Of an access to a bounce window: the window and the offset of its first byte there, and of a write the bytes that take
  their place in its blocks (R357). -/
  bounce  : Option (Nat × Nat) := none
  merge   : Option (List Byte) := none
  /-- The packet of a request that waits for a DMA token (R375). -/
  held    : Option Packet := none
  /-- The status of a request that failed at injection and is not yet reported (R372). -/
  failed  : Option Status := none
  deriving DecidableEq, Repr

/-- An UNMAP or PROTECT that waits for its accesses to end (R36, R224): `perm` holds the bits of a PROTECT. -/
structure UnmapReq where
  ctx     : Nat := 0
  first   : Nat := 0
  pages   : Nat := 0
  large   : Bool := false
  perm    : Option (BitVec 3) := none
  session : Nat := 0
  reqId   : W32 := 0
  deriving DecidableEq, Repr

/-- A doorbell store performed whose command has not been performed (R377). -/
structure Doorbell where
  ctx   : Nat := 0
  addr  : W64 := 0
  press : Nat := 0
  pc    : W64 := 0
  /-- The command, once the interface has read it. -/
  cmd   : Option (List W64) := none
  deriving DecidableEq, Repr

/-- A READ_MEM, or with data a WRITE_MEM, that stalls in memory (R37, R252). -/
structure HostAcc where
  session : Nat
  reqId   : W32
  ctx     : Nat
  va      : W64
  len     : Nat
  data    : Option (List Byte) := none
  deriving DecidableEq, Repr

/-- An atomic or write that a pseudo-channel in a retraining window holds (R292). -/
structure HeldAtom where
  src  : AtomSrc
  pa   : Nat
  body : AtomBody
  ecc  : Ecc
  deriving DecidableEq, Repr

/-- Pseudo-channels left out of the maps of the group windows, of the whole-device range with the firmware reserve, and
of the spread region, as last computed (R296). -/
structure MapsOut where
  window : List Nat := []
  range  : List Nat := []
  spread : List Nat := []
  deriving DecidableEq, Repr

/-! ### Quoin -/

/-- One Quoin link (R366 to R368, R371). Status bits stand in the registers. -/
structure Link where
  seqNext : Nat := 0
  expect  : Nat := 0
  dropping : Bool := false
  replay  : List (Nat × Nat × List Packet) := []
  sent    : Map Nat := []
  freed   : Map Nat := []
  creditRx : Map Nat := []
  creditTx : Map Nat := []
  inBuf   : Map Nat := []
  /-- CVC of the next flit that the device sends (R366). -/
  cvc     : Nat := 0
  /-- Flits of a channel since the last packet that ended in it. -/
  open_   : Map Nat := []
  /-- Packets that have come whole and wait for delivery, with the flits that they free. -/
  arrived : List (Packet × Nat) := []
  pseqTx  : Nat := 0
  /-- The last PSEQ taken (R371). -/
  pseqRx  : Option Nat := none
  naks    : Nat := 0
  failedRetrains : Nat := 0
  waiting : List Packet := []
  deriving DecidableEq, Repr

/-- An active collective (R380 to R384, R391). -/
structure Collective where
  ctx     : Nat := 0
  press   : Nat := 0
  pc      : W64 := 0
  job     : W32 := 0
  collId  : W32 := 0
  kind    : Nat := 0
  rop     : Nat := 0
  upd     : Bool := false
  fmt     : Nat := 0
  ossel   : Bool := false
  osselK  : Nat := 0
  src     : W64 := 0
  dst     : W64 := 0
  elems   : Nat := 0
  root    : Nat := 0
  result  : W64 := 0
  done    : W64 := 0
  /-- Devices of the group, rising (R381). -/
  group   : List Nat := []
  /-- Of an update collective: step size, step count, curve table, LIST_CRC, and index, rank and element count of each
  tensor of the list (R387). -/
  eta     : W32 := 0
  step    : Nat := 0
  curve   : W64 := 0
  listCrc : W32 := 0
  items   : List (Nat × Nat × Nat) := []
  /-- Members whose matching message has come, and whether one differed (R384). -/
  met     : List Nat := []
  differs : Bool := false
  /-- Matching is past, and this member's contributions are sent. -/
  sent    : Bool := false
  /-- Bytes received, by rank × 2^50 + offset in the member's source; of a second phase at rank + P. -/
  got     : Map Byte := []
  /-- Elements received in the Ossel format as FP32 patterns, by rank × 2^50 + element (R392). -/
  sparse  : Map Nat := []
  /-- The reduced shard of an ALL_REDUCE, once it is formed, as element patterns. -/
  reduced : Option (List Nat) := none
  /-- This device's tensors stepped or skipped. -/
  stepped : Nat := 0
  deriving DecidableEq, Repr

/-- An update-table entry (R385). -/
structure UpdEntry where
  valid  : Bool := false
  freeze : Bool := false
  sr     : Bool := false
  curve  : Bool := false
  wfmt   : Nat := 0
  group  : Nat := 0
  owner  : Nat := 0
  w      : W64 := 0
  elems  : Nat := 0
  deriving DecidableEq, Repr

/-! ### Security, boot, errors, power, pins -/

/-- An image in a slot: the header facts that later starts read (R414, R415). -/
structure FwImage where
  kind    : Nat := 0
  svn     : Nat := 0
  version : W64 := 0
  /-- The whole header, and the body. -/
  header  : List Byte := []
  body    : List Byte := []
  deriving DecidableEq, Repr

/-- The loadable kinds: 1 boot loader, 2 management controller, 3 security engine, 4 chase microcode, 5 Taosh engine,
14 manifest (R414). -/
def loadableKinds : List Nat := [1, 2, 3, 4, 5, 14]

/-- The manifest that lists one tested combination, stepping and versions all zero (log 31): a head with COUNT 1 and one
entry of 64 bytes. -/
def factoryManifest : List Byte := 1 :: List.replicate 79 0

/-- The images of a module as delivered (log 31): in A and in G of every kind, security version and version zero. -/
def factorySlots : Map FwImage :=
  loadableKinds.foldr (fun k m =>
    let i : FwImage := { kind := k, body := if k = 14 then factoryManifest else [] }
    (k * 4, i) :: (k * 4 + 2, i) :: m) []

/-- The fuses (table before R411). Blank fuses read zero [log 2]. -/
structure Fuses where
  /-- SERIAL, 128 bits (R422) [log 2]. -/
  serial  : List Byte := []
  /-- STEPPING, 16 bits (R423) [log 2]. -/
  stepping : Nat := 0
  /-- VENDOR_ED, 384 bits (R414) [log 2]. -/
  vendorEd : List Byte := []
  /-- VENDOR_ML, 384 bits (R414) [log 2]. -/
  vendorMl : List Byte := []
  /-- OWNER_ED, 384 bits (R413) [log 2]. -/
  ownerEd : List Byte := []
  /-- OWNER_ML, 384 bits (R413) [log 2]. -/
  ownerMl : List Byte := []
  /-- LC_PROV (R418) [log 2]. -/
  lcProv  : Bool := false
  /-- LC_DEPL (R418) [log 2]. -/
  lcDepl  : Bool := false
  /-- LC_DECOM (R418) [log 2]. -/
  lcDecom : Bool := false
  /-- LC_RETURNS, a count of blown bits (R418) [log 2]. -/
  returns : Nat := 0
  /-- SVN_MIN[k], a count of blown bits (R417) [log 2]. -/
  svnMin  : Map Nat := []
  deriving DecidableEq, Repr

/-- The security engine and module flash of images (R415 to R429). -/
structure Sec where
  /-- The fuse map (R411). UDS has no place here: nothing outside the engine depends on its value (R411). -/
  fuses    : Fuses := {}
  /-- Slots by kind × 4 + slot, slot 0 A, 1 B, 2 G (R415): every kind's A and G hold the factory image [log 31]. -/
  slots    : Map FwImage := factorySlots
  /-- The slot marked active, by kind: A where none is listed (R416) [log 31]. -/
  active   : Map Nat := []
  /-- The slot and the image that run, by kind; none before an image has started (R415). -/
  running  : Map (Nat × FwImage) := []
  /-- A life-cycle transition that waits for its scrubs: the type of its token and their handles (R419). -/
  transition : Option (Nat × List Nat) := none
  /-- A token in the token buffer (R416). -/
  token    : Option ImageFacts := none
  /-- Tokens applied for the next start: override digest and debug (R422). -/
  nextOverride : Option (List Byte) := none
  nextDebug : Bool := false
  /-- Debug access granted this start (R421). -/
  debug    : Bool := false
  /-- The vendor certificate for the identity keys in flash (R412): no operation reads it [log 2]. -/
  vendorCert : List Byte := []
  /-- The owner key record in flash (R413) [log 2]. -/
  ownerKeyEd : List Byte := []
  ownerKeyMl : List Byte := []
  /-- START_COUNT of the monotonic start counter (R438) [log 2]. -/
  startCount : Nat := 0
  /-- Draws made of the DRBG (R427). -/
  draws    : Nat := 0
  deriving DecidableEq, Repr

/-- An audit run under way: the values that it has taken, PASS and VOID (R410). -/
structure AuditRun where
  a     : W64 := 0
  b     : W64 := 0
  c     : W64 := 0
  pass  : Bool := false
  isVoid : Bool := false
  deriving DecidableEq, Repr

/-- A start record (R444). -/
structure StartRec where
  boot    : Nat := 0
  outcome : Nat := 4
  failedStep : Nat := 0
  status  : Status := 0
  ms      : Nat := 0
  steps   : Map (Nat × Status × Nat) := []
  deriving DecidableEq, Repr

/-- An error record (R446). -/
structure ErrRec where
  cls     : Nat := 0
  cause   : Nat := 0
  status  : Status := 0
  ctx     : Option Nat := none
  unit    : Nat := 0
  unitIdx : Nat := 0
  locKind : Nat := 0
  loc     : Nat := 0
  addr    : Nat := 0
  cycle   : W64 := 0
  domain  : Nat := 0
  count   : W32 := 0
  boot    : Nat := 0
  deriving DecidableEq, Repr

/-- The boot ledger (R443). -/
structure Ledger where
  /-- SEQ (R443) [log 2]. -/
  seq      : Nat := 0
  /-- FAILS (R440) [log 2]. -/
  fails    : Nat := 0
  /-- FLAGS[0]: the latest start was a service start (R443) [log 2]. -/
  service  : Bool := false
  /-- SKIP (R439) [log 2]. -/
  skip     : BitVec 24 := 0
  /-- ALT (R438) [log 2]. -/
  alt      : BitVec 24 := 0
  /-- FENCED (R438) [log 2]. -/
  fenced   : BitVec 16 := 0
  /-- HBM_RATE (R291) [log 2]. -/
  hbmRate  : Bool := false
  /-- SPARES: (lane, spare) pairs by pseudo-channel (R291) [log 2]. -/
  spares   : Map (List (Nat × Nat)) := []
  /-- RETIRED: pseudo-channels (R294) [log 2]. -/
  retired  : List Nat := []
  /-- LINKS: 0 full rate, 1 reduced, 2 failed (R396) [log 2]. -/
  links    : Map Nat := []
  /-- SUSPECT: presses (R449) [log 2]. -/
  suspect  : BitVec 128 := 0
  /-- STARTS: the latest 16 start records, newest first (R444) [log 2]. -/
  starts   : List StartRec := []
  /-- ERRLOG: the latest 128 error records, newest first (R447) [log 2]. -/
  errlog   : List ErrRec := []
  /-- ERR_HEAD: the next error-log slot (R443) [log 2]. -/
  errHead  : Nat := 0
  /-- Entries of the steps that end before step 5 opens the start record (R444). -/
  early    : Map (Nat × Status × Nat) := []
  /-- Written since the start record was opened; digest as it stood at step 24 (R443). -/
  digest   : List Byte := []
  deriving DecidableEq, Repr

/-- Settings kept in module flash (R325, R364, R461, R472, step 14 of R435). -/
structure Flash where
  /-- Device identifier, if set (R472) [log 2]. -/
  deviceId : Option Nat := none
  /-- CAP_W (R461): 3,900 if none. -/
  capW     : Option Nat := none
  /-- IPv4 address, zero for none (R325) [log 2]. -/
  ipv4     : W32 := 0
  /-- IPv6 address, zero for none (R325) [log 2]. -/
  ipv6     : BitVec 128 := 0
  /-- Taosh port (R325). -/
  port     : Nat := 47211
  /-- Port configuration word, if stored (R324) [log 2]. -/
  portCfg  : Option W64 := none
  /-- QUOIN.TOPO and LINK_CFG words stored, by link + 1, 0 for TOPO (R364) [log 2]. -/
  quoin    : Map W64 := []
  /-- Partition layout, limits, pool sizes and key epochs, as step 14 of R435 loads them [log 2]. -/
  parts    : Map Part := []
  /-- HBM.LAYOUT.SPREAD of the layout (R274) [log 2]. -/
  spread   : Nat := 0
  deriving DecidableEq, Repr

/-- Power input and thermal state (R457 to R465). -/
structure Power where
  /-- THROTTLE_IN is asserted (R459) [log 2]. -/
  throttle : Bool := false
  /-- The source THROTTLE_IN is in force (R459). -/
  byThrottle : Bool := false
  /-- Sag, surge or clamp response in force (R459). -/
  bySag    : Bool := false
  /-- The input is outside 46 V to 90 V (R462). -/
  sagging  : Bool := false
  /-- Compute-die, I/O-die and conversion steps in force (R464). -/
  dieStep  : Nat := 0
  ioStep   : Nat := 0
  convStep : Nat := 0
  /-- HBM step in force (R464). -/
  hbmStep  : Nat := 0
  /-- Shed stage (R463). -/
  shed     : Bool := false
  /-- A thermal shutdown holds (R465). -/
  thermalHold : Bool := false
  /-- The input is below the lockout (R457) [log 2]. -/
  inputOff : Bool := false
  deriving DecidableEq, Repr

/-- Sideband pins and targets (R482 to R489). -/
structure Pins where
  /-- POWER_GOOD (R482) [log 2]. -/
  powerGood : Bool := true
  /-- RESET_N (R482) [log 2]. -/
  resetN   : Bool := true
  /-- ALERT_N (R484). -/
  alertN   : Bool := true
  /-- ADDR[2:0] straps (R485) [log 2]. -/
  addr     : BitVec 3 := 0
  /-- REFSEL strap (R490) [log 2]. -/
  refsel   : Bool := true
  /-- I3C pointer (R486) [log 2]. -/
  i3cPtr   : W64 := 0
  /-- I3C dynamic address (R485). -/
  i3cDyn   : Option (BitVec 7) := none
  /-- JTAG instruction selected; none is Test-Logic-Reset (R489). -/
  jtag     : Option JtagOp := none
  /-- The JTAG instruction selected bypass (R421, R489). -/
  bypass   : Bool := true
  /-- A start has failed in steps 1 to 4 (R437, R484). -/
  earlyFail : Bool := false
  /-- A FATAL error whose restart has not reached step 5 (R484). -/
  fatal    : Bool := false
  deriving DecidableEq, Repr

/-- Messages and signals that have left the device, newest first. -/
inductive Out where
  | taosh (session : Nat) (m : Msg)
  | flight (session : Nat) (body : List Byte) (packets : List (List Byte))
  | segment (h : SegHead) (packet : List Byte)
  | ackPacket (session : Nat) (a : AckBody) (packet : List Byte)
  | udpRefusal (session : Nat) (status : Status) (packet : List Byte)
  | quoin (link : Nat) (p : Packet) (flits : List Byte)
  | nakFlit (link ack : Nat) (flit : List Byte)
  | neighbor (q : Neighbor)
  | subtake (device take : Nat) (forme : Nat)
  | i3cData (v : W64)
  | regData (v : W64)
  deriving DecidableEq, Repr

end Sys2Proof.Machine
end

