-- ==== Sys2Proof/Machine/State.lean ====
section
/-! DEFINITION. The state of the ZH-M8 as a block: everything the manual names, as plain data, with the queue of
waiting commands; the faults and refusals of the model; and the state after reset. -/

namespace Sys2Proof.Machine

/-- The state of the device. -/
structure State where
  /-- Commands that wait, first in, first out: the model's own [log 1]. -/
  pending  : List Instr := []
  /-- Count of free values drawn: the model's own [log 3]. -/
  free     : Nat := 0
  /-- Memory by device physical address: HBM, tag region and on-die windows; unlisted bytes read zero (R28, R29) [log 4]. -/
  mem      : List Host.Cell := []
  /-- Sectors whose stored data is uncorrectable, by address / 32 (R240, R287). -/
  bad      : List Nat := []
  /-- Units whose tag does not match, by address / 512 (R289). -/
  tagBad   : List Nat := []
  /-- Registers of control space by address; an unlisted register holds its reset value (R467). -/
  regs     : Map W64 := []
  /-- Presses 0 to 127 (R13). -/
  presses  : Map Press := []
  /-- Compositors 0 to 63 (R75). -/
  comps    : Map Comp := []
  /-- Chases 0 to 15 (R92). -/
  chases   : Map Chase := []
  /-- Clock of cabinet use, for the least-recent rule (R236): the model's own [log 8]. -/
  useClock : Nat := 0
  /-- Context records 0 to 4,095 (R298). -/
  ctxs     : Map Ctx := []
  /-- Forme table, handles 0 to 1,023 (R16). -/
  formes   : Map Forme := []
  /-- Forme barriers, by take × 1,024 + forme handle (R95). -/
  fbars    : Map FBarrier := []
  /-- Partitions 0 to 7 (R38). -/
  parts    : Map Part := []
  /-- Memory that MAP and MIGRATE allocated, by base: length and partition (R33, R277). -/
  frames   : Map (Nat × Nat) := []
  /-- Frames of the T2P pools in use, by base: the partition (R257). -/
  poolFrames : Map Nat := []
  /-- Frames that R268 retired, by base. -/
  deadFrames : List Nat := []
  /-- READ_MEM and WRITE_MEM that stall in memory, oldest first (R37, R252, R349, R353). -/
  hostq    : List HostAcc := []
  /-- Takes, by number in order of acceptance (R340). -/
  takes    : Map Take := []
  /-- Number of the next take: the model's own [log 8]. -/
  nextTake : Nat := 0
  /-- Sub-takes that wait or run, by number (R303). -/
  subs     : Map SubTake := []
  /-- Number of the next sub-take: the model's own [log 8]. -/
  nextSub  : Nat := 0
  /-- Kern stream table, 65,536 entries (R167). -/
  kstreams : Map KStream := []
  /-- Folios, by number (R170). -/
  folios   : Map Folio := []
  /-- Number of the next accepted kern or galley command (R165): the model's own [log 8]. -/
  nextCmd  : Nat := 0
  /-- Galley table, 65,536 entries (R195). -/
  galley   : Map GEntry := []
  /-- State sets, by number (R194). -/
  gsets    : Map GSet := []
  /-- Swap slots, by number (R204). -/
  gslots   : Map GSlot := []
  /-- Placement entries, by number (R251). -/
  placed   : Map PlaceEnt := []
  /-- Model library, 4,096 entries (R263). -/
  images   : Map Image := []
  /-- Requests to unmap or protect that wait (R36). -/
  unmaps   : Map UnmapReq := []
  /-- Long operations, by handle, at most 256 (R318). -/
  longops  : Map LongOp := []
  /-- Command queues 0 to 4,095 (R339). -/
  queues   : Map CmdQueue := []
  /-- Result buffers 0 to 65,535 (R346). -/
  buffers  : Map Buffer := []
  /-- Host windows, by number (R352). -/
  hostwins : Map HostWin := []
  /-- Tickets, by number (R334). -/
  tickets  : Map Ticket := []
  /-- Taosh sessions 0 to 1,023 (R334). -/
  sessions : Map Session := []
  /-- Remote and host requests outstanding, by tag (R352, R375). -/
  requests : Map Request := []
  /-- Tag of the next request: the model's own [log 8]. -/
  nextTag  : Nat := 0
  /-- Quoin links 0 to 31 (R363). -/
  links    : Map Link := []
  /-- Active collectives, by long-operation handle (R381). -/
  colls    : Map Collective := []
  /-- Update table, 32,768 entries (R385). -/
  updTable : Map UpdEntry := []
  /-- Matching messages of collectives that no context of this device has issued yet (R384). -/
  collEarly : List Packet := []
  /-- Doorbells rung whose commands are not yet performed (R377). -/
  doorbells : List Doorbell := []
  /-- Atomics accepted, performed or failed, 64-bit totals (R286, R399). -/
  atomics  : W64 := 0
  atomicsEnd : W64 := 0
  /-- Audit totals of flag sets and of counter increments, by unit (R399 code 0x0D). -/
  sets     : Map W64 := []
  incs     : Map W64 := []
  /-- Scopes whose VOID is set: quantity and index (R407). -/
  voids    : List (Nat × Nat) := []
  /-- The audit run under way (R410). -/
  audit    : Option AuditRun := none
  /-- Bytes of Taosh payload sent and received in this start (TELEM.PORT, R474). -/
  txBytes  : Nat := 0
  rxBytes  : Nat := 0
  /-- On-die network buffer tokens held (R399 code 0x05): between two commands no packet is under way there. -/
  nocHeld  : Nat := 0
  /-- Failed retraining windows in a row and uncorrectable errors of the last hour, by pseudo-channel (R294). -/
  pcFails  : Map Nat := []
  pcUes    : Map Nat := []
  /-- Corrected errors of the last hour, by pseudo-channel and lane (R293). -/
  laneCes  : Map (Map Nat) := []
  /-- Pseudo-channels in retraining windows (R292). -/
  windows  : List Nat := []
  /-- Units that each pseudo-channel read most recently, latest first, at most 16 (R279). -/
  unitBufs : Map (List Nat) := []
  /-- Requests that the regulators have let through, by pseudo-channel: partition and class of R282, oldest first. -/
  pcQueues : Map (List (Nat × Nat)) := []
  /-- Atomics and writes held at a pseudo-channel in a retraining window, oldest first (R292). -/
  pcHeld   : Map (List HeldAtom) := []
  /-- Pseudo-channels that the address maps leave out (R275, R276, R296). -/
  mapsOut  : MapsOut := {}
  /-- LOOPBACK requests whose run goes on, by interface: session and request (R455, R476). -/
  loopReqs : Map (Nat × W32) := []
  /-- PROOF_CHECK reports of this hour, by press (R449). -/
  proofHr  : Map Nat := []
  /-- Security engine (R411). -/
  sec      : Sec := {}
  /-- Boot ledger (R443). -/
  ledger   : Ledger := {}
  /-- Module flash (R461). -/
  flash    : Flash := {}
  /-- Ring of error records, newest first, at most 4,096 (R447). -/
  ring     : List ErrRec := []
  /-- Device-wide events held until session 0 opens, oldest first (R444). -/
  heldWide : List Event := []
  /-- Power and thermal state (R457). -/
  power    : Power := {}
  /-- Sideband pins, I3C target, JTAG (R482). -/
  pins     : Pins := {}
  /-- What has left the device, newest first: the model's own record [log 1]. -/
  out      : List Out := []
  deriving DecidableEq, Repr

/-- Faults of the model: the commands that name something the device does not hold, so that no rule of the manual
speaks of them. All are safe: they stop where the device receives no such command. -/
inductive Fault where
  /-- A slot of a Line or an engine start for a press on which no context runs. Raised by the Line commands. -/
  | notRunning
  /-- A press, compositor, chase, link, queue entry, handle or other unit that does not exist, or a status code of a unit
  number that no device reports (R11). Raised by any command that names one; safe. -/
  | noSuchUnit
  /-- A command whose contents are another row's: a kern or galley command with another OP in the case, a packet of
  another TYPE, a token of another type, a service command with another OP, an audit of another MODE. Raised by those
  commands. -/
  | rowMismatch
  deriving DecidableEq, Repr

/-- Refusals of the model. -/
inductive Refusal where
  /-- A command that the model does not yet treat; raised by the dispatch alone; safe. -/
  | notModelled (mnemonic : String)
  deriving DecidableEq, Repr

/-- The device just out of reset, before its start runs (R435): every register at its reset value, no context, no
session, nothing in memory. -/
def State.reset : State := {}

end Sys2Proof.Machine
end

