-- ==== Sys2Proof/Machine/Base.lean ====
section
/-! DEFINITION. Sparse arrays, bytes, bit fields and the small list functions that every unit uses. -/

namespace Sys2Proof.Machine

/-! ### Sparse arrays -/

/-- The entry of a sparse array at a key; `d` where none is listed. -/
def mget {α : Type} (d : α) : Map α → Nat → α
  | [], _ => d
  | (k', v) :: m, k => if k' = k then v else mget d m k

/-- A sparse array without its entry at a key, however often it is listed. -/
def mdel {α : Type} : Map α → Nat → Map α
  | [], _ => []
  | (k', v) :: m, k => if k' = k then mdel m k else (k', v) :: mdel m k

/-- A sparse array with an entry put in its place. -/
def mput {α : Type} : Map α → Nat → α → Map α
  | [], k, v => [(k, v)]
  | (k', v') :: m, k, v =>
    if k < k' then (k, v) :: (k', v') :: m
    else if k = k' then (k, v) :: m
    else (k', v') :: mput m k v

/-- A write to a sparse array: writing the default removes the entry. -/
def mset {α : Type} [DecidableEq α] (d : α) (m : Map α) (k : Nat) (v : α) : Map α :=
  if v = d then mdel m k else mput m k v

/-- The canonical form: keys rise and no entry equals the default. -/
def mwf {α : Type} [DecidableEq α] (d : α) : Map α → Bool
  | [] => true
  | [(_, v)] => !decide (v = d)
  | (k, v) :: (k', v') :: m => !decide (v = d) && decide (k < k') && mwf d ((k', v') :: m)

/-- Whether a key is listed. -/
def mhas {α : Type} (m : Map α) (k : Nat) : Bool := m.any fun e => e.1 == k

/-- The entry of a table at a key, if it holds one. -/
def mfind? {α : Type} : Map α → Nat → Option α
  | [], _ => none
  | (k', v) :: m, k => if k' = k then some v else mfind? m k

/-- The lowest of the keys `from ..` that is not listed, looking at `fuel` of them. -/
def mfree {α : Type} (m : Map α) : Nat → Nat → Option Nat
  | 0, _ => none
  | fuel + 1, k => if mhas m k then mfree m fuel (k + 1) else some k

/-- `f` on every entry, keys unchanged. -/
def mmap {α : Type} (f : Nat → α → α) (m : Map α) : Map α := m.map fun e => (e.1, f e.1 e.2)

/-! ### Lists of numbers -/

/-- The numbers `0 .. n-1`. -/
def upTo (n : Nat) : List Nat := List.range n

/-- The numbers `a .. a+n-1`. -/
def span (a n : Nat) : List Nat := (List.range n).map (a + ·)

/-- The entry of a list at an index; `d` beyond its end. -/
def nth {α : Type} (d : α) (l : List α) (i : Nat) : α := l.getD i d

/-- A list with its entry at an index replaced. -/
def setNth {α : Type} (l : List α) (i : Nat) (v : α) : List α := l.set i v

/-- Without repeats, first places kept. -/
def dedup (l : List Nat) : List Nat := l.foldl (fun acc x => if acc.contains x then acc else acc ++ [x]) []

/-- The values of a list whose entries are all present. -/
def allSome {α : Type} : List (Option α) → Option (List α)
  | [] => some []
  | none :: _ => none
  | some x :: l => (allSome l).map (x :: ·)

/-- A list with an entry put behind those that come before it, and a list so sorted; equals keep their order. -/
def insertBy {α : Type} (le : α → α → Bool) (x : α) : List α → List α
  | [] => [x]
  | y :: l => if le x y then x :: y :: l else y :: insertBy le x l
def sortBy {α : Type} (le : α → α → Bool) (l : List α) : List α := l.foldr (insertBy le) []

/-- The quotient rounded up. -/
def ceilDiv (a b : Nat) : Nat := (a + b - 1) / b

/-- The sum of a list of numbers. -/
def sumL (l : List Nat) : Nat := l.foldl (· + ·) 0

/-! ### Bits and bytes -/

/-- Bits `hi:lo` of a number. -/
def bits (v hi lo : Nat) : Nat := (v >>> lo) % 2 ^ (hi + 1 - lo)

/-- Bits `hi:lo` of a word. -/
def fld (v : W64) (hi lo : Nat) : Nat := bits v.toNat hi lo

/-- Bit `i` of a word as a flag. -/
def flag (v : W64) (i : Nat) : Bool := v.getLsbD i

/-- A word with the `w` bits from `lo` replaced. -/
def putFld (v : W64) (lo w : Nat) (x : Nat) : W64 :=
  let mask : W64 := BitVec.ofNat 64 ((2 ^ w - 1) <<< lo)
  (v &&& ~~~mask) ||| (BitVec.ofNat 64 (x <<< lo) &&& mask)

/-- Sign extension of the low `w` bits of a number. -/
def sext (w v : Nat) : Int :=
  let u := v % 2 ^ w
  if u < 2 ^ (w - 1) then (u : Int) else (u : Int) - (2 ^ w : Nat)

/-- A word from an integer, modulo 2^64. -/
def w64 (i : Int) : W64 := BitVec.ofInt 64 i

/-- A word from a number. -/
def wn (n : Nat) : W64 := BitVec.ofNat 64 n

/-- The number of a flag. -/
def b2n (b : Bool) : Nat := if b then 1 else 0

/-- `n` bytes of a number, least significant first (R3). -/
def toBytes (n : Nat) (v : Nat) : List Byte := (List.range n).map fun i => BitVec.ofNat 8 (v >>> (8 * i))

/-- The number that bytes spell, least significant first (R3). -/
def ofBytes : List Byte → Nat
  | [] => 0
  | b :: bs => b.toNat + 256 * ofBytes bs

/-- The 64-bit words of a byte string (R3). -/
def toWords : Nat → List Byte → List W64
  | 0, _ => []
  | n + 1, bs => wn (ofBytes (bs.take 8)) :: toWords n (bs.drop 8)

/-- A slice of a byte string. -/
def slice (bs : List Byte) (off len : Nat) : List Byte := (bs.drop off).take len

/-- CRC-32C of a byte string: polynomial 0x1EDC6F41 reflected, initial value and final XOR all ones (R242). -/
def crcBit (c : W32) : W32 := if c.getLsbD 0 then (c >>> 1) ^^^ 0x82F63B78 else c >>> 1
def crcByte (c : W32) (b : Byte) : W32 :=
  let c0 := c ^^^ b.setWidth 32
  crcBit (crcBit (crcBit (crcBit (crcBit (crcBit (crcBit (crcBit c0)))))))
def crc32c (bs : List Byte) : W32 := ~~~(bs.foldl crcByte 0xFFFFFFFF)

/-! ### Memory cells -/

/-- The byte at an address of a cell list: zero where nothing is listed. -/
def cell (m : List Host.Cell) (a : Nat) : Byte := mget 0 m a

/-- The one canonical form of memory: addresses rise, and no byte equal to the zero of an unlisted address is listed. -/
abbrev Memory.wf (m : List Host.Cell) : Bool := mwf 0 m

/-- The cell list with one byte written. -/
def putCell (m : List Host.Cell) (a : Nat) (b : Byte) : List Host.Cell := mset 0 m a b

/-- The `n` bytes from an address. -/
def cells (m : List Host.Cell) (a n : Nat) : List Byte := (span a n).map (cell m)

/-- The cell list with bytes written from an address. -/
def putCells (m : List Host.Cell) (a : Nat) : List Byte → List Host.Cell
  | [] => m
  | b :: bs => putCells (putCell m a b) (a + 1) bs

/-- The cell list with every listed address of a range removed: the range then reads zero. -/
def wipe (m : List Host.Cell) (a n : Nat) : List Host.Cell := m.filter fun e => e.1 < a || a + n ≤ e.1

/-- The listed cells of a range, moved by an offset. -/
def carve (m : List Host.Cell) (a n : Nat) : List Host.Cell :=
  (m.filter fun e => a ≤ e.1 && e.1 < a + n).map fun e => (e.1 - a, e.2)

/-- Cells with offsets put at an address. -/
def restore (m : List Host.Cell) (a : Nat) (c : List Host.Cell) : List Host.Cell :=
  c.foldl (fun m e => putCell m (a + e.1) e.2) m

/-! ### Units of the state -/

def State.press (s : State) (n : Nat) : Press := mget {} s.presses n
def State.setPress (s : State) (n : Nat) (p : Press) : State := { s with presses := mset {} s.presses n p }
/-- The state of the context on a press. -/
def State.pc (s : State) (n : Nat) : PressCtx := (s.press n).cur
def State.setPc (s : State) (n : Nat) (c : PressCtx) : State := s.setPress n { s.press n with cur := c }
def State.modPc (s : State) (n : Nat) (f : PressCtx → PressCtx) : State := s.setPc n (f (s.pc n))
def State.comp (s : State) (n : Nat) : Comp := mget {} s.comps n
def State.setComp (s : State) (n : Nat) (c : Comp) : State := { s with comps := mset {} s.comps n c }
def State.chase (s : State) (n : Nat) : Chase := mget {} s.chases n
def State.setChase (s : State) (n : Nat) (c : Chase) : State := { s with chases := mset {} s.chases n c }
def State.ctx (s : State) (n : Nat) : Ctx := mget {} s.ctxs n
def State.setCtx (s : State) (n : Nat) (c : Ctx) : State := { s with ctxs := mset {} s.ctxs n c }
def State.part (s : State) (n : Nat) : Part := mget {} s.parts n
def State.setPart (s : State) (n : Nat) (p : Part) : State := { s with parts := mset {} s.parts n p }
def State.session (s : State) (n : Nat) : Session := mget {} s.sessions n
def State.setSession (s : State) (n : Nat) (p : Session) : State := { s with sessions := mset {} s.sessions n p }
def State.link (s : State) (n : Nat) : Link := mget {} s.links n
def State.setLink (s : State) (n : Nat) (l : Link) : State := { s with links := mset {} s.links n l }
/-- A message or signal leaves the device. -/
def State.emit (s : State) (o : Out) : State := { s with out := o :: s.out }
/-- The next free value's number, and the state with the count advanced. -/
def State.draw (s : State) : Nat × State := (s.free, { s with free := s.free + 1 })

/-- The context that runs on a press. -/
def State.runCtx (s : State) (n : Nat) : Nat := ((s.press n).run).getD 0
/-- The chase of a press. -/
def chaseOf (n : Nat) : Nat := n / 8

/-- Base of the case of a press in the on-die windows (R29). -/
def caseBase (n : Nat) : Nat := 0xE00000000000 + (n / 8) * 0x100000000 + 0x10000000 + (n % 8) * 0x400000
/-- Base of the tympan of platen `k` of a press (R29). -/
def tympBase (n k : Nat) : Nat := 0xE00000000000 + (n / 8) * 0x100000000 + 0x20000000 + (n % 8) * 0x100000 + k * 0x40000
/-- Base of the cabinet data array of a chase (R29). -/
def cabBase (c : Nat) : Nat := 0xE00000000000 + c * 0x100000000

/-- Size of a case (R74). -/
def caseSize : Nat := 0x400000

end Sys2Proof.Machine
end

