-- ==== Sys2Proof/Machine/Numbers.lean ====
section
/-! DEFINITION. The sixteen number formats, rounding and conversion (R42 to R67). A value is exact: NaN, an infinity,
or a sign with a mantissa and an exponent of two. -/

namespace Sys2Proof.Machine

/-- An exact number: NaN, ±∞, or (−1)^neg × m × 2^e. -/
inductive Num where
  | nan
  | inf (neg : Bool)
  | fin (neg : Bool) (m : Nat) (e : Int)
  deriving DecidableEq, Repr

/-- Sticky status bits in the order of PRESS.NUM_STATUS. -/
abbrev Flags := BitVec 8

namespace Fl
def nv : Flags := 0x01
def of : Flags := 0x02
def uf : Flags := 0x04
def dz : Flags := 0x08
def nanSeen : Flags := 0x10
def isat : Flags := 0x20
def iwrap : Flags := 0x40
def scaleNan : Flags := 0x80
end Fl

/-- Flags raised where a condition holds. -/
def flagIf (c : Bool) (f : Flags) : Flags := if c then f else 0

/-! ### Formats (R42, R43) -/

namespace Fmt
def fp64 : Nat := 0x0
def fp32 : Nat := 0x1
def e8m10 : Nat := 0x2
def bf16 : Nat := 0x3
def fp16 : Nat := 0x4
def e4m3 : Nat := 0x5
def e5m2 : Nat := 0x6
def e3m2 : Nat := 0x7
def e2m3 : Nat := 0x8
def e2m1 : Nat := 0x9
def e8m0 : Nat := 0xA
def int32 : Nat := 0xB
def int16 : Nat := 0xC
def int8 : Nat := 0xD
def int4 : Nat := 0xE
def uint8 : Nat := 0xF
end Fmt

/-- The storage width of a format in bits (R42, R44). -/
def fmtWidth (f : Nat) : Nat :=
  nth 8 [64, 32, 32, 16, 16, 8, 8, 6, 6, 4, 8, 32, 16, 8, 4, 8] f

/-- Floating-point formats 0x0 to 0x9. -/
def isFloat (f : Nat) : Bool := f < 0xA
/-- Integer formats 0xB to 0xF. -/
def isInt (f : Nat) : Bool := 0xB ≤ f

/-- The layout of a floating-point format (R43): exponent bits, mantissa bits, bias, unused low bits of the container,
largest finite mantissa (with its leading bit). -/
structure FloatFmt where
  eb   : Nat
  mb   : Nat
  bias : Nat
  pad  : Nat
  hasInf : Bool
  hasNan : Bool
  canon : Nat
  deriving DecidableEq, Repr

def floatFmt (f : Nat) : FloatFmt :=
  match f with
  | 0x0 => ⟨11, 52, 1023, 0, true, true, 0x7FF8000000000000⟩
  | 0x1 => ⟨8, 23, 127, 0, true, true, 0x7FC00000⟩
  | 0x2 => ⟨8, 10, 127, 13, true, true, 0x7FC00000⟩
  | 0x3 => ⟨8, 7, 127, 0, true, true, 0x7FC0⟩
  | 0x4 => ⟨5, 10, 15, 0, true, true, 0x7E00⟩
  | 0x5 => ⟨4, 3, 7, 0, false, true, 0x7F⟩
  | 0x6 => ⟨5, 2, 15, 0, true, true, 0x7E⟩
  | 0x7 => ⟨3, 2, 3, 0, false, false, 0⟩
  | 0x8 => ⟨2, 3, 1, 0, false, false, 0⟩
  | _   => ⟨2, 1, 1, 0, false, false, 0⟩

/-- The exponent of the smallest normal value of a format (R43). -/
def minExp (f : Nat) : Int := 1 - ((floatFmt f).bias : Int)

/-- The largest finite value of a format as mantissa and exponent (R43). -/
def maxFin (f : Nat) : Nat × Int :=
  let L := floatFmt f
  let top : Int := (2 ^ L.eb : Nat) - 1 - (L.bias : Int)
  if L.hasInf then (2 ^ (L.mb + 1) - 1, top - 1 - L.mb)
  else if L.hasNan then (2 ^ (L.mb + 1) - 2, top - L.mb)
  else (2 ^ (L.mb + 1) - 1, top - L.mb)

/-- The value of a bit pattern of a floating-point format (R43, R44, R64). -/
def decodeFloat (f : Nat) (b : Nat) : Num :=
  let L := floatFmt f
  let v := b >>> L.pad
  let man := v % 2 ^ L.mb
  let ex := (v >>> L.mb) % 2 ^ L.eb
  let neg := (v >>> (L.mb + L.eb)) % 2 == 1
  if L.hasInf && ex == 2 ^ L.eb - 1 then (if man == 0 then .inf neg else .nan)
  else if !L.hasInf && L.hasNan && ex == 2 ^ L.eb - 1 && man == 2 ^ L.mb - 1 then .nan
  else if ex == 0 then .fin neg man (minExp f - L.mb)
  else .fin neg (2 ^ L.mb + man) ((ex : Int) - L.bias - L.mb)

/-- The value of an integer. -/
def ofInt (i : Int) : Num := .fin (decide (i < 0)) i.natAbs 0

/-- The integer that a bit pattern of an integer format spells (R46). -/
def intValue (f : Nat) (b : Nat) : Int :=
  if f = Fmt.uint8 then ((b % 256 : Nat) : Int) else sext (fmtWidth f) b

/-- The value of a bit pattern of any format (R43 to R46). -/
def decodeNum (f : Nat) (b : Nat) : Num :=
  if isFloat f then decodeFloat f b
  else if f = Fmt.e8m0 then (if b % 256 == 255 then .nan else .fin false 1 ((b % 256 : Nat) - 127))
  else ofInt (intValue f b)

/-- The canonical NaN of a format (R64). -/
def canonNan (f : Nat) : Nat := if f = Fmt.e8m0 then 0xFF else (floatFmt f).canon

/-- The bit pattern of a sign, a mantissa of at most `mb + 1` bits and the exponent of its last place. -/
def packFloat (f : Nat) (neg : Bool) (m : Nat) (q : Int) : Nat :=
  let L := floatFmt f
  let s := b2n neg <<< (L.mb + L.eb)
  let body :=
    if m < 2 ^ L.mb then m
    else if m < 2 ^ (L.mb + 1) then ((q + L.mb + L.bias).toNat <<< L.mb) + (m - 2 ^ L.mb)
    else ((q + 1 + L.mb + L.bias).toNat <<< L.mb) + (m / 2 - 2 ^ L.mb)
  (s + body) <<< L.pad

/-- The infinity of a format that has one. -/
def infBits (f : Nat) (neg : Bool) : Nat :=
  let L := floatFmt f
  (((b2n neg <<< L.eb) + (2 ^ L.eb - 1)) <<< L.mb) <<< L.pad

/-- The largest finite value of a format, with a sign. -/
def maxBits (f : Nat) (neg : Bool) : Nat :=
  let (m, e) := maxFin f
  packFloat f neg m e

/-! ### Rounding (R54 to R56) -/

/-- The rounding field RND (R54). -/
inductive Rnd where
  | nearest | zero | stochastic
  deriving DecidableEq, Repr

def rndOf (nc : BitVec 4) : Rnd :=
  if nc.extractLsb' 0 2 = 0 then .nearest else if nc.extractLsb' 0 2 = 1 then .zero else .stochastic
def cvtSat (nc : BitVec 4) : Bool := nc.getLsbD 2
def intSat (nc : BitVec 4) : Bool := nc.getLsbD 3

/-- Formats into which R56 rounds stochastically. -/
def srFormat (f : Nat) : Bool := 3 ≤ f && f ≤ 9

/-- `m × 2^e` on the grid of spacing `2^q`: the multiple of the spacing and whether it differs. -/
def toGrid (rnd : Rnd) (r : Nat) (m : Nat) (e q : Int) : Nat × Bool :=
  if q ≤ e then (m * 2 ^ (e - q).toNat, false)
  else
    let d := 2 ^ (q - e).toNat
    let lo := m / d
    let rem := m % d
    let up := match rnd with
      | .nearest => decide (d < 2 * rem) || (decide (2 * rem = d) && lo % 2 == 1)
      | .zero => false
      | .stochastic => decide (r < rem * 65536 / d)
    (if up then lo + 1 else lo, rem != 0)

/-- Whether `m × 2^q` is above `m' × 2^e'`. -/
def above (m : Nat) (q : Int) (m' : Nat) (e' : Int) : Bool :=
  if e' ≤ q then decide (m' < m * 2 ^ (q - e').toNat) else decide (m' * 2 ^ (e' - q).toNat < m)

/-- The exponent of the grid of a format at a nonzero magnitude: never below that of its subnormals (R55). -/
def gridExp (f : Nat) (m : Nat) (e : Int) : Int :=
  let L := floatFmt f
  max ((Nat.log2 m : Int) + e - L.mb) (minExp f - L.mb)

/-- Conversion into a floating-point format (R58): bit pattern and flags. `r` is the draw of R56. -/
def toFloat (f : Nat) (nc : BitVec 4) (r : Nat) (v : Num) : Nat × Flags :=
  let L := floatFmt f
  let rnd := if rndOf nc = .stochastic && !srFormat f then .nearest else rndOf nc
  match v with
  | .nan => if L.hasNan then (L.canon, 0) else (maxBits f false, Fl.nv)
  | .inf neg =>
    if L.hasInf then (infBits f neg, 0)
    else if L.hasNan then (if cvtSat nc then (maxBits f neg, 0) else (L.canon, 0))
    else (maxBits f neg, Fl.nv)
  | .fin neg m e =>
    if m = 0 then (packFloat f neg 0 0, 0)
    else
      let q := gridExp f m e
      let (k, inexact) := toGrid rnd r m e q
      let (mm, me) := maxFin f
      if above k q mm me then
        let b :=
          if rnd = .zero || cvtSat nc then maxBits f neg
          else if L.hasInf then infBits f neg
          else if L.hasNan then L.canon
          else maxBits f neg
        (b, Fl.of)
      else (packFloat f neg k q, flagIf (inexact && decide (k < 2 ^ L.mb)) Fl.uf)

/-- Conversion into E8M0 (R59). -/
def toE8M0 (nc : BitVec 4) (v : Num) : Nat × Flags :=
  match v with
  | .nan => (0xFF, 0)
  | .inf _ => (if cvtSat nc then 0xFE else 0xFF, 0)
  | .fin _ m e =>
    if m = 0 then (0, 0)
    else
      let l := (Nat.log2 m : Int) + e + 127
      if l < 0 then (0, 0)
      else if 254 < l then (if cvtSat nc then 0xFE else 0xFF, Fl.of)
      else (l.toNat, 0)

/-- The range of an integer format (R46). -/
def intMin (f : Nat) : Int := if f = Fmt.uint8 then 0 else -((2 ^ (fmtWidth f - 1) : Nat) : Int)
def intMax (f : Nat) : Int := if f = Fmt.uint8 then 255 else ((2 ^ (fmtWidth f - 1) : Nat) : Int) - 1

/-- An integer fitted to an integer format under INT_SAT (R60, R67). -/
def fitInt (f : Nat) (sat : Bool) (i : Int) : Nat × Flags :=
  let w := fmtWidth f
  let pat (j : Int) : Nat := (j % ((2 ^ w : Nat) : Int)).toNat
  if intMin f ≤ i && i ≤ intMax f then (pat i, 0)
  else if sat then (pat (if i < intMin f then intMin f else intMax f), Fl.isat)
  else (pat i, Fl.iwrap)

/-- The integer to which a finite value rounds under RND, stochastic counting as nearest (R60, R149). -/
def roundInt (rnd : Rnd) (neg : Bool) (m : Nat) (e : Int) : Int :=
  let (k, _) := toGrid (if rnd = .stochastic then .nearest else rnd) 0 m e 0
  if neg then -(k : Int) else (k : Int)

/-- Conversion into an integer format (R60). -/
def toInt (f : Nat) (nc : BitVec 4) (v : Num) : Nat × Flags :=
  match v with
  | .nan => (0, Fl.nv)
  | .inf neg => ((fitInt f true (if neg then intMin f else intMax f)).1, Fl.nv)
  | .fin neg m e => fitInt f (intSat nc) (roundInt (rndOf nc) neg m e)

/-- Conversion of an exact value into any format under NC (R58 to R60). -/
def toFmt (f : Nat) (nc : BitVec 4) (r : Nat) (v : Num) : Nat × Flags :=
  if isFloat f then toFloat f nc r v else if f = Fmt.e8m0 then toE8M0 nc v else toInt f nc v

/-- Whether a write into a format under NC takes a draw of the generator (R56, R495). -/
def drawsFor (f : Nat) (nc : BitVec 4) : Bool := decide (rndOf nc = .stochastic) && srFormat f

/-! ### Arithmetic on exact values (R63 to R65) -/

/-- The signed mantissa of a finite value at an exponent not above its own. -/
def alignTo (neg : Bool) (m : Nat) (e q : Int) : Int :=
  let v : Int := (m * 2 ^ (e - q).toNat : Nat)
  if neg then -v else v

def Num.neg : Num → Num
  | .nan => .nan
  | .inf n => .inf (!n)
  | .fin n m e => .fin (!n) m e

def Num.abs : Num → Num
  | .nan => .nan
  | .inf _ => .inf false
  | .fin _ m e => .fin false m e

/-- The exact sum, and NV where ∞ meets −∞ (R64). -/
def Num.add (a b : Num) : Num × Flags :=
  match a, b with
  | .nan, _ => (.nan, 0)
  | _, .nan => (.nan, 0)
  | .inf n, .inf n' => if n = n' then (.inf n, 0) else (.nan, Fl.nv)
  | .inf n, _ => (.inf n, 0)
  | _, .inf n => (.inf n, 0)
  | .fin n m e, .fin n' m' e' =>
    if m = 0 && m' = 0 then (.fin (n && n') 0 0, 0)
    else
      let q := min e e'
      let t := alignTo n m e q + alignTo n' m' e' q
      (if t = 0 then .fin false 0 0 else .fin (decide (t < 0)) t.natAbs q, 0)

def Num.sub (a b : Num) : Num × Flags := a.add b.neg

/-- The exact product, and NV for 0 × ∞ (R64). -/
def Num.mul (a b : Num) : Num × Flags :=
  match a, b with
  | .nan, _ => (.nan, 0)
  | _, .nan => (.nan, 0)
  | .inf n, .inf n' => (.inf (n != n'), 0)
  | .inf n, .fin n' m _ => if m = 0 then (.nan, Fl.nv) else (.inf (n != n'), 0)
  | .fin n m _, .inf n' => if m = 0 then (.nan, Fl.nv) else (.inf (n != n'), 0)
  | .fin n m e, .fin n' m' e' => (.fin (n != n') (m * m') (e + e'), 0)

/-- The quotient with enough bits and a sticky last bit for any rounding to at most 64 bits (R64). -/
def Num.div (a b : Num) : Num × Flags :=
  match a, b with
  | .nan, _ => (.nan, 0)
  | _, .nan => (.nan, 0)
  | .inf _, .inf _ => (.nan, Fl.nv)
  | .inf n, .fin n' _ _ => (.inf (n != n'), 0)
  | .fin n _ _, .inf n' => (.fin (n != n') 0 0, 0)
  | .fin n m e, .fin n' m' e' =>
    if m' = 0 then (if m = 0 then (.nan, Fl.nv) else (.inf (n != n'), Fl.dz))
    else if m = 0 then (.fin (n != n') 0 0, 0)
    else
      let k := 96 + Nat.log2 m'
      let t := m * 2 ^ k
      (.fin (n != n') (2 * (t / m') + (if t % m' = 0 then 0 else 1)) (e - e' - k - 1), 0)

/-- The integer square root, one bit at a time from bit `k` down. -/
def isqrt (n : Nat) : Nat → Nat → Nat
  | 0, r => if (r + 1) * (r + 1) ≤ n then r + 1 else r
  | k + 1, r => let r' := r + 2 ^ (k + 1); isqrt n k (if r' * r' ≤ n then r' else r)

/-- The square root with a sticky last bit; −0 stays −0; NV below zero (R64, R148). -/
def Num.sqrt (a : Num) : Num × Flags :=
  match a with
  | .nan => (.nan, 0)
  | .inf neg => if neg then (.nan, Fl.nv) else (.inf false, 0)
  | .fin neg m e =>
    if m = 0 then (.fin neg 0 0, 0)
    else if neg then (.nan, Fl.nv)
    else
      let m1 := if e % 2 = 0 then m else 2 * m
      let e1 := if e % 2 = 0 then e else e - 1
      let t := m1 * 2 ^ 160
      let r := isqrt t (Nat.log2 t / 2 + 1) 0
      (.fin false (2 * r + (if r * r = t then 0 else 1)) (e1 / 2 - 80 - 1), 0)

/-- The order of two values; none where a NaN makes them unordered; −0 equals +0 (R65). -/
def Num.cmp (a b : Num) : Option Ordering :=
  match a, b with
  | .nan, _ => none
  | _, .nan => none
  | .inf n, .inf n' => some (if n = n' then .eq else if n then .lt else .gt)
  | .inf n, _ => some (if n then .lt else .gt)
  | _, .inf n => some (if n then .gt else .lt)
  | .fin n m e, .fin n' m' e' =>
    let q := min e e'
    some (compare (alignTo n m e q) (alignTo n' m' e' q))

def Num.isNan : Num → Bool
  | .nan => true
  | _ => false
def Num.isZero : Num → Bool
  | .fin _ m _ => m == 0
  | _ => false
def Num.sign : Num → Bool
  | .nan => false
  | .inf n => n
  | .fin n _ _ => n

/-- Minimum and maximum: NaN propagates, −0 is below +0 (R64, R81, R146). -/
def Num.min (a b : Num) : Num :=
  match a.cmp b with
  | none => .nan
  | some .lt => a
  | some .gt => b
  | some .eq => if a.sign then a else b
def Num.max (a b : Num) : Num :=
  match a.cmp b with
  | none => .nan
  | some .lt => b
  | some .gt => a
  | some .eq => if a.sign then b else a

/-- A value rounded to nearest into FP32 or FP64 (R66): the value and its flags. -/
def roundNear (f : Nat) (v : Num) : Num × Flags :=
  let (b, fl) := toFloat f 0 0 v
  (decodeFloat f b, fl)

/-- A block-scaled value widened into a floating-point format (R62): beyond the largest finite value it is an infinity,
where the format has any value but its finite ones; below the smallest subnormal it is rounded to nearest. -/
def Num.widen (f : Nat) (v : Num) : Num × Flags :=
  let (w, fl) := roundNear f v
  match v with
  | .fin neg _ _ => if fl &&& Fl.of ≠ 0 && (floatFmt f).hasNan then (.inf neg, fl) else (w, fl)
  | _ => (w, fl)

/-- The conditions EQ, NE, LT, LE, GT, GE, coded 0 to 5 (R65). -/
def condNum (c : Nat) (a b : Num) : Bool :=
  match a.cmp b with
  | none => c == 1
  | some o =>
    match c with
    | 0 => decide (o = .eq)
    | 1 => decide (o ≠ .eq)
    | 2 => decide (o = .lt)
    | 3 => decide (o ≠ .gt)
    | 4 => decide (o = .gt)
    | _ => decide (o ≠ .lt)

/-- The value of an element under a block scale code (R48); INT8 elements count in units of 2^−6. -/
def scaled (f : Nat) (code : Nat) (v : Num) : Num :=
  if code = 255 then .nan
  else match v with
    | .fin n m e => .fin n m (e + (code : Int) - 127 - (if f = Fmt.int8 then 6 else 0))
    | w => w

/-- The formats that MX allows (R48). -/
def mxFormat (f : Nat) : Bool := (5 ≤ f && f ≤ 9) || f == Fmt.int8

/-- Whether a format widens exactly into another (R61). -/
def widens (a b : Nat) : Bool :=
  a == b ||
  match a with
  | 0x9 => [7, 8, 5, 6, 4, 3, 2, 1, 0].contains b
  | 0x8 => [5, 4, 3, 2, 1, 0].contains b
  | 0x7 => [5, 6, 4, 3, 2, 1, 0].contains b
  | 0x5 => [4, 3, 2, 1, 0].contains b
  | 0x6 => [4, 3, 2, 1, 0].contains b
  | 0x4 => [2, 1, 0].contains b
  | 0x3 => [2, 1, 0].contains b
  | 0x2 => [1, 0].contains b
  | 0x1 => b == 0
  | 0xA => [3, 2, 1, 0].contains b
  | 0xE => [5, 4, 3, 2, 1, 0, 0xD, 0xC, 0xB].contains b
  | 0xD => [4, 3, 2, 1, 0, 0xC, 0xB].contains b
  | 0xF => [4, 3, 2, 1, 0, 0xC, 0xB].contains b
  | 0xC => [1, 0, 0xB].contains b
  | 0xB => b == 0
  | _ => false

/-- The exponent emax of R50 for an MX element format. -/
def emaxOf (f : Nat) : Int := match f with
  | 0x5 => 8 | 0x6 => 15 | 0x7 => 4 | 0x8 => 2 | 0x9 => 2 | _ => 0

/-- The magnitude of the larger of two values, NaN and infinities aside. -/
def magMax (a b : Nat × Int) : Nat × Int := if above a.1 a.2 b.1 b.2 then a else b

/-- A block written from wider values (R50): scale code, element patterns, flags. `rs` are the draws of its
elements. Whether a nonzero MXINT8 element that rounds to zero sets UF is not stated: it sets none (R68; DESIGN CHOICE,
log 98). -/
def writeBlock (f : Nat) (nc : BitVec 4) (vs : List Num) (rs : List Nat) : Nat × List Nat × Flags :=
  let bad := vs.any fun v => match v with | .fin _ _ _ => false | _ => true
  if bad then (0xFF, vs.map fun _ => 0, Fl.scaleNan)
  else
    let amax := vs.foldl (fun (acc : Nat × Int) v => match v with
      | .fin _ m e => if m = 0 then acc else magMax acc (m, e)
      | _ => acc) (0, 0)
    if amax.1 = 0 then (0, vs.map fun _ => 0, 0)
    else
      let x0 := (Nat.log2 amax.1 : Int) + amax.2 - emaxOf f
      let x := max (-127) (min 127 x0)
      let one (v : Num) (r : Nat) : Nat × Flags :=
        match v with
        | .fin n m e =>
          if f = Fmt.int8 then
            let rnd := rndOf nc
            let (k, _) := toGrid (if rnd = .stochastic then .nearest else rnd) 0 m (e - x + 6) 0
            let i : Int := if n then -(k : Int) else k
            let (b, fl) := fitInt f true i
            (b, if fl = 0 then 0 else Fl.of)
          else
            let (b, fl) := toFloat f (nc ||| 4) r (.fin n m (e - x))
            (b, fl)
        | _ => (0, 0)
      let es := (List.range vs.length).map fun i => one (nth .nan vs i) (nth 0 rs i)
      ((x + 127).toNat, es.map (·.1), es.foldl (fun acc p => acc ||| p.2) 0)

end Sys2Proof.Machine
end

