-- ==== Sys2Proof/Machine/Elementary.lean ====
section
/-! DEFINITION. The real functions of R148, R182 and R189 to more than 200 bits, and the choice of a result among the values
of a format that an accuracy allows [log 10]. Fixed-point values count units of 2^−320. -/

namespace Sys2Proof.Machine

/-! ### Fixed point -/

/-- One, ln 2, π / 2 and log2 e. -/
def fxOne : Nat := 2 ^ 320
def fxLn2 : Nat := 0xb17217f7d1cf79abc9e3b39803f2f6af40f343267298b62d8a0d175b8baafa2be7b876206debac98
def fxHalfPi : Nat := 0x1921fb54442d18469898cc51701b839a252049c1114cf98e804177d4c76273644a29410f31c6809bb
def fxLog2e : Nat := 0x171547652b82fe1777d0ffda0d23a7d11d6aef551bad2b4b1164a2cd9a342648fbc3887eeaa2ed9ac

/-- The product of two fixed-point values. -/
def fxMul (a b : Int) : Int := a * b / (fxOne : Int)

/-- A finite value in units of 2^−320, rounded down; magnitudes of 2^15 and above count as 2^15, where every exponential
has left the range of FP64. -/
def fxOf (neg : Bool) (m : Nat) (e : Int) : Int :=
  let (m, e) := if 15 ≤ (Nat.log2 m : Int) + e then (1, (15 : Int)) else (m, e)
  let i : Int := if neg then -(m : Int) else m
  if 0 ≤ e + 320 then i * (2 ^ (e + 320).toNat : Nat) else i / (2 ^ (-(e + 320)).toNat : Nat)

/-- A fixed-point value as a number. -/
def fxNum (i : Int) : Num := .fin (decide (i < 0)) i.natAbs (-320)

/-- The series of the exponential from its `k`-th term: term and sum so far. -/
def expSeries (r : Int) : Nat → Nat → Int → Int → Int
  | 0, _, _, acc => acc
  | fuel + 1, k, t, acc =>
    let t' := fxMul t r / (k : Int)
    expSeries r fuel (k + 1) t' (acc + t')
/-- e^r for a fixed-point r of 0 to ln 2. -/
def fxExp (r : Int) : Int := expSeries r 80 1 fxOne fxOne

/-- Σ z^(2k+1) / (2k+1) from its `k`-th term: power and sum so far. -/
def atanhSeries (z2 : Int) : Nat → Nat → Int → Int → Int
  | 0, _, _, acc => acc
  | fuel + 1, k, t, acc => atanhSeries z2 fuel (k + 1) (fxMul t z2) (acc + t / (2 * k + 1 : Int))
/-- m × 2^e, m ≠ 0, as 2^k × x with x near one: k and ln x. -/
def fxLn (m : Nat) (e : Int) : Int × Int :=
  let l := Nat.log2 m
  let x := m * fxOne / 2 ^ l
  let (k, x) := if 3 * fxOne < 2 * x then ((l : Int) + e + 1, x / 2) else ((l : Int) + e, x)
  let z := ((x : Int) - fxOne) * fxOne / ((x : Int) + fxOne)
  (k, 2 * atanhSeries (fxMul z z) 76 0 z 0)

/-- The alternating series of the sine and the cosine from its `k`-th term. -/
def circleSeries (r2 : Int) : Nat → Nat → Int → Int → Int
  | 0, _, _, acc => acc
  | fuel + 1, k, t, acc =>
    let t' := -(fxMul t r2 / ((k * (k + 1) : Nat) : Int))
    circleSeries r2 fuel (k + 2) t' (acc + t')
/-- Sine and cosine of a fixed-point angle. -/
def fxCircle (i : Int) : Int × Int :=
  let h : Int := fxHalfPi
  let k := (2 * i + h) / (2 * h)
  let r := i - k * h
  let r2 := fxMul r r
  let s := circleSeries r2 40 2 r r
  let c := circleSeries r2 40 1 fxOne fxOne
  if k % 4 = 0 then (s, c) else if k % 4 = 1 then (c, -s) else if k % 4 = 2 then (-s, -c) else (-c, s)

/-! ### Functions on finite values -/

/-- The quotient of two finite values, the divisor nonzero, to 300 bits and a sticky last bit. -/
def Num.quo (a b : Num) : Num :=
  match a, b with
  | .fin n m e, .fin n' m' e' =>
    let k := 300 + Nat.log2 m'
    let t := m * 2 ^ k
    .fin (n != n') (2 * (t / m') + b2n (t % m' != 0)) (e - e' - k - 1)
  | _, _ => .nan

/-- 2^v, exact for an integer v. -/
def exp2Real (v : Num) : Num :=
  match v with
  | .fin neg m e =>
    let i := fxOf neg m e
    .fin false (fxExp (fxMul (i % (fxOne : Int)) fxLn2)).toNat (i / (fxOne : Int) - 320)
  | w => w
/-- e^v. -/
def expReal (v : Num) : Num :=
  match v with
  | .fin neg m e =>
    let i := fxOf neg m e
    let k := fxMul i fxLog2e / (fxOne : Int)
    .fin false (fxExp (i - k * fxLn2)).toNat (k - 320)
  | w => w
/-- ln v and log2 v of a positive v. -/
def lnReal (v : Num) : Num :=
  match v with
  | .fin _ m e =>
    let (k, x) := fxLn m e
    fxNum (k * fxLn2 + x)
  | w => w
def log2Real (v : Num) : Num :=
  match v with
  | .fin _ m e =>
    let (k, x) := fxLn m e
    fxNum (k * fxOne + x * fxOne / fxLn2)
  | w => w

/-- One. -/
def oneNum : Num := .fin false 1 0
/-- v − v³ × c for a small v, c by its mantissa in units of 2^−66. -/
def cubicReal (v : Num) (c : Nat) : Num := (v.sub ((v.mul (v.mul v).1).1.mul (.fin false c (-66))).1).1
/-- Whether a magnitude lies below 2^−60, where a sine or tangent would lose its leading bits in fixed point. -/
def small60 (m : Nat) (e : Int) : Bool := decide ((Nat.log2 m : Int) + e < -60)

/-- sin v, for a magnitude of at most 2^16. -/
def sinReal (v : Num) : Num :=
  match v with
  | .fin neg m e =>
    if m = 0 then v
    else if small60 m e then cubicReal v 12297829382473034411
    else
      let i : Int := if neg then -(m : Int) else m
      fxNum (fxCircle (if 0 ≤ e + 320 then i * (2 ^ (e + 320).toNat : Nat) else i / (2 ^ (-(e + 320)).toNat : Nat))).1
  | w => w
/-- cos v likewise. -/
def cosReal (v : Num) : Num :=
  match v with
  | .fin neg m e =>
    let i : Int := if neg then -(m : Int) else m
    fxNum (fxCircle (if 0 ≤ e + 320 then i * (2 ^ (e + 320).toNat : Nat) else i / (2 ^ (-(e + 320)).toNat : Nat))).2
  | w => w
/-- tanh v = (e^2v − 1) / (e^2v + 1). -/
def tanhReal (v : Num) : Num :=
  match v with
  | .fin neg m e =>
    if m = 0 then v
    else if small60 m e then cubicReal v 24595658764946068821
    else
      let x := expReal (.fin false m (e + 1))
      let r := ((x.sub oneNum).1).quo (x.add oneNum).1
      if neg then r.neg else r
  | w => w
/-- 1 / (1 + e^−v). -/
def sigmoidReal (v : Num) : Num := oneNum.quo ((expReal v.neg).add oneNum).1
/-- v / (1 + e^−v). -/
def siluReal (v : Num) : Num := (v.mul (sigmoidReal v)).1
/-- 0.5 v (1 + tanh u) = v / (1 + e^−2u) with u = 0.797884561 (v + 0.044715 v³), in units of 10^−15. -/
def geluReal (v : Num) : Num :=
  let w := ((v.mul (ofInt 1000000)).1.add (((v.mul (v.mul v).1).1.mul (ofInt 44715)).1)).1
  (v.mul (sigmoidReal ((w.mul (ofInt 1595769122)).1.quo (ofInt 1000000000000000)))).1

/-! ### A result to an accuracy -/

/-- The integers of `lo ..` below `lo + n`. -/
def intSpan (lo : Int) (n : Nat) : List Int := (List.range n).map fun (i : Nat) => lo + (i : Int)

/-- Whether a value is one of a floating-point format, or lies beyond its largest. -/
def inFormat (f : Nat) (v : Num) : Bool :=
  let w := decodeFloat f (toFloat f 0 0 v).1
  match w with
  | .inf _ => true
  | _ => decide (w.cmp v = some .eq)

/-- The values of a format within `k` units in the last place of an exact nonzero value, in rising order; a unit is that of
the exact value's binade, and half units reach the binade below. -/
def nearby (f k : Nat) (neg : Bool) (m : Nat) (e : Int) : List Num :=
  let q := gridExp f m e - 1
  let (lo, hi) := if q ≤ e then (m * 2 ^ (e - q).toNat, m * 2 ^ (e - q).toNat)
    else (ceilDiv m (2 ^ (q - e).toNat), m / 2 ^ (q - e).toNat)
  let ys := (intSpan ((lo : Int) - 2 * k) (hi + 4 * k + 1 - lo)).map fun i => Num.fin (decide (i < 0) != neg) i.natAbs q
  ys.filter (inFormat f)

/-- A value of a format within `k` units in the last place of an exact one, by a free choice; an exact zero is taken
exactly (R148). -/
def within (f k choice : Nat) (v : Num) : Num :=
  match v with
  | .fin neg m e =>
    if m = 0 then v
    else
      let ys := nearby f k neg m e
      (roundNear f (nth v ys (choice % ys.length))).1
  | w => w

end Sys2Proof.Machine
end

