-- ==== Sys2Proof/Machine/RegTable.lean ====
section
/-! DEFINITION. The register tables of the manual: for each register of control space its place (R467 and the index of
the register map) and its fields with access code and reset value. Reserved fields are not listed. A reset value that
the tables give as a fused, flash or ledger value stands as 0 here and is loaded by the start (log 2). -/

namespace Sys2Proof.Machine

/-- The access codes (R5). -/
inductive Acc where
  | ro | rw | w1c | w1s | rc | wo
  deriving DecidableEq, Repr

/-- A field of a register: lowest bit, width, access code, reset value. -/
structure Field where
  lo    : Nat
  w     : Nat
  acc   : Acc
  reset : Nat
  deriving DecidableEq, Repr

/-- A run of registers of one kind in a block: first offset, distance, number, fields. -/
structure RegRow where
  off    : Nat
  stride : Nat
  count  : Nat
  fields : List Field
  deriving DecidableEq, Repr

/-- The blocks of control space (R467). -/
inductive Block where
  | mgmt | part | pool | telem | hbm | place | sched | audit | sec | boot | ras | pwr | eth | taosh | quoin | chase | press
  deriving DecidableEq, Repr

/-- PRESS.SR_SEED. -/
def fPressSrSeed : List Field :=
  [⟨0, 64, .rw, 0x0000000000000001⟩]
/-- PRESS.NUM_STATUS. -/
def fPressNumStatus : List Field :=
  [⟨0, 1, .w1c, 0⟩, ⟨1, 1, .w1c, 0⟩, ⟨2, 1, .w1c, 0⟩, ⟨3, 1, .w1c, 0⟩, ⟨4, 1, .w1c, 0⟩, ⟨5, 1, .w1c, 0⟩, ⟨6, 1, .w1c, 0⟩, ⟨7, 1, .w1c, 0⟩]
/-- PRESS.NUM_COUNT. -/
def fPressNumCount : List Field :=
  [⟨0, 32, .ro, 0⟩]
/-- PRESS.FAULT_PC. -/
def fPressFaultPc : List Field :=
  [⟨0, 48, .ro, 0⟩]
/-- PRESS.FAULT_INFO. -/
def fPressFaultInfo : List Field :=
  [⟨0, 16, .ro, 0⟩, ⟨16, 3, .ro, 0⟩, ⟨19, 1, .ro, 0⟩, ⟨20, 1, .ro, 0⟩]
/-- PRESS.FAULT_VA. -/
def fPressFaultVa : List Field :=
  [⟨0, 64, .ro, 0⟩]
/-- PRESS.TYMPAN_CAP. -/
def fPressTympanCap : List Field :=
  [⟨0, 8, .ro, 16⟩, ⟨8, 8, .ro, 64⟩]
/-- PRESS.TYMPAN_BOUND. -/
def fPressTympanBound : List Field :=
  [⟨0, 5, .ro, 0⟩, ⟨8, 5, .ro, 0⟩, ⟨16, 5, .ro, 0⟩, ⟨24, 5, .ro, 0⟩]
/-- PRESS.TYMPAN_MAP. -/
def fPressTympanMap : List Field :=
  [⟨0, 64, .ro, 0⟩]
/-- CHASE.WC_CLAIM. -/
def fChaseWcClaim : List Field :=
  [⟨0, 1, .ro, 0⟩, ⟨32, 32, .ro, 0⟩]
/-- PRESS.PROOF_STATUS. -/
def fPressProofStatus : List Field :=
  [⟨0, 1, .w1c, 0⟩]
/-- PRESS.PROOF_COUNT. -/
def fPressProofCount : List Field :=
  [⟨0, 32, .ro, 0⟩]
/-- PRESS.PROOF_LOC. -/
def fPressProofLoc : List Field :=
  [⟨0, 2, .ro, 0⟩, ⟨2, 6, .ro, 0⟩, ⟨8, 7, .ro, 0⟩, ⟨16, 7, .ro, 0⟩, ⟨23, 1, .ro, 0⟩]
/-- PRESS.ROLLER_STATUS. -/
def fPressRollerStatus : List Field :=
  [⟨0, 1, .w1c, 0⟩]
/-- PRESS.ROLLER_COUNT. -/
def fPressRollerCount : List Field :=
  [⟨0, 32, .ro, 0⟩]
/-- CHASE.GALLEY_COUNT. -/
def fChaseGalleyCount : List Field :=
  [⟨0, 32, .ro, 0⟩, ⟨32, 32, .ro, 0⟩]
/-- CHASE.GALLEY_AUTOSWAP. -/
def fChaseGalleyAutoswap : List Field :=
  [⟨0, 32, .ro, 0⟩, ⟨32, 32, .ro, 0⟩]
/-- PRESS.PROOF_REGION. -/
def fPressProofRegion : List Field :=
  [⟨0, 6, .ro, 0⟩, ⟨6, 1, .ro, 0⟩, ⟨8, 5, .ro, 0⟩, ⟨16, 5, .ro, 0⟩, ⟨32, 32, .ro, 0⟩]
/-- CHASE.PROOF_OPEN. -/
def fChaseProofOpen : List Field :=
  [⟨0, 64, .ro, 0⟩]
/-- CHASE.PROOF_COUNT. -/
def fChaseProofCount : List Field :=
  [⟨0, 32, .ro, 0⟩, ⟨32, 32, .ro, 0⟩]
/-- CHASE.PROOF_REFUSED. -/
def fChaseProofRefused : List Field :=
  [⟨0, 32, .ro, 0⟩]
/-- CHASE.CAB_COUNT. -/
def fChaseCabCount : List Field :=
  [⟨0, 32, .ro, 0⟩, ⟨32, 32, .ro, 0⟩]
/-- CHASE.CAB_ECC. -/
def fChaseCabEcc : List Field :=
  [⟨0, 32, .ro, 0⟩, ⟨32, 16, .ro, 0⟩, ⟨48, 16, .ro, 0⟩]
/-- PRESS.SLUG_STAT. -/
def fPressSlugStat : List Field :=
  [⟨0, 32, .ro, 0⟩, ⟨32, 32, .ro, 0⟩]
/-- PLACE.CFG. -/
def fPlaceCfg : List Field :=
  [⟨0, 1, .rw, 0⟩, ⟨16, 16, .rw, 0x03E8⟩, ⟨32, 16, .rw, 0x0040⟩]
/-- PLACE.THRESH. -/
def fPlaceThresh : List Field :=
  [⟨0, 16, .rw, 0x3000⟩, ⟨16, 16, .rw, 0x0800⟩, ⟨32, 7, .rw, 90⟩, ⟨40, 7, .rw, 80⟩, ⟨48, 8, .rw, 8⟩]
/-- PLACE.COUNT_A. -/
def fPlaceCountA : List Field :=
  [⟨0, 32, .ro, 0⟩, ⟨32, 32, .ro, 0⟩]
/-- PLACE.COUNT_B. -/
def fPlaceCountB : List Field :=
  [⟨0, 16, .ro, 0⟩, ⟨16, 16, .ro, 0⟩, ⟨32, 16, .ro, 0⟩, ⟨48, 16, .ro, 0⟩]
/-- PLACE.POISON. -/
def fPlacePoison : List Field :=
  [⟨0, 16, .ro, 0⟩, ⟨16, 16, .ro, 0⟩, ⟨32, 16, .ro, 0⟩]
/-- PLACE.STATUS. -/
def fPlaceStatus : List Field :=
  [⟨0, 1, .w1c, 0⟩, ⟨1, 1, .ro, 0⟩, ⟨32, 32, .ro, 0⟩]
/-- HBM.LAYOUT. -/
def fHbmLayout : List Field :=
  [⟨0, 1, .ro, 1⟩, ⟨8, 8, .ro, 0⟩, ⟨16, 1, .ro, 0⟩, ⟨32, 10, .ro, 512⟩]
/-- HBM.GROUP_OWNER. -/
def fHbmGroupOwner : List Field :=
  [⟨0, 64, .ro, 0xFFFFFFFFFFFFFFFF⟩]
/-- HBM.RETRAIN_CFG. -/
def fHbmRetrainCfg : List Field :=
  [⟨0, 16, .rw, 50⟩, ⟨16, 8, .rw, 4⟩, ⟨24, 3, .rw, 4⟩]
/-- HBM.REPAIR_CFG. -/
def fHbmRepairCfg : List Field :=
  [⟨0, 16, .rw, 64⟩, ⟨16, 8, .rw, 8⟩, ⟨32, 8, .rw, 24⟩]
/-- HBM.ATOMIC_COUNT. -/
def fHbmAtomicCount : List Field :=
  [⟨0, 32, .ro, 0⟩, ⟨32, 32, .ro, 0⟩]
/-- HBM.STATUS. -/
def fHbmStatus : List Field :=
  [⟨0, 1, .w1c, 0⟩, ⟨1, 1, .ro, 0⟩, ⟨32, 32, .ro, 0⟩]
/-- HBM.LOOP_CTL. -/
def fHbmLoopCtl : List Field :=
  [⟨0, 9, .rw, 0⟩, ⟨9, 2, .rw, 0⟩, ⟨11, 1, .w1s, 0⟩, ⟨12, 1, .ro, 0⟩, ⟨13, 1, .ro, 0⟩, ⟨32, 32, .ro, 0⟩]
/-- HBM.REG. -/
def fHbmReg : List Field :=
  [⟨0, 1, .rw, 0⟩, ⟨1, 1, .rw, 0⟩, ⟨8, 7, .rw, 0⟩, ⟨16, 8, .rw, 1⟩]
/-- HBM.REG_STAT. -/
def fHbmRegStat : List Field :=
  [⟨0, 32, .ro, 0⟩, ⟨32, 32, .ro, 0⟩]
/-- HBM.PC_STATE. -/
def fHbmPcState : List Field :=
  [⟨0, 2, .ro, 0⟩, ⟨2, 4, .ro, 0⟩, ⟨6, 4, .ro, 0⟩, ⟨16, 32, .ro, 0⟩, ⟨48, 16, .ro, 0⟩]
/-- SCHED.PRESS_STATE. -/
def fSchedPressState : List Field :=
  [⟨0, 12, .ro, 0⟩, ⟨12, 1, .ro, 0⟩, ⟨13, 3, .ro, 0⟩, ⟨16, 12, .ro, 0⟩, ⟨28, 1, .ro, 0⟩, ⟨32, 12, .ro, 0⟩, ⟨44, 1, .ro, 0⟩]
/-- SCHED.PREEMPT_STAT. -/
def fSchedPreemptStat : List Field :=
  [⟨0, 32, .ro, 0⟩, ⟨32, 32, .rc, 0⟩]
/-- SCHED.TEARDOWN_STAT. -/
def fSchedTeardownStat : List Field :=
  [⟨0, 32, .ro, 0⟩, ⟨32, 16, .ro, 0⟩, ⟨48, 16, .ro, 0⟩]
/-- ETH.PORT_CFG. -/
def fEthPortCfg : List Field :=
  [⟨0, 48, .rw, 0⟩, ⟨48, 2, .rw, 0⟩, ⟨50, 1, .rw, 1⟩]
/-- ETH.PORT_STATUS. -/
def fEthPortStatus : List Field :=
  [⟨0, 1, .ro, 0⟩, ⟨1, 2, .ro, 0⟩, ⟨32, 16, .ro, 0⟩, ⟨48, 16, .ro, 0⟩]
/-- ETH.LOOP_CTL. -/
def fEthLoopCtl : List Field :=
  [⟨0, 3, .rw, 0⟩, ⟨3, 1, .rw, 0⟩, ⟨4, 1, .w1s, 0⟩, ⟨5, 1, .ro, 0⟩, ⟨6, 1, .ro, 0⟩, ⟨16, 16, .rw, 1000⟩, ⟨32, 32, .ro, 0⟩]
/-- TAOSH.CC_CFG. -/
def fTaoshCcCfg : List Field :=
  [⟨0, 7, .rw, 96⟩, ⟨8, 5, .rw, 4⟩, ⟨16, 16, .rw, 10⟩, ⟨32, 16, .rw, 20⟩, ⟨48, 16, .rw, 1000⟩]
/-- TAOSH.COUNT. -/
def fTaoshCount : List Field :=
  [⟨0, 1, .w1c, 0⟩, ⟨16, 16, .ro, 0⟩, ⟨32, 16, .ro, 0⟩, ⟨48, 16, .ro, 0⟩]
/-- QUOIN.TOPO. -/
def fQuoinTopo : List Field :=
  [⟨0, 4, .rw, 15⟩, ⟨4, 4, .rw, 15⟩, ⟨8, 4, .rw, 15⟩, ⟨12, 4, .rw, 15⟩]
/-- QUOIN.CFG. -/
def fQuoinCfg : List Field :=
  [⟨0, 16, .rw, 10000⟩, ⟨16, 8, .rw, 8⟩]
/-- QUOIN.UPD_SEED. -/
def fQuoinUpdSeed : List Field :=
  [⟨0, 64, .rw, 0x0000000000000001⟩]
/-- QUOIN.STATUS. -/
def fQuoinStatus : List Field :=
  [⟨0, 1, .w1c, 0⟩, ⟨32, 32, .ro, 0⟩]
/-- QUOIN.DMA_TOKENS. -/
def fQuoinDmaTokens : List Field :=
  [⟨0, 16, .ro, 16384⟩]
/-- QUOIN.UPD_COUNT. -/
def fQuoinUpdCount : List Field :=
  [⟨0, 32, .ro, 0⟩, ⟨32, 32, .ro, 0⟩]
/-- QUOIN.LINK_CFG. -/
def fQuoinLinkCfg : List Field :=
  [⟨0, 1, .rw, 1⟩, ⟨1, 2, .rw, 0⟩, ⟨3, 1, .rw, 0⟩, ⟨4, 1, .rw, 0⟩]
/-- QUOIN.LINK_STATUS. -/
def fQuoinLinkStatus : List Field :=
  [⟨0, 3, .ro, 0⟩, ⟨3, 1, .ro, 0⟩, ⟨4, 1, .ro, 0⟩, ⟨16, 16, .ro, 0⟩, ⟨32, 16, .ro, 0⟩, ⟨48, 16, .ro, 0⟩]
/-- QUOIN.LINK_PEER. -/
def fQuoinLinkPeer : List Field :=
  [⟨0, 16, .ro, 0⟩, ⟨16, 5, .ro, 0⟩, ⟨21, 1, .ro, 0⟩]
/-- QUOIN.LOOP_CTL. -/
def fQuoinLoopCtl : List Field :=
  [⟨0, 5, .rw, 0⟩, ⟨5, 2, .rw, 0⟩, ⟨7, 1, .rw, 0⟩, ⟨8, 1, .w1s, 0⟩, ⟨9, 1, .ro, 0⟩, ⟨10, 1, .ro, 0⟩, ⟨16, 16, .rw, 1000⟩, ⟨32, 32, .ro, 0⟩]
/-- AUDIT.CTL. -/
def fAuditCtl : List Field :=
  [⟨0, 8, .rw, 0x01⟩, ⟨8, 16, .rw, 0⟩, ⟨24, 1, .rw, 0⟩, ⟨25, 1, .w1s, 0⟩, ⟨26, 1, .ro, 0⟩, ⟨27, 1, .ro, 0⟩, ⟨28, 1, .ro, 0⟩, ⟨29, 1, .ro, 0⟩]
/-- AUDIT.A. -/
def fAuditA : List Field :=
  [⟨0, 64, .ro, 0⟩]
/-- AUDIT.B. -/
def fAuditB : List Field :=
  [⟨0, 64, .ro, 0⟩]
/-- AUDIT.C. -/
def fAuditC : List Field :=
  [⟨0, 64, .ro, 0⟩]
/-- AUDIT.LOST. -/
def fAuditLost : List Field :=
  [⟨0, 32, .ro, 0⟩]
/-- AUDIT.FLAG_COUNT. -/
def fAuditFlagCount : List Field :=
  [⟨0, 32, .ro, 0⟩]
/-- SEC.LIFECYCLE. -/
def fSecLifecycle : List Field :=
  [⟨0, 3, .ro, 0⟩, ⟨3, 6, .ro, 0⟩, ⟨32, 32, .ro, 0⟩]
/-- SEC.MODE. -/
def fSecMode : List Field :=
  [⟨0, 1, .ro, 0⟩, ⟨1, 1, .ro, 0⟩, ⟨2, 2, .ro, 0⟩, ⟨8, 8, .ro, 0⟩]
/-- SEC.PART_STATE. -/
def fSecPartState : List Field :=
  [⟨0, 32, .ro, 0⟩]
/-- SEC.KEY_EPOCH. -/
def fSecKeyEpoch : List Field :=
  [⟨0, 64, .ro, 0⟩]
/-- BOOT.STATUS. -/
def fBootStatus : List Field :=
  [⟨0, 5, .ro, 0⟩, ⟨5, 1, .ro, 0⟩, ⟨6, 1, .ro, 0⟩, ⟨8, 8, .ro, 0⟩, ⟨32, 32, .ro, 0⟩]
/-- BOOT.SKIP. -/
def fBootSkip : List Field :=
  [⟨0, 24, .rw, 0⟩]
/-- BOOT.ALT. -/
def fBootAlt : List Field :=
  [⟨0, 24, .rw, 0⟩, ⟨32, 16, .rw, 0⟩]
/-- BOOT.LEDGER_CTL. -/
def fBootLedgerCtl : List Field :=
  [⟨0, 1, .w1s, 0⟩, ⟨1, 1, .w1s, 0⟩]
/-- BOOT.SUSPECT. -/
def fBootSuspect : List Field :=
  [⟨0, 64, .rw, 0⟩]
/-- RAS.COUNT. -/
def fRasCount : List Field :=
  [⟨0, 32, .ro, 0⟩]
/-- RAS.CFG. -/
def fRasCfg : List Field :=
  [⟨0, 8, .rw, 4⟩, ⟨8, 1, .rw, 0⟩]
/-- RAS.RING. -/
def fRasRing : List Field :=
  [⟨0, 12, .ro, 0⟩, ⟨32, 32, .ro, 0⟩]
/-- PWR.CAP. -/
def fPwrCap : List Field :=
  [⟨0, 12, .rw, 3900⟩, ⟨16, 12, .rw, 1000⟩]
/-- PWR.LIMIT. -/
def fPwrLimit : List Field :=
  [⟨0, 12, .ro, 3900⟩, ⟨16, 1, .ro, 0⟩, ⟨17, 1, .ro, 0⟩, ⟨18, 1, .ro, 0⟩, ⟨19, 1, .ro, 0⟩, ⟨20, 1, .ro, 0⟩, ⟨24, 5, .ro, 16⟩]
/-- PWR.STATUS. -/
def fPwrStatus : List Field :=
  [⟨0, 1, .w1c, 0⟩, ⟨1, 1, .w1c, 0⟩, ⟨2, 1, .w1c, 0⟩, ⟨3, 1, .w1c, 0⟩, ⟨4, 1, .w1c, 0⟩]
/-- PWR.COUNT_A. -/
def fPwrCountA : List Field :=
  [⟨0, 32, .ro, 0⟩, ⟨32, 32, .ro, 0⟩]
/-- PWR.COUNT_B. -/
def fPwrCountB : List Field :=
  [⟨0, 32, .ro, 0⟩]
/-- PWR.COUNT_C. -/
def fPwrCountC : List Field :=
  [⟨0, 32, .ro, 0⟩, ⟨32, 32, .ro, 0⟩]
/-- PWR.INPUT. -/
def fPwrInput : List Field :=
  [⟨0, 16, .ro, 0⟩, ⟨16, 16, .ro, 0⟩, ⟨32, 16, .ro, 0⟩, ⟨48, 16, .rc, 0⟩]
/-- PWR.TEMP. -/
def fPwrTemp : List Field :=
  [⟨0, 16, .ro, 0⟩, ⟨16, 16, .rc, 0⟩, ⟨32, 3, .ro, 0⟩]
/-- MGMT.DEVICE_ID. -/
def fMgmtDeviceId : List Field :=
  [⟨0, 16, .rw, 0⟩, ⟨16, 1, .ro, 0⟩, ⟨17, 1, .w1s, 0⟩]
/-- MGMT.CFG_ERR. -/
def fMgmtCfgErr : List Field :=
  [⟨0, 1, .w1c, 0⟩, ⟨1, 1, .w1c, 0⟩, ⟨32, 32, .ro, 0⟩]
/-- MGMT.IDENT. -/
def fMgmtIdent : List Field :=
  [⟨0, 16, .ro, 0⟩, ⟨16, 16, .ro, 0⟩, ⟨32, 8, .ro, 0⟩]
/-- PART.CFG. -/
def fPartCfg : List Field :=
  [⟨0, 16, .ro, 0⟩, ⟨16, 32, .ro, 0⟩, ⟨48, 1, .ro, 0⟩, ⟨49, 1, .ro, 0⟩]
/-- PART.LIMITS. -/
def fPartLimits : List Field :=
  [⟨0, 13, .ro, 0⟩, ⟨16, 13, .ro, 0⟩, ⟨32, 10, .ro, 0⟩, ⟨48, 10, .ro, 0⟩]
/-- POOL. -/
def fPool : List Field :=
  [⟨0, 32, .ro, 0⟩, ⟨32, 32, .ro, 0⟩]
/-- TELEM.MC_CYCLE. -/
def fTelemMcCycle : List Field :=
  [⟨0, 64, .ro, 0⟩]
/-- TELEM.PRESSES. -/
def fTelemPresses : List Field :=
  [⟨0, 8, .ro, 0⟩, ⟨8, 8, .ro, 0⟩]
/-- TELEM.HBM_RD. -/
def fTelemHbmRd : List Field :=
  [⟨0, 64, .ro, 0⟩]
/-- TELEM.HBM_WR. -/
def fTelemHbmWr : List Field :=
  [⟨0, 64, .ro, 0⟩]
/-- TELEM.PORT. -/
def fTelemPort : List Field :=
  [⟨0, 32, .ro, 0⟩, ⟨32, 32, .ro, 0⟩]
/-- TELEM.QUOIN. -/
def fTelemQuoin : List Field :=
  [⟨0, 64, .ro, 0⟩]

/-- The registers of a block but for the POOL groups, which `fieldsAt` gives. -/
def blockRows : Block → List RegRow
  | .mgmt => [⟨0x0, 0x8, 1, fMgmtDeviceId⟩,
    ⟨0x8, 0x8, 1, fMgmtCfgErr⟩,
    ⟨0x10, 0x8, 1, fMgmtIdent⟩]
  | .part => [⟨0x0, 0x40, 8, fPartCfg⟩,
    ⟨0x8, 0x40, 8, fPartLimits⟩]
  | .pool => []
  | .telem => [⟨0x0, 0x8, 1, fTelemMcCycle⟩,
    ⟨0x8, 0x8, 1, fTelemPresses⟩,
    ⟨0x10, 0x8, 1, fTelemHbmRd⟩,
    ⟨0x18, 0x8, 1, fTelemHbmWr⟩,
    ⟨0x20, 0x8, 1, fTelemPort⟩,
    ⟨0x28, 0x8, 1, fTelemQuoin⟩]
  | .hbm => [⟨0x0, 0x8, 1, fHbmLayout⟩,
    ⟨0x8, 0x8, 2, fHbmGroupOwner⟩,
    ⟨0x20, 0x8, 1, fHbmRetrainCfg⟩,
    ⟨0x28, 0x8, 1, fHbmRepairCfg⟩,
    ⟨0x30, 0x8, 1, fHbmAtomicCount⟩,
    ⟨0x38, 0x8, 1, fHbmStatus⟩,
    ⟨0x40, 0x8, 1, fHbmLoopCtl⟩,
    ⟨0x100, 0x10, 8, fHbmReg⟩,
    ⟨0x108, 0x10, 8, fHbmRegStat⟩,
    ⟨0x1000, 0x8, 512, fHbmPcState⟩]
  | .place => [⟨0x0, 0x40, 8, fPlaceCfg⟩,
    ⟨0x8, 0x40, 8, fPlaceThresh⟩,
    ⟨0x10, 0x40, 8, fPlaceCountA⟩,
    ⟨0x18, 0x40, 8, fPlaceCountB⟩,
    ⟨0x20, 0x40, 8, fPlacePoison⟩,
    ⟨0x28, 0x40, 8, fPlaceStatus⟩]
  | .sched => [⟨0x0, 0x8, 128, fSchedPressState⟩,
    ⟨0x400, 0x8, 1, fSchedPreemptStat⟩,
    ⟨0x408, 0x8, 1, fSchedTeardownStat⟩]
  | .audit => [⟨0x0, 0x8, 1, fAuditCtl⟩,
    ⟨0x8, 0x8, 1, fAuditA⟩,
    ⟨0x10, 0x8, 1, fAuditB⟩,
    ⟨0x18, 0x8, 1, fAuditC⟩,
    ⟨0x20, 0x8, 1, fAuditLost⟩,
    ⟨0x100, 0x8, 2, fAuditFlagCount⟩]
  | .sec => [⟨0x0, 0x8, 1, fSecLifecycle⟩,
    ⟨0x8, 0x8, 1, fSecMode⟩,
    ⟨0x10, 0x8, 1, fSecPartState⟩,
    ⟨0x20, 0x8, 8, fSecKeyEpoch⟩]
  | .boot => [⟨0x0, 0x8, 1, fBootStatus⟩,
    ⟨0x8, 0x8, 1, fBootSkip⟩,
    ⟨0x10, 0x8, 1, fBootAlt⟩,
    ⟨0x18, 0x8, 1, fBootLedgerCtl⟩,
    ⟨0x20, 0x8, 2, fBootSuspect⟩]
  | .ras => [⟨0x0, 0x8, 5, fRasCount⟩,
    ⟨0x40, 0x8, 1, fRasCfg⟩,
    ⟨0x48, 0x8, 1, fRasRing⟩]
  | .pwr => [⟨0x0, 0x8, 1, fPwrCap⟩,
    ⟨0x8, 0x8, 1, fPwrLimit⟩,
    ⟨0x10, 0x8, 1, fPwrStatus⟩,
    ⟨0x18, 0x8, 1, fPwrCountA⟩,
    ⟨0x20, 0x8, 1, fPwrCountB⟩,
    ⟨0x30, 0x8, 1, fPwrCountC⟩,
    ⟨0x28, 0x8, 1, fPwrInput⟩,
    ⟨0x40, 0x8, 28, fPwrTemp⟩]
  | .eth => [⟨0x0, 0x8, 1, fEthPortCfg⟩,
    ⟨0x8, 0x8, 1, fEthPortStatus⟩,
    ⟨0x10, 0x8, 1, fEthLoopCtl⟩]
  | .taosh => [⟨0x0, 0x8, 1, fTaoshCcCfg⟩,
    ⟨0x8, 0x8, 1, fTaoshCount⟩]
  | .quoin => [⟨0x0, 0x8, 1, fQuoinTopo⟩,
    ⟨0x8, 0x8, 1, fQuoinCfg⟩,
    ⟨0x10, 0x8, 1, fQuoinUpdSeed⟩,
    ⟨0x18, 0x8, 1, fQuoinStatus⟩,
    ⟨0x20, 0x8, 1, fQuoinDmaTokens⟩,
    ⟨0x28, 0x8, 1, fQuoinUpdCount⟩,
    ⟨0x100, 0x8, 32, fQuoinLinkCfg⟩,
    ⟨0x200, 0x8, 32, fQuoinLinkStatus⟩,
    ⟨0x300, 0x8, 32, fQuoinLinkPeer⟩,
    ⟨0x400, 0x8, 1, fQuoinLoopCtl⟩]
  | .chase => [⟨0x800, 0x8, 64, fChaseWcClaim⟩,
    ⟨0xA00, 0x8, 1, fChaseGalleyCount⟩,
    ⟨0xA08, 0x8, 1, fChaseGalleyAutoswap⟩,
    ⟨0xB00, 0x8, 1, fChaseProofOpen⟩,
    ⟨0xB08, 0x8, 1, fChaseProofCount⟩,
    ⟨0xB10, 0x8, 1, fChaseProofRefused⟩,
    ⟨0xC00, 0x8, 1, fChaseCabCount⟩,
    ⟨0xC08, 0x8, 1, fChaseCabEcc⟩]
  | .press => [⟨0x250, 0x8, 1, fPressSrSeed⟩,
    ⟨0x200, 0x8, 1, fPressNumStatus⟩,
    ⟨0x208, 0x8, 8, fPressNumCount⟩,
    ⟨0x280, 0x8, 1, fPressFaultPc⟩,
    ⟨0x288, 0x8, 1, fPressFaultInfo⟩,
    ⟨0x290, 0x8, 1, fPressFaultVa⟩,
    ⟨0x300, 0x8, 1, fPressTympanCap⟩,
    ⟨0x308, 0x8, 1, fPressTympanBound⟩,
    ⟨0x310, 0x8, 2, fPressTympanMap⟩,
    ⟨0x320, 0x8, 1, fPressProofStatus⟩,
    ⟨0x328, 0x8, 1, fPressProofCount⟩,
    ⟨0x330, 0x8, 1, fPressProofLoc⟩,
    ⟨0x380, 0x8, 1, fPressRollerStatus⟩,
    ⟨0x388, 0x8, 1, fPressRollerCount⟩,
    ⟨0x400, 0x8, 1, fPressProofRegion⟩,
    ⟨0x480, 0x8, 1, fPressSlugStat⟩]

/-- The base of a block, of its first instance where it has several (R467). -/
def blockBase : Block → Nat
  | .mgmt => 0xF00000000000
  | .part => 0xF00000010000
  | .pool => 0xF00000020000
  | .telem => 0xF00000030000
  | .hbm => 0xF00000100000
  | .place => 0xF00000110000
  | .sched => 0xF00000120000
  | .audit => 0xF00000130000
  | .sec => 0xF00000140000
  | .boot => 0xF00000150000
  | .ras => 0xF00000160000
  | .pwr => 0xF00000170000
  | .eth => 0xF00000180000
  | .taosh => 0xF00000190000
  | .quoin => 0xF000001A0000
  | .chase => 0xF00001000000
  | .press => 0xF00002000000

/-- The single-instance blocks, 64 KiB each. -/
def singleBlocks : List Block :=
  [.mgmt, .part, .pool, .telem, .hbm, .place, .sched, .audit, .sec, .boot, .ras, .pwr, .eth, .taosh, .quoin]

/-- Block, instance and offset of a control-space address (R467); none where no block lies. -/
def blockOf (a : Nat) : Option (Block × Nat × Nat) :=
  let c := blockBase .chase
  let p := blockBase .press
  if c ≤ a && a < c + 16 * 0x10000 then some (.chase, (a - c) / 0x10000, (a - c) % 0x10000)
  else if p ≤ a && a < p + 128 * 0x1000 then some (.press, (a - p) / 0x1000, (a - p) % 0x1000)
  else match singleBlocks.find? (fun b => blockBase b ≤ a && decide (a < blockBase b + 0x10000)) with
    | some b => some (b, 0, a - blockBase b)
    | none => none

/-- Whether a row of registers holds an offset. -/
def RegRow.holds (r : RegRow) (o : Nat) : Bool :=
  r.off ≤ o && (o - r.off) % r.stride == 0 && decide ((o - r.off) / r.stride < r.count)

/-- The fields of the register at an offset of a block; none where no register lies (R468). -/
def fieldsAt (b : Block) (o : Nat) : Option (List Field) :=
  match b with
  | .pool =>
    let q := o % 0x100
    if o < 0x800 && o % 8 == 0 && (decide (q < 0xB0)) then some fPool else none
  | _ => match (blockRows b).find? (fun r => r.holds o) with
    | some r => some r.fields
    | none => none

/-- The reset value of the register at an offset of a block. LINK_CFG[l] has DIM = floor(l / 8) and DIR = bit 2 of l. -/
def resetWord (b : Block) (o : Nat) : W64 :=
  match fieldsAt b o with
  | none => 0
  | some fs =>
    let w := fs.foldl (fun acc f => putFld acc f.lo f.w f.reset) 0
    if b = .quoin && 0x100 ≤ o && decide (o < 0x200) then
      let l := (o - 0x100) / 8
      putFld (putFld w 1 2 (l / 8)) 3 1 (l / 4 % 2)
    else w

end Sys2Proof.Machine
end

