-- ==== Sys2Proof/Machine/Status.lean ====
section
/-! DEFINITION. The status codes of the device (R99), each under its own name; 0x0000 is success (R10). -/

namespace Sys2Proof.Machine.St

def ok : Status := 0x0000
def illegalOpcode : Status := 0x0101
def illegalSlot : Status := 0x0102
def rsvNonzero : Status := 0x0103
def immSplitInvalid : Status := 0x0104
def lineAlign : Status := 0x0105
def misaligned : Status := 0x0106
def rwaitNotLocal : Status := 0x0107
def descInvalid : Status := 0x0110
def caseRange : Status := 0x0111
def accOverflow : Status := 0x0112
def tileUnallocated : Status := 0x0113
def formatUnsupported : Status := 0x0114
def numctlInvalid : Status := 0x0115
def shapeMismatch : Status := 0x0116
def claimDuplicate : Status := 0x0120
def syncOwner : Status := 0x0121
def syncCount : Status := 0x0122
def proofCheck : Status := 0x0130
def countRange : Status := 0x0210
def bcastShape : Status := 0x0211
def seqLimit : Status := 0x0310
def folioSize : Status := 0x0311
def folioRefLimit : Status := 0x0312
def kernCmdInvalid : Status := 0x0313
def maskInvalid : Status := 0x0314
def streamInvalid : Status := 0x0410
def generationStale : Status := 0x0411
def streamRefLimit : Status := 0x0412
def stickLength : Status := 0x0413
def streamTableFull : Status := 0x0414
def proofLimit : Status := 0x0510
def proofNest : Status := 0x0511
def proofQueueFull : Status := 0x0512
def proofState : Status := 0x0513
def pageNotMapped : Status := 0x0610
def pageAccess : Status := 0x0611
def addrNoncanonical : Status := 0x0612
def pageTableInvalid : Status := 0x0613
def poisonNoOrigin : Status := 0x0620
def slugCheck : Status := 0x0621
def libraryFull : Status := 0x0622
def hbmUncorrectable : Status := 0x0710
def channelRetired : Status := 0x0711
def atomicInvalid : Status := 0x0712
def atomicAlign : Status := 0x0713
def tagMismatch : Status := 0x0714
def cancelled : Status := 0x0801
def suspended : Status := 0x0802
def contextTornDown : Status := 0x0803
def formeInvalid : Status := 0x0810
def formeSplitInvalid : Status := 0x0811
def formeMemberLost : Status := 0x0812
def partitionBusy : Status := 0x0813
def formeBusy : Status := 0x0814
def deviceIdUnset : Status := 0x0815
def contextLimit : Status := 0x0816
def reservationUnavailable : Status := 0x0817
def queueFull : Status := 0x0818
def opState : Status := 0x0819
def notReady : Status := 0x0904
def bufferReleased : Status := 0x0905
def authFail : Status := 0x0910
def sessionInvalid : Status := 0x0911
def descriptorInvalid : Status := 0x0912
def windowExceeded : Status := 0x0913
def pullFailed : Status := 0x0914
def confidentialRequired : Status := 0x0915
def remoteDenied : Status := 0x0A10
def remoteUnreachable : Status := 0x0A11
def linkRetrained : Status := 0x0A12
def collectiveMismatch : Status := 0x0A13
def updateTableInvalid : Status := 0x0A14
def osselDisabled : Status := 0x0A15
def collectiveFormat : Status := 0x0A16
def signatureFail : Status := 0x0B10
def untestedCombination : Status := 0x0B11
def lifecycleDenied : Status := 0x0B12
def overrideInvalid : Status := 0x0B13
def restrictedMode : Status := 0x0B14
def scrubCancelled : Status := 0x0B15
def bootStepFailed : Status := 0x0C10
def serviceMode : Status := 0x0C11
def bistDenied : Status := 0x0C12
def bistFail : Status := 0x0C13
def countStateLost : Status := 0x0C14
def powerCapped : Status := 0x0D10
def inputSag : Status := 0x0D11
def thermalThrottle : Status := 0x0D12
def thermalShutdown : Status := 0x0D13

/-- The unit number UU of a status code (R10). -/
def uu (st : Status) : Nat := st.toNat / 256

/-- Whether a device reports a code: success, or a unit 0x01 to 0x0D with a condition other than 0x00 (R10, R11). -/
def reportable (st : Status) : Bool :=
  decide (st = 0) || (decide (1 ≤ uu st) && decide (uu st ≤ 0x0D) && decide (st.toNat % 256 ≠ 0))

/-- A code as the device passes it on: one that no device reports (R11) gives way to `other` [log 82]. -/
def passOn (other st : Status) : Status := if reportable st then st else other

end Sys2Proof.Machine.St
end

