-- ==== Sys2Proof/Machine/Wire.lean ====
section
/-! DEFINITION. The byte images of what the device sends, least significant byte first (R3): Taosh headers and
acknowledgements (R326, R330), the bodies of messages (R344, R349 to R355, R358), handshake flights (R335), sealed records
(R357), and Quoin packets and flits (R366, R369). -/

namespace Sys2Proof.Machine

/-! ### Records -/

/-- FAULT_INFO as a word (R98, R344). -/
def FaultRec.info (f : FaultRec) : W64 :=
  wn (f.status.toNat + (f.slot.toNat <<< 16) + (b2n f.valid <<< 19) + (b2n f.async <<< 20))

/-- A completion record (R344): words 3 to 5 and the fault fields of word 0 are zero where there is no fault. -/
def Completion.words (r : Completion) : List Nat :=
  let f : FaultRec := r.fault.getD {}
  let w0 := r.status.toNat + (r.ctx <<< 16) + (r.queue <<< 28)
  [if r.fault.isSome then w0 + (1 <<< 40) + (r.press <<< 41) + (r.device <<< 48) else w0, r.user.toNat,
    r.seq.toNat + (r.fenceGen.toNat <<< 32), f.pc.toNat % 2 ^ 48, f.info.toNat % 2 ^ 21, f.va.toNat, r.endCycle.toNat, 0]
def Completion.bytes (r : Completion) : List Byte := r.words.flatMap (toBytes 8)

/-- An event record (R355). The index of its domain is zero [log 3]. -/
def Event.words (e : Event) : List Nat :=
  [e.status.toNat + ((if e.wide then 0 else e.ctx) <<< 16) + (b2n e.wide <<< 28) + (e.count.toNat <<< 32), e.detail.toNat,
    e.cycle.toNat, e.domain]
def Event.bytes (e : Event) : List Byte := e.words.flatMap (toBytes 8)

/-! ### Messages -/

/-- CLASS of a message (R327). -/
def Msg.cls (m : Msg) : Nat :=
  match m with
  | .complete _ => 2
  | .readResp _ _ _ _ => 3
  | .writeHost _ _ _ | .writeAck _ _ => 4
  | .pullReq _ _ _ => 5
  | .event _ => 6
  | .manage _ _ _ _ _ => 7

/-- The 32-byte head of a WRITE or PULL message (R353, R354). -/
def ioHead (id : W32) (op : Nat) (st : Status) (addr len : Nat) : List Byte :=
  toBytes 4 id.toNat ++ toBytes 2 op ++ toBytes 2 st.toNat ++ toBytes 8 0 ++ toBytes 8 addr ++ toBytes 4 len ++ toBytes 4 0

/-- An item of a MANAGE body: 4-byte key, 4 zero bytes, 8-byte value (R358). -/
def itemBytes (e : Nat × W64) : List Byte := toBytes 4 e.1 ++ toBytes 4 0 ++ toBytes 8 e.2.toNat

/-- The plain body of a message. A MANAGE response has the head of a request with STATUS in bytes 4 and 5, its BODY_LEN
stands where the request's does [log 83], and bytes 12 to 15 hold 1 in the final record of a long operation (R360). -/
def Msg.body (m : Msg) : List Byte :=
  match m with
  | .complete rs => rs.flatMap (·.bytes)
  | .readResp id st gen d =>
    toBytes 4 id.toNat ++ toBytes 2 st.toNat ++ toBytes 2 0 ++ toBytes 4 gen ++ toBytes 4 d.length ++ d
  | .writeHost id a d => ioHead id 1 0 a d.length ++ d
  | .writeAck id st => ioHead id 2 st 0 0
  | .pullReq id a n => ioHead id 0 0 a n
  | .event e => e.bytes
  | .manage id st is b final =>
    toBytes 4 id.toNat ++ toBytes 2 st.toNat ++ toBytes 2 0 ++ toBytes 4 (16 * is.length + b.length) ++
      toBytes 4 (b2n final) ++ is.flatMap itemBytes ++ b

/-! ### Taosh packets -/

/-- The 32-byte header (R326): VERSION 1, the reserved fields zero. -/
def SegHead.bytes (h : SegHead) : List Byte :=
  toBytes 1 (1 + (h.cls <<< 4)) ++
    toBytes 1 (b2n h.phase + (b2n h.first <<< 1) + (b2n h.last <<< 2) + (b2n h.sealed <<< 3)) ++
    toBytes 2 h.session ++ toBytes 4 h.pn ++ toBytes 4 h.msn ++ toBytes 4 h.off ++ toBytes 4 h.mlen ++ toBytes 2 h.len ++
    toBytes 10 0

/-- The body of an ACK (R330): unused pairs are zero. -/
def ackBytes (a : AckBody) : List Byte :=
  toBytes 4 a.largest ++ toBytes 4 a.delay ++ toBytes 4 a.ceCount.toNat ++ toBytes 4 a.creditLimit.toNat ++
    ((a.ranges ++ List.replicate 6 (0, 0)).take 6).flatMap fun (r : Nat × Nat) => toBytes 4 r.1 ++ toBytes 4 r.2

/-- The IV of a direction with a number exclusive-ORed into its last bytes, most significant byte first (R328, R357). -/
def nonceOf (iv : List Byte) (k n : Nat) : List Byte :=
  let tail := (toBytes k n).reverse
  iv.take (12 - k) ++ (List.range k).map fun i => nth 0 iv (12 - k + i) ^^^ nth 0 tail i

/-- A packet of an open session (R328): the header, the payload, encrypted where PROTECT is 1, and the tag over both. -/
def packetBytes (x : Session) (h : SegHead) (payload : List Byte) : List Byte :=
  let head := h.bytes
  let nonce := nonceOf x.keys.d2hIv 4 h.pn
  if x.protect = 1 then head ++ Config.gcmSeal x.keys.d2h nonce head payload
  else head ++ payload ++ Config.gcmTag x.keys.d2h nonce (head ++ payload)

/-- A packet without tag, as those of the handshake and its refusals are (R334, R336). -/
def openPacket (h : SegHead) (payload : List Byte) : List Byte := h.bytes ++ payload

/-- Packets of a flight: segments of at most 1,024 bytes (R335). -/
def flightPackets (b : List Byte) : Nat := ceilDiv b.length 1024

/-- The packets of a flight that the device sends, from packet number `pn` on; `k` is its number among those of the
handshake, which stands as its MSN (R334, R335) [log 106]. -/
def flightBytes (session k pn : Nat) (b : List Byte) : List (List Byte) :=
  (List.range (flightPackets b)).map fun i =>
    let part := slice b (1024 * i) 1024
    openPacket { cls := 8, first := i == 0, last := i + 1 == flightPackets b, session, pn := (pn + i) % 2 ^ 32, msn := k
                 off := 1024 * i, mlen := b.length, len := part.length } part

/-- The body of the refusal of a session: a MANAGE response to a request without a number (R336) [log 106]. -/
def refusalBody (st : Status) : List Byte := (Msg.manage 0 st [] [] false).body

/-- The packet of a refusal, without a tag (R336). -/
def refusalBytes (session pn : Nat) (st : Status) : List Byte :=
  let b := refusalBody st
  openPacket { cls := 7, first := true, last := true, session, pn, mlen := b.length, len := b.length } b

/-! ### Sealed records (R356, R357) -/

def label (t : String) : List Byte := t.toList.map fun c => BitVec.ofNat 8 c.toNat

/-- The key of a direction's records, told by its label, the nonce of a record, and its associated data (R356, R357). -/
def recordKey (k : Keys) (t : String) : List Byte := Config.hkdfExpand k.record (label t) 32
def recordNonce (k : Keys) (rseq : Nat) : List Byte :=
  nonceOf ((Config.hkdfExpand k.record (label "taosh record iv") 12).take 12) 8 rseq
def recordAad (session : Nat) (head : List Byte) : List Byte := head ++ toBytes 2 session

/-- A plain body as a sealed record of the device: the head with RSEQ and BLOCK, ciphertext and tag. -/
def sealRecord (k : Keys) (session rseq block : Nat) (body : List Byte) : List Byte :=
  let head := toBytes 8 rseq ++ toBytes 4 block ++ toBytes 4 0
  head ++ Config.gcmSeal (recordKey k "taosh d2h record") (recordNonce k rseq) (recordAad session head) body

/-- The plain body of a sealed record under the key of a direction. -/
def unsealRecord (k : Keys) (t : String) (session : Nat) (r : List Byte) : Option (List Byte) :=
  if r.length < 32 || ofBytes (slice r 12 4) != 0 then none
  else Config.gcmOpen (recordKey k t) (recordNonce k (ofBytes (slice r 0 8))) (recordAad session (r.take 16)) (r.drop 16)

/-- Bytes of a block of a bounce window, and of the record that holds it. -/
def blockSize : Nat := 4096
def recordSize : Nat := 4128

/-- The blocks of a window that hold `len` bytes from an offset on: the first, and how many. -/
def blockSpan (off len : Nat) : Nat × Nat := (off / blockSize, (off % blockSize + len + blockSize - 1) / blockSize)

/-- Plain blocks from number `b` on as sealed records, one RSEQ each from `rseq` on. -/
def sealBlocks (k : Keys) (session rseq b n : Nat) (bs : List Byte) : List Byte :=
  (List.range n).flatMap fun i => sealRecord k session (rseq + i) (b + i) (slice bs (blockSize * i) blockSize)

/-- The plain bytes of records of blocks from number `b` on, each sealed by the host or, earlier, by the device [log 108];
none where one fails its tag or is another block's. -/
def openBlocks (k : Keys) (session b n : Nat) (bs : List Byte) : Option (List Byte) :=
  let plain (i : Nat) : Option (List Byte) :=
    let r := slice bs (recordSize * i) recordSize
    let p := match unsealRecord k "taosh h2d record" session r with
      | some p => some p
      | none => unsealRecord k "taosh d2h record" session r
    if ofBytes (slice r 8 4) = b + i then p.map fun p => (p ++ List.replicate blockSize 0).take blockSize else none
  (allSome ((List.range n).map plain)).map fun l => l.flatMap id

/-! ### Quoin packets and flits -/

/-- The 32-byte header (R369). -/
def pktHeader (p : Packet) : List Byte :=
  toBytes 1 p.typ ++
    toBytes 1 (b2n p.reissue + (b2n p.ossel <<< 1) + (b2n p.origin <<< 2) + (b2n p.rdir <<< 3) + (p.rdim <<< 4) +
      (b2n p.rvcHi <<< 6)) ++
    toBytes 2 p.dest ++ toBytes 2 p.src ++ toBytes 2 p.pseq ++ toBytes 1 p.origLink ++
    toBytes 1 (p.fmt.toNat + (p.op.toNat <<< 4)) ++ toBytes 2 p.len ++ toBytes 4 p.jobTag.toNat ++ toBytes 8 p.addr.toNat ++
    toBytes 4 p.tag.toNat ++ toBytes 2 p.status.toNat ++ toBytes 2 0

/-- A packet as it travels: the header and its data, padded with zeros to whole units of 16 bytes. -/
def pktBytes (p : Packet) : List Byte :=
  pktHeader p ++ p.data ++ List.replicate ((16 - p.data.length % 16) % 16) 0

/-- The header of a flit (R366): KIND, VC, whether its packet starts in its first unit, SEQ, ACK, CVC and CREDITS. -/
def flitHeader (kind vc : Nat) (starts : Bool) (seq ack cvc credits : Nat) : Nat :=
  kind + (vc <<< 3) + ((if starts then 0 else 15) <<< 6) + (seq <<< 10) + (ack <<< 22) + (cvc <<< 34) + (credits <<< 37)

/-- A flit: header, body of 240 bytes, CRC-32C over both, four zero bytes (R366). -/
def flitBytes (head : Nat) (body : List Byte) : List Byte :=
  let b := toBytes 8 head ++ (body ++ List.replicate 240 0).take 240
  b ++ toBytes 4 (crc32c b).toNat ++ toBytes 4 0

/-- The last sequence number received good. -/
def Link.ack (x : Link) : Nat := (x.expect + 4095) % 4096

/-- The header of a flit that a link sends `i` flits from now: CVC steps through the channels (R366). -/
def Link.flitHead (x : Link) (i kind vc : Nat) (starts : Bool) (seq : Nat) : Nat :=
  let cvc := (x.cvc + i) % 8
  flitHeader kind vc starts seq x.ack cvc (mget 0 x.freed cvc)

/-- The DATA flits of a packet from its `k`-th on, the first with sequence number `seq`; a packet starts a flit [log 15]. -/
def Link.dataFlits (x : Link) (p : Packet) (vc seq k n : Nat) : List Byte :=
  (List.range (n - k)).flatMap fun i =>
    flitBytes (x.flitHead i 1 vc (k + i == 0) ((seq + i) % 4096)) (slice (pktBytes p) (240 * (k + i)) 240)

end Sys2Proof.Machine
end

