-- ==== Sys2Proof/Machine/Report.lean ====
section
/-! DEFINITION. Raw registers, counters and sticky flags, free words, and the two ways in which the device reports:
event records (R355) and error records (R445 to R447), with the messages of a session's send queue. -/

namespace Sys2Proof.Machine

/-! ### Raw registers -/

/-- Address of the register at an offset of an instance of a block. -/
def regAddr (b : Block) (i o : Nat) : Nat :=
  blockBase b + i * (if b = .chase then 0x10000 else 0x1000) + o

/-- A register as it is stored; its reset value where nothing is stored. -/
def State.reg (s : State) (b : Block) (i o : Nat) : W64 := mget (resetWord b o) s.regs (regAddr b i o)

def State.setReg (s : State) (b : Block) (i o : Nat) (v : W64) : State :=
  { s with regs := mset (resetWord b o) s.regs (regAddr b i o) v }

/-- A field of a register. -/
def State.regFld (s : State) (b : Block) (i o lo w : Nat) : Nat := fld (s.reg b i o) (lo + w - 1) lo

/-- A field of a register loaded by the device. -/
def State.setFld (s : State) (b : Block) (i o lo w v : Nat) : State :=
  s.setReg b i o (putFld (s.reg b i o) lo w v)

/-- A counting field raised by `k`, modulo its width. -/
def State.bump (s : State) (b : Block) (i o lo w k : Nat) : State :=
  s.setFld b i o lo w ((s.regFld b i o lo w + k) % 2 ^ w)

/-- The audit totals of a unit's flag sets and counter increments, raised together (R399 code 0x0D, R408). -/
def State.tallies (s : State) (uu k : Nat) : State :=
  if k = 0 then s
  else { s with sets := mset 0 s.sets uu (mget 0 s.sets uu + wn k), incs := mset 0 s.incs uu (mget 0 s.incs uu + wn k) }
def State.tally (s : State) (uu : Nat) : State := s.tallies uu 1

/-- A W1C flag set by the device, with its companion counter in the given field (R408). -/
def State.raiseFlag (s : State) (uu : Nat) (b : Block) (o bit : Nat) (cb : Block) (co lo w : Nat) : State :=
  ((s.setFld b 0 o bit 1 1).bump cb 0 co lo w 1).tally uu

/-! ### Free values -/

/-- A fresh free word, such as the count of a clock (R12, R321). -/
def State.freshWord (s : State) : W64 × State := (Config.freeWord s.free, { s with free := s.free + 1 })

/-- A fresh free choice below `n`. -/
def State.choose (s : State) (n : Nat) : Nat × State :=
  (Config.pick s.free % n, { s with free := s.free + 1 })

/-! ### Messages and events -/

/-- Whether a session is open (R334). -/
def State.sessionOpen (s : State) (n : Nat) : Bool := decide ((s.session n).st = .isOpen)

/-- A message put on the send queue of an open session; completion records join the last COMPLETE message that is not
being sent, up to 128 (R345). -/
def State.send (s : State) (n : Nat) (m : Msg) : State :=
  let ss := s.session n
  let q := match m, ss.queue.getLast? with
    | .complete rs, some (.complete rs') =>
      if (ss.cut.isNone || 1 < ss.queue.length) && (rs' ++ rs).length ≤ 128 then
        ss.queue.dropLast ++ [.complete (rs' ++ rs)]
      else ss.queue ++ [m]
    | _, _ => ss.queue ++ [m]
  if s.sessionOpen n then s.setSession n { ss with queue := q } else s

/-- A context's event session: the session of its lowest-numbered queue that has one (R355). -/
def State.eventSession (s : State) (c : Nat) : Option Nat :=
  match s.queues.find? (fun q => q.2.ctx == c && q.2.session.isSome) with
  | some q => q.2.session
  | none => none

/-- A device-wide event: to session 0, or held until it opens (R355, R444). -/
def State.wideEvent (s : State) (st : Status) (detail : W64) (count : W32) : State :=
  let (cyc, s) := s.freshWord
  let e : Event := { status := st, wide := true, count, detail, cycle := cyc, domain := 7 }
  if s.sessionOpen 0 then s.send 0 (.event e) else { s with heldWide := s.heldWide ++ [e] }

/-- An event of a context: to its event session, or held, at most 256, the oldest dropped (R355). -/
def State.ctxEvent (s : State) (c : Nat) (st : Status) (detail : W64) (count : W32) : State :=
  let (cyc, s) := s.freshWord
  let e : Event := { status := st, ctx := c, wide := false, count, detail, cycle := cyc, domain := 1 }
  match s.eventSession c with
  | some n => s.send n (.event e)
  | none =>
    let x := s.ctx c
    let es := x.events ++ [e]
    s.setCtx c { x with events := es.drop (es.length - 256) }

/-- The unit and index, the place and the context of an error record. -/
structure ErrAt where
  cause   : Nat := 0
  ctx     : Option Nat := none
  locKind : Nat := 0
  loc     : Nat := 0
  addr    : Nat := 0
  deriving DecidableEq, Repr

/-- An error of a class (R445 to R447): counted in RAS.COUNT; recorded in the ring; classes above CORRECTED also sent
to session 0; CONTAINED and FATAL also copied to ERRLOG. A CORRECTED error is recorded each time it arises here; the
limit of one a second and place is left to the caller (log 14). -/
def State.rasErrorAs (s : State) (cls : Nat) (st : Status) (x : ErrAt) (detail : W64) : State :=
  let s := s.bump .ras 0 (8 * cls) 0 32 1
  let (cyc, s) := s.freshWord
  let r : ErrRec :=
    { cls, cause := x.cause, status := st, ctx := x.ctx, unit := St.uu st, unitIdx := x.loc, locKind := x.locKind,
      loc := x.loc, addr := x.addr, cycle := cyc, domain := 7,
      count := BitVec.ofNat 32 (s.regFld .ras 0 (8 * cls) 0 32), boot := s.sec.startCount }
  let s := { s with ring := (r :: s.ring).take 4096 }
  let s := s.setFld .ras 0 0x48 0 12 ((s.regFld .ras 0 0x48 0 12 + 1) % 4096)
  let s := s.bump .ras 0 0x48 32 32 1
  let s := if 3 ≤ cls then { s with ledger := { s.ledger with
      errlog := (r :: s.ledger.errlog).take 128, errHead := (s.ledger.errHead + 1) % 128 } } else s
  if 1 ≤ cls then s.wideEvent st detail r.count else s

/-- An error whose event holds the number of its place in DETAIL. -/
def State.rasError (s : State) (cls : Nat) (st : Status) (x : ErrAt) : State := s.rasErrorAs cls st x (wn x.loc)

end Sys2Proof.Machine
end

