-- ==== Sys2Proof/Machine/HbmMap.lean ====
section
/-! DEFINITION. The HBM subsystem as a place: address maps (R272 to R276), integrity tags and their slots (R273, R278,
R289), what the DRAM holds (R288), unit buffers (R279), the ranges of a partition (R274, R277, R296) and the granules of
its cold heap (R257). -/

namespace Sys2Proof.Machine

/-! ### Address maps (R272 to R276) -/

/-- The channel of a pseudo-channel, counted over the device, and its two pseudo-channels (R272). -/
def channelOf (pc : Nat) : Nat := pc / 2
def channelPcs (ch : Nat) : List Nat := [2 * ch, 2 * ch + 1]

/-- Size of the usable range and of the firmware reserve (device physical map). -/
def usableHbm : Nat := 0x008D88000000
def reserveHbm : Nat := 0x80000000
/-- Usable bytes of a pseudo-channel: 1,132.25 MiB (R273). -/
def pcUsable : Nat := 0x46C40000
/-- Spread bytes of a pseudo-channel, S (R274). -/
def State.spread (s : State) : Nat := s.regFld .hbm 0 0 8 8 * 0x400000
/-- Whole-device layout (R274). -/
def State.wholeLayout (s : State) : Bool := s.regFld .hbm 0 0 0 1 == 1
/-- Start of the spread region (R274). -/
def State.spreadBase (s : State) : Nat := usableHbm - 512 * s.spread

/-- The fold H (address maps). -/
def foldH (x : Nat) : Nat := bits x 8 0 ^^^ bits x 17 9 ^^^ bits x 26 18

/-- The pseudo-channels of `l` that a map keeps, ascending. -/
def keptPcs (l out : List Nat) : List Nat := l.filter fun pc => !out.contains pc

/-- The sector map (R276): pseudo-channel and channel-local address, `base` being the start of the range in a channel
and `share` its length there. -/
def sectorMap (ch : List Nat) (base share a : Nat) : Option (Nat × Nat) :=
  let n := ch.length
  if n * share ≤ a then none
  else
    let sec := a / 32
    let q := sec / n
    some (nth 0 ch ((sec % n + foldH q) % n), base + q * 32 + a % 32)

/-- The group map (R275). -/
def groupMap (ch : List Nat) (size o : Nat) : Option (Nat × Nat) :=
  let m := ch.length
  if m * size ≤ o then none
  else
    let k := o / 2048
    let r := k / m
    some (nth 0 ch ((k % m + foldH r) % m), r * 2048 + o % 2048)

/-- The group whose window holds an address, in the grouped layout (R274). -/
def State.groupAt (s : State) (pa : Nat) : Option Nat :=
  if s.wholeLayout || s.spreadBase ≤ pa then none else some (pa / (16 * (pcUsable - s.spread)))

/-- Pseudo-channel and channel-local address of a device physical address (R274). -/
def State.hbmMap (s : State) (pa : Nat) : Option (Nat × Nat) :=
  if usableHbm ≤ pa then
    if pa < usableHbm + reserveHbm then
      sectorMap (keptPcs (upTo 512) s.mapsOut.range) pcUsable 0x400000 (pa - usableHbm)
    else none
  else if s.wholeLayout then sectorMap (keptPcs (upTo 512) s.mapsOut.range) 0 pcUsable pa
  else match s.groupAt pa with
    | some g =>
      groupMap (keptPcs (span (16 * g) 16) s.mapsOut.window) (pcUsable - s.spread)
        (pa - g * (16 * (pcUsable - s.spread)))
    | none => sectorMap (keptPcs (upTo 512) s.mapsOut.spread) (pcUsable - s.spread) s.spread (pa - s.spreadBase)

/-- The owner of a group: 0xF for none (GROUP_OWNER). -/
def State.groupOwner (s : State) (g : Nat) : Nat := s.regFld .hbm 0 (8 + 8 * (g / 16)) (4 * (g % 16)) 4

def pcOff (pc : Nat) : Nat := 0x1000 + 8 * pc
def State.pcState (s : State) (pc : Nat) : Nat := s.regFld .hbm 0 (pcOff pc) 0 2
def State.setPcState (s : State) (pc v : Nat) : State := s.setFld .hbm 0 (pcOff pc) 0 2 v

/-- Whether a retired pseudo-channel carries data of an address (R294, R296). -/
def State.lost (s : State) (pc pa : Nat) : Bool :=
  if usableHbm ≤ pa then false
  else if s.wholeLayout then true
  else match s.groupAt pa with
    | some g => pc / 16 == g
    | none => true

/-! ### Tags, ciphertext and unit buffers (R273, R278, R279, R288 to R290) -/

/-- Whether an address carries integrity tags: group-mapped memory alone (R278). -/
def State.tagged (s : State) (pa : Nat) : Bool := (s.groupAt pa).isSome

/-- Start of the tag area of a pseudo-channel, channel-local (R273). -/
def tagArea : Nat := 0x47040000

/-- The slot of a unit's tag: its pseudo-channel and channel-local address, 7 bytes for channel-local unit `u` at offset
`7u` of the tag area (R273); none where the memory carries no tag (R278). -/
def State.tagSlot (s : State) (pa : Nat) : Option (Nat × Nat) :=
  if s.tagged pa then (s.hbmMap (pa / 512 * 512)).map fun e => (e.1, tagArea + 7 * (e.2 / 512)) else none

/-- The partition whose frame an address lies in (R277). -/
def State.frameOwner (s : State) (pa : Nat) : Nat :=
  match s.frames.find? fun e => e.1 / 0x200000 == pa / 0x200000 with
  | some e => e.2.2
  | none => 0

/-- The key set of an address (R288): the partition that owns the group, or to which the spread frame is assigned; 8 is the
device key set of the firmware reserve. The single partition of a whole-device layout owns every group. -/
def State.keySet (s : State) (pa : Nat) : Nat :=
  if usableHbm ≤ pa then 8
  else match s.groupAt pa with
    | some g => s.groupOwner g
    | none => if s.wholeLayout then s.groupOwner 0 else s.frameOwner pa

/-- The generation of a key set, which a rotation changes (R428). -/
def State.keyGen (s : State) (k : Nat) : W64 := if k < 8 then (mget ({} : Part) s.parts k).keyEpoch else 0

/-- A sector as the DRAM holds it: encrypted under the data-unit number PA[47:5] (R288). -/
def State.cipherSector (s : State) (pa : Nat) (plain : List Byte) : List Byte :=
  let k := s.keySet pa
  Config.xtsEncrypt k (s.keyGen k) (pa % 2 ^ 48 / 32) plain

/-- What the controller makes of a stored sector (R288). -/
def State.plainSector (s : State) (pa : Nat) (cipher : List Byte) : List Byte :=
  let k := s.keySet pa
  (Config.xtsDecrypt k (s.keyGen k) (pa % 2 ^ 48 / 32) cipher).take 32

/-- The tag of a unit's ciphertext (R289): the low 56 bits of the CMAC over the unit's address and its 512 bytes. -/
def State.tagOf (s : State) (pa : Nat) (cipher : List Byte) : BitVec 56 :=
  let u := pa / 512 * 512
  let k := s.keySet u
  (Config.cmac k (s.keyGen k) (toBytes 8 u ++ cipher)).setWidth 56

/-- The ciphertext of a unit that holds what the controller wrote. -/
def State.cipherUnit (s : State) (pa : Nat) : List Byte :=
  let u := pa / 512 * 512
  (List.range 16).flatMap fun i => s.cipherSector (u + 32 * i) (cells s.mem (u + 32 * i) 32)

/-- The tag that the slot of a unit holds, as the last write left it; none where there is no tag (R278, R279). -/
def State.storedTag (s : State) (pa : Nat) : Option (BitVec 56) :=
  if s.tagged pa then some (s.tagOf pa (s.cipherUnit pa)) else none

/-- A unit read: it enters the buffer of its pseudo-channel, which keeps the 16 read most recently (R279). -/
def State.unitRead (s : State) (pa : Nat) : State :=
  if !s.tagged pa then s
  else match s.hbmMap pa with
    | none => s
    | some (pc, _) =>
      let l := mget [] s.unitBufs pc
      { s with unitBufs := mset [] s.unitBufs pc ((pa / 512 :: l.filter fun u => u != pa / 512).take 16) }

/-- A unit written: its buffer entry is invalid (R279). -/
def State.unitWritten (s : State) (pa : Nat) : State :=
  if !s.tagged pa then s
  else match s.hbmMap pa with
    | none => s
    | some (pc, _) =>
      { s with unitBufs := mset [] s.unitBufs pc ((mget [] s.unitBufs pc).filter fun u => u != pa / 512) }

/-- Whether a unit is in its buffer. -/
def State.unitBuffered (s : State) (pa : Nat) : Bool :=
  match s.hbmMap pa with
  | some (pc, _) => (mget [] s.unitBufs pc).contains (pa / 512)
  | none => false

/-- The sectors that a range covers. -/
def sectorsOf (pa n : Nat) : Nat := if n = 0 then 0 else (pa + n - 1) / 32 - pa / 32 + 1

/-- The part of a range that lies in a unit. -/
def unitPart (u pa n : Nat) : Nat × Nat :=
  (max pa (512 * u), min (pa + n) (512 * u + 512) - max pa (512 * u))

/-- Sectors that a request moves at the pins, tag sectors aside (R279, R281): in tagged memory a read moves every unit that
is not buffered, and a write reads the sectors of such a unit that it does not write; elsewhere what it covers. -/
def State.pinSectors (s : State) (pa n : Nat) (write : Bool) : Nat :=
  if n = 0 then 0
  else if !s.tagged pa then sectorsOf pa n
  else sumL ((span (pa / 512) ((pa + n - 1) / 512 - pa / 512 + 1)).map fun u =>
    let p := unitPart u pa n
    if s.unitBuffered (512 * u) then (if write then sectorsOf p.1 p.2 else 0) else 16)

/-! ### The ranges of a partition and its cold heap (R257, R274, R277, R296) -/

/-- Size of a group window (R274). -/
def State.windowSize (s : State) : Nat := 16 * (pcUsable - s.spread)

/-- Pseudo-channels that are retired and still in the maps: their windows and ranges take no new allocation (R296). -/
def State.freshlyRetired (s : State) (out l : List Nat) : Bool := l.any fun pc => s.pcState pc == 2 && !out.contains pc

/-- The part of a group's window that is mapped and may be allocated from: base and length. -/
def State.groupRange (s : State) (g : Nat) : Nat × Nat :=
  let l := span (16 * g) 16
  (g * s.windowSize,
    if s.freshlyRetired s.mapsOut.window l then 0
    else (keptPcs l s.mapsOut.window).length * (pcUsable - s.spread))

/-- The spread region's part that may be allocated from (R277, R296). -/
def State.spreadRange (s : State) : Nat × Nat :=
  (s.spreadBase, if s.freshlyRetired s.mapsOut.spread (upTo 512) then 0
    else (keptPcs (upTo 512) s.mapsOut.spread).length * s.spread)

/-- The ranges from which a context's pages come: the whole range in the whole-device layout; in a grouped layout the
windows of the partition's groups, or for a privileged context the spread region where there is one (R38, R277) [log 35]. -/
def State.pageRanges (s : State) (p : Nat) (priv : Bool) : List (Nat × Nat) :=
  if s.wholeLayout then
    [(0, if s.freshlyRetired s.mapsOut.range (upTo 512) then 0
      else (keptPcs (upTo 512) s.mapsOut.range).length * pcUsable)]
  else if priv && s.spread != 0 then [s.spreadRange]
  else ((upTo 32).filter fun g => (mget ({} : Part) s.parts p).groups.getLsbD g).map s.groupRange

/-- The windows or the range of a partition as the maps lay them out, whatever has since been retired. -/
def State.homeRanges (s : State) (p : Nat) : List (Nat × Nat) :=
  if s.wholeLayout then [(0, (keptPcs (upTo 512) s.mapsOut.range).length * pcUsable)]
  else ((upTo 32).filter fun g => (mget ({} : Part) s.parts p).groups.getLsbD g).map fun g =>
    (g * s.windowSize, (keptPcs (span (16 * g) 16) s.mapsOut.window).length * (pcUsable - s.spread))

/-- Whether an address lies in a window or range with a freshly retired pseudo-channel, which takes no new
allocation (R296). -/
def State.barred (s : State) (pa : Nat) : Bool :=
  if s.wholeLayout then s.freshlyRetired s.mapsOut.range (upTo 512)
  else match s.groupAt pa with
    | some g => s.freshlyRetired s.mapsOut.window (span (16 * g) 16)
    | none => s.freshlyRetired s.mapsOut.spread (upTo 512)

/-- Whether a partition has memory that may take a new allocation (R296). -/
def State.hasRoom (s : State) (p : Nat) : Bool := (s.pageRanges p false).any fun r => r.2 != 0

/-- The granules that fit in ranges, counted from their ends down: the address of granule `g` [log 84]. -/
def granuleIn : List (Nat × Nat) → Nat → Option Nat
  | [], _ => none
  | r :: rs, g =>
    let top := (r.1 + r.2) / 0x1000
    let n := top - ceilDiv r.1 0x1000
    if g < n then some ((top - 1 - g) * 0x1000) else granuleIn rs (g - n)

/-- The address of a granule of a partition's cold heap: the heap lies at the top of the partition's memory (R257)
[log 84]. -/
def State.granuleAt (s : State) (p g : Nat) : Option Nat := granuleIn (s.homeRanges p).reverse g

/-- The first granules of a partition's ranges, where the heap passes from one to the next. -/
def State.granuleStarts (s : State) (p : Nat) : List Nat :=
  ((s.homeRanges p).reverse.foldl (fun (a : List Nat × Nat) r =>
    (a.1 ++ [a.2], a.2 + ((r.1 + r.2) / 0x1000 - ceilDiv r.1 0x1000))) ([], 0)).1

/-! ### Retraining windows (R292) -/

/-- Whether the HBM request of an access of `n` bytes at an address waits for a retraining window. -/
def State.inWindow (s : State) (pa n : Nat) : Bool :=
  !s.windows.isEmpty && (List.range ((pa % 32 + n + 31) / 32)).any fun i =>
    match s.hbmMap (pa / 32 * 32 + 32 * i) with
    | some (pc, _) => s.windows.contains pc
    | none => false

end Sys2Proof.Machine
end

