-- ==== Sys2Proof/Machine/Pools.lean ====
section
/-! DEFINITION. The pools of a partition and what is drawn from them: folios with their reference counts (R170 to
R172), and galley state sets with their share counts (R193, R194). Every change takes a unit from one holder and gives
it to another (R400). -/

namespace Sys2Proof.Machine

/-! ### Pools: index = offset in the POOL group divided by 8 (R473) -/

namespace Pool
def folio (code : Nat) : Nat := code
def galley (cls : Nat) : Nat := 10 + cls
def swap : Nat := 18
def proof : Nat := 19
def frames : Nat := 20
def heap : Nat := 21
end Pool

def State.poolFree (s : State) (p i : Nat) : Nat := mget 0 (s.part p).free i
def State.poolTotal (s : State) (p i : Nat) : Nat := mget 0 (s.part p).total i

/-- Units of a pool that a new allocation may take: none while all of the partition's memory is barred (R296). -/
def State.poolRoom (s : State) (p i : Nat) : Nat := if s.hasRoom p then s.poolFree p i else 0

/-- `n` units leave the pool. -/
def State.poolTake (s : State) (p i n : Nat) : State :=
  let x := s.part p
  s.setPart p { x with free := mset 0 x.free i (mget 0 x.free i - n) }

/-- `n` units return to the pool. -/
def State.poolGive (s : State) (p i n : Nat) : State :=
  let x := s.part p
  s.setPart p { x with free := mset 0 x.free i (mget 0 x.free i + n) }

/-! ### Folios -/

/-- The limit of every 24-bit count (R171, R194, R195). -/
def countLimit : Nat := 2 ^ 24 - 1

/-- Bytes of a folio of a size code (R169). -/
def folioBytes (code : Nat) : Nat := 4096 * 2 ^ code

def State.folio (s : State) (f : Nat) : Folio := mget {} s.folios f
def State.setFolio (s : State) (f : Nat) (x : Folio) : State := { s with folios := mput s.folios f x }

/-- A new folio with one reference, if the pool has one (R170). The number is the lowest that is free. -/
def State.newFolio (s : State) (p code : Nat) : Option (Nat × State) :=
  if s.poolRoom p (Pool.folio code) = 0 then none
  else match mfree s.folios (2 ^ 24) 0 with
    | none => none
    | some f =>
      some (f, (s.poolTake p (Pool.folio code) 1).setFolio f { part := p, code := code, refs := 1 })

/-- The press states that stand on a press and in its save slots. -/
def Press.states (p : Press) : List PressCtx :=
  p.cur :: ((match p.slotA with | some x => [x.st] | none => []) ++ (match p.slotB with | some x => [x.st] | none => []))
/-- The control operations of a press that have not executed, on it or in its save slots. -/
def Press.waitingControls (p : Press) : List CtOp := p.states.flatMap (·.ctq)
/-- Those that execute. -/
def Press.runningControls (p : Press) : List CtOp := p.states.flatMap (·.ctRun)

/-- The folios that a kern command still reads or writes when it executes. -/
def CtOp.names (o : CtOp) (f : Nat) : Bool :=
  match o with
  | .kern c => c.keys.contains f || c.copies.any (fun e => e.1 == f || e.2 == f) || c.slots.any fun e => e.1 == f
  | _ => false
def State.folioNamed (s : State) (f : Nat) : Bool := s.presses.any fun e =>
  (e.2.waitingControls ++ e.2.runningControls).any fun o => o.names f

/-- A folio leaves the table and returns to its pool; a frozen one stays (R407). One that an accepted command names
keeps its contents and its number until that command has completed. -/
def State.freeFolio (s : State) (f : Nat) : State :=
  let x := s.folio f
  if x.frozen then s.setFolio f { x with refs := 0 }
  else if s.folioNamed f then (s.setFolio f { x with refs := 0, kids := [] }).poolGive x.part (Pool.folio x.code) 1
  else ({ s with folios := mdel s.folios f }).poolGive x.part (Pool.folio x.code) 1

/-- Folios without references that no accepted command names any more leave the table. -/
def State.sweepFolios (s : State) : State :=
  { s with folios := s.folios.filter fun e => e.2.refs != 0 || e.2.frozen || s.folioNamed e.1 }

/-- One reference dropped: at 0 a folio first drops its own references, then returns to the pool (R171). The count
is of folios returned. `fuel` bounds the depth, which is three. -/
def dropRef : Nat → State → Nat → State × Nat
  | 0, s, _ => (s, 0)
  | fuel + 1, s, f =>
    let x := s.folio f
    if 1 < x.refs then (s.setFolio f { x with refs := x.refs - 1 }, 0)
    else
      let (s, k) := x.kids.foldl (fun (acc : State × Nat) e =>
        let (s', k') := dropRef fuel acc.1 e.2
        (s', acc.2 + k')) (s, 0)
      (s.freeFolio f, k + 1)

def State.dropFolio (s : State) (f : Nat) : State × Nat := dropRef 4 s f

/-- One reference added. -/
def State.addRef (s : State) (f : Nat) : State :=
  let x := s.folio f
  s.setFolio f { x with refs := x.refs + 1 }

/-- Whether one more reference on each child of a folio keeps every count within its limit (R171). -/
def State.kidsRoom (s : State) (f : Nat) : Bool :=
  (s.folio f).kids.all fun e => decide ((s.folio e.2).refs < countLimit)

/-- A copy of a root that keeps the entries below `n`, with one reference more on each list folio (R175, R219). -/
def State.copyRoot (s : State) (root n new : Nat) : State :=
  let kids := (s.folio root).kids.filter fun e => e.1 < n
  let s := s.setFolio new { s.folio new with kids := kids }
  kids.foldl (fun s e => s.addRef e.2) s

/-- Whether copying the entries of a root below `n` keeps every count within its limit. -/
def State.rootRoom (s : State) (root n : Nat) : Bool :=
  ((s.folio root).kids.filter fun e => e.1 < n).all fun e => decide ((s.folio e.2).refs < countLimit)

/-- Slot bytes of one position (R169). -/
def slotBytes (k : KStream) : Nat :=
  let ke := k.hkv * (ceilDiv (k.dk * fmtWidth k.kfmt) 8 + (if k.kmx then k.dk / 32 else 0))
  let ve := k.hkv * (ceilDiv (k.dv * fmtWidth k.vfmt) 8 + (if k.vmx then k.dv / 32 else 0))
  64 * ceilDiv (ke + ve) 64

/-- Positions per folio (R169). -/
def perFolio (k : KStream) : Nat := folioBytes k.folio / slotBytes k

/-- The data folio that holds a position of a stream, and its slot there. -/
def State.placeOf (s : State) (k : KStream) (pos : Nat) : Option (Nat × Nat) :=
  let d := pos / perFolio k
  match mfind? (s.folio k.root).kids (d / 1024) with
  | none => none
  | some l => match mfind? (s.folio l).kids (d % 1024) with
    | none => none
    | some f => some (f, pos % perFolio k)

/-- What making one folio of a stream writable yields: the state, the copy to make at execution, the folio; or a
fault; or nothing where the pool is short (R172, R174). -/
inductive Grown where
  | ok (s : State) (copies : List (Nat × Nat)) (f : Nat)
  | short
  | fault (st : Status)

/-- The list folio of an index made exclusive to the stream's root (R172 steps 1 and 2). -/
def State.ownList (s : State) (k : KStream) (li : Nat) : Grown :=
  match mfind? (s.folio k.root).kids li with
  | none => match s.newFolio k.part 0 with
    | none => .short
    | some (f, s) =>
      let r := s.folio k.root
      .ok (s.setFolio k.root { r with kids := mput r.kids li f }) [] f
  | some l =>
    if (s.folio l).refs ≤ 1 then .ok s [] l
    else if !s.kidsRoom l then .fault St.folioRefLimit
    else match s.newFolio k.part 0 with
      | none => .short
      | some (f, s) =>
        let kids := (s.folio l).kids
        let s := s.setFolio f { s.folio f with kids := kids }
        let s := kids.foldl (fun s e => s.addRef e.2) s
        let r := s.folio k.root
        let s := s.setFolio k.root { r with kids := mput r.kids li f }
        .ok (s.dropFolio l).1 [] f

/-- The data folio of an index made exclusive and present (R172, R174). `len` is the stream's length before. -/
def State.ownData (s : State) (k : KStream) (len d : Nat) : Grown :=
  match s.ownList k (d / 1024) with
  | .short => .short
  | .fault st => .fault st
  | .ok s _ l =>
    let put (s : State) (f : Nat) : State :=
      let x := s.folio l
      s.setFolio l { x with kids := mput x.kids (d % 1024) f }
    match mfind? (s.folio l).kids (d % 1024) with
    | some f =>
      if d * perFolio k < len then
        if (s.folio f).refs ≤ 1 then .ok s [] f
        else match s.newFolio k.part k.folio with
          | none => .short
          | some (g, s) => .ok ((put s g).dropFolio f).1 [(f, g)] g
      else match s.newFolio k.part k.folio with
        | none => .short
        | some (g, s) => .ok ((put s g).dropFolio f).1 [] g
    | none => match s.newFolio k.part k.folio with
      | none => .short
      | some (g, s) => .ok (put s g) [] g

/-- What an APPEND reserves: state, copies, slots of the positions it can supply, or a fault (R174). -/
structure Reserve where
  s      : State
  copies : List (Nat × Nat) := []
  slots  : List (Nat × Nat) := []
  fault  : Option Status := none

/-- Positions `pos .. pos+n-1` reserved one after the other, as far as the pool supplies them (R174). -/
def reserve (k : KStream) (len : Nat) : Nat → Nat → Reserve → Reserve
  | 0, _, r => r
  | n + 1, pos, r =>
    match r.s.ownData k len (pos / perFolio k) with
    | .short => r
    | .fault st => { r with fault := some st }
    | .ok s cs f =>
      reserve k (max len (pos + 1)) n (pos + 1)
        { r with s, copies := r.copies ++ cs, slots := r.slots ++ [(f, pos % perFolio k)] }

/-- TRUNCATE of a stream's structure to `n` positions: references wholly beyond it dropped through the list folios
the stream holds exclusively (R176). -/
def State.trimStream (s : State) (k : KStream) (n : Nat) : State × Nat :=
  let keep := ceilDiv n (perFolio k)
  let dropKid (acc : State × Nat) (l i : Nat) (f : Nat) : State × Nat :=
    let x := acc.1.folio l
    let (s', c) := (acc.1.setFolio l { x with kids := mdel x.kids i }).dropFolio f
    (s', acc.2 + c)
  (s.folio k.root).kids.foldl (fun (acc : State × Nat) e =>
    if keep ≤ e.1 * 1024 then dropKid acc k.root e.1 e.2
    else if (acc.1.folio e.2).refs ≤ 1 then
      (acc.1.folio e.2).kids.foldl (fun acc g =>
        if keep ≤ e.1 * 1024 + g.1 then dropKid acc e.2 g.1 g.2 else acc) acc
    else acc) (s, 0)

def State.kstream (s : State) (h : Nat) : KStream := mget {} s.kstreams h
def State.setKstream (s : State) (h : Nat) (k : KStream) : State := { s with kstreams := mput s.kstreams h k }

/-- RELEASE of a stream: its root dropped and its handle freed (R176). The count is of folios returned. -/
def State.releaseStream (s : State) (h : Nat) : State × Nat :=
  let (s, c) := s.dropFolio (s.kstream h).root
  ({ s with kstreams := mdel s.kstreams h }, c)

/-! ### Galley sets -/

def State.gentry (s : State) (h : Nat) : GEntry := mget {} s.galley h
def State.setGentry (s : State) (h : Nat) (e : GEntry) : State := { s with galley := mput s.galley h e }
def State.gset (s : State) (k : Nat) : GSet := mget {} s.gsets k
def State.setGset (s : State) (k : Nat) (x : GSet) : State := { s with gsets := mput s.gsets k x }

/-- Elements of a stream's state (R189). -/
def elemsOf (e : GEntry) : Nat := e.chans * e.elems
/-- Bytes per element of a state format (R191). -/
def stateBytes (sfmt : Nat) : Nat := if sfmt = 0 then 4 else 8
/-- Size class of a stream's sets: (class + 1) × 64 KiB (R193, R473). -/
def setClass (e : GEntry) : Nat := ceilDiv (elemsOf e * stateBytes e.sfmt) 0x10000 - 1
/-- Swap-area units of a stream's slot (R473). -/
def slotUnits (e : GEntry) : Nat := ceilDiv (64 + elemsOf e * stateBytes e.sfmt) 0x10000

/-- Two new sets of a class, if the pool has them (R193). -/
def State.twoSets (s : State) (p cls : Nat) : Option (Nat × Nat × State) :=
  if s.poolRoom p (Pool.galley cls) < 2 then none
  else match mfree s.gsets (2 ^ 24) 0 with
    | none => none
    | some a => match mfree s.gsets (2 ^ 24) (a + 1) with
      | none => none
      | some b =>
        let s := s.poolTake p (Pool.galley cls) 2
        some (a, b, (s.setGset a { part := p, cls }).setGset b { part := p, cls })

/-- A set returns to its pool; a frozen one stays (R407). -/
def State.freeSet (s : State) (k : Nat) : State :=
  let x := s.gset k
  if x.frozen then s.setGset k { x with share := 0 }
  else ({ s with gsets := mdel s.gsets k }).poolGive x.part (Pool.galley x.cls) 1

/-- A stream drops its reference to a set: the set it gets in exchange is the set itself where its share count
falls to 0, and one of the set's reserve otherwise (R194). -/
def State.dropSet (s : State) (k : Nat) : State × Option Nat :=
  let x := s.gset k
  if x.share ≤ 1 then (s.setGset k { x with share := 0 }, some k)
  else match x.reserve with
    | r :: rest => (s.setGset k { x with share := x.share - 1, reserve := rest }, some r)
    | [] => (s.setGset k { x with share := x.share - 1 }, none)

/-- The spare set, already written, becomes current, and R194 gives the new spare. -/
def State.swapSets (s : State) (h : Nat) : State :=
  let e := s.gentry h
  match e.cur, e.spare with
  | some c, some p =>
    let s := s.setGset p { s.gset p with share := 1 }
    let (s, sp) := s.dropSet c
    s.setGentry h { e with cur := some p, spare := sp }
  | _, _ => s

/-- What a stream holds returns to the pool: its spare, its current set under R194, sets it has not yet used, and its
swap slot (R193, R211). The count is of sets. -/
def State.returnSets (s : State) (h : Nat) : State × Nat :=
  let e := s.gentry h
  let give (acc : State × Nat) (k : Option Nat) : State × Nat :=
    match k with | some k => (acc.1.freeSet k, acc.2 + 1) | none => acc
  let (s, c) := give (s, 0) e.spare
  let (s, c) := match e.cur with
    | some k => let (s, r) := s.dropSet k; give (s, c) r
    | none => (s, c)
  let (s, c) := e.extra.foldl (fun acc k => give acc (some k)) (s, c)
  let s := match e.slot with
    | some k =>
      let x := mget ({} : GSlot) s.gslots k
      ({ s with gslots := mdel s.gslots k }).poolGive x.part Pool.swap x.units
    | none => s
  (s.setGentry h { e with cur := none, spare := none, extra := [], slot := none }, c)

/-- One reference on an entry dropped; a closed entry with none returns to the free list (R195). -/
def State.dropEntry (s : State) (h : Nat) : State :=
  let e := s.gentry h
  if e.refs ≤ 1 && !e.isOpen && !e.frozen then { s with galley := mdel s.galley h }
  else s.setGentry h { e with refs := e.refs - 1 }

/-! ### Formes -/

def State.forme (s : State) (h : Nat) : Forme := mget {} s.formes h

/-- The presses of a forme at all depths, as device × 128 + press. -/
def State.formePresses (s : State) : Nat → Nat → List Nat
  | 0, _ => []
  | fuel + 1, h => (s.forme h).members.foldl (fun acc m =>
      acc ++ (if m.isForme then s.formePresses fuel m.index else [m.device * 128 + m.index])) []

end Sys2Proof.Machine
end

