-- ==== Sys2Proof/Machine/Access.lean ====
section
/-! DEFINITION. Addresses and memory as the device sees them: translation (R31 to R36), where a byte lives, the
cabinet's lines (R236, R237), the states of placed pages (R252), sealed buffers (R348), shadow sectors (R221), and
what follows a write (R96, R261). -/

namespace Sys2Proof.Machine

/-- The kinds of access (R34). -/
inductive Kind where
  | rd | wr | ex
  deriving DecidableEq, Repr

/-- Where a translated address leads. -/
inductive Loc where
  | mem (pa : Nat)
  | page (entry off : Nat)
  | far (device pa : Nat)
  | host (window off : Nat)
  | service (off : Nat)
  deriving DecidableEq, Repr

/-- The service window of every context (R377). -/
def serviceBase : Nat := 0x0000FFFFFFFF0000

/-- The page entry that covers a virtual address, and the offset within the page (R31). -/
def State.pageAt (s : State) (c va : Nat) : Option (Page × Nat) :=
  let x := s.ctx c
  match mfind? x.large (va / 0x200000) with
  | some p => some (p, va % 0x200000)
  | none => match mfind? x.pages (va / 0x10000) with
    | some p => some (p, va % 0x10000)
    | none => none

/-- Whether a page permits an access (R34). -/
def Page.permits (p : Page) : Kind → Bool
  | .rd => p.rd
  | .wr => p.wr
  | .ex => p.ex

/-- Where an offset of a page lies. -/
def Page.loc (p : Page) (off : Nat) : Loc :=
  match p.tgt with
  | .frame pa => .mem (pa + off)
  | .placed e => .page e off
  | .remote d pa => .far d (pa + off)
  | .host w o => .host w (o + off)

/-- Translation of a virtual address for one kind of access (R31, R34, R377): the place or the fault. -/
def State.resolve (s : State) (c : Nat) (k : Kind) (va : W64) : Except Status Loc :=
  let a := va.toNat
  if 2 ^ 48 ≤ a then .error St.addrNoncanonical
  else if serviceBase ≤ a then .ok (.service (a - serviceBase))
  else match s.pageAt c a with
    | none => .error St.pageNotMapped
    | some (p, off) => if p.permits k then .ok (p.loc off) else .error St.pageAccess

/-! ### Home locations -/

/-- The key of a byte of local memory: its physical address, or the placed page and offset above 2^60. -/
def pageKey (e off : Nat) : Nat := 2 ^ 60 + e * 0x200000 + off
def Loc.key? : Loc → Option Nat
  | .mem pa => some pa
  | .page e off => some (pageKey e off)
  | _ => none

def State.entry (s : State) (e : Nat) : PlaceEnt := mget {} s.placed e
def State.setEntry (s : State) (e : Nat) (x : PlaceEnt) : State := { s with placed := mput s.placed e x }

/-- The home byte of a key (R221): of a placed page, from its frame at T2P and from its logical bytes elsewhere. -/
def State.homeByte (s : State) (k : Nat) : Byte :=
  if k < 2 ^ 60 then cell s.mem k
  else
    let e := s.entry ((k - 2 ^ 60) / 0x200000)
    let off := (k - 2 ^ 60) % 0x200000
    if e.tier = .t2p then cell s.mem (e.frame + off) else mget 0 e.bytes off

/-- A home byte written; a write to a placed page clears CLEAN and INCOMP (R252, R253, R255). -/
def State.setHome (s : State) (k : Nat) (b : Byte) : State :=
  if k < 2 ^ 60 then { s with mem := putCell s.mem k b }
  else
    let i := (k - 2 ^ 60) / 0x200000
    let off := (k - 2 ^ 60) % 0x200000
    let e := s.entry i
    let s := s.setEntry i { e with clean := false, incomp := false }
    if e.tier = .t2p then { s with mem := putCell s.mem (e.frame + off) b }
    else s.setEntry i { e with clean := false, incomp := false, bytes := mset 0 e.bytes off b }

def State.setHomes (s : State) (k : Nat) : List Byte → State
  | [] => s
  | b :: bs => (s.setHome k b).setHomes (k + 1) bs

/-! ### Open regions and shadow sectors -/

def State.region (s : State) (c r : Nat) : Region := mget {} (s.chase c).regions r
def State.setRegion (s : State) (c r : Nat) (x : Region) : State :=
  s.setChase c { s.chase c with regions := mput (s.chase c).regions r x }

/-- The open region of a press, if it holds one that the proof engine has not made visible. -/
def State.openRegion (s : State) (n : Nat) : Option Nat :=
  match (s.pc n).region with
  | some r => if (s.region (chaseOf n) r).st = .issuing then none else some r
  | none => none

/-- A byte as an access sees it: from the press's shadow sector where its open region wrote one (R221, R222). -/
def State.seenByte (s : State) (n : Option Nat) (k : Nat) : Byte :=
  match n with
  | none => s.homeByte k
  | some n => match s.openRegion n with
    | none => s.homeByte k
    | some r => match mfind? (s.region (chaseOf n) r).shadow (k / 32) with
      | some bs => nth 0 bs (k % 32)
      | none => s.homeByte k

/-- The sector of a key with the home contents, for a first partial write (R221). -/
def State.homeSector (s : State) (k : Nat) : List Byte := (span (k / 32 * 32) 32).map s.homeByte

/-- A byte written by an access: into the shadow sector of the press's open region, or home (R217, R222). -/
def State.putByte (s : State) (n : Option Nat) (k : Nat) (b : Byte) : State :=
  match n with
  | none => s.setHome k b
  | some n => match s.openRegion n with
    | none => s.setHome k b
    | some r =>
      let x := s.region (chaseOf n) r
      let sec := (mfind? x.shadow (k / 32)).getD (s.homeSector k)
      let homes := if x.homes.contains (k / 0x10000) then x.homes else x.homes ++ [k / 0x10000]
      s.setRegion (chaseOf n) r { x with shadow := mput x.shadow (k / 32) (setNth sec (k % 32) b), homes := homes }

def State.putBytes (s : State) (n : Option Nat) (k : Nat) : List Byte → State
  | [] => s
  | b :: bs => (s.putByte n k b).putBytes n (k + 1) bs

def State.seenBytes (s : State) (n : Option Nat) (k len : Nat) : List Byte := (span k len).map (s.seenByte n)

/-! ### The cabinet (R236 to R239, R254) -/

/-- The lines of a cabinet that lie in one set. The set of a line is its number modulo 4,096 (log 8). -/
def sameSet (a b : Nat) : Bool := a / 256 % 4096 == b / 256 % 4096

/-- The device physical address of a key: of a placed page at T2P in its frame. -/
def State.paOf (s : State) (k : Nat) : Option Nat :=
  if k < 2 ^ 60 then some k
  else if 2 ^ 61 ≤ k then none
  else
    let e := s.entry ((k - 2 ^ 60) / 0x200000)
    if e.tier = .t2p then some (e.frame + (k - 2 ^ 60) % 0x200000) else none

/-- The placed page at T2P whose frame holds an address. -/
def State.frameAt (s : State) (pa : Nat) : Option Nat :=
  (s.placed.find? fun e => decide (e.2.tier = .t2p) && decide (e.2.frame ≤ pa) && decide (pa < e.2.frame + 0x200000)).map (·.1)

/-- The key of a physical address: the placed page at T2P that holds it, or the address. -/
def State.keyOf (s : State) (pa : Nat) : Nat :=
  match s.frameAt pa with
  | some e => pageKey e (pa - (s.entry e).frame)
  | none => pa

/-- The key of a byte of a folio: folios lie in the pool, whose places the manual does not give [log 85]. -/
def folioKey (f off : Nat) : Nat := 2 ^ 61 + f * 0x1000000 + off

/-- The unit of a line moved at the pins (R279). -/
def State.lineRead (s : State) (k : Nat) : State := match s.paOf k with | some pa => s.unitRead pa | none => s
def State.lineWritten (s : State) (k : Nat) : State := match s.paOf k with | some pa => s.unitWritten pa | none => s

/-- Every cabinet but one drops a line, writing it back if dirty: an atomic or an outside write recalls it (R237, R239). -/
def State.recall (s : State) (keep : Option Nat) (line : Nat) : State :=
  (List.range 16).foldl (fun s c =>
    if keep = some c then s
    else match (s.chase c).cabinet.find? (fun l => l.addr == line) with
      | none => s
      | some l =>
        let s := s.setChase c { s.chase c with cabinet := (s.chase c).cabinet.filter fun l => l.addr != line }
        if l.dirty then (s.bump .chase c 0xC00 32 32 1).lineWritten line else s) s

/-- HEAT of a placed page rises for a line filled, up to 0xFFFF (R254). -/
def State.warm (s : State) (k : Nat) : State :=
  if k < 2 ^ 60 ∨ 2 ^ 61 ≤ k then s
  else
    let i := (k - 2 ^ 60) / 0x200000
    let e := s.entry i
    s.setEntry i { e with heat := min 0xFFFF (e.heat + 1) }

/-- Whether another cabinet holds a line dirty. -/
def State.dirtyElsewhere (s : State) (c line : Nat) : Bool :=
  (List.range 16).any fun d => d != c && (s.chase d).cabinet.any fun l => l.addr == line && l.dirty

/-- Every other cabinet gives a line up to the one that takes it alone: its contents pass on with it, and nothing is
written back (R237, R239) [log 86]. -/
def State.yieldLine (s : State) (c line : Nat) : State :=
  (List.range 16).foldl (fun s d =>
    if d ≠ c && (s.chase d).cabinet.any fun l => l.addr == line then
      s.setChase d { s.chase d with cabinet := (s.chase d).cabinet.filter fun l => l.addr != line }
    else s) s

/-- A line put into a cabinet that lacks it, in place of the least recently used line of its set (R236). -/
def State.fillLine (s : State) (c line : Nat) (dirty : Bool) : State :=
    let s := { s with useClock := s.useClock + 1 }
    let x := s.chase c
    let mates := x.cabinet.filter fun l => sameSet l.addr line
    let oldest := mates.foldl (fun (acc : Option CabLine) l => match acc with
      | none => some l
      | some a => if l.stamp < a.stamp then some l else some a) none
    let (cab, wb) : List CabLine × Option Nat := if mates.length < 16 then (x.cabinet, none) else match oldest with
      | none => (x.cabinet, none)
      | some o => (x.cabinet.filter fun l => l.addr != o.addr, if o.dirty then some o.addr else none)
    let new : CabLine := { addr := line, dirty := dirty, stamp := s.useClock }
    let s := s.setChase c { x with cabinet := new :: cab }
    let s := ((s.bump .chase c 0xC00 0 32 1).lineRead line).warm line
    match wb with
    | some o => (s.bump .chase c 0xC00 32 32 1).lineWritten o
    | none => s

/-- The other lines that a fill brings: those of the 4 KiB slug that a read of a T2C page decodes (R252). -/
def State.slugLines (s : State) (c line : Nat) : List Nat :=
  if line < 2 ^ 60 ∨ 2 ^ 61 ≤ line then []
  else if (s.entry ((line - 2 ^ 60) / 0x200000)).tier ≠ .t2c then []
  else ((List.range 16).map fun i => line / 4096 * 4096 + 256 * i).filter fun a =>
    a != line && !(s.chase c).cabinet.any fun l => l.addr == a

/-- An access through a chase's cabinet to the line of a key: filled on a miss, taken alone on a write or where another
cabinet holds it dirty (R236, R237, R252). -/
def State.cabAccess (s : State) (c k : Nat) (write : Bool) : State :=
  let line := k / 256 * 256
  let dirty := s.dirtyElsewhere c line
  let s := if write || dirty then s.yieldLine c line else s
  let x := s.chase c
  match x.cabinet.find? (fun l => l.addr == line) with
  | some l =>
    let l' : CabLine := { l with dirty := l.dirty || write || dirty, stamp := s.useClock + 1 }
    { s with useClock := s.useClock + 1 }.setChase c { x with cabinet := l' :: x.cabinet.filter fun l => l.addr != line }
  | none => ((s.slugLines c line).foldl (fun s a => s.fillLine c a false) s).fillLine c line (write || dirty)

/-- The lines of a range accessed one after the other. -/
def State.cabRange (s : State) (c k len : Nat) (write : Bool) : State :=
  if len = 0 then s
  else (List.range ((k + len - 1) / 256 - k / 256 + 1)).foldl
    (fun s i => s.cabAccess c ((k / 256 + i) * 256) write) s

/-! ### Stalls -/

/-- Whether a key lies in the range of a sealed result buffer (R348). -/
def State.sealedKey (s : State) (k : Nat) : Bool :=
  s.buffers.any fun e =>
    let b := e.2
    b.sealed && (List.range (b.len / 0x10000 + 2)).any fun i =>
      let va := b.base / 0x10000 * 0x10000 + i * 0x10000
      match s.pageAt b.ctx va with
      | some (p, off) => match (p.loc off).key? with
        | some pk =>
          decide (pk ≤ k) && decide (k < pk + 0x10000) &&
            decide (b.base ≤ va + (k - pk)) && decide (va + (k - pk) < b.base + b.len)
        | none => false
      | none => false

/-- Whether an access to a place stalls for its page or for a sealed buffer (R37, R252, R348). -/
def State.pageStalls (s : State) (l : Loc) (write : Bool) : Bool :=
  match l with
  | .mem pa => write && s.sealedKey pa
  | .page e _ =>
    let x := s.entry e
    x.poison || decide (x.tier = .moving) || decide (x.tier = .t3) || (write && decide (x.tier = .t2c))
  | _ => false

/-- Whether a key lies in a page that a commit is copying to: accesses from outside the region stall (step 2 of R227). -/
def State.copyKey (s : State) (k : Nat) : Bool :=
  s.chases.any fun ch => ch.2.regions.any fun e =>
    decide (e.2.st = .copying) && e.2.shadow.any fun x => x.1 * 32 / 0x10000 == k / 0x10000

/-- Whether an access to a place stalls in memory (R37, R227, R252, R348). -/
def State.stalls (s : State) (l : Loc) (write : Bool) : Bool :=
  s.pageStalls l write || match l.key? with
    | some k => s.copyKey k
    | none => false

/-- Whether an access of `n` bytes at a place waits at its pseudo-channel for a retraining window, the cabinet of its chase
holding none of what it needs there (R292). -/
def State.windowHolds (s : State) (c : Option Nat) (l : Loc) (n : Nat) : Bool :=
  !s.windows.isEmpty && match l.key? with
    | none => false
    | some k => (List.range ((k % 32 + n + 31) / 32)).any fun i =>
      let a := k / 32 * 32 + 32 * i
      !(match c with
        | some c => (s.chase c).cabinet.any fun l => l.addr == a / 256 * 256
        | none => false) &&
      match s.paOf a with
      | some pa => s.inWindow pa 1
      | none => false

/-- Whether an access of `n` bytes stalls in memory, for its page or at its pseudo-channel. -/
def State.waits (s : State) (c : Option Nat) (l : Loc) (n : Nat) (write : Bool) : Bool :=
  s.stalls l write || s.windowHolds c l n

/-- A page moved from one place to another: the shadow sectors of open regions follow it, so that they stay those of its home
location (R221, R222). -/
def State.rekeyShadows (s : State) (old new n : Nat) : State :=
  let go (k u : Nat) : Nat := if decide (old ≤ k * u) && decide (k * u < old + n) then (k * u - old + new) / u else k
  { s with chases := mmap (fun _ ch => { ch with
      regions := mmap (fun _ (x : Region) => { x with
        shadow := x.shadow.foldl (fun m e => mput m (go e.1 32) e.2) []
        homes := x.homes.map fun h => go h 0x10000 }) ch.regions }) s.chases }

/-- The lines of a page that gets another name keep their contents in the cabinets. -/
def State.rekeyLines (s : State) (old new n : Nat) : State :=
  { s with chases := mmap (fun _ ch => { ch with
      cabinet := ch.cabinet.map fun l =>
        if decide (old ≤ l.addr) && decide (l.addr < old + n) then { l with addr := l.addr - old + new } else l }) s.chases }

/-- The move that a stalled access to a placed page starts: a fetch from T3, or for a write a promotion (R252). -/
def State.provoke (s : State) (l : Loc) (write : Bool) : State :=
  match l with
  | .page e _ =>
    let x := s.entry e
    if x.poison then s
    else if x.tier = .t3 then s.setEntry e { x with tier := .moving, was := .t3, move := some .fetch }
    else if x.tier = .t2c && write then s.setEntry e { x with tier := .moving, was := .t2c, move := some .promote }
    else s
  | _ => s

/-- Whether the bytes of a key range are marked uncorrectable (R240, R287). -/
def State.isBad (s : State) (k len : Nat) : Bool :=
  (s.bad.any fun b => decide (b * 32 < k + len) && decide (k < b * 32 + 32)) ||
    s.tagBad.any fun u => decide (u * 512 < k + len) && decide (k < u * 512 + 512)

/-- The status of an error found at a key: a tag that does not match, or an uncorrectable sector (R287, R289). -/
def State.badStatus (s : State) (k : Nat) : Status :=
  if s.tagBad.contains (k / 512) && !s.bad.contains (k / 32) then St.tagMismatch else St.hbmUncorrectable

/-- The error marks of a range taken away with its contents. -/
def State.clearBad (s : State) (a n : Nat) : State :=
  { s with
    bad := s.bad.filter fun b => decide (b * 32 < a) || decide (a + n ≤ b * 32)
    tagBad := s.tagBad.filter fun u => decide (u * 512 < a) || decide (a + n ≤ u * 512) }

/-- Whether a read of a key range, as an access sees it, meets an uncorrectable sector: of a sector with a shadow the
home bytes are not read (R221). -/
def State.badRead? (s : State) (v : Option Nat) (k len : Nat) : Bool :=
  match v.bind fun n => (s.openRegion n).map fun r => s.region (chaseOf n) r with
  | none => s.isBad k len
  | some x => (List.range ((k + len - 1) / 32 - k / 32 + 1)).any fun i =>
      let sec := k / 32 + i
      !mhas x.shadow sec && s.isBad (sec * 32) 32 && decide (sec * 32 < k + len)

/-! ### After a write -/

/-- The 8-byte word at a virtual address of a context, as a press or, with none, anyone else sees it (R221, R222). -/
def State.wordAt (s : State) (v : Option Nat) (c : Nat) (va : W64) : Option W64 :=
  match s.resolve c .rd va with
  | .ok l => match l.key? with
    | some k => some (wn (ofBytes (s.seenBytes v k 8)))
    | none => none
  | .error _ => none

/-- Every waiting RWAIT evaluated against the word it watches (R96). -/
def State.watchWords (s : State) : State :=
  { s with presses := mmap (fun n p =>
      match p.cur.watch, p.run with
      | some w, some c => match s.wordAt (some n) c w.va with
        | some v => if w.thresh.toNat ≤ v.toNat then
            { p with cur := { p.cur with watch := some { w with met := true } } } else p
        | none => p
      | _, _ => p) s.presses }

/-- The pages of a layer of a streaming job, as placement entries (R260, R261). -/
def State.layerPages (s : State) (j : StreamJob) (i : Nat) : List Nat :=
  match j.layers[i]? with
  | none => []
  | some (va, n) => (List.range n).filterMap fun k => match s.pageAt j.ctx (va + k * 0x200000) with
    | some (p, _) => match p.tgt with | .placed e => some e | _ => none
    | none => none

/-- The layers in the window of a job at progress `p` (R261). -/
def windowLayers (j : StreamJob) (p : Nat) : List Nat :=
  let n := j.layers.length
  if n = 0 then []
  else if j.wrap then dedup ((span p j.window).map (· % n)) else (span p j.window).filter (· < n)

/-- Promotions under way in a partition; each takes a frame at its end. -/
def State.promoting (s : State) (p : Nat) : Nat :=
  (s.placed.filter fun e => e.2.part == p && decide (e.2.tier = .moving) && decide (e.2.move = some .promote)).length

/-- Frames of a partition's T2P pool that no page holds and no promotion under way will take (R258). -/
def State.frameFree (s : State) (p : Nat) : Nat := s.poolRoom p Pool.frames - s.promoting p

/-- PLACE.THRESH[p].RESERVE: frames kept for promotions forced by writes (R258). -/
def State.reserveFrames (s : State) (p : Nat) : Nat := s.regFld .place 0 (0x40 * p + 0x08) 48 8

/-- A placed page starts its promotion, if a frame outside the reserve is free; otherwise SHORT counts it (R261, R262). -/
def State.streamPromote (s : State) (p e : Nat) : State :=
  let x := s.entry e
  if x.poison || decide (x.tier = .t2p) || decide (x.tier = .moving) then s
  else if x.tier = .t3 then s.setEntry e { x with tier := .moving, was := .t3, move := some .fetch }
  else if s.frameFree p ≤ s.reserveFrames p then s.bump .place 0 (0x40 * p + 0x18) 48 16 1
  else s.setEntry e { x with tier := .moving, was := .t2c, move := some .promote }

/-- The window of a streaming job moved to the progress word as it stands (R261). -/
def State.slideJob (s : State) (p i : Nat) (j : StreamJob) : State :=
  match s.wordAt none j.ctx j.progress with
  | none => s
  | some w =>
    let want := dedup ((windowLayers j w.toNat).foldl (fun acc l => acc ++ s.layerPages j l) [])
    let adj (s : State) (e : Nat) (up : Bool) : State :=
      let x := s.entry e
      s.setEntry e { x with holds := if up then x.holds + 1 else x.holds - 1 }
    let gone := j.held.filter fun e => !want.contains e
    let come := want.filter fun e => !j.held.contains e
    let s := gone.foldl (fun s e => adj s e false) s
    let s := come.foldl (fun s e => (adj s e true).streamPromote p e) s
    let x := s.part p
    s.setPart p { x with jobs := mput x.jobs i { j with held := want } }

def State.slideJobs (s : State) : State :=
  s.parts.foldl (fun s e => e.2.jobs.foldl (fun s j => s.slideJob e.1 j.1 j.2) s) s

/-- What follows every write to local memory: waiting RWAITs and streaming jobs look again (R96, R261). -/
def State.wrote (s : State) : State := s.watchWords.slideJobs

end Sys2Proof.Machine
end

