-- ==== Sys2Proof/Machine/Fabric.lean ====
section
/-! DEFINITION. Sending on Quoin and to the host: coordinates and routing (R364, R365, R372), credits (R368), DMA
tokens (R375), and the requests that carry remote and host-window accesses (R352, R375). -/

namespace Sys2Proof.Machine

/-- The device's identifier and whether it is set (R27). -/
def State.myId (s : State) : Nat := s.regFld .mgmt 0 0 0 16
def State.idValid (s : State) : Bool := s.regFld .mgmt 0 0 16 1 == 1

/-- Coordinate `d` of an identifier, and the extent of dimension `d` (R364). -/
def coord (id d : Nat) : Nat := id / 16 ^ d % 16
def State.extent (s : State) (d : Nat) : Nat := s.regFld .quoin 0 0 (4 * d) 4 + 1

/- LINK_STATUS.STATE codes. -/
namespace LinkSt
def down : Nat := 0
def training : Nat := 1
def up : Nat := 2
def retrain : Nat := 3
def failed : Nat := 4
def off : Nat := 5
def loop : Nat := 6
end LinkSt

def State.linkState (s : State) (l : Nat) : Nat := s.regFld .quoin 0 (0x200 + 8 * l) 0 3
def State.setLinkState (s : State) (l v : Nat) : State := s.setFld .quoin 0 (0x200 + 8 * l) 0 3 v
def State.linkDim (s : State) (l : Nat) : Nat := s.regFld .quoin 0 (0x100 + 8 * l) 1 2
def State.linkDir (s : State) (l : Nat) : Nat := s.regFld .quoin 0 (0x100 + 8 * l) 3 1
def State.linkOssel (s : State) (l : Nat) : Bool := s.regFld .quoin 0 (0x100 + 8 * l) 4 1 == 1

/-- A link in service is UP or retrains (R395) [log 107]. -/
def State.inService (s : State) (l : Nat) : Bool := s.linkState l == LinkSt.up || s.linkState l == LinkSt.retrain

/-- The links of a bundle that take its packets (R372): a link that retrains carries nothing, and the others take its new
packets (R395); where every link in service retrains, packets wait there for the end [log 107]. -/
def State.bundle (s : State) (d dir : Nat) : List Nat :=
  let all := (List.range 32).filter fun l => s.inService l && s.linkDim l == d && s.linkDir l == dir
  let ready := all.filter fun l => s.linkState l == LinkSt.up
  if ready.isEmpty then all else ready

/-- Receive depth of a virtual channel (R368). -/
def vcDepth (vc : Nat) : Nat := nth 32 [128, 128, 128, 128, 192, 192, 32, 32] vc

/-- Credits that the sender of a link holds for a channel (R368). -/
def Link.held (l : Link) (vc : Nat) : Nat :=
  (vcDepth vc + mget 0 l.creditRx vc + 65536 - mget 0 l.sent vc % 65536) % 65536

/-- The lower channel of a packet's class (R368, R370). -/
def lowerVc (typ : Nat) : Nat :=
  if typ == 1 || typ == 3 || typ == 5 then 0
  else if typ == 2 || typ == 4 || typ == 6 then 2
  else if typ == 0x10 then 4 else 6

def pktVc (p : Packet) : Nat := lowerVc p.typ + b2n p.rvcHi

/-- Flits that carry a packet when it starts a flit (R369, log 15). -/
def pktFlits (p : Packet) : Nat := ceilDiv (2 + ceilDiv p.data.length 16) 15

/-- The link that R372 chooses for a packet, and the packet with its routing fields; none where it is dropped.
`fresh` marks a packet new at this device's injection. -/
def State.route (s : State) (p : Packet) (fresh : Bool) : Option (Nat × Packet) :=
  let c := s.myId
  match (List.range 4).find? (fun d => coord c d != coord p.dest d) with
  | none => none
  | some d =>
    let k := s.extent d
    let cd := coord c d
    let td := coord p.dest d
    let p :=
      if fresh || p.rdim != d then
        let upw := (td + k - cd) % k
        let down := (cd + k - td) % k
        let dir := if upw ≤ down then 0 else 1
        let dir := if (s.bundle d dir).isEmpty then 1 - dir else dir
        { p with rdim := d, rvcHi := false, rdir := dir == 1 }
      else p
    let dir := b2n p.rdir
    match s.bundle d dir with
    | [] => none
    | l0 :: ls =>
      let p := if (dir == 0 && cd + 1 == k) || (dir == 1 && cd == 0) then { p with rvcHi := true } else p
      let best := ls.foldl (fun a l => if (s.link a).held (pktVc p) < (s.link l).held (pktVc p) then l else a) l0
      some (best, p)

/-- The flits of a packet from its `k`-th on leave on a link, the first with sequence number `seq` (R366). -/
def State.launch (s : State) (l : Nat) (p : Packet) (seq k : Nat) : State :=
  let x := s.link l
  let n := pktFlits p
  ((s.setLink l { x with cvc := (x.cvc + n - k) % 8 }).bump .telem 0 0x28 0 64 (n - k)).emit
    (.quoin l p (x.dataFlits p (pktVc p) seq k n))

/-- A packet sent on a link: it takes a credit for each flit and enters the replay buffer, or waits for credits,
for room in the replay buffer or for the end of a retrain (R367, R368, R395). -/
def State.sendOn (s : State) (l : Nat) (p : Packet) : State :=
  let x := s.link l
  let n := pktFlits p
  if s.linkState l = LinkSt.up && n ≤ x.held (pktVc p) && x.replay.length + n ≤ 1024 then
    let p := if p.reissue then p else { p with pseq := x.pseqTx % 65536 }
    let s := s.setLink l { x with
      pseqTx := if p.reissue then x.pseqTx else (x.pseqTx + 1) % 65536
      seqNext := (x.seqNext + n) % 4096
      sent := mset 0 x.sent (pktVc p) ((mget 0 x.sent (pktVc p) + n) % 65536)
      replay := x.replay ++ (List.range n).map fun i =>
        ((x.seqNext + i) % 4096, (pktVc p), if i + 1 = n then [p] else []) }
    s.launch l p x.seqNext 0
  else s.setLink l { x with waiting := x.waiting ++ [p] }

/-- A packet injected by this device: sent, or false where no link leads to its destination (R372). -/
def State.inject (s : State) (p : Packet) : State × Bool :=
  match s.route p true with
  | none => (s, false)
  | some (l, p) => (s.sendOn l p, true)

/-- DMA tokens held by outstanding Quoin requests (R375). -/
def State.tokensHeld (s : State) : Nat :=
  (s.requests.filter fun e => decide (e.2.kind < 3) && e.2.held.isNone).length
def State.tokensFree (s : State) : Nat := 16384 - s.tokensHeld

/-- A Quoin request sent under a token, or kept until one is free (R375). -/
def State.askQuoin (s : State) (r : Request) (p : Packet) : State :=
  let tag := s.nextTag
  let s := { s with nextTag := tag + 1 }
  let p := { p with tag := BitVec.ofNat 32 tag, src := s.myId }
  if s.tokensFree = 0 then { s with requests := mput s.requests tag { r with held := some p } }
  else
    let (s', ok) := s.inject p
    let r := if ok then r else { r with failed := some St.remoteUnreachable }
    { s' with requests := mput s'.requests tag r }

/-- A returned token serves the oldest request that waits for one (R375). -/
def State.serveToken (s : State) : State :=
  match s.requests.find? (fun e => e.2.held.isSome) with
  | none => s
  | some (tag, r) => match r.held with
    | none => s
    | some p =>
      if s.tokensFree = 0 then s
      else
        let (s', ok) := s.inject p
        let r := { r with held := none, failed := if ok then none else some St.remoteUnreachable }
        { s' with requests := mput s'.requests tag r }

/-- A request ended: its token returns (R375). -/
def State.endRequest (s : State) (tag : Nat) : State :=
  ({ s with requests := mdel s.requests tag }).serveToken

/-- A request without fields of its own set. -/
def basePacket (s : State) (c dev pa len : Nat) : Packet :=
  { typ := 1, reissue := false, ossel := false, origin := false, rdir := false, rdim := 0, rvcHi := false,
    rsvZero := true, dest := dev, src := s.myId, pseq := 0, origLink := 0, op := 0, fmt := 0, len := len,
    jobTag := (s.ctx c).jobTag, addr := wn pa, tag := 0, status := 0, data := [] }

/-- The pieces of a range: at most `lim` bytes each, none across a boundary of `lim` (R375, R352). -/
def pieces (lim a : Nat) : Nat → Nat → List (Nat × Nat)
  | 0, _ => []
  | _ + 1, 0 => []
  | fuel + 1, len =>
    let n := min len (lim - a % lim)
    (a, n) :: pieces lim (a + n) fuel (len - n)

/-- REMOTE_OUT of a context raised (R300). -/
def State.remoteOut (s : State) (c : Nat) : State :=
  s.setCtx c { s.ctx c with remoteOut := (s.ctx c).remoteOut + 1 }

/-- Blocks from number `b` on sealed, each under a record number of its own, and written to a window (R353, R357). -/
def State.sendBlocks (s : State) (id : W32) (h : HostWin) (b n : Nat) (bs : List Byte) : State :=
  let x := s.session h.session
  (s.setSession h.session { x with txRseq := x.txRseq + n }).send h.session
    (.writeHost id (h.addr + recordSize * b) (sealBlocks x.keys h.session x.txRseq b n bs))

/-- The message of a host request: a PULL or a WRITE at the host address. In a bounce window it names whole records, and a
write that leaves part of a block begins with a PULL (R352, R357) [log 108]. -/
def State.tellHost (s : State) (id : W32) (h : HostWin) (off len : Nat) (data : Option (List Byte)) : State :=
  let (b, n) := blockSpan off len
  if !h.bounce then
    match data with
    | none => s.send h.session (.pullReq id (h.addr + off) len)
    | some bs => s.send h.session (.writeHost id (h.addr + off) bs)
  else match data with
    | some bs =>
      if len = blockSize * n then s.sendBlocks id h b n bs
      else s.send h.session (.pullReq id (h.addr + recordSize * b) (recordSize * n))
    | none => s.send h.session (.pullReq id (h.addr + recordSize * b) (recordSize * n))

/-- A host request: a PULL or a WRITE on the window's session; once that session has ended the access fails (R352). -/
def State.askHost (s : State) (r : Request) (w off len : Nat) (data : Option (List Byte)) : State :=
  let h := mget ({} : HostWin) s.hostwins w
  let tag := s.nextTag
  let pulls := h.bounce && decide (len ≠ blockSize * (blockSpan off len).2)
  let r := { r with
    kind := if data.isNone || pulls then 3 else 4
    session := some h.session, failed := if s.sessionOpen h.session then none else some St.pullFailed
    bounce := if h.bounce then some (w, off) else none, merge := if h.bounce then data else none }
  ({ s with nextTag := tag + 1, requests := mput s.requests tag r }).tellHost (BitVec.ofNat 32 tag) h off len data

/-- The most bytes of a window that one request covers (R352): the records of a bounce window's blocks must not pass 1 MiB
[log 108]. -/
def State.hostPiece (s : State) (w : Nat) : Nat := if (mget ({} : HostWin) s.hostwins w).bounce then 0x80000 else 0x100000

/-- A remote or host read of a place, by pieces; each piece is one request (R352, R375). -/
def State.askRead (s : State) (r : Request) (l : Loc) (len : Nat) : State :=
  match l with
  | .far d pa => (pieces 4096 pa 8192 len).foldl (fun s q =>
      (s.remoteOut r.ctx).askQuoin { r with kind := 0, va := r.va + wn (q.1 - pa), len := q.2 }
        (basePacket s r.ctx d q.1 q.2)) s
  | .host w off => (pieces (s.hostPiece w) off 8192 len).foldl (fun s q =>
      (s.remoteOut r.ctx).askHost { r with va := r.va + wn (q.1 - off), len := q.2 } w q.1 q.2 none) s
  | _ => s

/-- A remote or host write of a place, by pieces. -/
def State.askWrite (s : State) (r : Request) (l : Loc) (data : List Byte) : State :=
  match l with
  | .far d pa => (pieces 4096 pa 8192 data.length).foldl (fun s q =>
      (s.remoteOut r.ctx).askQuoin { r with kind := 1, va := r.va + wn (q.1 - pa), len := q.2 }
        { basePacket s r.ctx d q.1 q.2 with typ := 3, data := slice data (q.1 - pa) q.2 }) s
  | .host w off => (pieces (s.hostPiece w) off 8192 data.length).foldl (fun s q =>
      (s.remoteOut r.ctx).askHost { r with va := r.va + wn (q.1 - off), len := q.2 } w q.1 q.2
        (some (slice data (q.1 - off) q.2))) s
  | _ => s

/-- A remote INT64 add to a word of a peer (R283, R375). -/
def State.askAdd (s : State) (r : Request) (d pa : Nat) (addend : W64) : State :=
  (s.remoteOut r.ctx).askQuoin { r with kind := 2, len := 8 }
    { basePacket s r.ctx d pa 8 with typ := 5, op := 0, fmt := 0xF, data := toBytes 8 addend.toNat }

end Sys2Proof.Machine
end

