-- ==== Sys2Proof/Machine/Flags.lean ====
section
/-! DEFINITION. The sticky numeric status of a press with its counters (R68), and the generator of stochastic rounding
(R57, R495). -/

namespace Sys2Proof.Machine

/-- Counters of the conditions in `fl`, each raised by 1 (R68). -/
def countFlags (m : Map W32) (fl : Flags) : Map W32 :=
  (List.range 8).foldl (fun m k => if fl.getLsbD k then mset 0 m k (mget 0 m k + 1) else m) m

/-- Conditions of one Line recorded: the sticky bits are set, and the counter of each condition rises by 1 the first
time it arises in the Line (R68). `line` is the number of the Line. -/
def PressCtx.record (c : PressCtx) (line : Nat) (fl : Flags) : PressCtx :=
  let new := fl &&& ~~~ mget 0 c.raised line
  { c with
    numStatus := c.numStatus ||| fl
    numCount := countFlags c.numCount new
    raised := mset 0 c.raised line (mget 0 c.raised line ||| fl) }

/-- Conditions that are new to a Line: as many sets of press flags for the audit totals (R68, R408). -/
def newConditions (c : PressCtx) (line : Nat) (fl : Flags) : Nat :=
  ((List.range 8).filter fun k => (fl &&& ~~~ mget 0 c.raised line).getLsbD k).length

/-- Conditions of a Line of the context on a press recorded and counted. -/
def State.record (s : State) (n line : Nat) (fl : Flags) : State :=
  if fl = 0 then s
  else (s.modPc n fun c => c.record line fl).tallies 1 (newConditions (s.pc n) line fl)

/-- The generator advanced by one draw (R57). -/
def srStep (s : W64) : W64 :=
  let s := s ^^^ (s <<< 13)
  let s := s ^^^ (s >>> 7)
  s ^^^ (s <<< 17)

/-- The value of a draw: the low 16 bits of the new state (R57). -/
def srValue (s : W64) : Nat := s.toNat % 65536

/-- `n` draws, in the order in which the generator gives them, and the state after them (R57). -/
def srDraws : Nat → W64 → List Nat × W64
  | 0, s => ([], s)
  | n + 1, s =>
    let s' := srStep s
    let (l, e) := srDraws n s'
    (srValue s' :: l, e)

/-- A list in the order that free choices give: which draw goes to which element is not specified (R495). -/
def shuffle (free : Nat) : Nat → List Nat → List Nat
  | 0, l => l
  | fuel + 1, l =>
    if l.isEmpty then []
    else
      let i := Config.pick free % l.length
      nth 0 l i :: shuffle (free + 1) fuel (l.eraseIdx i)

/-- `n` draws of the generator of a press for `n` elements, in an order that is free (R57, R495). -/
def State.srFor (s : State) (p n : Nat) : List Nat × State :=
  if n = 0 then ([], s)
  else
    let (l, e) := srDraws n (s.pc p).srSeed
    let s' := s.modPc p fun c => { c with srSeed := e }
    (shuffle s.free n l, { s' with free := s.free + n })

/-- The draws that `n` elements written under RND consume where their patterns need none: an operation takes one for each
element that it writes into a format of R56, whatever its value (R495). -/
def State.spendDraws (s : State) (p fmt : Nat) (nc : BitVec 4) (n : Nat) : State :=
  if drawsFor fmt nc then (s.srFor p n).2 else s

/-- A written seed: zero loads 1 (the field table of PRESS.SR_SEED). -/
def seedOf (v : W64) : W64 := if v = 0 then 1 else v

end Sys2Proof.Machine
end

