-- ==== Sys2Proof/Machine/Operands.lean ====
section
/-! DEFINITION. The operands of a Line: registers (R75), the shared immediate (R73, R74), tensor descriptors (table before
R76), where the elements of a tensor lie (R47, R49, R119, R493), and how tensors are read and written. -/

namespace Sys2Proof.Machine

/-! ### Registers (R75) -/

/-- x0 reads as zero. -/
def PressCtx.getX (c : PressCtx) (i : Nat) : W64 := if i = 0 then 0 else mget 0 c.x i
/-- Writes to x0 are discarded. -/
def PressCtx.setX (c : PressCtx) (i : Nat) (v : W64) : PressCtx := if i = 0 then c else { c with x := mset 0 c.x i v }
def PressCtx.getT (c : PressCtx) (i : Nat) : Desc := mget 0 c.t i
def PressCtx.setT (c : PressCtx) (i : Nat) (v : Desc) : PressCtx := { c with t := mset 0 c.t i v }
/-- p0 reads as all ones. -/
def PressCtx.getP (c : PressCtx) (i : Nat) : Pred := if i = 0 then BitVec.allOnes 16384 else mget 0 c.p i
/-- Writes to p0 are discarded. -/
def PressCtx.setP (c : PressCtx) (i : Nat) (v : Pred) : PressCtx := if i = 0 then c else { c with p := mset 0 c.p i v }
/-- The registers of a compositor: x0 and p0 as on a press, predicates of 64 bits. -/
def Comp.getX (c : Comp) (i : Nat) : W64 := if i = 0 then 0 else mget 0 c.x i
def Comp.setX (c : Comp) (i : Nat) (v : W64) : Comp := if i = 0 then c else { c with x := mset 0 c.x i v }
def Comp.getP (c : Comp) (i : Nat) : W64 := if i = 0 then BitVec.allOnes 64 else mget 0 c.p i
def Comp.setP (c : Comp) (i : Nat) (v : W64) : Comp := if i = 0 then c else { c with p := mset 0 c.p i v }

/-! ### The shared immediate (R73, R74) -/

/-- Number of parts under a split: none for the reserved split. -/
def immParts (split : BitVec 2) : Nat := nth 0 [1, 2, 4, 0] split.toNat
/-- Width of a part. -/
def immWidth (split : BitVec 2) : Nat := nth 64 [64, 32, 16, 64] split.toNat
/-- Part `i` of the shared immediate, as a number. -/
def immPart (l : Line) (i : Nat) : Nat := (l.imm.toNat >>> (i * immWidth l.split)) % 2 ^ immWidth l.split

/-! ### Tensor descriptors -/

/-- The fields of a tensor descriptor. -/
structure TD where
  base  : W64
  scale : W64
  e0    : Nat
  e1    : Nat
  e2    : Nat
  e3    : Nat
  s1    : Int
  s2    : Int
  s3    : Int
  fmt   : Nat
  mx    : Bool
  axis  : Nat
  space : Nat
  role  : Bool
  sdim  : Nat
  plist : Bool
  rsvBad : Bool
  deriving DecidableEq, Repr

/-- Word `i` of a descriptor. -/
def dword (d : Desc) (i : Nat) : W64 := d.extractLsb' (64 * i) 64

/-- A descriptor with a word replaced (TSET). -/
def setDword (d : Desc) (i : Nat) (v : W64) : Desc :=
  let mask : Desc := (BitVec.allOnes 64).setWidth 512 <<< (64 * i)
  (d &&& ~~~mask) ||| (v.setWidth 512 <<< (64 * i))

/-- The descriptor of 64 bytes (DLOAD). -/
def descOf (bs : List Byte) : Desc := BitVec.ofNat 512 (ofBytes bs)

/-- The fields of a descriptor (R77). SCALE_BASE, zero unless MX = 1, is not among the checks that R77 lists, and a nonzero one
is not refused (DESIGN CHOICE, log 100). -/
def tdOf (d : Desc) : TD :=
  let w7 := dword d 7
  { base := dword d 0, scale := dword d 1
    e0 := fld (dword d 2) 31 0, e1 := fld (dword d 2) 63 32
    e2 := fld (dword d 3) 31 0, e3 := fld (dword d 3) 63 32
    s1 := sext 48 (dword d 4).toNat, s2 := sext 48 (dword d 5).toNat, s3 := sext 48 (dword d 6).toNat
    fmt := fld w7 3 0, mx := flag w7 4, axis := fld w7 6 5, space := fld w7 8 7, role := flag w7 9
    sdim := fld w7 11 10, plist := flag w7 12
    rsvBad := fld w7 63 13 != 0 || fld (dword d 4) 63 48 != 0 || fld (dword d 5) 63 48 != 0 ||
      fld (dword d 6) 63 48 != 0 }

/-- Extent of dimension `d`. -/
def TD.ext (t : TD) (d : Nat) : Nat := nth 0 [t.e0, t.e1, t.e2, t.e3] d
/-- Number of elements. -/
def TD.count (t : TD) : Nat := t.e0 * t.e1 * t.e2 * t.e3
/-- Bytes of an element, one for narrower formats: the unit of alignment. -/
def TD.bytes (t : TD) : Nat := max 1 (fmtWidth t.fmt / 8)

/-- Coordinates of an element, and the order of elements: dimension 0 fastest (R141). -/
structure Coord where
  i0 : Nat
  i1 : Nat
  i2 : Nat
  i3 : Nat
  deriving DecidableEq, Repr

def TD.coord (t : TD) (k : Nat) : Coord :=
  ⟨k % t.e0, k / t.e0 % t.e1, k / (t.e0 * t.e1) % t.e2, k / (t.e0 * t.e1 * t.e2)⟩
def TD.coords (t : TD) : List Coord := (List.range t.count).map t.coord
def Coord.get (c : Coord) (d : Nat) : Nat := nth 0 [c.i0, c.i1, c.i2, c.i3] d
/-- The number of an element in the order of elements. -/
def TD.lin (t : TD) (c : Coord) : Nat := c.i0 + t.e0 * (c.i1 + t.e1 * (c.i2 + t.e2 * c.i3))

/-- Extent of dimension `d` counted in blocks on the block axis (R493). -/
def TD.bext (t : TD) (d : Nat) : Nat := if d = t.axis then ceilDiv (t.ext d) 32 else t.ext d
/-- Extent of dimension `d` as laid out: the block axis rounded up to whole blocks (R49). -/
def TD.pext (t : TD) (d : Nat) : Nat := if t.mx && d == t.axis then 32 * ceilDiv (t.ext d) 32 else t.ext d
/-- Number of blocks of one index of dimension 3 with a pointer list, of all otherwise. -/
def TD.blocks (t : TD) : Nat := t.bext 0 * t.bext 1 * t.bext 2 * (if t.plist then 1 else t.bext 3)
/-- Number of the block that holds an element (R493). -/
def TD.blockNo (t : TD) (c : Coord) : Nat :=
  let b (d : Nat) : Nat := if d = t.axis then c.get d / 32 else c.get d
  b 0 + t.bext 0 * (b 1 + t.bext 1 * (b 2 + (if t.plist then 0 else t.bext 2 * b 3)))

/-- The base of index `i3` (R119): the pointer-list entry, or BASE. -/
def TD.baseAt (t : TD) (list : List W64) (i3 : Nat) : W64 := if t.plist then nth 0 list i3 else t.base
/-- The base of the scale array of index `i3` (R493): list entries beyond EXT3 hold the second list. -/
def TD.scaleAt (t : TD) (list : List W64) (i3 : Nat) : W64 := if t.plist then nth 0 list (t.e3 + i3) else t.scale

/-- Address of the row that an element lies in. -/
def TD.rowAddr (t : TD) (list : List W64) (c : Coord) : W64 :=
  t.baseAt list c.i3 + w64 (c.i1 * t.s1 + c.i2 * t.s2 + (if t.plist then 0 else c.i3 * t.s3))
/-- Address of the first byte of an element, and its bit in that byte (R47). -/
def TD.place (t : TD) (list : List W64) (c : Coord) : W64 × Nat :=
  let bit := c.i0 * fmtWidth t.fmt
  (t.rowAddr list c + wn (bit / 8), bit % 8)
/-- Address of the scale of the block that holds an element. -/
def TD.scalePlace (t : TD) (list : List W64) (c : Coord) : W64 := t.scaleAt list c.i3 + wn (t.blockNo c)

/-- Bytes of a row of `n` elements: 6-bit formats in whole groups, 4-bit formats in whole bytes (R47). -/
def rowBytes (fmt n : Nat) : Nat :=
  if fmtWidth fmt = 6 then 3 * ceilDiv n 4 else ceilDiv (n * fmtWidth fmt) 8
/-- A row of element patterns packed, padded with zeros (R47). -/
def packRow (fmt : Nat) (els : List Nat) : List Byte :=
  let w := fmtWidth fmt
  toBytes (rowBytes fmt els.length) (els.reverse.foldl (fun acc e => (acc <<< w) + e % 2 ^ w) 0)
/-- The element patterns of a packed row. -/
def unpackRow (fmt n : Nat) (bs : List Byte) : List Nat :=
  let v := ofBytes bs
  (List.range n).map fun i => (v >>> (i * fmtWidth fmt)) % 2 ^ fmtWidth fmt

/-- The rows of a tensor, laid-out extents in the outer dimensions: coordinates of their first elements. -/
def TD.rows (t : TD) : List Coord :=
  if t.count = 0 then []
  else (List.range (t.pext 1 * t.pext 2 * t.pext 3)).map fun k =>
    ⟨0, k % t.pext 1, k / t.pext 1 % t.pext 2, k / (t.pext 1 * t.pext 2)⟩

/-- The byte ranges of a tensor: its rows, then its scales. -/
def TD.ranges (t : TD) (list : List W64) : List (W64 × Nat) :=
  let rows := t.rows.map fun c => (t.rowAddr list c, rowBytes t.fmt (t.pext 0))
  if !t.mx || t.count == 0 then rows
  else rows ++ (if t.plist then (List.range t.e3).map fun i => (t.scaleAt list i, t.blocks) else [(t.scale, t.blocks)])

/-! ### Checks (R77, R52, R119, R493) -/

/-- Whether a format may stand in a tensor: E8M0 only where the operation allows it, MX with the formats of R48. -/
def TD.fmtOk (t : TD) (e8m0 : Bool) : Bool :=
  (t.fmt != Fmt.e8m0 || e8m0) && (!t.mx || mxFormat t.fmt)

/-- A case range of a tensor out of its bounds or misaligned for the format (R77). -/
def TD.caseBad (t : TD) (list : List W64) : Option W64 :=
  if t.space != 1 then none
  else if (t.base.toNat % (if t.plist then 8 else t.bytes)) != 0 then some t.base
  else match (t.ranges list).find? (fun r => decide (caseSize < r.1.toNat + r.2) ||
      (decide (r.2 != t.blocks || !t.mx) && r.1.toNat % t.bytes != 0)) with
    | some r => some r.1
    | none => if t.base.toNat ≤ caseSize then none else some t.base

/-- The descriptor checks of R77: a status and the address it names, if one fails. -/
def TD.bad (t : TD) (list : List W64) (pl e8m0 : Bool) : Option (Status × W64) :=
  if t.rsvBad || t.space == 3 then some (St.descInvalid, 0)
  else if t.plist && (!pl || decide (256 < t.e3) || t.s3 != 0 || (t.mx && t.axis == 3)) then some (St.descInvalid, 0)
  else match t.caseBad list with
    | some a => some (St.caseRange, a)
    | none => if t.fmtOk e8m0 then none else some (St.formatUnsupported, 0)

/-! ### Reading and writing memory and case for a press's operation -/

/-- Whose access it is: the press, its context, whether it was issued inside the press's open region, and the bytes
that remote and host reads have brought, by virtual address. -/
structure Env where
  press : Nat
  ctx   : Nat
  prov  : Bool := false
  got   : Map Byte := []

def Env.view (e : Env) : Option Nat := if e.prov then some e.press else none

/-- A range cut at 64 KiB boundaries. -/
def segs (a : W64) (n : Nat) : List (W64 × Nat) :=
  (pieces 0x10000 a.toNat (n / 0x10000 + 2) n).map fun p => (wn p.1, p.2)

/-- The first part of a range that does not translate for an access, or that lies in the service window, with its
status (R31, R34, R377). -/
def State.rangeFault (s : State) (c : Nat) (k : Kind) (a : W64) (n : Nat) : Option (Status × W64) :=
  (segs a n).findSome? fun p =>
    match s.resolve c k p.1 with
    | .error st => some (st, p.1)
    | .ok (.service _) => some (St.pageAccess, p.1)
    | .ok _ => none

/-- A byte of a space: of the case, of the tympan a free one (log 19), or of memory as the access sees it (R221). -/
def State.spaceByte (s : State) (e : Env) (space : Nat) (a : W64) : Byte :=
  if space = 1 then cell s.mem (caseBase e.press + a.toNat)
  else if space = 2 then (Config.freeWord (s.free + a.toNat)).setWidth 8
  else match mfind? e.got a.toNat with
    | some b => b
    | none => match s.resolve e.ctx .rd a with
      | .ok l => match l.key? with
        | some k => s.seenByte e.view k
        | none => 0
      | .error _ => 0

def State.spaceBytes (s : State) (e : Env) (space : Nat) (a : W64) (n : Nat) : List Byte :=
  (List.range n).map fun i => s.spaceByte e space (a + wn i)

/-- The 8-byte entries of a pointer list, and of the second list of a block-scaled tensor (R119, R493). -/
def State.plistOf (s : State) (e : Env) (t : TD) : List W64 :=
  if !t.plist then []
  else
    let at8 (b : W64) : List W64 :=
      (List.range t.e3).map fun i => wn (ofBytes (s.spaceBytes e t.space (b + wn (8 * i)) 8))
    at8 t.base ++ (if t.mx then at8 t.scale else [])

/-- The bit pattern of an element; of the tympan, whose addressing the manual does not give, a free one (log 19). -/
def State.elemBits (s : State) (e : Env) (t : TD) (list : List W64) (c : Coord) : Nat :=
  let (a, b) := t.place list c
  let w := fmtWidth t.fmt
  if t.space = 2 then (Config.freeWord (s.free + t.lin c)).toNat % 2 ^ w
  else (ofBytes (s.spaceBytes e t.space a (ceilDiv (b + w) 8)) >>> b) % 2 ^ w

/-- The scale code of the block that holds an element. -/
def State.elemScale (s : State) (e : Env) (t : TD) (list : List W64) (c : Coord) : Nat :=
  (s.spaceByte e t.space (t.scalePlace list c)).toNat

/-- The value of an element, its block scale applied (R48). -/
def State.elemNum (s : State) (e : Env) (t : TD) (list : List W64) (c : Coord) : Num :=
  let v := decodeNum t.fmt (s.elemBits e t list c)
  if t.mx then scaled t.fmt (s.elemScale e t list c) v else v

/-- NAN_SEEN where an operand is NaN. -/
def sawNan (vs : List Num) : Flags := flagIf (vs.any Num.isNan) Fl.nanSeen
/-- Conditions that an intermediate value of a procedure can raise: OF and UF concern a result in its destination
(R68, log 78). -/
def innerFlags (f : Flags) : Flags := f &&& (Fl.nv ||| Fl.nanSeen)

/-- Values converted for a tensor under NC (R50, R58 to R60): the pattern of each element in the order of elements, the
scale code of each block of each dimension-3 index, and the flags. `rs` are the draws of the elements. -/
def convertAll (t : TD) (nc : BitVec 4) (vs : List Num) (rs : List Nat) : List Nat × List (Coord × Nat) × Flags :=
  if !t.mx then
    let ps := (List.range vs.length).map fun i => toFmt t.fmt nc (nth 0 rs i) (nth .nan vs i)
    (ps.map (·.1), [], ps.foldl (fun f p => f ||| p.2) 0)
  else
    let heads := t.coords.filter fun c => c.get t.axis % 32 == 0
    let step (k : Nat) (c : Coord) : Coord := match t.axis with
      | 0 => { c with i0 := c.i0 + k }
      | 1 => { c with i1 := c.i1 + k }
      | 2 => { c with i2 := c.i2 + k }
      | _ => { c with i3 := c.i3 + k }
    let blk (h : Coord) : List Nat × (Nat × List Nat × Flags) :=
      let idx := ((List.range 32).filter fun k => h.get t.axis + k < t.ext t.axis).map fun k => t.lin (step k h)
      (idx, writeBlock t.fmt nc (idx.map (nth .nan vs)) (idx.map (nth 0 rs)))
    let bs := heads.map fun h => (h, blk h)
    let els := bs.foldl (fun (m : Map Nat) b =>
      (List.range b.2.1.length).foldl (fun m j => mput m (nth 0 b.2.1 j) (nth 0 b.2.2.2.1 j)) m) []
    ((List.range vs.length).map fun i => mget 0 els i, bs.map fun b => (b.1, b.2.2.1),
      bs.foldl (fun f b => f ||| b.2.2.2.2) 0)

/-- An element as the device writes it: bits 12:0 of an E8M10 container are zero (R44). -/
def storedPat (f pat : Nat) : Nat := if f = Fmt.e8m10 then pat / 2 ^ 13 * 2 ^ 13 else pat

/-- The byte runs that write a whole tensor: its rows with unused slots as zeros (R47, R49), then its scales (R493). -/
def TD.writeRuns (t : TD) (list : List W64) (els : List Nat) (scales : List (Coord × Nat)) : List (W64 × List Byte) :=
  let rows := t.rows.map fun c =>
    let es := (List.range (t.pext 0)).map fun i =>
      if i < t.e0 && c.i1 < t.e1 && c.i2 < t.e2 && c.i3 < t.e3 then
        storedPat t.fmt (nth 0 els (t.lin { c with i0 := i })) else 0
    (t.rowAddr list c, packRow t.fmt es)
  rows ++ scales.map fun b => (t.scalePlace list b.1, [BitVec.ofNat 8 b.2])

/-- Whether any part of the ranges of a tensor stalls in memory, with the moves that it provokes (R252). -/
def State.rangeStalls (s : State) (c : Nat) (write : Bool) (rs : List (W64 × Nat)) : Bool × State :=
  rs.foldl (fun acc r => (segs r.1 r.2).foldl (fun (acc : Bool × State) p =>
    match acc.2.resolve c (if write then .wr else .rd) p.1 with
    | .ok l => if acc.2.waits none l p.2 write then (true, acc.2.provoke l write) else acc
    | .error _ => acc) acc) (false, s)

/-- The uncorrectable sectors that the ranges of a read meet: the place of the first (R221, R240, R287). -/
def State.rangeBad (s : State) (v : Option Nat) (c : Nat) (rs : List (W64 × Nat)) : Option (W64 × Nat) :=
  rs.findSome? fun r => (segs r.1 r.2).findSome? fun p =>
    match s.resolve c .rd p.1 with
    | .ok l => match l.key? with
      | some k => if s.badRead? v k p.2 then some (p.1, k) else none
      | none => none
    | .error _ => none

/-- The bytes of a run written to the case. -/
def State.putCase (s : State) (n : Nat) (off : W64) (bs : List Byte) : State :=
  { s with mem := putCells s.mem (caseBase n + off.toNat) bs }

/-- The local parts of runs written to memory, through the cabinet of the press's chase (R236). -/
def State.putLocal (s : State) (e : Env) (runs : List (W64 × List Byte)) : State :=
  runs.foldl (fun s r => (segs r.1 r.2.length).foldl (fun s p =>
    match s.resolve e.ctx .wr p.1 with
    | .ok l => match l.key? with
      | some k =>
        let bs := slice r.2 (p.1 - r.1).toNat p.2
        let s := if e.prov then s else s.cabRange (chaseOf e.press) k p.2 true
        s.putBytes e.view k bs
      | none => s
    | .error _ => s) s) s

/-- The remote and host parts of runs: place, address and bytes. -/
def State.farParts (s : State) (c : Nat) (k : Kind) (runs : List (W64 × Nat)) : List (Loc × W64 × Nat) :=
  runs.foldl (fun acc r => acc ++ (segs r.1 r.2).filterMap fun p =>
    match s.resolve c k p.1 with
    | .ok l => match l with
      | .far _ _ => some (l, p.1, p.2)
      | .host _ _ => some (l, p.1, p.2)
      | _ => none
    | .error _ => none) []

/-- The bytes of a part of runs. -/
def partBytes (runs : List (W64 × List Byte)) (a : W64) (n : Nat) : List Byte :=
  match runs.find? (fun r => decide (r.1.toNat ≤ a.toNat) && decide (a.toNat + n ≤ r.1.toNat + r.2.length)) with
  | some r => slice r.2 (a - r.1).toNat n
  | none => []

/-- Platens taking part (R89). -/
def platensOf (plat : BitVec 4) : List Nat := (List.range 4).filter fun k => plat.getLsbD k
/-- Bit `64k + m` of a row mask (R105). -/
def rowBit (pm : Pred) (p m : Nat) : Bool := pm.getLsbD (64 * p + m)
/-- The fed rows of platen `p` (R105). -/
def fedRows (t : TD) (pm : Pred) (p : Nat) : List Nat :=
  (List.range (min 64 t.e1)).filter fun m => rowBit pm p m

/-! ### Conflicting writes (R86, R135) -/

/-- The byte runs of a tensor in the space of keys: case bytes at their on-die addresses, and local memory. -/
def State.spansOf (s : State) (n c : Nat) (k : Kind) (space : Nat) (rs : List (W64 × Nat)) : List (Nat × Nat) :=
  if space = 1 then rs.map fun r => (caseBase n + r.1.toNat, r.2)
  else if space = 0 then rs.flatMap fun r => (segs r.1 r.2).filterMap fun p =>
    match s.resolve c k p.1 with
    | .ok l => l.key?.map fun k => (k, p.2)
    | .error _ => none
  else []

/-- The parts that two lists of runs share: first byte and length. -/
def overlaps (a b : List (Nat × Nat)) : List (Nat × Nat) :=
  a.flatMap fun x => b.filterMap fun y =>
    let lo := max x.1 y.1
    let hi := min (x.1 + x.2) (y.1 + y.2)
    if lo < hi then some (lo, hi - lo) else none

/-- On-die memory has no shadow sectors; other memory is seen as the access sees it (R221). -/
def viewAt (v : Option Nat) (k : Nat) : Option Nat := if k < 2 ^ 60 && decide (0xE00000000000 ≤ k) then none else v

/-- Every byte of a run keeps its new value or takes the one it had in `old`, by free choices. -/
def State.mixRun (old : State) (v : Option Nat) : List Nat → State → State
  | [], s => s
  | k :: ks, s =>
    let w := viewAt v k
    let s' := { s with free := s.free + 1 }
    old.mixRun v ks (if Config.pick s.free % 2 = 0 then s'.putByte w k (old.seenByte w k) else s')

/-- Every byte of a run takes a free value. -/
def State.blurRun (v : Option Nat) : List Nat → State → State
  | [], s => s
  | k :: ks, s =>
    State.blurRun v ks ({ s with free := s.free + 1 }.putByte (viewAt v k) k ((Config.freeWord s.free).setWidth 8))

/-- A write that conflicts with those of running operations: every byte that both touch holds the value of either, by
free choices (R86). `mine` are the runs just written, `busy` those of the operations that run, `old` the state before. -/
def State.contend (s old : State) (v : Option Nat) (mine busy : List (Nat × Nat)) : State :=
  (overlaps mine busy).foldl (fun s r => old.mixRun v (span r.1 r.2) s) s

/-- The memory that the output of the sliding-window take of a press shares with its input, weights or bias (R135). -/
def State.sharedRuns (s : State) (n c : Nat) : List (Nat × Nat) :=
  match (s.pc n).sub.bind fun k => (mfind? s.subs k).bind fun u => mfind? s.takes u.take with
  | none => []
  | some t => match t.window with
    | none => []
    | some w =>
      let w3 := nth 0 w 3
      let runs (i : Nat) : List (Nat × Nat) :=
        let x := tdOf (nth 0 t.descs i)
        s.spansOf n c .rd x.space (x.ranges [])
      overlaps (runs (fld w3 39 36)) (runs (fld w3 35 32) ++
        (if fld (nth 0 w 0) 1 0 = 0 then runs (fld w3 43 40) else []) ++
        (if w3.getLsbD 48 then runs (fld w3 47 44) else []))

/-- Bytes just written that lie in memory so shared take free values (R135). -/
def State.blur (s : State) (n c : Nat) (v : Option Nat) (mine : List (Nat × Nat)) : State :=
  (overlaps mine (s.sharedRuns n c)).foldl (fun s r => State.blurRun v (span r.1 r.2) s) s

/-- The lines that a read of local parts brings into the cabinet of the press's chase (R236). -/
def State.touch (s : State) (e : Env) (rs : List (W64 × Nat)) : State :=
  rs.foldl (fun s r => (segs r.1 r.2).foldl (fun s p =>
    match s.resolve e.ctx .rd p.1 with
    | .ok l => match l.key? with
      | some k => s.cabRange (chaseOf e.press) k p.2 false
      | none => s
    | .error _ => s) s) s

end Sys2Proof.Machine
end

