-- ==== Sys2Proof/Machine/Ops.lean ====
section
/-! DEFINITION. The shared operations that many commands use: memory-side adds, the state of a context wherever it
stands, completion records (R344, R345), the end of a proof region (R227 to R230), and faults with the teardown of a
context (R97, R98, R314 to R316). -/

namespace Sys2Proof.Machine

/-! ### Memory-side adds (R283 to R286) -/

/-- An atomic accepted by a controller (R286, R399). -/
def State.acceptAtomic (s : State) : State := { s with atomics := s.atomics + 1 }

/-- An accepted atomic performed or failed (R286, R399). -/
def State.endAtomic (s : State) (performed : Bool) : State :=
  let s := { s with atomicsEnd := s.atomicsEnd + 1 }
  if performed then s.bump .hbm 0 0x30 0 32 1 else s.bump .hbm 0 0x30 32 32 1

/-- The count of an atomic accepted and performed, or failed, at once. -/
def State.countAtomic (s : State) (performed : Bool) : State := s.acceptAtomic.endAtomic performed

/-- A sector updated in place moves its unit in tagged memory (R279, R285). -/
def State.unitMoved (s : State) (k : Nat) : State := (s.lineRead k).lineWritten k

/-- An INT64 add at a key of local memory: any cabinet's copy of the line is recalled first (R237, R286). -/
def State.add64 (s : State) (k : Nat) (v : W64) : State :=
  let s := (s.recall none (k / 256 * 256)).countAtomic true
  let old := ofBytes ((span k 8).map s.homeByte)
  ((s.unitMoved k).setHomes k (toBytes 8 ((old + v.toNat) % 2 ^ 64))).wrote

/-- Bytes written from outside any cabinet: the lines are recalled first (R237). -/
def State.outsideWrite (s : State) (k : Nat) (bs : List Byte) : State :=
  if bs.isEmpty then s
  else
    let s := (List.range ((k + bs.length - 1) / 256 - k / 256 + 1)).foldl
      (fun s i => (s.recall none ((k / 256 + i) * 256)).unitMoved ((k / 256 + i) * 256)) s
    (s.setHomes k bs).wrote

/-! ### The state of a context on a press, on the press or in a slot (R309, R310) -/

/-- `f` on the press state of context `c` on press `n`, wherever it stands. -/
def State.modOf (s : State) (n c : Nat) (f : PressCtx → PressCtx) : State :=
  let p := s.press n
  let slot (o : Option Slot) : Option Slot := match o with
    | some x => if x.ctx = c then some { x with st := f x.st } else some x
    | none => none
  if p.run = some c then s.setPress n { p with cur := f p.cur }
  else s.setPress n { p with slotA := slot p.slotA, slotB := slot p.slotB }

/-- The press state of context `c` on press `n`, wherever it stands. -/
def State.pcOf (s : State) (n c : Nat) : Option PressCtx :=
  let p := s.press n
  if p.run = some c then some p.cur
  else match p.slotA, p.slotB with
    | some a, some b => if a.ctx = c then some a.st else if b.ctx = c then some b.st else none
    | some a, none => if a.ctx = c then some a.st else none
    | none, some b => if b.ctx = c then some b.st else none
    | none, none => none

/-- Bytes that land in the case of context `c` on press `n`: in the case, or in the slot's case image (R310). -/
def State.landCase (s : State) (n c off : Nat) (bs : List Byte) : State :=
  let p := s.press n
  let slot (o : Option Slot) : Option Slot := match o with
    | some x => if x.ctx = c then some { x with cells := putCells x.cells off bs } else some x
    | none => none
  if p.run = some c then { s with mem := putCells s.mem (caseBase n + off) bs }
  else s.setPress n { p with slotA := slot p.slotA, slotB := slot p.slotB }

/-- The case and tympans of a press as offsets, for a save slot (R304). -/
def State.caseImage (s : State) (n : Nat) : List Host.Cell :=
  carve s.mem (caseBase n) caseSize ++ (carve s.mem (tympBase n 0) 0x100000).map fun e => (e.1 + caseSize, e.2)

/-- A save slot's case and tympans put back on the press. -/
def State.loadImage (s : State) (n : Nat) (cs : List Host.Cell) : State :=
  let m := wipe (wipe s.mem (caseBase n) caseSize) (tympBase n 0) 0x100000
  let m := restore m (caseBase n) (cs.filter fun e => decide (e.1 < caseSize))
  let m := restore m (tympBase n 0) ((cs.filter fun e => decide (caseSize ≤ e.1)).map fun e => (e.1 - caseSize, e.2))
  { s with mem := m }

/-- Status bits that a completion sets for a saved context go to the landing table of its slot (R310): what `q` has gained
over an empty count, added to the table, with the registers of `p` as they were saved. -/
def Slot.land (x : Slot) (p q : PressCtx) : Slot :=
  { x with
    st := { q with numStatus := p.numStatus, numCount := p.numCount }
    landing := q.numCount.foldl (fun m e => mset 0 m e.1 (mget 0 m e.1 + e.2)) x.landing }

/-- Something done for context `c`, on the press or saved on it: its press state, case image included, takes the place of what
stands on press `n` meanwhile (R310). Nothing is done where the context has no state there. -/
def State.inContext (s : State) (n c : Nat) (f : State → State) : State :=
  let p := s.press n
  if p.run = some c then f s
  else
    let here : Option Slot := p.run.map fun r => { ctx := r, st := p.cur, cells := s.caseImage n }
    let swap (x : Slot) (put : Press → Option Slot → Press) (get : Press → Option Slot) : State :=
      let s := s.loadImage n x.cells
      let s := f (s.setPress n (put { p with run := some c, cur := { x.st with numStatus := 0, numCount := [] } } here))
      let q := s.press n
      let back := if q.run = some c then some { x.land x.st q.cur with cells := s.caseImage n } else none
      match get q with
      | some h =>
        (s.loadImage n h.cells).setPress n
          (put { q with run := some h.ctx, cur := h.st, st := p.st, preempt := p.preempt, gathered := p.gathered } back)
      | none => (s.loadImage n []).setPress n (put { q with run := none, cur := {}, st := .idle, preempt := false } back)
    (match p.slotA, p.slotB with
      | some a, b =>
        if a.ctx = c then swap a (fun p o => { p with slotA := o }) (·.slotA)
        else match b with
          | some b => if b.ctx = c then swap b (fun p o => { p with slotB := o }) (·.slotB) else s
          | none => s
      | none, some b => if b.ctx = c then swap b (fun p o => { p with slotB := o }) (·.slotB) else s
      | none, none => s).watchWords

/-- Conditions of a Line of context `c`, wherever its press state stands, recorded and counted. -/
def State.recordOf (s : State) (n c line : Nat) (fl : Flags) : State :=
  if fl = 0 then s
  else
    let k := match s.pcOf n c with
      | some p => newConditions p line fl
      | none => 0
    (s.modOf n c fun p => p.record line fl).tallies 1 k

/-- A mark signalled: its pending count falls by 1 (R85). -/
def PressCtx.signal (c : PressCtx) (m : Option Nat) : PressCtx :=
  match m with
  | some k => { c with marks := mset 0 c.marks k (mget 0 c.marks k - 1) }
  | none => c

/-- A mark taken at issue: its pending count rises by 1 (R85). -/
def PressCtx.take (c : PressCtx) (m : Option Nat) : PressCtx :=
  match m with
  | some k => { c with marks := mset 0 c.marks k (mget 0 c.marks k + 1) }
  | none => c

/-! ### Completion of takes (R344, R345) -/

/-- Number that stands for no context. -/
def noContext : Nat := 4096

/-- A queue whose context is FREE belongs to no context; it stays for the records that it still has to deliver (R298, R339,
R340), and goes when the last has been acknowledged [log 72]. -/
def State.sweepQueue (s : State) (q : Nat) : State :=
  let x := mget ({} : CmdQueue) s.queues q
  if x.ctx = noContext ∧ x.takes.isEmpty ∧ x.records.isEmpty then { s with queues := mdel s.queues q } else s

/-- A completion record sent on the queue's session, or kept until the queue is bound (R345). -/
def State.postRecord (s : State) (q : Nat) (r : Completion) : State :=
  let x := mget ({} : CmdQueue) s.queues q
  match x.session with
  | some n => s.send n (.complete [r])
  | none => { s with queues := mput s.queues q { x with records := x.records ++ [r] } }

/-- The record of take `k`, sent; the take has then been completed (R344). -/
def State.recordTake (s : State) (k : Nat) (press : Nat) (fault : Option FaultRec) (gen : W32) : State :=
  match mfind? s.takes k with
  | none => s
  | some t =>
    let (cyc, s) := s.freshWord
    let r : Completion :=
      { status := t.status, ctx := t.ctx, queue := t.queue, fault := fault
        press := if fault.isSome then press else 0, device := if fault.isSome then s.myId else 0
        user := t.user, seq := BitVec.ofNat 32 t.seq, fenceGen := gen, endCycle := cyc }
    ({ s with takes := mput s.takes k { t with st := .done, unsent := true } }).postRecord t.queue r

/-- A take completes with a status: its fence is then to be published, if it has one, and its record follows
(R24, R347). -/
def State.endTake (s : State) (k : Nat) (st : Status) : State :=
  match mfind? s.takes k with
  | none => s
  | some t =>
    let t := { t with status := st, left := 0 }
    if t.fence.isSome then { s with takes := mput s.takes k { t with st := .publishing } }
    else ({ s with takes := mput s.takes k t }).recordTake k 0 none 0

/-! ### The end of a proof region (R227, R229, R230) -/

/-- Pages, unused folios and the slot of a region return (step 7 of R227, step 5 of R229). -/
def State.closeRegion (s : State) (c r : Nat) : State :=
  let x := s.region c r
  let s := (s.poolGive x.part Pool.proof x.pages).poolGive x.part (Pool.folio 0) x.kFolios
  s.setChase c { s.chase c with regions := mdel (s.chase c).regions r }

/-- A bound kern stream unbound. -/
def State.unbindKern (s : State) (h : Nat) : State :=
  if mhas s.kstreams h then s.setKstream h { s.kstream h with bound := none } else s
/-- A bound galley stream unbound. -/
def State.unbindGalley (s : State) (h : Nat) : State :=
  if mhas s.galley h then s.setGentry h { s.gentry h with bound := none } else s

/-- RELEASE of a galley stream as performed: what it holds returns, it closes, and its reference is dropped
(R195, R211). -/
def State.releaseGalley (s : State) (h : Nat) : State × Nat :=
  let (s, n) := s.returnSets h
  let s := s.setGentry h { s.gentry h with isOpen := false }
  (s.dropEntry h, n)

/-- Step 4 of R227 for one bound kern stream: its snapshot root is released, then a pending release performed. -/
def State.keepKern (s : State) (b : KBind) : State :=
  let s := match b.snap with
    | some (root, _) => (s.dropFolio root).1
    | none => s
  if b.releasing then (s.releaseStream b.stream).1 else s

/-- Step 4 of R227 for one bound galley stream. -/
def State.keepGalley (s : State) (b : GBind) : State :=
  if b.releasing then (s.releaseGalley b.stream).1 else s

/-- Step 2 or 4 of R229 for one bound kern stream: restored from its snapshot, or released if born in the region. -/
def State.undoKern (s : State) (b : KBind) : State :=
  if !mhas s.kstreams b.stream then s
  else match b.snap with
    | none => (s.releaseStream b.stream).1
    | some (root, len) =>
      let k := s.kstream b.stream
      let s := (s.dropFolio k.root).1
      s.setKstream b.stream { k with root := root, len := len, bound := none }

/-- R230 for one bound galley stream: the snapshot written over its state, in its slot where it has no set, and its fields
restored. -/
def State.restoreGalley (s : State) (h : Nat) (g : GSnap) : State :=
  let e := s.gentry h
  let s :=
    if g.reset then s
    else
      let inSlot (k : Nat) : State :=
        { s with gslots := mput s.gslots k { mget ({} : GSlot) s.gslots k with gen := e.gen + 1, vals := g.vals } }
      match e.res, e.slot with
      | .swapped, some k => inSlot k
      | .swappingIn, some k => inSlot k
      | _, _ => match e.spare with
        | some p => (s.setGset p { s.gset p with vals := g.vals }).swapSets h
        | none => s
  let e := s.gentry h
  s.setGentry h { e with
    reset := g.reset, steps := g.steps, err := g.err, comp := g.comp, gen := e.gen + 1, agen := e.agen + 1 }

/-- Steps 3 and 4 of R229 for one bound galley stream. -/
def State.undoGalley (s : State) (b : GBind) : State :=
  if !mhas s.galley b.stream then s
  else if b.born then (s.releaseGalley b.stream).1
  else
    let s := match b.snap with
      | some g => s.restoreGalley b.stream g
      | none => s
    s.unbindGalley b.stream

/-- The press holds no region any more, and no longer waits for its end. -/
def State.leaveRegion (s : State) (c r : Nat) : State :=
  let x := s.region c r
  s.modOf x.press x.ctx fun p =>
    if p.region = some r then
      { p with region := none, hold := if p.hold = .commit r ∨ p.hold = .reject r then .none else p.hold }
    else p

/-- A reject, steps 2 to 5 of R229. -/
def State.rejectRegion (s : State) (c r : Nat) : State :=
  let x := s.region c r
  let s := x.kBound.foldl (fun s b => s.undoKern b) s
  let s := x.gBound.foldl (fun s b => s.undoGalley b) s
  (((s.leaveRegion c r).closeRegion c r).bump .chase c 0xB08 32 32 1)

/-! ### Teardown (R314 to R316) -/

/-- Whether a region's commit has reached step 2 of R227. -/
def RegSt.sealed (x : RegSt) : Bool := decide (x = .copying) || decide (x = .issuing)

/-- Every open region of a context whose commit has not reached step 2 is rejected (R232). -/
def State.endRegions (s : State) (c : Nat) : State :=
  (List.range 16).foldl (fun s ch => (s.chase ch).regions.foldl (fun s e =>
    if e.2.ctx = c && !e.2.st.sealed then s.rejectRegion ch e.1 else s) s) s

/-- Whether regions of a context have still to end. -/
def State.regionsLeft (s : State) (c : Nat) : Bool := s.chases.any fun ch => ch.2.regions.any fun e => e.2.ctx == c

/-- Steps 1 and 2 of R315: the presses of a context stop issuing, and what stands in their engines and in its slots is
discarded. -/
def PressCtx.discard (p : PressCtx) : PressCtx :=
  { p with
    tmq := [], tmRun := [], plq := [], plRun := [], rlq := [], rlRun := [], ctq := [], ctRun := [], stall := [], held := []
    watch := none }
def State.stopPresses (s : State) (c : Nat) : State :=
  { s with presses := mmap (fun _ (p : Press) =>
      let slot (o : Option Slot) : Option Slot :=
        o.map fun x => if x.ctx = c then { x with st := x.st.discard } else x
      let p := { p with slotA := slot p.slotA, slotB := slot p.slotB }
      if p.run = some c then { p with st := .zeroizing, cur := p.cur.discard, gathered := [] } else p) s.presses }

/-- Every kern and galley stream of a context is released (R187, R211). -/
def State.endStreams (s : State) (c : Nat) : State :=
  let s := s.kstreams.foldl (fun s e => if e.2.ctx = c then (s.releaseStream e.1).1 else s) s
  s.galley.foldl (fun s e =>
    if e.2.owner = c then
      let s := (s.returnSets e.1).1
      { s with galley := mdel s.galley e.1 }
    else s) s

/-- The generation that a take publishes at its completion; zero if none (R347). -/
def fenceGen (t : Take) : W32 :=
  match t.fence with
  | some (_, g) => BitVec.ofNat 32 g
  | none => 0

/-- The takes of a context complete: the one that holds the first fault with END_STATUS and the fault registers, each
other with CONTEXT_TORN_DOWN (R316). -/
def State.endTakes (s : State) (c : Nat) : State :=
  let x := s.ctx c
  let hit : Option Nat := match x.faultPress with
    | some n => match s.pcOf n c with
      | some p => match p.sub with
        | some k => (mfind? s.subs k).map (·.take)
        | none => none
      | none => none
    | none => none
  s.takes.foldl (fun s e =>
    if e.2.ctx = c && decide (e.2.st ≠ .done) then
      if hit = some e.1 then
        let s := { s with takes := mput s.takes e.1 { e.2 with status := x.endStatus, faulted := true } }
        s.recordTake e.1 (x.faultPress.getD 0) (some x.fault) (fenceGen e.2)
      else
        let s := { s with takes := mput s.takes e.1 { e.2 with status := St.contextTornDown } }
        s.recordTake e.1 0 none (fenceGen e.2)
    else s) s

/-- A press zeroized: its press state with its case and tympans (R304, R305). -/
def State.zeroPress (s : State) (n : Nat) : State :=
  let p := s.press n
  let s := { s with mem := wipe (wipe s.mem (caseBase n) caseSize) (tympBase n 0) 0x100000 }
  s.setPress n { p with st := .idle, run := none, cur := {}, preempt := false, gathered := [] }

/-- Step 6 of R315: presses, slots, compositors, barriers and counters of a context. -/
def State.endPresses (s : State) (c : Nat) : State :=
  let s := (List.range 128).foldl (fun s n =>
    let p := s.press n
    let drop (o : Option Slot) : Option Slot := match o with
      | some x => if x.ctx = c then none else some x
      | none => none
    let s := if p.slotA.isSome || p.slotB.isSome then
        s.setPress n { p with slotA := drop p.slotA, slotB := drop p.slotB } else s
    if p.run = some c then s.zeroPress n else s) s
  let s := { s with comps := s.comps.filter fun e => e.2.ctx != c || decide (e.2.fault.valid = true) }
  { s with
    subs := s.subs.filter fun e => e.2.ctx != c
    chases := mmap (fun _ ch => { ch with
      barriers := ch.barriers.filter fun e => e.2.ctx != some c
      counters := ch.counters.filter fun e => e.2.ctx != some c }) s.chases }

/-- R25: the forme barriers and remote waits of a job that include a torn-down context end in the survivors. -/
def State.loseMember (s : State) (c : Nat) : State :=
  let j := (s.ctx c).jobTag
  if j = 0 then s
  else { s with formes := mmap (fun _ f => if f.jobTag = j && f.ctx != c then { f with lost := true } else f) s.formes }

/-- Steps 4 to 6 of R315. -/
def State.teardownRest (s : State) (c : Nat) : State :=
  (((s.endStreams c).endTakes c).endPresses c).sweepFolios.loseMember c

/-- Teardown of a context, steps 1 to 6 of R315; a context that is not ACTIVE is left as it stands (R314). Steps 4 to 6 wait
for the regions whose commit goes on to its end (R232, R233); steps 7 and 8 follow when outstanding operations have
drained. -/
def State.teardown (s : State) (c : Nat) (st : Status) : State :=
  let x := s.ctx c
  if x.st ≠ .active then s
  else
    let s := ((s.setCtx c { x with st := .teardown, endStatus := st }).stopPresses c).endRegions c
    if s.regionsLeft c then s else s.teardownRest c

/-- The first fault of a press recorded (R98). -/
def PressCtx.fail (p : PressCtx) (async : Bool) (st : Status) (slot : BitVec 3) (pc va : W64) : PressCtx :=
  if p.fault.valid then p
  else { p with fault := { valid := true, async, status := st, slot, pc := pc &&& 0xFFFFFFFFFFFF, va } }

/-- A fault of context `c` on press `n`: recorded, latched for the completion record, and the context torn down
(R97, R98, R314). -/
def State.faultOn (s : State) (n c : Nat) (async : Bool) (st : Status) (slot : BitVec 3) (pc va : W64) : State :=
  let s := s.modOf n c fun p => p.fail async st slot pc va
  let x := s.ctx c
  let s :=
    if x.st = .active && x.faultPress.isNone then
      s.setCtx c { x with
        faultPress := some n
        fault := { valid := true, async, status := st, slot, pc := pc &&& 0xFFFFFFFFFFFF, va } }
    else s
  s.teardown c st

/-- A precise fault of the Line at the program counter of a press (R97). -/
def State.precise (s : State) (n : Nat) (st : Status) (slot : BitVec 3) (va : W64) : State :=
  s.faultOn n (s.runCtx n) false st slot (s.pc n).pc va

/-- Cause code of an error record for a fault found after issue (R446); 0 where no code of the table names its cause
[log 17]. -/
def lateCause (st : Status) : Nat :=
  if st = St.tagMismatch then 0x03
  else if st = St.remoteDenied || st = St.remoteUnreachable then 0x05
  else if st = St.pullFailed then 0x06
  else if st = St.hbmUncorrectable || st = St.poisonNoOrigin then 0x02
  else 0

/-- A fault found after issue (R98), a CONTAINED error (R445). -/
def State.late (s : State) (n c : Nat) (st : Status) (slot : BitVec 3) (pc va : W64) : State :=
  let live := (s.ctx c).st
  let s := s.faultOn n c true st slot pc va
  if live = .active then s.rasError 3 st { cause := lateCause st, ctx := some c, locKind := 1, loc := n } else s

/-- An uncorrectable error met by a read: a placed page is poisoned (R267), any other memory is a fault found after
issue (R98, R287). -/
def State.poisonPage (s : State) (e : Nat) : State :=
  let x := s.entry e
  if x.poison then s
  else
    let s := s.setEntry e { x with poison := true, asked := false, failed := false, area := [] }
    let s := s.bump .place 0 (0x40 * x.part + 0x20) 0 16 1
    s.rasError 2 St.hbmUncorrectable { cause := 0x02 }

def State.badRead (s : State) (n c : Nat) (slot : BitVec 3) (pc va : W64) (k : Nat) : State :=
  if k < 2 ^ 60 then s.late n c (s.badStatus k) slot pc va
  else s.poisonPage ((k - 2 ^ 60) / 0x200000)

/-! ### Steps 2 to 7 of a commit (R227, R228) -/

/-- The data of a queued write put into the entry that its Line placed (R220). A Line of a scalar store is known by its place
alone: its entry is the oldest that holds no data. -/
def State.stageWrite (s : State) (ch r ctx page : Nat) (runs : List (W64 × List Byte)) (pc : W64) (slot : Nat)
    (line : Option Nat) : State :=
  let x := s.region ch r
  let mine (q : Queued) : Bool := match q with
    | .write c pg rs p sl l => c == ctx && pg == page && sl == slot && (match line with
      | some k => l == k
      | none => p == pc && rs.isEmpty)
    | .signal _ _ _ _ => false
  let add (q : Queued) : Queued := match q with
    | .write c pg rs p sl l => .write c pg (rs ++ runs) p sl l
    | q => q
  match x.queue.findIdx? mine with
  | some i => s.setRegion ch r { x with queue := x.queue.set i (add (nth (.signal 0 0 0 0) x.queue i)) }
  | none => s.setRegion ch r { x with queue := x.queue ++ [.write ctx page runs pc slot (line.getD 0)] }

/-- Step 6 of R227 for one queued effect: it takes credits and completes as outside a region (R228). False where a local add
stalls in memory; remote and host ones leave requests outstanding, and an address that no longer translates is a fault found
after issue (R98). -/
def State.issueQueued (s : State) (c r : Nat) (q : Queued) : Bool × State :=
  let x := s.region c r
  match q with
  | .write ctx _ runs pc slot _ =>
    (true, (s.farParts ctx .wr (runs.map fun u => (u.1, u.2.length))).foldl (fun s p =>
      s.askWrite { cause := .region c r, ctx := ctx, pc := pc, slot := slot, va := p.2.1 } p.1 (partBytes runs p.2.1 p.2.2)) s)
  | .signal ctx va v pc =>
    match s.resolve ctx .wr va with
    | .ok (.far d pa) =>
      (true, s.askAdd { cause := .region c r, ctx := ctx, pc := pc, slot := 5, va := va } d pa v)
    | .ok (.host w off) =>
      (true, s.askWrite { cause := .region c r, ctx := x.ctx, pc := pc, slot := 5, va := va } (.host w off)
        (toBytes 8 v.toNat))
    | .ok l =>
      if s.waits none l 8 true then (false, s.provoke l true)
      else match l.key? with
        | some k =>
          if s.isBad k 8 then
            if k < 2 ^ 60 then (true, (s.countAtomic false).late x.press ctx (s.badStatus k) 5 pc va)
            else (false, s.poisonPage ((k - 2 ^ 60) / 0x200000))
          else (true, s.add64 k v)
        | none => (true, s)
    | .error st => (true, s.late x.press ctx st 5 pc va)

/-- The proof queue of a region issued from its head on, until an entry stalls (step 6 of R227). -/
def issueRegion (c r : Nat) : Nat → State → State
  | 0, s => s
  | fuel + 1, s => match (s.region c r).queue with
    | [] => s
    | q :: qs =>
      let (ok, s) := s.issueQueued c r q
      if ok then issueRegion c r fuel (s.setRegion c r { s.region c r with queue := qs }) else s

/-- Whether a region's issued entries are outstanding (step 7 of R227). -/
def State.regionBusy (s : State) (c r : Nat) : Bool :=
  s.requests.any fun e => decide (e.2.cause = .region c r)

/-- Steps 6 and 7 of R227: entries that have not been issued are issued; when none is outstanding the streams are bound no
more, everything returns and the commit is counted. The teardown of its context then goes on (R232). -/
def State.finishCommit (s : State) (c r : Nat) : State :=
  if (s.region c r).st ≠ .issuing then s
  else
    let s := issueRegion c r 65 s
    let x := s.region c r
    if !x.queue.isEmpty || s.regionBusy c r then s
    else
      let s := x.kBound.foldl (fun s b => s.unbindKern b.stream) s
      let s := x.gBound.foldl (fun s b => s.unbindGalley b.stream) s
      let s := ((s.leaveRegion c r).closeRegion c r).bump .chase c 0xB08 0 32 1
      if (s.ctx x.ctx).st = .teardown && !s.regionsLeft x.ctx then s.teardownRest x.ctx else s

/-- A commit, steps 3 to 6 of R227, and step 7 where nothing remains outstanding. -/
def State.commitRegion (s : State) (c r : Nat) : State :=
  let x := s.region c r
  let s := s.setRegion c r { x with
    st := .issuing, shadow := [], homes := []
    kBound := (x.kBound.filter fun b => !b.releasing).map fun b => { b with snap := none }
    gBound := (x.gBound.filter fun b => !b.releasing).map fun b => { b with snap := none } }
  let s := x.shadow.foldl (fun s e =>
    let s := s.recall none (e.1 * 32 / 256 * 256)
    s.setHomes (e.1 * 32) e.2) s
  let s := x.kBound.foldl (fun s b => s.keepKern b) s
  let s := x.gBound.foldl (fun s b => s.keepGalley b) s
  s.wrote.finishCommit c r

/-- A waiting RWAIT whose word no longer translates for a read ends in a fault found after issue (R96). -/
def State.loseWatch (s : State) (n : Nat) : State :=
  match (s.press n).run, (s.press n).cur.watch with
  | some c, some w =>
    if w.met then s
    else match s.resolve c .rd w.va with
      | .error st => s.late n c st 5 w.pc w.va
      | .ok _ => s
  | _, _ => s

/-! ### Scalar accesses that are outstanding (R83, R85) -/

/-- Whether a scalar access of context `c` on press `n` is stalled or has a request outstanding. -/
def State.scalarBusy (s : State) (n c : Nat) : Bool :=
  (match s.pcOf n c with | some p => !p.stall.isEmpty | none => false) ||
  s.requests.any fun e => e.2.ctx == c && match e.2.cause with
    | .load p _ _ _ => p == n
    | .store p => p == n
    | _ => false

/-- Whether every mark is zero, every queue empty, every operation complete and every scalar access complete: the end
of a FENCE hold (R91, R225, log 16). -/
def State.drained (s : State) (n : Nat) : Bool :=
  let c := s.pc n
  c.marks.isEmpty && c.tmq.isEmpty && c.tmRun.isEmpty && c.plq.isEmpty && c.plRun.isEmpty && c.rlq.isEmpty &&
    c.rlRun.isEmpty && c.ctq.isEmpty && c.ctRun.isEmpty && !s.scalarBusy n (s.runCtx n) &&
    !s.requests.any fun e => decide (e.2.cause = .signal n) && e.2.ctx == s.runCtx n

end Sys2Proof.Machine
end

