-- ==== Sys2Proof/Machine/Slugs.lean ====
section
/-! DEFINITION. Slugs and slug areas (R241 to R249): packing, table builds and decoding. -/

namespace Sys2Proof.Machine

/-! ### Prefix codes (R243, R245) -/

/-- A table is valid (R245): lengths 1 to 12, the sum of 2^−length at most 1. -/
def tableOk (lens : List Nat) : Bool :=
  lens.length == 256 && lens.all (fun l => 1 ≤ l && decide (l ≤ 12)) &&
    decide (sumL (lens.map fun l => 2 ^ (12 - l)) ≤ 4096)

/-- The first code of each length, 1 to 12 (RFC 1951, 3.2.2). -/
def firstCodes (lens : List Nat) : List Nat :=
  let cnt (l : Nat) : Nat := (lens.filter (· == l)).length
  (List.range 12).foldl (fun acc i => acc ++ [2 * ((acc.getLast?).getD 0 + (if i = 0 then 0 else cnt i))]) []

/-- The code of a byte value: its length and its bits (RFC 1951, 3.2.2). -/
def codeOf (lens firsts : List Nat) (v : Nat) : Nat × Nat :=
  let l := nth 0 lens v
  (l, nth 0 firsts (l - 1) + ((lens.take v).filter (· == l)).length)

/-- The bits of a code, its most significant bit first (RFC 1951, 3.1.1). -/
def codeBits (c : Nat × Nat) : List Bool := (List.range c.1).map fun i => (c.2 >>> (c.1 - 1 - i)) % 2 == 1

/-- Bits packed into bytes, each byte from its low bit, with zero bits at the end. -/
def packBits (bs : List Bool) : List Byte :=
  (List.range (ceilDiv bs.length 8)).map fun i =>
    BitVec.ofNat 8 ((List.range 8).foldl (fun acc j => acc + (b2n (nth false bs (8 * i + j)) <<< j)) 0)

/-- A plane coded with a table. -/
def codePlane (lens : List Nat) (bs : List Byte) : List Byte :=
  let f := firstCodes lens
  packBits (bs.foldr (fun b acc => codeBits (codeOf lens f b.toNat) ++ acc) [])

/-- One symbol decoded from bits: its value and the bits that follow. `len` and `code` are what has been read. -/
def decodeSym (lens firsts : List Nat) : Nat → Nat → Nat → List Bool → Option (Nat × List Bool)
  | 0, _, _, _ => none
  | _ + 1, _, _, [] => none
  | fuel + 1, len, code, b :: bs =>
    let len := len + 1
    let code := 2 * code + b2n b
    let f := nth 0 firsts (len - 1)
    let syms := (List.range 256).filter fun v => nth 0 lens v == len
    if f ≤ code && decide (code - f < syms.length) then some (nth 0 syms (code - f), bs)
    else decodeSym lens firsts fuel len code bs

/-- `n` symbols decoded; the bits that remain. -/
def decodeSyms (lens firsts : List Nat) : Nat → List Bool → Option (List Byte × List Bool)
  | 0, bs => some ([], bs)
  | n + 1, bs => match decodeSym lens firsts 12 0 0 bs with
    | none => none
    | some (v, rest) => match decodeSyms lens firsts n rest with
      | none => none
      | some (vs, r) => some (BitVec.ofNat 8 v :: vs, r)

/-- The bits of bytes, each byte from its low bit. -/
def bitsOf (bs : List Byte) : List Bool := bs.foldr (fun b acc => (List.range 8).map (fun i => b.getLsbD i) ++ acc) []

/-! ### Slugs (R242 to R244) -/

/-- Element size of a format for slugs, as the code ESIZE (R244). -/
def esizeOf (fmt : Nat) : Nat :=
  if fmtWidth fmt ≤ 8 then 0 else if fmtWidth fmt = 16 then 1 else 2

/-- Plane `k` of a block for elements of `e` bytes (R243). -/
def plane (e k : Nat) (block : List Byte) : List Byte :=
  (List.range (4096 / e)).map fun i => nth 0 block (i * e + k)

/-- Bytes filled with zeros to a length. -/
def padTo (n : Nat) (bs : List Byte) : List Byte := bs ++ List.replicate (n - bs.length) 0

/-- The header of a slug (R242). -/
def slugHead (mode es len tgen : Nat) (crc : W32) (tset : Nat) (tail : List Byte) : List Byte :=
  toBytes 4 (mode + (es <<< 2) + (len <<< 4) + (tgen <<< 12)) ++ toBytes 4 crc.toNat ++ toBytes 2 tset ++
    List.replicate 6 0 ++ padTo 16 tail

/-- A slug of a block of 4,096 bytes (R244), and whether it is RAW. -/
def packSlug (t : TableSet) (tset es : Nat) (block : List Byte) : List Byte × Bool :=
  let e := 2 ^ es
  let crc := crc32c block
  let first := block.take e
  if (List.range (4096 / e)).all fun i => slice block (i * e) e == first then
    (slugHead 2 es 1 0 crc 0 first, false)
  else
    let streams := (List.range e).map fun k => codePlane (nth [] t.lens k) (plane e k block)
    let total := sumL (streams.map List.length)
    let len := 1 + ceilDiv total 32
    if len ≤ 128 then
      let plens := (List.range 4).flatMap fun k => toBytes 2 (nth [] streams k).length
      (padTo (32 * len) (slugHead 1 es len t.tgen crc tset plens ++ streams.flatten), false)
    else (slugHead 0 es 129 0 crc 0 [] ++ block, true)

/-! ### Areas (R241) -/

/-- The greatest size of an area over `l` logical bytes (after R244). -/
def areaBound (l : Nat) : Nat :=
  let b := ceilDiv l 4096
  32 * ceilDiv (64 + 8 * b) 32 + 4128 * b

/-- The blocks of logical bytes, the last filled with zeros. -/
def blocksOf (bs : List Byte) : List (List Byte) :=
  (List.range (ceilDiv bs.length 4096)).map fun i => padTo 4096 (slice bs (4096 * i) 4096)

/-- A slug area over logical bytes (R241), the number of its slugs and of those that are RAW. -/
def packArea (t : TableSet) (tset fmt : Nat) (bs : List Byte) : List Byte × Nat × Nat :=
  let slugs := (blocksOf bs).map (packSlug t tset (esizeOf fmt))
  let b := slugs.length
  let start := ceilDiv (64 + 8 * b) 32
  let dir := (slugs.foldl (fun (acc : List Byte × Nat) g =>
    (acc.1 ++ toBytes 8 (acc.2 + ((g.1.length / 32) <<< 32)), acc.2 + g.1.length / 32)) ([], start)).1
  let used := sumL (slugs.map fun g => g.1.length / 32)
  let w012 := toBytes 8 bs.length ++ toBytes 8 (b + (used <<< 32)) ++ toBytes 8 fmt
  let head := padTo 64 (w012 ++ toBytes 4 (crc32c (w012 ++ dir)).toNat)
  (padTo (32 * start) (head ++ dir) ++ (slugs.map (·.1)).flatten, b, (slugs.filter (·.2)).length)

/-- One slug of an area decoded (R249): `tset` gives the table set of a number. -/
def unpackSlug (tset : Nat → Option TableSet) (area : List Byte) (off len : Nat) : Option (List Byte) :=
  let g := slice area (32 * off) (32 * len)
  let w0 := ofBytes (g.take 4)
  let mode := bits w0 1 0
  let es := bits w0 3 2
  let e := 2 ^ es
  let crc : W32 := BitVec.ofNat 32 (ofBytes (slice g 4 4))
  if g.length != 32 * len || len == 0 || bits w0 11 4 != len || mode == 3 || es == 3 then none
  else
    let block : Option (List Byte) :=
      if mode = 0 then (if len = 129 then some (slice g 32 4096) else none)
      else if mode = 2 then
        (if len = 1 then some ((List.range 4096).map fun i => nth 0 (slice g 16 e) (i % e)) else none)
      else match tset (ofBytes (slice g 8 2)) with
        | none => none
        | some t =>
          if t.tgen != bits w0 19 12 then none
          else
            let pl (k : Nat) : Nat := ofBytes (slice g (16 + 2 * k) 2)
            let off (k : Nat) : Nat := 32 + sumL ((List.range k).map pl)
            let planes := (List.range e).map fun k =>
              let lens := nth [] t.lens k
              match decodeSyms lens (firstCodes lens) (4096 / e) (bitsOf (slice g (off k) (pl k))) with
              | some (vs, rest) => if rest.length < 8 then some vs else none
              | none => none
            if planes.all Option.isSome && len == 1 + ceilDiv (sumL ((List.range 4).map pl)) 32 then
              some ((List.range 4096).map fun i => nth 0 ((nth none planes (i % e)).getD []) (i / e))
            else none
    match block with
    | some b => if crc32c b = crc then some b else none
    | none => none

/-- An area decoded to its logical bytes under the checks of R249; or the offset of what fails. -/
def unpackArea (tset : Nat → Option TableSet) (logical fmt : Nat) (area : List Byte) : Except Nat (List Byte) :=
  let l := ofBytes (area.take 5)
  let b := ofBytes (slice area 8 4)
  let f := ofBytes (slice area 16 1) % 16
  let crc : W32 := BitVec.ofNat 32 (ofBytes (slice area 24 4))
  if l != logical || f != fmt || b != ceilDiv l 4096 ||
      crc32c (area.take 24 ++ slice area 64 (8 * b)) != crc then .error 0
  else
    let r := (List.range b).foldl (fun (acc : Except Nat (List Byte)) i => match acc with
      | .error o => .error o
      | .ok bs =>
        let d := ofBytes (slice area (64 + 8 * i) 8)
        match unpackSlug tset area (bits d 31 0) (bits d 39 32) with
        | some blk => .ok (bs ++ blk)
        | none => .error (32 * bits d 31 0)) (.ok [])
    match r with
    | .ok bs => .ok (bs.take l)
    | .error o => .error o

/-! ### Table builds (R247) -/

/-- Neighbours of a list put together: their weights added, their symbols joined. -/
def pairUp : List (Nat × List Nat) → List (Nat × List Nat)
  | a :: b :: l => (a.1 + b.1, a.2 ++ b.2) :: pairUp l
  | _ => []

/-- Code lengths of 1 to 12 with the least sum of count times length (step 3 of R247), by merging packages: of twelve levels,
each holds the 256 symbols and the pairs of the level below, in order of weight, and the length of a symbol is the number of
times that it is among the 510 lightest of the last. -/
def leastLengths (c : List Nat) : List Nat :=
  let sorted := sortBy fun (a b : Nat × List Nat) => decide (a.1 ≤ b.1)
  let leaves := sorted ((List.range 256).map fun v => (nth 0 c v, [v]))
  let top := (List.range 11).foldl (fun l _ => sorted (leaves ++ pairUp l)) leaves
  let used := (top.take 510).flatMap (·.2)
  (List.range 256).map fun v => (used.filter (· == v)).length

/-- The sum that step 3 of R247 makes least. -/
def lengthsCost (c lens : List Nat) : Nat := sumL ((List.range 256).map fun v => nth 0 c v * nth 0 lens v)

/-- The lengths of a build: any valid ones of least sum, the choice among them being free (step 3 of R247). -/
def chosenLengths (c : List Nat) : List Nat :=
  let l := Config.codeLengths c
  if tableOk l && lengthsCost c l == lengthsCost c (leastLengths c) then l else leastLengths c

/-- A set built from the planes of the blocks: pseudo-counts with the seed, lengths by free choice among equal minima,
and the next generation. -/
def buildSet (t : TableSet) (e : Nat) (blocks : List (List Byte)) : TableSet :=
  let lensOf (k : Nat) : List Nat :=
    let bs := blocks.flatMap (plane e k)
    let c (v : Nat) : Nat :=
      let seed := nth 0 (nth [] t.seeds k) v
      (bs.filter fun b => b.toNat == v).length +
        (if seed = 0 then 0 else t.seedw * bs.length / (2 ^ seed * 16)) + 1
    chosenLengths ((List.range 256).map c)
  { t with lens := (List.range 4).map fun k => if k < e then lensOf k else nth [] t.lens k, tgen := (t.tgen + 1) % 256 }

/-- The table set of a number within a partition. -/
def State.tset (s : State) (p k : Nat) : Option TableSet := mfind? (s.part p).tsets k

end Sys2Proof.Machine
end

