-- ==== Sys2Proof/Machine/TensorMove.lean ====
section
/-! DEFINITION. What the tensor-move engine does with an operation that it has started (R86, R88, R241 to R249): the
ranges it reads and writes, the requests for remote and host bytes (R352, R375), and its effect once they have
landed. -/

namespace Sys2Proof.Machine

/-- Slot number of the tensor-move slot in FAULT_INFO. -/
def tmSlot : BitVec 3 := 2

def TmOp.env (op : TmOp) (n c : Nat) : Env := { press := n, ctx := c, prov := op.prov, got := op.got }

/-- The byte ranges of the window that a COPY reads, row by row, with the scales of its blocks. -/
def windowRanges (ts td : TD) (list : List W64) (a b : Nat) : List (W64 × Nat) :=
  if td.count = 0 then []
  else
    let w := fmtWidth ts.fmt
    let rows := (List.range (td.e1 * td.e2 * td.e3)).map fun k =>
      ({ i0 := a, i1 := b + k % td.e1, i2 := k / td.e1 % td.e2, i3 := k / (td.e1 * td.e2) } : Coord)
    let els := rows.map fun c =>
      let (p, bit) := ts.place list c
      (p, ceilDiv (bit + td.e0 * w) 8)
    if ts.mx then
      let span (c : Coord) : List (W64 × Nat) :=
        (List.range td.e0).map fun i => (ts.scalePlace list { c with i0 := a + i }, 1)
      els ++ rows.flatMap span
    else els

/-- Ranges of memory that an operation reads. -/
def TmOp.reads (op : TmOp) : List (W64 × Nat) :=
  let ts := tdOf op.ts
  let td := tdOf op.td
  if ts.space != 0 then []
  else match op.kind with
    | .copy => windowRanges ts td op.tsList op.offA.toNat op.offB.toNat
    | .prefetch => ts.ranges op.tsList
    | .slugPack => ts.ranges op.tsList
    | .slugUnpack => ts.ranges op.tsList
    | .fill | .dload | .dstore => []

/-- Ranges of memory that an operation writes. -/
def TmOp.writes (op : TmOp) : List (W64 × Nat) :=
  let td := tdOf op.td
  if td.space != 0 then []
  else match op.kind with
    | .prefetch | .dload | .dstore => []
    | .copy | .fill | .slugPack | .slugUnpack => td.ranges op.tdList

/-- The bytes that an operation writes, as runs of keys (R86). -/
def State.tmSpans (s : State) (n c : Nat) (op : TmOp) : List (Nat × Nat) :=
  match op.kind with
  | .dstore => [(caseBase n + op.offA.toNat, 64)]
  | .dload | .prefetch => []
  | .copy | .fill | .slugPack | .slugUnpack =>
    let td := tdOf op.td
    if td.space = 0 && op.discard then [] else s.spansOf n c .wr td.space (td.ranges op.tdList)

/-- The case bytes that a DRAIN writes: the fed rows of each platen taking part, and their scales (R105, R108). -/
def State.drainSpans (s : State) (n : Nat) (op : PlOp) : List (Nat × Nat) :=
  if op.kind ≠ .drain then []
  else (platensOf op.plat).flatMap fun p =>
    let t := tdOf (nth 0 op.ta p)
    (fedRows t op.pm p).flatMap fun m =>
      s.spansOf n 0 .wr 1 ((t.rowAddr [] ⟨0, m, 0, 0⟩, rowBytes t.fmt (t.pext 0)) ::
        (if t.mx then (List.range (ceilDiv t.e0 32)).map fun b => (t.scalePlace [] ⟨32 * b, m, 0, 0⟩, 1) else []))

/-- The bytes that the operations running in a press's engines write, and those of the tensor moves that run on any other
press: what a further operation may conflict with (R86). -/
def State.busySpans (s : State) (n c : Nat) : List (Nat × Nat) :=
  let p := s.pc n
  let here (ds : List Desc) : List (Nat × Nat) :=
    ds.flatMap fun d => let t := tdOf d; s.spansOf n c .wr t.space (t.ranges [])
  let moves := s.presses.flatMap fun e => match e.2.run with
    | some k => (e.2.cur.tmRun.filter (·.done)).flatMap fun op => s.tmSpans e.1 k op
    | none => []
  let drains := p.plRun.flatMap fun op => s.drainSpans n op
  let rolls := p.rlRun.flatMap fun op =>
    if op.cls = 4 then [] else here (op.td :: if op.cls = 5 && decide (7 ≤ op.fn) then [op.tb] else [])
  let subs := p.ctRun.flatMap fun o => match o with
    | .kern k => if k.op = 3 then here (k.descs.drop 1) else []
    | .galley g => if g.op = 2 then here (g.descs.drop 3) else if g.op = 6 then here g.descs else []
    | .rsignal _ _ _ _ => []
  moves ++ drains ++ rolls ++ subs

/-- The operation of a Line in the list of running ones, changed. -/
def State.setTm (s : State) (n c line : Nat) (op : TmOp) : State :=
  s.modOf n c fun p => { p with tmRun := p.tmRun.map fun o => if o.line = line then op else o }

/-- Every entry of a handle's tiles takes a free value: the manual gives no addressing of a tympan descriptor (log 19). -/
def State.scatterTile (s : State) (n h : Nat) : State :=
  (List.range 4).foldl (fun s k => match mfind? (s.pc n).binds (64 * k + h) with
    | none => s
    | some b =>
      let f := s.free
      let words := (List.range 4096).flatMap fun i => toBytes 4 ((Config.freeWord (f + i)).toNat % 2 ^ 32)
      { s with mem := putCells s.mem (tympBase n k + 16384 * b.tile) words, free := f + 4096 }) s

/-- The first bytes of a list of runs, and the rest. -/
def cutRuns : Nat → List (W64 × List Byte) → List (W64 × List Byte) × List (W64 × List Byte)
  | _, [] => ([], [])
  | k, r :: rs =>
    if r.2.length ≤ k then ((r :: (cutRuns (k - r.2.length) rs).1), (cutRuns (k - r.2.length) rs).2)
    else if k = 0 then ([], r :: rs)
    else ([(r.1, r.2.take k)], (r.1 + wn k, r.2.drop k) :: rs)

/-- Runs written by an operation: case, tympan or memory; remote and host parts become requests, or one proof-queue
entry for each destination page inside a region; a latched drop discards memory writes (R124, R217, R220). -/
def State.writeAll (s : State) (n c : Nat) (op : TmOp) (runs : List (W64 × List Byte)) : State :=
  let td := tdOf op.td
  if td.space = 1 then runs.foldl (fun s r => s.putCase n r.1 r.2) s
  else if td.space = 2 then s.scatterTile n (fld td.base 5 0)
  else if op.discard then s
  else
    let e := op.env n c
    let far := s.farParts c .wr (runs.map fun r => (r.1, r.2.length))
    let s := (s.putLocal e runs).wrote
    if far.isEmpty then s
    else match (if op.prov then s.openRegion n else none) with
      | some r =>
        let pages := dedup (far.map fun p => p.2.1.toNat / 0x10000)
        pages.foldl (fun s pg => s.stageWrite (chaseOf n) r c pg
          ((far.filter fun p => p.2.1.toNat / 0x10000 == pg).map fun p => (p.2.1, partBytes runs p.2.1 p.2.2)) op.pc 2
          (some op.line)) s
      | none =>
        far.foldl (fun s p =>
          s.askWrite { cause := .tensorWrite n op.line, ctx := c, pc := op.pc, slot := 2, va := p.2.1 } p.1
            (partBytes runs p.2.1 p.2.2)) s

/-- Runs written by an operation, up to the 4 KiB boundary at which it stops; what remains is kept (R307). -/
def State.writeRunsOf (s : State) (n c : Nat) (op : TmOp) (runs : List (W64 × List Byte)) : State :=
  match op.cut with
  | none => s.writeAll n c op runs
  | some k =>
    let (now, rest) := if (tdOf op.td).space = 2 then (runs, []) else cutRuns (4096 * k) runs
    let s := s.writeAll n c op now
    s.modOf n c fun p => { p with
      tmRun := p.tmRun.map fun o => if o.line = op.line then { o with left := rest } else o }

/-- The writes that remain of an operation that stopped, made (R307, R312). -/
def State.finishMove (s : State) (n c : Nat) (op : TmOp) : State :=
  if op.left.isEmpty then s
  else
    let s := s.setTm n c op.line { op with left := [], cut := none }
    s.writeAll n c op op.left

/-- The number of requests of an operation that are outstanding (R85). -/
def State.tmOutstanding (s : State) (n c line : Nat) : Nat :=
  (s.requests.filter fun e => e.2.ctx == c &&
    (decide (e.2.cause = .tensorRead n line) || decide (e.2.cause = .tensorWrite n line))).length

/-- The value of a source element as it enters the destination's format: a block-scaled one is widened under R62. -/
def widenMx (ts td : TD) (v : Num) : Num × Flags :=
  if ts.mx && !td.mx && isFloat td.fmt && ts.fmt != td.fmt && widens ts.fmt td.fmt then v.widen td.fmt else (v, 0)

/-- The effect of a COPY (R88): equal plain formats move patterns, any other pair is converted under NC; a NaN
among the elements read sets NAN_SEEN either way (log 18). -/
def State.doCopy (s : State) (n c : Nat) (op : TmOp) : State :=
  let ts := tdOf op.ts
  let td := tdOf op.td
  let e := op.env n c
  let src (k : Coord) : Coord := { k with i0 := k.i0 + op.offA.toNat, i1 := k.i1 + op.offB.toNat }
  if !ts.mx && !td.mx && ts.fmt == td.fmt then
    let els := td.coords.map fun k => s.elemBits e ts op.tsList (src k)
    let s := (s.recordOf n c op.line (sawNan (td.coords.map fun k => s.elemNum e ts op.tsList (src k)))).spendDraws n
      td.fmt op.nc td.count
    s.writeRunsOf n c op (td.writeRuns op.tdList els [])
  else
    let vs := td.coords.map fun k => s.elemNum e ts op.tsList (src k)
    let ws := vs.map (widenMx ts td)
    let (rs, s) := s.srFor n (if drawsFor td.fmt op.nc then ws.length else 0)
    let (els, scs, fl) := convertAll td op.nc (ws.map (·.1)) rs
    let fl := ws.foldl (fun f w => f ||| w.2) (fl ||| sawNan vs)
    let s := s.recordOf n c op.line fl
    s.writeRunsOf n c op (td.writeRuns op.tdList els scs)

/-- The effect of a FILL (R88). -/
def State.doFill (s : State) (n c : Nat) (op : TmOp) : State :=
  let td := tdOf op.td
  let pat := op.imm.toNat % 2 ^ fmtWidth td.fmt
  if !td.mx then
    (s.spendDraws n td.fmt op.nc td.count).writeRunsOf n c op (td.writeRuns op.tdList (List.replicate td.count pat) [])
  else
    let v := scaled td.fmt 127 (decodeNum td.fmt pat)
    let (rs, s) := s.srFor n (if drawsFor td.fmt op.nc then td.count else 0)
    let (els, scs, fl) := convertAll td op.nc (List.replicate td.count v) rs
    let s := s.recordOf n c op.line fl
    s.writeRunsOf n c op (td.writeRuns op.tdList els scs)

/-- The logical bytes of a tensor: its elements in vector order packed densely (R241). -/
def State.logical (s : State) (e : Env) (t : TD) (list : List W64) : List Byte :=
  packRow t.fmt (t.coords.map fun k => s.elemBits e t list k)

/-- The effect of a SLUG_PACK (R246, R247), with SLUG_STAT (R250). -/
def State.doPack (s : State) (n c : Nat) (op : TmOp) : State :=
  let ts := tdOf op.ts
  let td := tdOf op.td
  let p := (s.ctx c).part
  let k := op.offA.toNat % 65536
  let bs := s.logical (op.env n c) ts op.tsList
  let t := (s.tset p k).getD {}
  let build := op.offA.getLsbD 16
  let t := if build then buildSet t (2 ^ esizeOf ts.fmt) (blocksOf bs) else t
  let s := if build then s.setPart p { s.part p with tsets := mput (s.part p).tsets k t } else s
  let (area, b, raw) := packArea t k ts.fmt bs
  let s := s.modOf n c fun q => { q with
    slugBlk := q.slugBlk + BitVec.ofNat 32 b, slugRaw := q.slugRaw + BitVec.ofNat 32 raw }
  s.writeRunsOf n c op [(td.base, area)]

/-- The effect of a SLUG_UNPACK (R249): a failed check is a fault found after issue. -/
def State.doUnpack (s : State) (n c : Nat) (op : TmOp) : State :=
  let ts := tdOf op.ts
  let td := tdOf op.td
  let area := s.spaceBytes (op.env n c) ts.space ts.base ts.e0
  match unpackArea (s.tset (s.ctx c).part) (rowBytes td.fmt td.count) td.fmt area with
  | .error o => s.late n c St.slugCheck tmSlot op.pc (ts.base + wn o)
  | .ok bs =>
    (s.spendDraws n td.fmt op.nc td.count).writeRunsOf n c op (td.writeRuns op.tdList (unpackRow td.fmt td.count bs) [])

/-- The lines of a PREFETCH brought into the cabinet; unmapped pages are skipped (R88, R236). -/
def State.doPrefetch (s : State) (n c : Nat) (op : TmOp) : State :=
  if (tdOf op.ts).space = 0 then s.touch (op.env n c) op.reads else s

/-- The effect of a started operation whose source bytes are at hand. DLOAD and DSTORE move a descriptor between its
register and 64 bytes of the case (R88). -/
def State.tmEffect (s : State) (n c : Nat) (op : TmOp) : State :=
  match op.kind with
  | .dload => s.modOf n c fun p => p.setT op.treg (descOf (cells s.mem (caseBase n + op.offA.toNat) 64))
  | .dstore => s.putCase n op.offA (toBytes 64 op.ts.toNat)
  | .copy => (s.touch (op.env n c) op.reads).doCopy n c op
  | .prefetch => s.doPrefetch n c op
  | .fill => s.doFill n c op
  | .slugPack => (s.touch (op.env n c) op.reads).doPack n c op
  | .slugUnpack => (s.touch (op.env n c) op.reads).doUnpack n c op

/-- The effect of an operation, with the bytes that other running operations write too left to free choices (R86). -/
def State.doTm (s : State) (n c : Nat) (op : TmOp) : State :=
  let old := s.setTm n c op.line { op with done := false }
  let mine := s.tmSpans n c op
  ((s.tmEffect n c op).contend s (op.env n c).view mine (old.busySpans n c)).blur n c (op.env n c).view mine

/-- A running operation taken as far as it goes: it asks for remote and host bytes, waits for them and for pages that
stall, then takes effect (R37, R85, R252). -/
def State.tryTm (s : State) (n c : Nat) (op : TmOp) : State :=
  if op.done then s
  else
    let far := if op.kind = .prefetch then [] else s.farParts c .rd op.reads
    if !op.asked && !far.isEmpty then
      let s := s.setTm n c op.line { op with asked := true }
      far.foldl (fun s p =>
        s.askRead { cause := .tensorRead n op.line, ctx := c, pc := op.pc, slot := 2, va := p.2.1 } p.1 p.2.2) s
    else if s.tmOutstanding n c op.line != 0 then s
    else
      let (b1, s) := s.rangeStalls c false op.reads
      let (b2, s) := if op.discard then (false, s) else s.rangeStalls c true op.writes
      if b1 || b2 then s
      else match s.rangeBad (op.env n c).view c op.reads with
        | some (va, k) => s.badRead n c tmSlot op.pc va k
        | none =>
          let s := s.setTm n c op.line { op with asked := true, done := true }
          s.doTm n c op

/-- Every running tensor move of the press taken as far as it goes. -/
def State.tryTms (s : State) (n : Nat) : State :=
  match (s.press n).run with
  | some c => (s.pc n).tmRun.foldl (fun s op => if (s.press n).run = some c then s.tryTm n c op else s) s
  | none => s

/-- TM_ENGINE_START (R492): the oldest entry starts once fewer than 8 operations run; with a `stop` it has come so many 4 KiB
pieces far where it can be pre-empted (R307). -/
def State.tmStart (s : State) (n : Nat) (stop : Option Nat) : State :=
  match (s.pc n).tmq with
  | [] => s
  | op :: rest =>
    if 8 ≤ (s.pc n).tmRun.length then s
    else
      let op := { op with cut := stop }
      let s := s.modPc n fun p => { p with tmq := rest, tmRun := p.tmRun ++ [op] }
      s.tryTm n (s.runCtx n) op

end Sys2Proof.Machine
end

