-- ==== Sys2Proof/Machine/Settle.lean ====
section
/-! DEFINITION. Scalar accesses (R79, R83), memory-side adds of RSIGNAL, barriers (R93, R95), and what goes on when an
obstacle goes away: stalled accesses, holds, and requests that could not be injected. -/

namespace Sys2Proof.Machine

/-! ### Cores by number: presses 0 to 127, compositors 128 to 191 (table before R84) -/

/-- Number of a core. -/
def coreNo : CoreId → Nat
  | .press n => n
  | .comp n => 128 + n
/-- Chase of a core. -/
def coreChase (n : Nat) : Nat := if n < 128 then n / 8 else (n - 128) / 4

/-- A scalar register of a core written for a context, wherever its press state stands (R310). -/
def State.putX (s : State) (n c rd : Nat) (v : W64) : State :=
  if n < 128 then s.modOf n c fun p => p.setX rd v
  else s.setComp (n - 128) ((s.comp (n - 128)).setX rd v)

/-- A stalled access added behind those that already wait. -/
def State.pushStall (s : State) (n c : Nat) (x : Stalled) : State :=
  if n < 128 then s.modOf n c fun p => { p with stall := p.stall ++ [x] }
  else s.setComp (n - 128) { s.comp (n - 128) with stall := (s.comp (n - 128)).stall ++ [x] }

/-- Whether a scalar access of a core is outstanding (R83). -/
def State.coreBusy (s : State) (n c : Nat) : Bool :=
  if n < 128 then s.scalarBusy n c
  else !(s.comp (n - 128)).stall.isEmpty || s.requests.any fun e => match e.2.cause with
    | .load p _ _ _ => p == n
    | .store p => p == n
    | _ => false

/-- A fault of a core found after issue; a compositor's fault also stops it (R97, log 6). -/
def State.coreLate (s : State) (n c : Nat) (st : Status) (slot : BitVec 3) (pc va : W64) : State :=
  if n < 128 then s.late n c st slot pc va
  else
    let x := s.comp (n - 128)
    let f : FaultRec := { valid := true, async := true, status := st, slot, pc := pc &&& 0xFFFFFFFFFFFF, va }
    (s.setComp (n - 128) { x with fault := if x.fault.valid then x.fault else f }).teardown c st

/-- The value that a load brings: `size` bytes, extended. -/
def extend (signed : Bool) (size v : Nat) : W64 := if signed then w64 (sext (8 * size) v) else wn (v % 2 ^ (8 * size))

/-- A scalar load performed: its register written, or the access stalled, or asked for remotely (R79, R83, R252). -/
def State.scalarLoad (s : State) (n c : Nat) (va : W64) (size : Nat) (signed : Bool) (rd : Nat) (prov : Bool) (pc : W64)
    (slot : Nat) : State :=
  let wait (s : State) : State := s.pushStall n c (.load va size signed rd prov pc slot)
  let view : Option Nat := if prov then some n else none
  match s.resolve c .rd va with
  | .error st => s.coreLate n c st (BitVec.ofNat 3 slot) pc va
  | .ok l =>
    if s.waits (some (coreChase n)) l size false then wait (s.provoke l false)
    else match l.key? with
      | some k =>
        if s.badRead? view k size then
          if k < 2 ^ 60 then s.coreLate n c (s.badStatus k) (BitVec.ofNat 3 slot) pc va
          else wait (s.poisonPage ((k - 2 ^ 60) / 0x200000))
        else
          let v := ofBytes (s.seenBytes view k size)
          (s.cabRange (coreChase n) k size false).putX n c rd (extend signed size v)
      | none => s.askRead { cause := .load n rd size signed, ctx := c, pc := pc, slot := slot, va := va } l size

/-- A scalar store performed: memory written, in the shadow of the press's open region if the store is part of it, or
the doorbell rung, or the access stalled, queued in the region or sent (R79, R217, R252, R377). -/
def State.scalarStore (s : State) (n c : Nat) (va : W64) (size : Nat) (v : W64) (prov : Bool) (pc : W64)
    (slot : Nat) : State :=
  let bs := toBytes size v.toNat
  match s.resolve c .wr va with
  | .error st => s.coreLate n c st (BitVec.ofNat 3 slot) pc va
  | .ok (.service _) => { s with doorbells := s.doorbells ++ [{ ctx := c, addr := v, press := n, pc := pc }] }
  | .ok l =>
    if s.waits (some (coreChase n)) l size true && !prov then (s.provoke l true).pushStall n c (.store va size v prov pc slot)
    else match l.key? with
      | some k =>
        let s := if prov then s else s.cabRange (coreChase n) k size true
        ((s.putBytes (if prov then some n else none) k bs).blur n c (if prov then some n else none) [(k, size)]).wrote
      | none => match (if prov then s.openRegion n else none) with
        | some r => s.stageWrite (chaseOf n) r c (va.toNat / 0x10000) [(va, bs)] pc slot none
        | none => s.askWrite { cause := .store n, ctx := c, pc := pc, slot := slot, va := va } l bs

/-- A scalar access made, in program order behind those outstanding (R83). -/
def State.access (s : State) (n c : Nat) (x : Stalled) : State :=
  if s.coreBusy n c then s.pushStall n c x
  else match x with
    | .load va size signed rd prov pc slot => s.scalarLoad n c va size signed rd prov pc slot
    | .store va size v prov pc slot => s.scalarStore n c va size v prov pc slot

/-- The oldest stalled accesses of a core tried again, in order, until one does not go through. -/
def retryStalls (n c : Nat) : Nat → State → State
  | 0, s => s
  | fuel + 1, s =>
    let q := if n < 128 then (match s.pcOf n c with | some p => p.stall | none => []) else (s.comp (n - 128)).stall
    match q with
    | [] => s
    | x :: rest =>
      let cut (s : State) : State :=
        if n < 128 then s.modOf n c fun p => { p with stall := [] }
        else s.setComp (n - 128) { s.comp (n - 128) with stall := [] }
      let back (s : State) (l : List Stalled) : State :=
        if n < 128 then s.modOf n c fun p => { p with stall := p.stall ++ l }
        else s.setComp (n - 128) { s.comp (n - 128) with stall := (s.comp (n - 128)).stall ++ l }
      if (cut s).coreBusy n c then s
      else
        let s' := (cut s).access n c x
        if s'.coreBusy n c then back s' rest else retryStalls n c fuel (back s' rest)

/-! ### RSIGNAL (R91, R96) -/

/-- The add of an RSIGNAL performed or sent; false where it stalls in memory. -/
def State.tryAdd (s : State) (n c : Nat) (va v : W64) (mark : Option Nat) (pc : W64) : Bool × State :=
  match s.resolve c .wr va with
  | .error st => (true, s.late n c st 5 pc va)
  | .ok (.far d pa) => (true, s.askAdd { cause := .signal n, ctx := c, pc := pc, mark := mark, slot := 5, va := va } d pa v)
  | .ok l =>
    if s.waits none l 8 true then (false, s.provoke l true)
    else match l.key? with
      | some k =>
        if s.isBad k 8 then
          if k < 2 ^ 60 then (true, (s.countAtomic false).late n c (s.badStatus k) 5 pc va)
          else (false, s.poisonPage ((k - 2 ^ 60) / 0x200000))
        else (true, (s.add64 k v).modOf n c fun p => p.signal mark)
      | none =>
        (true, s.askWrite { cause := .signal n, ctx := c, pc := pc, mark := mark, slot := 5, va := va } l
          (toBytes 8 v.toNat))

/-- The adds that stalled in memory tried again. -/
def State.retryAdds (s : State) (n c : Nat) : State :=
  match s.pcOf n c with
  | none => s
  | some p => p.ctRun.foldl (fun s o => match o with
    | .rsignal va v mark pc =>
      let (ok, s) := s.tryAdd n c va v mark pc
      if ok then s.modOf n c fun p => { p with ctRun := p.ctRun.filter (· != o) } else s
    | _ => s) s

/-! ### Barriers (R93, R95) -/

/-- Arrival at a chase barrier: the last one releases every waiting press and resets the barrier (R93). -/
def State.arriveCbar (s : State) (n k : Nat) : State :=
  let ch := chaseOf n
  let b := mget ({} : Barrier) (s.chase ch).barriers k
  let put (s : State) (b : Barrier) : State :=
    s.setChase ch { s.chase ch with barriers := mset {} (s.chase ch).barriers k b }
  let all := b.arrived ++ [n]
  if all.length < b.expect then
    (put s { b with arrived := all }).modPc n fun c => { c with hold := .cbarWait k }
  else
    let c := b.ctx.getD 0
    let s := put s { b with arrived := [] }
    all.foldl (fun s m => s.modOf m c fun p =>
      if p.hold = .cbarWait k || p.hold = .cbar k then { p with hold := .none } else p) s

/-- The take that a press's sub-take belongs to. -/
def State.takeOf (s : State) (p : PressCtx) : Option Nat :=
  match p.sub with
  | some k => (mfind? s.subs k).map (·.take)
  | none => none

/-- A forme barrier ended: each press that arrived receives 0 (R95). -/
def State.endFbar (s : State) (key h c : Nat) (all : List Nat) : State :=
  let s := { s with fbars := mput s.fbars key { mget ({} : FBarrier) s.fbars key with arrived := [] } }
  all.foldl (fun s m => s.modOf m c fun p => match p.hold with
    | .fbarWait h' x => if h' = h then { p.setX x 0 with hold := .none } else p
    | _ => p) s

/-- Arrival at a forme barrier: it ends when every participant has arrived, those of other devices included (R95). -/
def State.arriveFbar (s : State) (n h xd : Nat) : State :=
  match s.takeOf (s.pc n) with
  | none => s
  | some t =>
    let key := t * 1024 + h
    let b := mget ({} : FBarrier) s.fbars key
    let c := s.runCtx n
    let s := s.modPc n fun p => { p with hold := .fbarWait h xd }
    let all := b.arrived ++ [n]
    if (b.expect.all fun m => all.contains m) && !b.remote then s.endFbar key h c all
    else { s with fbars := mput s.fbars key { b with arrived := all } }

/-- What the members of a forme on other devices have done by now, which nothing in this device shows: 0 nothing, 1 they
have arrived, 2 one of them has been torn down (R25, R95) [log 25]. A forme of this device alone has none. -/
def State.peerNews (s : State) (h : Nat) : Nat × State :=
  if (s.formePresses 6 h).all fun p => p / 128 == s.myId then (0, s) else s.choose 3

/-- R25 for a forme whose job lost a member on another device: its barriers and waits end in the survivors. -/
def State.peerLost (s : State) (h : Nat) : State :=
  let j := (s.forme h).jobTag
  { s with formes := mmap (fun k f => if k = h || (j != 0 && f.jobTag == j) then { f with lost := true } else f) s.formes }

/-- The end of a forme barrier in a press that waits in it, brought by members on other devices: all have arrived, or one is
lost. -/
def State.peerFbar (s : State) (n h : Nat) : State :=
  match s.takeOf (s.pc n) with
  | none => s
  | some t =>
    let key := t * 1024 + h
    let b := mget ({} : FBarrier) s.fbars key
    let (k, s) := s.peerNews h
    if k = 2 then s.peerLost h
    else if k = 1 && b.remote && b.expect.all fun m => b.arrived.contains m then s.endFbar key h (s.runCtx n) b.arrived
    else s

/-- A press's hold looked at again (R91, R93, R95, R96). -/
def State.settleHold (s : State) (n : Nat) : State :=
  match (s.pc n).hold with
  | .fence => if s.drained n then s.modPc n fun p => { p with hold := .none } else s
  | .cbar k => if s.drained n then s.arriveCbar n k else s
  | .fbar h xd =>
    if (mget ({} : Forme) s.formes h).lost then
      s.modPc n fun p => { p.setX xd (St.formeMemberLost.setWidth 64) with hold := .none }
    else if s.drained n then s.arriveFbar n h xd else s
  | .fbarWait h xd =>
    if (mget ({} : Forme) s.formes h).lost then
      s.modPc n fun p => { p.setX xd (St.formeMemberLost.setWidth 64) with hold := .none }
    else s.peerFbar n h
  | .rwait xd => match (s.pc n).watch with
    | none => s
    | some w =>
      let fin (v : W64) : State := s.modPc n fun p => { p.setX xd v with hold := .none, watch := none }
      if w.met then fin 0
      else if (mget ({} : Forme) s.formes w.forme).lost then fin (St.formeMemberLost.setWidth 64)
      else
        let (k, s) := s.peerNews w.forme
        if k = 2 then s.peerLost w.forme else s
  | _ => s

/-! ### Requests that failed at injection (R372) -/

/-- A request of a press, compositor or region ended with a fault found after issue (R98). -/
def State.requestFault (s : State) (r : Request) (st : Status) : State :=
  let go (n : Nat) : State := s.coreLate n r.ctx st (BitVec.ofNat 3 r.slot) r.pc r.va
  match r.cause with
  | .load n _ _ _ => go n
  | .store n => go n
  | .tensorRead n _ => go n
  | .tensorWrite n _ => go n
  | .galleyRead n _ => go n
  | .galleyWrite n _ => go n
  | .signal n => go n
  | .region c g => s.late (s.region c g).press r.ctx st (BitVec.ofNat 3 r.slot) r.pc r.va
  | .listRead n => go n
  | .origin e => if (s.entry e).asked then s.setEntry e { s.entry e with failed := true } else s
  | .image i => match mfind? s.images i with
    | some m => if m.asking = 0 then s else { s with images := mput s.images i { m with failed := some st } }
    | none => s

/-- Whether a request is the device's own, made for no context (R256, R264). -/
def Cause.own : Cause → Bool
  | .origin _ | .image _ => true
  | _ => false

/-- A request ended, and for one of a context REMOTE_OUT lowered (R300). -/
def State.retire (s : State) (tag : Nat) (r : Request) : State :=
  let s := s.endRequest tag
  if r.cause.own then s
  else s.setCtx r.ctx { s.ctx r.ctx with remoteOut := (s.ctx r.ctx).remoteOut - 1 }

/-! ### Fetches from an origin (R256, R264, R265, R268) -/

/-- A read from the origin of an image: a PULL on its session, or a Quoin read without a job tag, marked as one of an origin,
whose address is the offset in the image [log 87]. -/
def State.askOrigin (s : State) (r : Request) (m : Image) (off len : Nat) : State :=
  if m.origin = 2 then
    (pieces 4096 off 8192 len).foldl (fun s q =>
      s.askQuoin { r with kind := 0, va := wn q.1, len := q.2 }
        { basePacket s 0 m.originDevice q.1 q.2 with origin := true, jobTag := 0 }) s
  else
    (pieces 0x100000 off 8192 len).foldl (fun s q =>
      let tag := s.nextTag
      let bad := if s.sessionOpen m.originSession then none else some St.pullFailed
      let r := { r with kind := 3, va := wn q.1, len := q.2, session := some m.originSession, failed := bad }
      ({ s with nextTag := tag + 1, requests := mput s.requests tag r }).send m.originSession
        (.pullReq (BitVec.ofNat 32 tag) (m.hostAddr.toNat + q.1) q.2)) s

/-- Whether a page has an origin copy that may serve it again (R253, R268). -/
def State.hasOrigin (s : State) (x : PlaceEnt) : Bool :=
  x.clean && !x.lost && match x.image with
    | some i => (mget ({} : Image) s.images i).origin != 0
    | none => false

/-- Size of the area of an image that begins at an offset (R263). -/
def Image.areaLen (m : Image) (off : Nat) : Nat := match m.areas.find? fun a => a.1 == off with | some a => a.2 | none => 0

/-- Whether reads of one kind are outstanding. -/
def State.reading (s : State) (k : Cause) : Bool := s.requests.any fun e => decide (e.2.cause = k)

/-- The area of a page asked for at its origin (step 3 of R256, step 1 of R268). -/
def State.askArea (s : State) (e : Nat) : State :=
  let x := s.entry e
  match x.image.bind fun i => mfind? s.images i with
  | none => s
  | some m =>
    let s := s.setEntry e { x with asked := true, failed := false, area := [] }
    s.askOrigin { cause := .origin e } m x.originOff (m.areaLen x.originOff)

/-- The pages that are being fetched, or repaired, and whose area has not been asked for. -/
def State.askAreas (s : State) : State :=
  s.placed.foldl (fun s e =>
    let x := s.entry e.1
    let fetch := decide (x.tier = .moving) && decide (x.move = some .fetch) && !x.poison
    if (fetch || x.poison) && !x.asked && s.hasOrigin x && !s.reading (.origin e.1) then s.askArea e.1 else s) s

/-- A field of an image header (R263). -/
def headField (bs : List Byte) (o n : Nat) : Nat := ofBytes (slice bs o n)

/-- Size of the image that a header names. -/
def imageSize (bs : List Byte) : Nat := headField bs 40 8

/-- Whether an image header is well formed, its lists within the image (R263). -/
def headOk (bs : List Byte) : Bool :=
  let f := headField bs
  decide (128 ≤ bs.length) && f 0 4 == 0x4D49485A && f 4 2 == 1 && decide (f 6 2 ≤ 1024) && decide (1 ≤ f 8 4) &&
    decide (f 8 4 ≤ 289856) && f 12 4 == 0 && f 48 16 == 0 && f 112 16 == 0 && decide (128 ≤ imageSize bs) &&
    decide (f 24 8 + 512 * f 6 2 ≤ imageSize bs) && decide (f 32 8 + 16 * f 8 4 ≤ imageSize bs)

/-- An image with the part that has landed added to what has been read. -/
def Image.taken (m : Image) : Image :=
  { m with
    raw := m.raw ++ (List.range m.asking).map fun j => mget 0 m.coming (m.raw.length + j)
    asking := 0
    coming := [] }

/-- Bytes of an image that are to be read next: its header first, then up to the next boundary of 1 MiB (R264, R352). -/
def Image.next (m : Image) : Nat :=
  if m.raw.isEmpty then 128
  else if headOk m.raw then min (imageSize m.raw - m.raw.length) (0x100000 - m.raw.length % 0x100000)
  else 0

/-- Whether an image has been read as far as it will be: to its end, or to a header that is malformed (R264). -/
def Image.atEnd (m : Image) : Bool := !m.raw.isEmpty && m.asking == 0 && m.next == 0

/-- The next part of an image asked for, once the part before it has landed. -/
def State.pumpLoad (s : State) (i : Nat) : State :=
  match mfind? s.images i with
  | none => s
  | some m =>
    if m.failed.isSome || s.reading (.image i) then s
    else
      let m := m.taken
      let s := { s with images := mput s.images i { m with asking := m.next } }
      s.askOrigin { cause := .image i } m m.raw.length m.next

/-- The model loads that run go on reading. -/
def State.pumpLoads (s : State) : State :=
  s.longops.foldl (fun s e => match e.2.kind with
    | .modelLoad i _ => if e.2.st = .running then s.pumpLoad i else s
    | _ => s) s

/-! ### Host accesses (R349, R353) -/

/-- The places of a range for one kind of access; none where some byte has none in this device, or for a write a sealed
buffer holds it (R348). -/
def State.hostLocs (s : State) (c : Nat) (kind : Kind) (va : W64) (n : Nat) : Option (List Loc) :=
  allSome ((List.range n).map fun i => match s.resolve c kind (va + wn i) with
    | .ok l => match l.key? with
      | some k => if decide (kind = .wr) && s.sealedKey k then none else some l
      | none => none
    | .error _ => none)

/-- Bytes written from outside any cabinet (R237). -/
def State.hostWrite (s : State) (kbs : List (Nat × Byte)) : State :=
  let lines := dedup (kbs.map fun e => e.1 / 256 * 256)
  let s := lines.foldl (fun s l => (s.recall none l).unitMoved l) s
  (kbs.foldl (fun s e => s.setHome e.1 e.2) s).wrote

/-- A host access tried: false where it stalls in memory, as any access does, having started the moves that its pages need
(R37, R252, R292). An uncorrectable sector of a placed page poisons the page, and any other ends a read (R267, R349). -/
def State.tryHost (s : State) (a : HostAcc) : Bool × State :=
  let write := a.data.isSome
  let refuse (s : State) : State := s.send a.session
    (if write then .writeAck a.reqId St.descriptorInvalid else .readResp a.reqId St.descriptorInvalid 0 [])
  match (if (s.ctx a.ctx).st = .active then s.hostLocs a.ctx (if write then .wr else .rd) a.va a.len else none) with
  | none => (true, refuse s)
  | some ls =>
    let firsts := dedup (ls.filterMap fun l => match l with | .page e _ => some e | _ => none)
    if ls.any fun l => s.waits none l 1 write then
      (false, firsts.foldl (fun s e => if s.pageStalls (.page e 0) write then s.provoke (.page e 0) write else s) s)
    else
      let ks := ls.filterMap (·.key?)
      match a.data with
      | some bs => (true, (s.hostWrite (ks.zip bs)).send a.session (.writeAck a.reqId St.ok))
      | none =>
        let lost := firsts.filter fun e => ks.any fun k => k < 2 ^ 61 && decide (pageKey e 0 ≤ k) &&
          decide (k < pageKey e 0 + 0x200000) && s.isBad k 1
        if !lost.isEmpty then (false, lost.foldl (fun s e => s.poisonPage e) s)
        else if ks.any fun k => s.isBad k 1 then (true, refuse s)
        else (true, s.send a.session (.readResp a.reqId St.ok 0 (ks.map s.homeByte)))

/-- The host accesses that wait tried again, those of one session in order (R351). -/
def State.settleHost (s : State) : State :=
  s.hostq.foldl (fun s a =>
    if s.hostq.any fun b => b.session == a.session then { s with hostq := s.hostq ++ [a] }
    else
      let (ok, s) := s.tryHost a
      if ok then s else { s with hostq := s.hostq ++ [a] }) { s with hostq := [] }

/-- The failed requests of presses, compositors and regions reported; a region's commit goes on to its end (R227). -/
def State.flushFailed (s : State) : State :=
  s.requests.foldl (fun s e => match e.2.failed with
    | some st =>
      let s := (s.retire e.1 e.2).requestFault e.2 st
      match e.2.cause with
      | .region c g => s.finishCommit c g
      | _ => s
    | none => s) s

/-! ### All cores looked at again -/

/-- Whether a press state has an access or a move that has left the press and is not complete (R310). -/
def PressCtx.away (p : PressCtx) : Bool :=
  !p.stall.isEmpty || (p.tmRun.any fun o => !o.done) || p.ctRun.any fun o => match o with
    | .rsignal _ _ _ _ => true
    | _ => false

/-- The accesses and moves of a context's press state that are outstanding tried again. -/
def State.settleAway (s : State) (n c : Nat) : State := (retryStalls n c 16 (s.tryTms n)).retryAdds n c

/-- Everything of one press that may now go on; of a context saved on it, what has left the press (R310). -/
def State.settlePress (s : State) (n : Nat) : State :=
  let s := match (s.press n).run with
    | none => s
    | some c =>
      let s := s.settleAway n c
      if (s.press n).run = some c then s.settleHold n else s
  ((s.press n).slotA.toList ++ (s.press n).slotB.toList).foldl (fun s x =>
    if x.st.away then s.inContext n x.ctx fun s => s.settleAway n x.ctx else s) s

/-- Everything that may now go on, on every core; twice, since one core's progress may free another. -/
def State.settle (s : State) : State :=
  let once (s : State) : State :=
    let s := s.presses.foldl (fun s e => s.settlePress e.1) s
    s.comps.foldl (fun s e => retryStalls (128 + e.1) e.2.ctx 16 s) s
  (once (once s.settleHost)).flushFailed.settleHost.askAreas.pumpLoads

end Sys2Proof.Machine
end

