-- ==== Sys2Proof/Machine/Scalar.lean ====
section
/-! DEFINITION. The scalar operations (R79 to R84): for each, the checks of its slot and what it does to registers, memory
or the program counter, from the values that the registers hold before the Line. -/

namespace Sys2Proof.Machine

/-- The registers that a scalar operation reads, and its core. -/
structure Regs where
  x    : Nat → W64
  p    : Nat → Pred
  t    : Nat → Desc
  pc   : W64
  comp : Bool

/-- What a scalar operation does. -/
inductive Eff where
  | nothing
  | x (rd : Nat) (v : W64) (fl : Flags)
  | p (rd : Nat) (v : Pred) (fl : Flags)
  | t (rd : Nat) (v : Desc)
  | cvt (rd : Nat) (f : Nat) (nc : BitVec 4) (v : Num)
  | load (rd : Nat) (va : W64) (size : Nat) (signed : Bool)
  | store (va : W64) (size : Nat) (v : W64)
  | loadCase (rd : Nat) (off : W64)
  | storeCase (off v : W64)
  | rdcsr (rd num : Nat)
  | wrcsr (num : Nat) (v : W64)
  | jump (rd : Nat) (link target : W64)
  deriving DecidableEq, Repr

/-- A scalar operation: its first failing check, with the address it names, and its effect. -/
structure Scal where
  chk : Option (Status × W64) := none
  eff : Eff := .nothing
  deriving DecidableEq, Repr

/-- A check: the status where the condition holds. -/
def failIf (c : Bool) (st : Status) (va : W64) (rest : Option (Status × W64)) : Option (Status × W64) :=
  if c then some (st, va) else rest
def illegalIf (c : Bool) (rest : Option (Status × W64)) : Option (Status × W64) := failIf c St.illegalOpcode 0 rest

/-- IMM13 sign-extended. -/
def sext13 (i : BitVec 13) : W64 := i.signExtend 64

/-! ### Integer operations (R79, R80) -/

/-- The integer of a word, signed. -/
def sgn (v : W64) : Int := v.toInt

/-- Signed division and remainder (R80). -/
def divS (a b : W64) : W64 := if b = 0 then BitVec.allOnes 64 else w64 (sgn a |>.tdiv (sgn b))
def remS (a b : W64) : W64 := if b = 0 then a else w64 (sgn a |>.tmod (sgn b))
/-- Unsigned division and remainder (R80). -/
def divU (a b : W64) : W64 := if b = 0 then BitVec.allOnes 64 else wn (a.toNat / b.toNat)
def remU (a b : W64) : W64 := if b = 0 then a else wn (a.toNat % b.toNat)

/-- Number of ones; leading and trailing zeros, 64 for zero. -/
def popc (a : W64) : Nat := ((List.range 64).filter fun i => a.getLsbD i).length
def clz (a : W64) : Nat := ((List.range 64).find? fun i => a.getLsbD (63 - i)).getD 64
def ctz (a : W64) : Nat := ((List.range 64).find? fun i => a.getLsbD i).getD 64

/-- The ALU operation of a SUB value; none where the table lists none. -/
def aluOp (sub : Nat) (a b : W64) : Option W64 :=
  let sh := b.toNat % 64
  match sub with
  | 0 => some (a + b)
  | 1 => some (a - b)
  | 2 => some (a &&& b)
  | 3 => some (a ||| b)
  | 4 => some (a ^^^ b)
  | 5 => some (a <<< sh)
  | 6 => some (a >>> sh)
  | 7 => some (a.sshiftRight sh)
  | 8 => some (wn (b2n (sgn a < sgn b)))
  | 9 => some (wn (b2n (a.toNat < b.toNat)))
  | 10 => some (if sgn a ≤ sgn b then a else b)
  | 11 => some (if sgn a ≤ sgn b then b else a)
  | 12 => some (if a.toNat ≤ b.toNat then a else b)
  | 13 => some (if a.toNat ≤ b.toNat then b else a)
  | 14 => some (a * b)
  | 15 => some (w64 (sgn a * sgn b / 2 ^ 64))
  | 16 => some (wn (a.toNat * b.toNat / 2 ^ 64))
  | 17 => some (divS a b)
  | 18 => some (divU a b)
  | 19 => some (remS a b)
  | 20 => some (remU a b)
  | 21 => some (wn (popc a))
  | 22 => some (wn (clz a))
  | 23 => some (wn (ctz a))
  | _ => none

def nopOp (rest : BitVec 25) : Scal := { chk := illegalIf (rest != 0) none }

def opAlu (r : Regs) (a : FormA) : Scal :=
  match aluOp a.sub.toNat (r.x a.rs1.toNat) (r.x a.rs2.toNat) with
  | some v => { eff := .x a.rd.toNat v 0 }
  | none => { chk := some (St.illegalOpcode, 0) }

/-- Form B with a result computed from x[RS1] and the sign-extended immediate. -/
def immOp (r : Regs) (b : FormB) (f : W64 → W64 → W64) : Scal :=
  { eff := .x b.rd.toNat (f (r.x b.rs1.toNat) (sext13 b.imm)) 0 }

def opAddi (r : Regs) (b : FormB) : Scal := immOp r b (· + ·)
def opAndi (r : Regs) (b : FormB) : Scal := immOp r b (· &&& ·)
def opOri (r : Regs) (b : FormB) : Scal := immOp r b (· ||| ·)
def opXori (r : Regs) (b : FormB) : Scal := immOp r b (· ^^^ ·)
def opSlli (r : Regs) (b : FormB) : Scal := immOp r b fun a i => a <<< (i.toNat % 64)
def opSrli (r : Regs) (b : FormB) : Scal := immOp r b fun a i => a >>> (i.toNat % 64)
def opSrai (r : Regs) (b : FormB) : Scal := immOp r b fun a i => a.sshiftRight (i.toNat % 64)
def opSlti (r : Regs) (b : FormB) : Scal := immOp r b fun a i => wn (b2n (sgn a < sgn i))

/-- LIS: a part of the shared immediate; on a compositor the 64-bit immediate that follows (R79, R83). -/
def opLis (r : Regs) (l : Line) (b : FormB) : Scal :=
  let part := b.imm.toNat % 4
  let w := immWidth l.split
  if r.comp then
    { chk := illegalIf (decide (8 ≤ b.imm.toNat) || part != 0) none, eff := .x b.rd.toNat l.imm 0 }
  else
    { chk := illegalIf (decide (8 ≤ b.imm.toNat)) (failIf (decide (immParts l.split ≤ part)) St.immSplitInvalid 0 none)
      eff := .x b.rd.toNat (if b.imm.getLsbD 2 then wn (immPart l part) else w64 (sext w (immPart l part))) 0 }

/-! ### Loads and stores (R79, R82) -/

/-- The address of a scalar access. -/
def addrOf (r : Regs) (rs1 : BitVec 6) (imm : BitVec 13) : W64 := r.x rs1.toNat + sext13 imm

def loadOp (r : Regs) (b : FormB) (size : Nat) (signed : Bool) : Scal :=
  let va := addrOf r b.rs1 b.imm
  { chk := failIf (va.toNat % size != 0) St.misaligned va none, eff := .load b.rd.toNat va size signed }
def storeOp (r : Regs) (c : FormS) (size : Nat) : Scal :=
  let va := addrOf r c.rs1 c.imm
  { chk := failIf (va.toNat % size != 0) St.misaligned va none, eff := .store va size (r.x c.rs2.toNat) }

def opLb (r : Regs) (b : FormB) : Scal := loadOp r b 1 true
def opLh (r : Regs) (b : FormB) : Scal := loadOp r b 2 true
def opLw (r : Regs) (b : FormB) : Scal := loadOp r b 4 true
def opLd (r : Regs) (b : FormB) : Scal := loadOp r b 8 true
def opLbu (r : Regs) (b : FormB) : Scal := loadOp r b 1 false
def opLhu (r : Regs) (b : FormB) : Scal := loadOp r b 2 false
def opLwu (r : Regs) (b : FormB) : Scal := loadOp r b 4 false
def opSb (r : Regs) (c : FormS) : Scal := storeOp r c 1
def opSh (r : Regs) (c : FormS) : Scal := storeOp r c 2
def opSw (r : Regs) (c : FormS) : Scal := storeOp r c 4
def opSd (r : Regs) (c : FormS) : Scal := storeOp r c 8

/-- The check of a case offset, or of one of the 64 KiB of a compositor (R79, R82; log 20). -/
def caseChk (r : Regs) (off : W64) : Option (Status × W64) :=
  failIf (off.toNat % 8 != 0) St.misaligned off
    (failIf (decide ((if r.comp then 0x10000 else caseSize) < off.toNat + 8)) St.caseRange off none)

def opLdc (r : Regs) (b : FormB) : Scal :=
  let off := addrOf r b.rs1 b.imm
  { chk := caseChk r off, eff := .loadCase b.rd.toNat off }
def opStc (r : Regs) (c : FormS) : Scal :=
  let off := addrOf r c.rs1 c.imm
  { chk := caseChk r off, eff := .storeCase off (r.x c.rs2.toNat) }

/-! ### Predicates (R79) -/

/-- Every bit of a predicate. -/
def allBits (b : Bool) : Pred := if b then BitVec.allOnes 16384 else 0

def opCmp (r : Regs) (a : FormA) : Scal :=
  let u := r.x a.rs1.toNat
  let v := r.x a.rs2.toNat
  let b := match a.sub.toNat with
    | 0 => u == v
    | 1 => u != v
    | 2 => decide (sgn u < sgn v)
    | 3 => decide (sgn v ≤ sgn u)
    | 4 => decide (u.toNat < v.toNat)
    | _ => decide (v.toNat ≤ u.toNat)
  { chk := illegalIf (decide (6 ≤ a.sub.toNat) || decide (16 ≤ a.rd.toNat)) none, eff := .p a.rd.toNat (allBits b) 0 }

/-- Whether every predicate field is below 16. -/
def predsOk (fs : List (BitVec 6)) : Bool := fs.all fun f => decide (f.toNat < 16)

def opPlog (r : Regs) (a : FormA) : Scal :=
  let u := r.p a.rs1.toNat
  let v := r.p a.rs2.toNat
  let w := match a.sub.toNat with
    | 0 => u &&& v
    | 1 => u ||| v
    | 2 => u ^^^ v
    | _ => u &&& ~~~v
  { chk := illegalIf (decide (4 ≤ a.sub.toNat) || !predsOk [a.rd, a.rs1, a.rs2]) none, eff := .p a.rd.toNat w 0 }

/-- Word `j` of a predicate, and a predicate with it replaced. -/
def predWord (p : Pred) (j : Nat) : W64 := p.extractLsb' (64 * j) 64
def setPredWord (p : Pred) (j : Nat) (v : W64) : Pred :=
  let mask : Pred := (BitVec.allOnes 64).setWidth 16384 <<< (64 * j)
  (p &&& ~~~mask) ||| (v.setWidth 16384 <<< (64 * j))

def opPget (r : Regs) (a : FormA) : Scal :=
  { chk := illegalIf (a.sub != 0 || !predsOk [a.rs1]) none
    eff := .x a.rd.toNat (predWord (r.p a.rs1.toNat) ((r.x a.rs2.toNat).toNat % 256)) 0 }
def opPset (r : Regs) (a : FormA) : Scal :=
  { chk := illegalIf (a.sub != 0 || !predsOk [a.rd]) none
    eff := .p a.rd.toNat (setPredWord (r.p a.rd.toNat) ((r.x a.rs2.toNat).toNat % 256) (r.x a.rs1.toNat)) 0 }

/-! ### Floating point (R64, R65, R79, R81) -/

/-- The format of a floating-point operation: SUB[29] is W. -/
def fpFmt (sub : BitVec 7) : Nat := if sub.getLsbD 4 then Fmt.fp32 else Fmt.fp64
def fpNc (sub : BitVec 7) : BitVec 4 := sub.extractLsb' 0 4
/-- The operand of a floating-point operation in its format. -/
def fpArg (sub : BitVec 7) (v : W64) : Num := decodeNum (fpFmt sub) (v.toNat % 2 ^ fmtWidth (fpFmt sub))

/-- A check of RND (R54). -/
def ncChk (nc : BitVec 4) (rest : Option (Status × W64)) : Option (Status × W64) :=
  failIf (nc.extractLsb' 0 2 == 3) St.numctlInvalid 0 rest

/-- A floating-point operation on one or two operands, its exact result converted under NC. -/
def fpOp (r : Regs) (a : FormA) (two : Bool) (f : Num → Num → Num × Flags) : Scal :=
  let u := fpArg a.sub (r.x a.rs1.toNat)
  let v := fpArg a.sub (r.x a.rs2.toNat)
  let (e, fl) := f u v
  let (b, fl') := toFloat (fpFmt a.sub) (fpNc a.sub) 0 e
  { chk := illegalIf (decide (32 ≤ a.sub.toNat)) (ncChk (fpNc a.sub) none)
    eff := .x a.rd.toNat (wn b) (fl ||| fl' ||| sawNan (if two then [u, v] else [u])) }

def opFadd (r : Regs) (a : FormA) : Scal := fpOp r a true Num.add
def opFsub (r : Regs) (a : FormA) : Scal := fpOp r a true Num.sub
def opFmul (r : Regs) (a : FormA) : Scal := fpOp r a true Num.mul
def opFdiv (r : Regs) (a : FormA) : Scal := fpOp r a true Num.div
def opFsqrt (r : Regs) (a : FormA) : Scal := fpOp r a false fun u _ => u.sqrt
def opFmin (r : Regs) (a : FormA) : Scal := fpOp r a true fun u v => (u.min v, 0)
def opFmax (r : Regs) (a : FormA) : Scal := fpOp r a true fun u v => (u.max v, 0)

def opFcmp (r : Regs) (a : FormA) : Scal :=
  let u := fpArg a.sub (r.x a.rs1.toNat)
  let v := fpArg a.sub (r.x a.rs2.toNat)
  let c := a.sub.toNat % 8
  { chk := illegalIf (decide (6 ≤ c) || a.sub.getLsbD 3 || decide (32 ≤ a.sub.toNat) || decide (16 ≤ a.rd.toNat)) none
    eff := .p a.rd.toNat (allBits (condNum c u v)) (sawNan [u, v]) }

def opFcvt (r : Regs) (hi : Bool) (a : FormA) : Scal :=
  let src := a.rs2.toNat % 16
  let dst := 8 * b2n hi + a.sub.toNat / 16
  let nc := fpNc a.sub
  { chk := illegalIf (decide (16 ≤ a.rs2.toNat))
      (ncChk nc (failIf (src == Fmt.e8m0 || dst == Fmt.e8m0) St.formatUnsupported 0 none))
    eff := .cvt a.rd.toNat dst nc (decodeNum src ((r.x a.rs1.toNat).toNat % 2 ^ fmtWidth src)) }

/-! ### Branches of compositors, state registers, descriptor words (R79, R82, R84) -/

/-- The check of an operation of the other kind of core. -/
def coreChk (bad : Bool) (rest : Option (Status × W64)) : Option (Status × W64) := failIf bad St.illegalSlot 0 rest

/-- pc + 4 × IMM13. -/
def nearTarget (r : Regs) (b : FormB) : W64 := r.pc + 4 * sext13 b.imm

def opBnz (r : Regs) (b : FormB) : Scal :=
  { chk := coreChk (!r.comp) (illegalIf (b.rd != 0) none)
    eff := if r.x b.rs1.toNat ≠ 0 then .jump 0 0 (nearTarget r b) else .nothing }
def opBz (r : Regs) (b : FormB) : Scal :=
  { chk := coreChk (!r.comp) (illegalIf (b.rd != 0) none)
    eff := if r.x b.rs1.toNat = 0 then .jump 0 0 (nearTarget r b) else .nothing }
def opJal (r : Regs) (b : FormB) : Scal :=
  { chk := coreChk (!r.comp) none, eff := .jump b.rd.toNat (r.pc + 4) (nearTarget r b) }
def opJalr (r : Regs) (b : FormB) : Scal :=
  { chk := coreChk (!r.comp) none
    eff := .jump b.rd.toNat (r.pc + 4) ((r.x b.rs1.toNat + sext13 b.imm) &&& ~~~3) }
def opRdcsr (_r : Regs) (b : FormB) : Scal := { eff := .rdcsr b.rd.toNat b.imm.toNat }
def opWrcsr (r : Regs) (b : FormB) : Scal := { eff := .wrcsr b.imm.toNat (r.x b.rs1.toNat) }
/-- TSET writes one word of a descriptor register, whose other words it takes as they stood before the Line: where S0 and S1 of
one Line write words of one register, as TSET, or of one predicate, as PSET, the whole value that S1 forms stands. No rule
says what becomes of the word of S0 (R78; DESIGN CHOICE, log 99). -/
def opTset (r : Regs) (b : FormB) : Scal :=
  let i := b.rd.toNat % 32
  { chk := coreChk r.comp none, eff := .t i (setDword (r.t i) (b.imm.toNat % 8) (r.x b.rs1.toNat)) }
def opTget (r : Regs) (b : FormB) : Scal :=
  { chk := coreChk r.comp none, eff := .x b.rd.toNat (dword (r.t (b.rs1.toNat % 32)) (b.imm.toNat % 8)) 0 }

/-! ### State registers (R84) -/

/-- A state register of a press as RDCSR reads it; `cyc` is a free count of cycles. -/
def State.csr (s : State) (n : Nat) (cyc : W64) (c : PressCtx) (num : Nat) : W64 :=
  match num with
  | 0x000 => cyc
  | 0x001 => c.retired
  | 0x002 => wn n
  | 0x003 => wn s.myId
  | 0x004 => wn (s.runCtx n)
  | 0x010 => c.numStatus.setWidth 64
  | 0x011 => c.srSeed
  | 0x012 => wn (b2n c.proofMis)
  | 0x013 => c.proofCnt.setWidth 64
  | 0x014 => c.proofLoc
  | 0x015 => wn (b2n c.rlRange)
  | 0x016 => c.rlCount.setWidth 64
  | _ => if 0x018 ≤ num && num ≤ 0x01F then (mget 0 c.numCount (num - 0x018)).setWidth 64 else 0

/-- A state register written by WRCSR: the status registers as W1C, the seed by its field table, no other (R84). -/
def PressCtx.wrcsr (c : PressCtx) (num : Nat) (v : W64) : PressCtx :=
  match num with
  | 0x010 => { c with numStatus := c.numStatus &&& ~~~(v.setWidth 8) }
  | 0x011 => { c with srSeed := seedOf v }
  | 0x012 => if v.getLsbD 0 then { c with proofMis := false } else c
  | 0x015 => if v.getLsbD 0 then { c with rlRange := false } else c
  | _ => c

/-! ### Effects -/

/-- The registers of a press, and of a compositor. -/
def PressCtx.regs (c : PressCtx) : Regs := { x := c.getX, p := c.getP, t := c.getT, pc := c.pc, comp := false }
def Comp.regs (c : Comp) : Regs :=
  { x := c.getX, p := fun i => (c.getP i).setWidth 16384, t := fun _ => 0, pc := c.pc, comp := true }

/-- The effect of a scalar slot on a press (steps 5 and 6 of R78). `old` is the press state before the Line, `kill` says
that a later slot writes the same register, `prov` and `drop` that the store is inside an open region or dropped. The
flags are those that the Line records (R68). -/
def State.scalarDo (s : State) (n : Nat) (old : PressCtx) (slot : Nat) (kill prov drop : Bool) (e : Eff) :
    State × Flags :=
  let c := s.runCtx n
  match e with
  | .nothing => (s, 0)
  | .x rd v fl => (s.modPc n fun p => p.setX rd v, fl)
  | .p rd v fl => (s.modPc n fun p => p.setP rd v, fl)
  | .t rd v => (s.modPc n fun p => p.setT rd v, 0)
  | .cvt rd f nc v =>
    let (rs, s) := s.srFor n (if drawsFor f nc then 1 else 0)
    let (b, fl) := toFmt f nc (nth 0 rs 0) v
    (s.modPc n fun p => p.setX rd (wn b), fl ||| sawNan [v])
  | .load rd va size signed => (s.access n c (.load va size signed (if kill then 0 else rd) prov old.pc slot), 0)
  | .store va size v => (if drop then s else s.access n c (.store va size v prov old.pc slot), 0)
  | .loadCase rd off => (s.modPc n fun p => p.setX rd (wn (ofBytes (cells s.mem (caseBase n + off.toNat) 8))), 0)
  | .storeCase off v => (s.putCase n off (toBytes 8 v.toNat), 0)
  | .rdcsr rd num =>
    let (cyc, s) := if num = 0 then s.freshWord else (0, s)
    let v := s.csr n cyc old num
    (s.modPc n fun p => p.setX rd v, 0)
  | .wrcsr num v => (s.modPc n fun p => p.wrcsr num v, 0)
  | .jump _ _ _ => (s, 0)

/-- A compositor's program counter after an instruction: 4 further, 12 after LIS (R83), or the target. -/
def compNext (pc : W64) (lis : Bool) (e : Eff) : W64 :=
  match e with
  | .jump _ _ t => t
  | _ => if lis then pc + 12 else pc + 4

/-- The effect of an instruction on a compositor, which records no status (R81). It has no generator of its own, and what FCVT
with RND = 0b10 draws there is not stated: a free value of 16 bits (DESIGN CHOICE, log 97). -/
def State.compDo (s : State) (m : Nat) (lis : Bool) (e : Eff) : State :=
  let x := s.comp m
  let n := 128 + m
  let put (s : State) (f : Comp → Comp) : State := s.setComp m (f (s.comp m))
  let s := put s fun y => { y with pc := compNext y.pc lis e }
  match e with
  | .nothing => s
  | .x rd v _ => put s fun y => y.setX rd v
  | .p rd v _ => put s fun y => y.setP rd (v.setWidth 64)
  | .t _ _ => s
  | .cvt rd f nc v =>
    let (r, s) := if drawsFor f nc then s.choose 65536 else (0, s)
    put s fun y => y.setX rd (wn (toFmt f nc r v).1)
  | .load rd va size signed => s.access n x.ctx (.load va size signed rd false x.pc 0)
  | .store va size v => s.access n x.ctx (.store va size v false x.pc 0)
  | .loadCase rd off => put s fun y => y.setX rd (wn (ofBytes (cells y.lmem off.toNat 8)))
  | .storeCase off v => put s fun y => { y with lmem := putCells y.lmem off.toNat (toBytes 8 v.toNat) }
  | .rdcsr rd num =>
    let (cyc, s) := if num = 0 then s.freshWord else (0, s)
    let v : W64 := match num with
      | 0x000 => cyc
      | 0x002 => wn n
      | 0x003 => wn s.myId
      | 0x004 => wn x.ctx
      | _ => 0
    put s fun y => y.setX rd v
  | .wrcsr _ _ => s
  | .jump rd link _ => put s fun y => y.setX rd link

end Sys2Proof.Machine
end

