-- ==== Sys2Proof/Machine/Moves.lean ====
section
/-! DEFINITION. The tensor-move slot at issue (R76, R77, R88, R119, R246, R249): the checks of each operation and what its
Line does with it. -/

namespace Sys2Proof.Machine

/-- The checks of a slot in the order of R491: encoding, operands and shapes first; then what it needs of the open
region (R220), its writes to memory and its RSIGNALs; then translation and permission. -/
structure Chk where
  pre    : Option (Status × W64) := none
  writes : List (W64 × Nat) := []
  signal : Nat := 0
  /-- Proof pages that the snapshot of a galley stream takes (R219). -/
  snap   : Nat := 0
  post   : Option (Status × W64) := none
  deriving DecidableEq, Repr

/-- The first check that fails. -/
def firstOf (l : List (Option (Status × W64))) : Option (Status × W64) := l.findSome? id

/-- What every slot knows of its Line: the press, its context and its state before the Line. -/
structure Lc where
  n   : Nat
  c   : Nat
  old : PressCtx
  l   : Line

/-- Its view of memory, with the pointer-list bytes that the Line has fetched (R119). -/
def Lc.env (k : Lc) (s : State) : Env :=
  { press := k.n, ctx := k.c, prov := (s.openRegion k.n).isSome, got := k.old.lists }
/-- x[i] before the Line. -/
def Lc.x (k : Lc) (i : BitVec 6) : W64 := k.old.getX i.toNat
/-- t[i] before the Line. -/
def Lc.t (k : Lc) (i : Nat) : Desc := k.old.getT (i % 32)

/-- The translation of the ranges of a memory-space tensor for one kind of access. -/
def State.rangesFault (s : State) (c : Nat) (k : Kind) (space : Nat) (rs : List (W64 × Nat)) : Option (Status × W64) :=
  if space != 0 then none else rs.findSome? fun r => s.rangeFault c k r.1 r.2

/-- The translation of a pointer list itself, and the ranges of a case list beyond the case (R119). -/
def State.listFault (s : State) (c : Nat) (t : TD) : Option (Status × W64) :=
  if !t.plist then none
  else
    let at8 (b : W64) : Option (Status × W64) :=
      if t.space = 0 then s.rangeFault c .rd b (8 * t.e3)
      else if caseSize < b.toNat + 8 * t.e3 then some (St.caseRange, b) else none
    (at8 t.base).orElse fun _ => if t.mx then at8 t.scale else none

/-- The runs of memory that hold the pointer lists of an operation (R119). -/
def TmOp.listRuns (op : TmOp) (dest : Bool) : List (W64 × Nat) :=
  let one (t : TD) : List (W64 × Nat) :=
    if t.plist && t.space == 0 && decide (t.e3 ≤ 256) then
      (t.base, 8 * t.e3) :: (if t.mx then [(t.scale, 8 * t.e3)] else [])
    else []
  one (tdOf op.ts) ++ (if dest then one (tdOf op.td) else [])

/-- RSV of the slot, then RND (R54, R74); the NOP has no result to round, and its NC is not read (log 81). -/
def tmHead (f : TmF) (nop : Bool) : Option (Status × W64) :=
  failIf (f.rsv != 0) St.rsvNonzero 0 (if nop then none else ncChk f.nc none)

/-- The mark that a slot signals. -/
def markOf (en : Bool) (m : BitVec 4) : Option Nat := if en then some m.toNat else none

/-- A tensor-move operation as captured at issue (R76). -/
def Lc.tmOp (k : Lc) (s : State) (f : TmF) (kind : TmKind) : TmOp :=
  let e := k.env s
  { kind := kind, td := k.t f.td.toNat, ts := k.t f.ts.toNat
    tdList := s.plistOf e (tdOf (k.t f.td.toNat)), tsList := s.plistOf e (tdOf (k.t f.ts.toNat))
    nc := f.nc, offA := k.x f.xa, offB := k.x f.xb, imm := wn (immPart k.l 0), treg := f.td.toNat
    discard := k.old.dropLatch, mark := markOf f.markEn f.mark, pc := k.old.pc
    prov := e.prov, line := k.old.retired.toNat }

/-- An operation placed in the tensor-move queue, its mark taken (R78, R85). -/
def State.queueTm (s : State) (n : Nat) (op : TmOp) : State :=
  s.modPc n fun p => { p.take op.mark with tmq := p.tmq ++ [op] }

/-- The writes of an operation that count against the open region: none where they are dropped. -/
def TmOp.counted (op : TmOp) : List (W64 × Nat) := if op.discard then [] else op.writes

/-- The checks of an operation with a destination and a source tensor. -/
def tmPairChk (k : Lc) (s : State) (f : TmF) (op : TmOp) (pl : Bool) (more : Option (Status × W64)) : Chk :=
  let td := tdOf op.td
  let ts := tdOf op.ts
  { pre := firstOf [tmHead f false, td.bad op.tdList pl false, ts.bad op.tsList pl false, more]
    writes := op.counted
    post := firstOf [s.listFault k.c td, s.listFault k.c ts, s.rangesFault k.c .rd 0 op.reads,
      s.rangesFault k.c .wr 0 op.writes] }

/-- A window outside the extents of its tensor (R77). -/
def windowBad (ts td : TD) (a b : Nat) : Bool :=
  decide (ts.e0 < a + td.e0) || decide (ts.e1 < b + td.e1) || decide (ts.e2 < td.e2) || decide (ts.e3 < td.e3)

def chkTmNop (f : TmF) : Chk := { pre := tmHead f true }

def chkCopy (k : Lc) (s : State) (f : TmF) : Chk :=
  let op := k.tmOp s f .copy
  tmPairChk k s f op true
    (failIf (windowBad (tdOf op.ts) (tdOf op.td) op.offA.toNat op.offB.toNat) St.descInvalid 0 none)
def doCopyIssue (k : Lc) (s0 s : State) (f : TmF) : State := s.queueTm k.n (k.tmOp s0 f .copy)

/-- The case offset of DLOAD, DSTORE, KSUB and GSUB (R88, R91). -/
def lineCase (off : W64) : Option (Status × W64) :=
  failIf (off.toNat % 64 != 0 || decide (caseSize ≤ off.toNat)) St.caseRange off none

def chkDload (k : Lc) (f : TmF) : Chk := { pre := firstOf [tmHead f false, lineCase (k.x f.xa)] }
def doDload (k : Lc) (s0 s : State) (f : TmF) : State := s.queueTm k.n (k.tmOp s0 f .dload)

/-- DSTORE names t[TS], so its slot validates that descriptor as every other does (R77, R52, R119; log 81). -/
def chkDstore (k : Lc) (f : TmF) : Chk :=
  { pre := firstOf [tmHead f false, (tdOf (k.t f.ts.toNat)).bad [] false false, lineCase (k.x f.xa)] }
def doDstore (k : Lc) (s0 s : State) (f : TmF) : State := s.queueTm k.n (k.tmOp s0 f .dstore)

/-- PREFETCH skips unmapped pages (R88). -/
def chkPrefetch (k : Lc) (s : State) (f : TmF) : Chk :=
  let op := k.tmOp s f .prefetch
  let ts := tdOf op.ts
  let skip (r : W64 × Nat) : Option (Status × W64) := (segs r.1 r.2).findSome? fun p =>
    match s.rangeFault k.c .rd p.1 p.2 with
    | some (st, va) => if st = St.pageNotMapped then none else some (st, va)
    | none => none
  { pre := firstOf [tmHead f false, ts.bad op.tsList true false]
    post := firstOf [s.listFault k.c ts, if ts.space = 0 then op.reads.findSome? skip else none] }
def doPrefetchIssue (k : Lc) (s0 s : State) (f : TmF) : State := s.queueTm k.n (k.tmOp s0 f .prefetch)

def chkFill (k : Lc) (s : State) (f : TmF) : Chk :=
  let op := k.tmOp s f .fill
  let td := tdOf op.td
  { pre := firstOf [tmHead f false, td.bad op.tdList false false]
    writes := op.counted
    post := s.rangesFault k.c .wr 0 op.writes }
def doFillIssue (k : Lc) (s0 s : State) (f : TmF) : State := s.queueTm k.n (k.tmOp s0 f .fill)

/-- The rules of R246 for the area's descriptor, and for both descriptors. -/
def areaBad (area other : TD) : Option (Status × W64) :=
  failIf (area.mx || area.plist || other.mx || other.plist || area.fmt != Fmt.uint8 || area.e1 != 1 ||
      area.e2 != 1 || area.e3 != 1 || area.base.toNat % 32 != 0) St.descInvalid 0
    (failIf (decide (area.e0 < areaBound (rowBytes other.fmt other.count))) St.shapeMismatch 0 none)

def chkSlugPack (k : Lc) (s : State) (f : TmF) : Chk :=
  let op := k.tmOp s f .slugPack
  let a := op.offA
  let set := a.toNat % 65536
  let xaBad := fld a 63 17 != 0 || (s.tset (s.ctx k.c).part set).isNone || (a.getLsbD 16 && decide (4096 ≤ set))
  tmPairChk k s f op false (failIf xaBad St.descInvalid 0 (areaBad (tdOf op.td) (tdOf op.ts)))
def doSlugPackIssue (k : Lc) (s0 s : State) (f : TmF) : State := s.queueTm k.n (k.tmOp s0 f .slugPack)

def chkSlugUnpack (k : Lc) (s : State) (f : TmF) : Chk :=
  let op := k.tmOp s f .slugUnpack
  tmPairChk k s f op false (areaBad (tdOf op.ts) (tdOf op.td))
def doSlugUnpackIssue (k : Lc) (s0 s : State) (f : TmF) : State := s.queueTm k.n (k.tmOp s0 f .slugUnpack)

end Sys2Proof.Machine
end

