-- ==== Sys2Proof/Machine/Platen.lean ====
section
/-! DEFINITION. The platen slot at issue (R89, R90, R101 to R118): formats and their pairing, the record of the weight
window, handles and tags, and what a Line places in the platen queue. -/

namespace Sys2Proof.Machine

/-! ### Formats (R51 to R53, R101) -/

/-- Formats that a platen takes as operand or weight. -/
def platenOperand (t : TD) : Bool := t.fmt != Fmt.fp64 && t.fmt != Fmt.int32 && t.fmtOk false
/-- Formats into which DRAIN converts. -/
def platenResult (t : TD) : Bool := t.fmt != Fmt.fp64 && t.fmtOk false

/-- The effective format of an operand format and a weight format; none where R53 refuses the pair. -/
def pairFmt (a w : Nat) : Option Nat :=
  if isInt a != isInt w then none
  else if fmtWidth a ≤ 8 && fmtWidth w ≤ 8 then some (if fmtWidth w < fmtWidth a then a else w)
  else if widens a w then some w
  else if widens w a then some a
  else if (a == Fmt.bf16 && w == Fmt.fp16) || (a == Fmt.fp16 && w == Fmt.bf16) then some Fmt.e8m10
  else none

/-- Products per sort and cycle of an effective format (R101). -/
def rateOf (f : Nat) : Nat :=
  if f == Fmt.e2m1 || f == Fmt.int4 then 4
  else if [Fmt.e4m3, Fmt.e5m2, Fmt.e3m2, Fmt.e2m3, Fmt.int8, Fmt.uint8, Fmt.int16].contains f then 2
  else 1

/-- Whether a PASS is listed for an effective format, in WLOAD and in MM (R115). -/
def passOkW (f pass : Nat) : Bool :=
  if f = Fmt.fp32 then pass < 3 else if f = Fmt.int16 then true else pass == 0
def passOkM (f pass : Nat) : Bool := f != Fmt.fp32 || pass < 3
/-- Whether a pass is a complex step (R115, R118). -/
def isComplex (f pass : Nat) : Bool := f != Fmt.fp32 && f != Fmt.int16 && pass != 0

/-- The weight part that WLOAD holds: 0 high or whole, 1 low (R115). -/
def partOfW (f pass : Nat) : Nat :=
  if f = Fmt.fp32 then (if pass = 1 then 1 else 0) else if f = Fmt.int16 then pass / 2 else 0

/-! ### What a platen operation names -/

/-- The operand descriptor of platen `k` (table before R89). -/
def Lc.ta (k : Lc) (f : PlF) (p : Nat) : Desc := k.t ((f.ta.toNat + p) % 32)

/-- RSV of the slot, then RND (R54, R74); the NOP has no result to round, and its NC is not read (log 81). -/
def plHead (f : PlF) (nop : Bool) : Option (Status × W64) :=
  failIf (f.rsv != 0) St.rsvNonzero 0 (if nop then none else ncChk f.nc none)

/-- The checks of R103 that do not depend on the operation: the descriptor, its space, the format. -/
def plDesc (t : TD) (fmtOk : Bool) : Option (Status × W64) :=
  firstOf [t.bad [] false false, failIf (t.space != 1) St.descInvalid 0 none,
    failIf (!fmtOk) St.formatUnsupported 0 none]
def shapeIf (c : Bool) : Option (Status × W64) := failIf c St.shapeMismatch 0 none
def flatBad (t : TD) : Bool := t.e2 != 1 || t.e3 != 1

/-- The handles of an operation (R109, R114, R118): TILE, and those that follow it modulo 64. -/
def handlesOf (tile n : Nat) : List Nat := (List.range n).map fun i => (tile + i) % 64

def PressCtx.bind? (c : PressCtx) (p h : Nat) : Option Bind := mfind? c.binds (64 * p + h)
/-- Tiles of a platen that are bound. -/
def PressCtx.bound (c : PressCtx) (p : Nat) : List Nat :=
  (c.binds.filter fun e => e.1 / 64 == p).map fun e => e.2.tile
/-- Handles of the operation that are not bound in a platen. -/
def PressCtx.unbound (c : PressCtx) (p : Nat) (hs : List Nat) : List Nat := hs.filter fun h => (c.bind? p h).isNone

/-- The check that a platen has tiles for what an operation binds (R109). -/
def overflowChk (c : PressCtx) (plat : BitVec 4) (hs : Nat → List Nat) : Option (Status × W64) :=
  failIf ((platensOf plat).any fun p => decide (16 < (c.bound p).length + (c.unbound p (hs p)).length)) St.accOverflow 0 none
/-- The check that handles are bound (R90, R109). -/
def boundChk (c : PressCtx) (plat : BitVec 4) (hs : Nat → List Nat) : Option (Status × W64) :=
  failIf ((platensOf plat).any fun p => !(c.unbound p (hs p)).isEmpty) St.tileUnallocated 0 none

/-- A handle bound to the lowest free tile of a platen, its tag unset (R107, R109). -/
def PressCtx.bindOne (c : PressCtx) (p h : Nat) : PressCtx :=
  let used := c.bound p
  let tile := ((List.range 16).find? fun i => !used.contains i).getD 0
  { c with binds := mput c.binds (64 * p + h) { tile := tile } }
def PressCtx.bindAll (c : PressCtx) (plat : BitVec 4) (hs : Nat → List Nat) : PressCtx :=
  (platensOf plat).foldl (fun c p => (c.unbound p (hs p)).foldl (fun c h => c.bindOne p h) c) c
/-- A handle released in the platens taking part (R110). -/
def PressCtx.release (c : PressCtx) (plat : BitVec 4) (h : Nat) : PressCtx :=
  { c with binds := (platensOf plat).foldl (fun m p => mdel m (64 * p + h)) c.binds }
/-- The tag of the handles of each platen set (R107); `all` also where one is set already. -/
def PressCtx.setTags (c : PressCtx) (plat : BitVec 4) (hs : Nat → List Nat) (tag : Nat → TileTag) (all : Bool) :
    PressCtx :=
  (platensOf plat).foldl (fun c p => (hs p).foldl (fun c h => match c.bind? p h with
    | some b =>
      if all || decide (b.tag = .unset) then { c with binds := mput c.binds (64 * p + h) { b with tag := tag p } } else c
    | none => c) c) c
/-- One handle in every platen. -/
def oneHandle (f : PlF) : Nat → List Nat := fun _ => [f.tile.toNat]

/-- A platen operation as captured at issue (R76): descriptors, the tiles of its handles by platen, which of them it has
just bound, and the tags that they had; a TFREE of an unbound handle names no tile. `old` and `now` are the press states before and after its bindings. -/
def Lc.plOp (k : Lc) (f : PlF) (kind : PlKind) (hs : Nat → List Nat) (old now : PressCtx) : PlOp :=
  let live (p : Nat) : List Nat := (hs p).filter fun h => (now.bind? p h).isSome
  { kind := kind, tr := f.tr, acc := f.acc, plat := f.plat
    ta := (List.range 4).map (k.ta f), tw := k.t f.tw.toNat, tile := f.tile.toNat
    tiles := (List.range 4).map fun p => (live p).map fun h => ((now.bind? p h).getD {}).tile
    fresh := (List.range 4).map fun p => (live p).map fun h => (old.bind? p h).isNone
    tags := (List.range 4).map fun p => (live p).map fun h => ((old.bind? p h).getD {}).tag
    nc := f.nc, pm := k.old.getP f.pm.toNat, chk := f.chk, pass := f.pass.toNat
    wrec := (old.wrec).getD {}, mark := markOf f.markEn f.mark, pc := k.old.pc, line := k.old.retired.toNat }

/-- An operation placed in the platen queue, its mark taken. -/
def PressCtx.queuePl (c : PressCtx) (op : PlOp) : PressCtx :=
  { c.take op.mark with plq := c.plq ++ [op] }

def chkPlNop (f : PlF) : Chk := { pre := plHead f true }

/-! ### WLOAD (R102, R103, R115) -/

def chkWload (k : Lc) (f : PlF) : Chk :=
  let t := tdOf (k.t f.tw.toNat)
  { pre := firstOf [plHead f false, illegalIf (!passOkW t.fmt f.pass.toNat) none, plDesc t (platenOperand t),
      shapeIf (decide (64 < t.e0) || decide (64 * rateOf t.fmt < t.e1) || flatBad t)] }
def doWload (k : Lc) (s : State) (f : PlF) : State :=
  let t := tdOf (k.t f.tw.toNat)
  let r : WRec := { fmt := t.fmt, mx := t.mx, axis := t.axis, kExt := t.e1, nExt := t.e0, part := partOfW t.fmt f.pass.toNat }
  s.modPc k.n fun c =>
    ({ c with wrec := some r }).queuePl { k.plOp f .wload (fun _ => []) c c with wrec := r }

/-! ### MM (R104, R107, R109, R114 to R118) -/

/-- The class of an MM: INT32 when both operands are plain integers (R107). -/
def mmClass (a : TD) (w : WRec) : TileTag := if isInt a.fmt && !a.mx && !w.mx then .int32 else .fp32

/-- Handles of an MM. -/
def mmHandles (f : PlF) (eff : Nat) (w : WRec) : List Nat :=
  handlesOf f.tile.toNat
    (if isComplex eff f.pass.toNat then 2 else if f.tr then max 1 (ceilDiv w.kExt 64) else 1)

/-- PASS of an MM in one platen: an encoding rule of the effective format, checked before any descriptor (R115, R491).
Where the formats do not pair there is none, and their own check follows. -/
def mmPass (k : Lc) (f : PlF) (w : WRec) (p : Nat) : Option (Status × W64) :=
  match pairFmt (tdOf (k.ta f p)).fmt w.fmt with
  | some eff => illegalIf (!passOkM eff f.pass.toNat) none
  | none => none

/-- Checks 1 to 5 of R104 for one platen, with the parts of R117, the complex rule of R118 and the tags of R107. -/
def mmOne (k : Lc) (f : PlF) (w : WRec) (p : Nat) : Option (Status × W64) :=
  let t := tdOf (k.ta f p)
  let pass := f.pass.toNat
  match plDesc t (platenOperand t) with
  | some e => some e
  | none => match pairFmt t.fmt w.fmt with
    | none => some (St.formatUnsupported, 0)
    | some eff =>
      firstOf [
        shapeIf (t.e0 != (if f.tr then w.nExt else w.kExt) || decide (64 < t.e1) || flatBad t ||
          (t.mx && t.axis != 0) || (w.mx && w.axis != 1) || decide (64 * rateOf eff < w.kExt) ||
          (w.fmt == Fmt.int16 && pass / 2 != w.part) ||
          (isComplex eff pass && f.tr && decide (64 < w.kExt))),
        shapeIf ((mmHandles f eff w).any fun h => match k.old.bind? p h with
          | some b => decide (b.tag ≠ .unset) && decide (b.tag ≠ mmClass t w)
          | none => false)]

/-- The handles of an MM in a platen. -/
def mmAll (k : Lc) (f : PlF) (w : WRec) (p : Nat) : List Nat :=
  mmHandles f ((pairFmt (tdOf (k.ta f p)).fmt w.fmt).getD 0) w

def chkMm (k : Lc) (f : PlF) : Chk :=
  if f.plat = 0 then { pre := plHead f false }
  else match k.old.wrec with
    | none => { pre := firstOf [plHead f false, shapeIf true] }
    | some w =>
      let hs := mmAll k f w
      { pre := firstOf [plHead f false, (platensOf f.plat).findSome? (mmPass k f w),
          (platensOf f.plat).findSome? (mmOne k f w),
          if f.acc then boundChk k.old f.plat hs else overflowChk k.old f.plat hs] }
def doMm (k : Lc) (s : State) (f : PlF) : State :=
  let w := (k.old.wrec).getD {}
  let hs := mmAll k f w
  s.modPc k.n fun c =>
    let b := if f.acc then c else c.bindAll f.plat hs
    (b.setTags f.plat hs (fun p => mmClass (tdOf (k.ta f p)) w) false).queuePl { k.plOp f .mm hs c b with wrec := w }

/-! ### DRAIN, TZERO, TFREE, TLOAD (R103, R107 to R110) -/

def drainOne (k : Lc) (f : PlF) (p : Nat) : Option (Status × W64) :=
  let t := tdOf (k.ta f p)
  firstOf [plDesc t (platenResult t),
    shapeIf (decide (64 < t.e0) || decide (64 < t.e1) || flatBad t || (t.mx && t.axis != 0))]
def chkDrain (k : Lc) (f : PlF) : Chk :=
  { pre := firstOf [plHead f false, (platensOf f.plat).findSome? (drainOne k f),
      boundChk k.old f.plat (oneHandle f)] }
def doDrain (k : Lc) (s : State) (f : PlF) : State :=
  s.modPc k.n fun c =>
    let q := c.queuePl (k.plOp f .drain (oneHandle f) c c)
    if f.rel then q.release f.plat f.tile.toNat else q

def chkTzero (k : Lc) (f : PlF) : Chk :=
  { pre := firstOf [plHead f false, overflowChk k.old f.plat (oneHandle f)] }
def doTzero (k : Lc) (s : State) (f : PlF) : State :=
  s.modPc k.n fun c =>
    let b := c.bindAll f.plat (oneHandle f)
    b.queuePl (k.plOp f .tzero (oneHandle f) c b)

def chkTfree (f : PlF) : Chk := { pre := plHead f false }
def doTfree (k : Lc) (s : State) (f : PlF) : State :=
  s.modPc k.n fun c => (c.queuePl (k.plOp f .tfree (oneHandle f) c c)).release f.plat f.tile.toNat

/-- The tag that a TLOAD of a source sets (R107). -/
def tloadTag (t : TD) : TileTag := if isInt t.fmt && !t.mx then .int32 else .fp32
/-- Sources of TLOAD (R108). -/
def tloadOk (t : TD) : Bool :=
  t.fmtOk false && (t.mx || (if isInt t.fmt then t.fmt == Fmt.int32 || widens t.fmt Fmt.int32 else widens t.fmt Fmt.fp32))
def tloadOne (k : Lc) (f : PlF) (p : Nat) : Option (Status × W64) :=
  let t := tdOf (k.ta f p)
  firstOf [plDesc t (tloadOk t), shapeIf (decide (64 < t.e0) || decide (64 < t.e1) || flatBad t)]
def chkTload (k : Lc) (f : PlF) : Chk :=
  { pre := firstOf [plHead f false, (platensOf f.plat).findSome? (tloadOne k f),
      overflowChk k.old f.plat (oneHandle f)] }
def doTload (k : Lc) (s : State) (f : PlF) : State :=
  s.modPc k.n fun c =>
    let b := c.bindAll f.plat (oneHandle f)
    (b.setTags f.plat (oneHandle f) (fun p => tloadTag (tdOf (k.ta f p))) true).queuePl (k.plOp f .tload (oneHandle f) c b)

end Sys2Proof.Machine
end

