-- ==== Sys2Proof/Machine/PlatenRun.lean ====
section
/-! DEFINITION. What the platen engine does with an operation (R86, R100 to R118, R125 to R127): when it starts, its
effect on sorts, tympans and case, and the proofing sums. -/

namespace Sys2Proof.Machine

/-! ### Tympan entries -/

/-- Address of entry (row `m`, column `j`) of a tile of platen `p`. -/
def tileAddr (n p tile m j : Nat) : Nat := tympBase n p + 16384 * tile + 4 * (64 * m + j)
/-- The 32-bit word of an entry. -/
def State.tileWord (s : State) (n p tile m j : Nat) : Nat := ofBytes (cells s.mem (tileAddr n p tile m j) 4)
/-- Entries written: row, column and word. -/
def State.setTile (s : State) (n p tile : Nat) (l : List (Nat × Nat × Nat)) : State :=
  { s with mem := l.foldl (fun m e => putCells m (tileAddr n p tile e.1 e.2.1) (toBytes 4 e.2.2)) s.mem }
/-- Every row and column number of a tile. -/
def span64 : List Nat := List.range 64

/-- The value of an entry under a tag: an unset tile reads as zeros (R107). -/
def entryNum (tag : TileTag) (w : Nat) : Num :=
  match tag with
  | .unset => .fin false 0 0
  | .fp32 => decodeFloat Fmt.fp32 w
  | .int32 => ofInt (sext 32 w)

/-! ### Factors (R53, R66, R115 to R117) -/

/-- The parts of the FP32 split (R116). -/
def splitHi (v : Num) : Num :=
  match v with
  | .fin _ _ _ => decodeFloat Fmt.bf16 (toFloat Fmt.bf16 4 0 v).1
  | w => w
def splitLo (v : Num) : Num :=
  match v with
  | .fin _ _ _ => splitHi ((v.sub (splitHi v)).1)
  | _ => .fin false 0 0

/-- A byte of an INT16 value with the shift of R117: the high one as INT8 and shifted by 8, the low one as UINT8. -/
def byteOf (high : Bool) (raw : Nat) : Num :=
  if high then
    let i := sext 8 (raw >>> 8)
    .fin (decide (i < 0)) i.natAbs 8
  else ofInt ((raw % 256 : Nat) : Int)

/-- A factor: its value, and whether it is a low part of R116. -/
structure Factor where
  v   : Num
  low : Bool
  deriving DecidableEq, Repr

/-- The value of an element before any split. -/
def rawNum (fmt : Nat) (mx : Bool) (code raw : Nat) : Num :=
  if mx then scaled fmt code (decodeNum fmt raw) else decodeNum fmt raw

/-- The operand factor of an MM in a pass. -/
def operandFactor (eff pass fmt : Nat) (mx : Bool) (code raw : Nat) : Factor :=
  if eff = Fmt.fp32 then
    if pass = 2 then ⟨splitLo (rawNum fmt mx code raw), true⟩ else ⟨splitHi (rawNum fmt mx code raw), false⟩
  else if fmt = Fmt.int16 then ⟨byteOf (pass % 2 == 0) raw, false⟩
  else ⟨rawNum fmt mx code raw, false⟩

/-- The weight factor that the record's part selects (R115). -/
def weightFactor (w : WRec) (code raw : Nat) : Factor :=
  if w.fmt = Fmt.fp32 then
    if w.part = 1 then ⟨splitLo (decodeNum w.fmt raw), true⟩ else ⟨splitHi (decodeNum w.fmt raw), false⟩
  else if w.fmt = Fmt.int16 then ⟨byteOf (w.part == 0) raw, false⟩
  else ⟨rawNum w.fmt w.mx code raw, false⟩

/-- Whether a value is finite. -/
def Num.finite : Num → Bool
  | .fin _ _ _ => true
  | _ => false

/-- The product of two factors, exact; a low part contributes +0 against an infinity or NaN (R66, R116). -/
def Factor.mul (a b : Factor) : Num × Flags :=
  if (a.low && !b.v.finite) || (b.low && !a.v.finite) then (.fin false 0 0, 0) else a.v.mul b.v

/-! ### Sums (R66, R71) -/

/-- The exact sum of a list, one operation: with a NaN among its operands it is no invalid operation (R64). -/
def exactSum (l : List Num) : Num × Flags :=
  if l.any Num.isNan then (.nan, 0)
  else l.foldl (fun acc v => let (t, f) := acc.1.add v; (t, acc.2 ||| f)) (.fin false 0 0, 0)

/-- A floating-point reduction by `f`: some order and grouping of its operations, each rounded to nearest in the
accumulator's format (R66, R71); a term alone is rounded as it enters the accumulator. -/
def freeFold (f : Num → Num → Num × Flags) (fmt free : Nat) : Nat → List Num → Num × Flags
  | 0, l => (l.headD (.fin false 0 0), 0)
  | fuel + 1, l =>
    match l with
    | [] => (.fin false 0 0, 0)
    | [v] => roundNear fmt v
    | _ =>
      let i := Config.pick free % l.length
      let rest := l.eraseIdx i
      let j := Config.pick (free + 1) % rest.length
      let (t, f1) := f (nth .nan l i) (nth .nan rest j)
      let (r, f2) := roundNear fmt t
      let (z, f3) := freeFold f fmt (free + 2) fuel (r :: rest.eraseIdx j)
      (z, f1 ||| f2 ||| f3)

/-- A list in groups of 32: the element products of one block pair (R66). -/
def groups32 (l : List Num) : List (List Num) :=
  (List.range (ceilDiv l.length 32)).map fun i => (l.drop (32 * i)).take 32

/-- The integer that an exact integral value is. -/
def numInt : Num → Int
  | .fin n m e => let v : Int := (m * 2 ^ e.toNat : Nat); if n then -v else v
  | _ => 0

/-- The bit pattern of an FP32 value, the canonical NaN included. -/
def fp32Bits (v : Num) : Nat := (toFloat Fmt.fp32 0 0 v).1

/-! ### WLOAD and the weights (R102) -/

/-- Weight of window row `i`, column `j`: its scale code and bit pattern. -/
def PressCtx.weight (c : PressCtx) (w : WRec) (i j : Nat) : Nat × Nat :=
  let blk := if w.axis = 0 then j / 32 + ceilDiv w.nExt 32 * i else j + w.nExt * (i / 32)
  (if w.mx then mget 0 c.wscales blk else 127, mget 0 c.weights (64 * i + j))

/-- A checksum over a list: in FP32 additions, in some order, for floating-point values, and modulo 2^32 for integers
(R125, R71). -/
def checkSum (int : Bool) (free : Nat) (l : List Num) : W32 :=
  if int then BitVec.ofInt 32 ((l.map numInt).foldl (· + ·) 0)
  else BitVec.ofNat 32 (fp32Bits (freeFold Num.add Fmt.fp32 free (l.length + 1) l).1)

/-- Free values that one checksum, and all the entries of a tile, may use. -/
def sumRoom : Nat := 2048
def entryRoom : Nat := 1024 * 4096

/-- The checksum sorts of a WLOAD: Σ_j W[i][j] and Σ_j |W[i][j]| of each weight row, as the sorts hold it (R125). -/
def State.weightSums (s : State) (n : Nat) (r : WRec) : State :=
  let c := s.pc n
  let int := isInt r.fmt && !r.mx
  let row (i : Nat) : List Num := (List.range r.nExt).map fun j =>
    let g := c.weight r i j
    (weightFactor r g.1 g.2).v
  let sums (abs : Bool) (at0 : Nat) : Map W32 := (List.range r.kExt).foldl (fun m i =>
    mset 0 m i (checkSum int (at0 + sumRoom * i) ((row i).map fun v => if abs then v.abs else v))) []
  { s.modPc n (fun c => { c with wSum := sums false s.free, wAbs := sums true (s.free + sumRoom * 256) }) with
    free := s.free + sumRoom * 512 }

/-- The effect of a WLOAD: the window read once from the case (R102), with NAN_SEEN for a NaN weight among the parts
that the sorts take (log 78). -/
def State.runWload (s : State) (n : Nat) (op : PlOp) : State × Flags :=
  let t := tdOf op.tw
  let e : Env := { press := n, ctx := s.runCtx n }
  let els := (List.range t.e1).foldl (fun (m : Map Nat) i => (List.range t.e0).foldl (fun m j =>
    mset 0 m (64 * i + j) (s.elemBits e t [] ⟨j, i, 0, 0⟩)) m) []
  let scs := if !t.mx then [] else (List.range t.blocks).foldl (fun (m : Map Nat) b =>
    mset 0 m b (s.spaceByte e t.space (t.scale + wn b)).toNat) []
  let s := (s.modPc n fun c => { c with wNow := some op.wrec, weights := els, wscales := scs }).weightSums n op.wrec
  let nan := (List.range t.e1).any fun i => (List.range t.e0).any fun j =>
    let g := (s.pc n).weight op.wrec i j
    (weightFactor op.wrec g.1 g.2).v.isNan
  (s, flagIf nan Fl.nanSeen)

/-! ### Proofing sums (R125, log 23) -/

/-- A carried sum as a value. -/
def carried (int : Bool) (w : W32) : Num := if int then ofInt w.toInt else decodeFloat Fmt.fp32 w.toNat

/-- The sums of a tile computed from its entries, as TZERO and TLOAD set them. -/
def State.sumsOf (s : State) (n p tile : Nat) (tag : TileTag) : TileSum :=
  let int := decide (tag = .int32)
  let ent (m j : Nat) : Num := entryNum tag (s.tileWord n p tile m j)
  let row (abs : Bool) (at0 : Nat) : Map W32 := span64.foldl (fun mm m =>
    mset 0 mm m (checkSum int (at0 + sumRoom * m) (span64.map fun j => if abs then (ent m j).abs else ent m j))) []
  let col (abs : Bool) (at0 : Nat) : Map W32 := span64.foldl (fun mm j =>
    mset 0 mm j (checkSum int (at0 + sumRoom * j) (span64.map fun m => if abs then (ent m j).abs else ent m j))) []
  let f := s.free
  { chkOk := true, rowSum := row false f, rowBnd := row true (f + 64 * sumRoom)
    colSum := col false (f + 128 * sumRoom), colBnd := col true (f + 192 * sumRoom) }

def PressCtx.tsum (c : PressCtx) (p tile : Nat) : TileSum := mget {} c.tsums (16 * p + tile)
def PressCtx.setTsum (c : PressCtx) (p tile : Nat) (t : TileSum) : PressCtx :=
  { c with tsums := mset {} c.tsums (16 * p + tile) t }

/-! ### MM (R104 to R107, R114 to R118, R125) -/

/-- What an MM adds into one tile of one platen: its rows and columns, the operand of a row and the weight of a column at
each of the `red` steps of the shared dimension, the sums of the checksum sorts at each step, the sign, or nothing added
where a complex pass leaves the tile unchanged. -/
structure TileAdd where
  tile  : Nat
  rows  : List Nat
  cols  : List Nat
  sign  : Option Bool
  red   : Nat
  x     : Nat → Nat → Factor
  w     : Nat → Nat → Factor
  wSum  : Nat → Num
  wAbs  : Nat → Num
  blocks : Bool

/-- The products of an entry, with their conditions. -/
def TileAdd.prods (a : TileAdd) (m j : Nat) : List (Num × Flags) := (List.range a.red).map fun i =>
  let u := a.x m i
  let v := a.w j i
  let (p, f) := u.mul v
  (p, f ||| sawNan [u.v, v.v])

/-- The new word of an entry, with its conditions; an entry that holds a NaN is a NaN operand of the addition. -/
def newEntry (op : PlOp) (int : Bool) (prev : Nat) (a : TileAdd) (m j free : Nat) : Nat × Flags :=
  let ps := a.prods m j
  let pf := ps.foldl (fun f p => f ||| p.2) (0 : Flags)
  match a.sign with
  | none => (if op.acc then prev else 0, 0)
  | some neg =>
    if int then
      let t := numInt (exactSum (ps.map (·.1))).1
      let start := if op.acc then sext 32 prev else 0
      let (b, f) := fitInt Fmt.int32 (intSat op.nc) (if neg then start - t else start + t)
      (b, f)
    else if op.acc && ps.isEmpty then (prev, 0)
    else
      let (gs, gf) := if a.blocks then
          let l := (groups32 (ps.map (·.1))).map exactSum
          (l.map (·.1), l.foldl (fun f p => f ||| p.2) (0 : Flags))
        else (ps.map (·.1), 0)
      let items := (Num.fin false 0 0 :: gs).map fun v => if neg then v.neg else v
      let start := if op.acc then decodeFloat Fmt.fp32 prev else Num.fin false 0 0
      let (v, f) := freeFold Num.add Fmt.fp32 free (items.length + 1) (start :: items)
      (fp32Bits v, pf ||| gf ||| f ||| sawNan [start])

/-- The carried sums of a tile after an MM with CHK = 1: what stood there, or with ACC = 0 the entries that the MM does
not write, plus what it adds. A row's sum adds the row's operands times the sums of the checksum sorts, a column's the
column's weights times the two checksum rows, Σ_m X[m][i] and Σ_m |X[m][i]|, in the arithmetic of R125 and with the sign
that the pass form applies to the tile. -/
def State.addSums (s : State) (n p : Nat) (op : PlOp) (int : Bool) (a : TileAdd) : TileSum :=
  let old := (s.pc n).tsum p a.tile
  let tag := if int then TileTag.int32 else .fp32
  let ent (m j : Nat) : Num := entryNum tag (s.tileWord n p a.tile m j)
  let f := s.free + entryRoom
  let steps := List.range a.red
  let fed (abs : Bool) (i : Nat) : Num :=
    let l := a.rows.map fun m => if abs then (a.x m i).v.abs else (a.x m i).v
    carried int (checkSum int (f + sumRoom * (i + (if abs then 256 else 0))) l)
  let feds := steps.map fun i => (fed false i, fed true i)
  let signed (l : List Num) : List Num := match a.sign with
    | none => []
    | some neg => if neg then l.map Num.neg else l
  let plus (l : List Num) : List Num := if a.sign.isNone then [] else l
  let rowAdd (abs : Bool) (m : Nat) : List Num :=
    if abs then plus (steps.map fun i => ((a.x m i).v.abs.mul (a.wAbs i)).1)
    else signed (steps.map fun i => ((a.x m i).v.mul (a.wSum i)).1)
  let colAdd (abs : Bool) (j : Nat) : List Num :=
    if abs then plus (steps.map fun i => ((nth (.nan, .nan) feds i).2.mul (a.w j i).v.abs).1)
    else signed (steps.map fun i => ((nth (.nan, .nan) feds i).1.mul (a.w j i).v).1)
  let rowStart (o : Map W32) (abs : Bool) (m : Nat) : List Num :=
    if op.acc then [carried int (mget 0 o m)]
    else (span64.filter fun j => !a.cols.contains j).map fun j => if abs then (ent m j).abs else ent m j
  let colStart (o : Map W32) (abs : Bool) (j : Nat) : List Num :=
    if op.acc then [carried int (mget 0 o j)]
    else (span64.filter fun m => !a.rows.contains m).map fun m => if abs then (ent m j).abs else ent m j
  let rows (o : Map W32) (abs : Bool) : Map W32 := a.rows.foldl (fun mm m =>
    mset 0 mm m (checkSum int (f + sumRoom * (512 + 2 * m + b2n abs)) (rowStart o abs m ++ rowAdd abs m))) o
  let cols (o : Map W32) (abs : Bool) : Map W32 := a.cols.foldl (fun mm j =>
    mset 0 mm j (checkSum int (f + sumRoom * (640 + 2 * j + b2n abs)) (colStart o abs j ++ colAdd abs j))) o
  { chkOk := old.chkOk && op.chk
    rowSum := rows old.rowSum false, rowBnd := rows old.rowBnd true
    colSum := cols old.colSum false, colBnd := cols old.colBnd true }

/-- One tile's part of an MM. -/
def State.addTile (s : State) (n p : Nat) (op : PlOp) (int : Bool) (a : TileAdd) : State × Flags :=
  let cells := a.rows.flatMap fun m => a.cols.map fun j => (m, j)
  let res := (List.range cells.length).map fun k =>
    let (m, j) := nth (0, 0) cells k
    let (w, f) := newEntry op int (s.tileWord n p a.tile m j) a m j (s.free + 1024 * k)
    ((m, j, w), f)
  let sums := if op.chk then s.addSums n p op int a else { (s.pc n).tsum p a.tile with chkOk := false }
  let s := { s with free := s.free + entryRoom + sumRoom * 2816 }
  let s := s.setTile n p a.tile (res.map (·.1))
  (s.modPc n fun c => c.setTsum p a.tile sums, res.foldl (fun f r => f ||| r.2) 0)

/-- Signs with which a complex pass adds into the real and the imaginary handle (R118). -/
def complexSigns (pass : Nat) : Option Bool × Option Bool :=
  match pass with
  | 1 => (some false, some true)
  | 2 => (some true, some true)
  | _ => (none, some false)

/-- An MM in one platen; every fed row is read, so a NaN among its elements sets NAN_SEEN (R105, log 78). -/
def State.mmPlaten (s : State) (n : Nat) (op : PlOp) (p : Nat) : State × Flags :=
  let t := tdOf (nth 0 op.ta p)
  let w := op.wrec
  let eff := (pairFmt t.fmt w.fmt).getD 0
  let e : Env := { press := n, ctx := s.runCtx n }
  let c := s.pc n
  let red := if op.tr then w.nExt else w.kExt
  let outs := if op.tr then w.kExt else w.nExt
  let rows := fedRows t op.pm p
  let x (m i : Nat) : Factor :=
    let k : Coord := ⟨i, m, 0, 0⟩
    operandFactor eff op.pass t.fmt t.mx (if t.mx then s.elemScale e t [] k else 127) (s.elemBits e t [] k)
  let wt (o i : Nat) : Factor :=
    let g := if op.tr then c.weight w o i else c.weight w i o
    weightFactor w g.1 g.2
  let int := decide (mmClass t w = .int32)
  let tiles := nth [] op.tiles p
  let part (h tile : Nat) (sign : Option Bool) : TileAdd :=
    let cols := span64.filter fun j => decide (64 * h + j < outs)
    let sumOver (abs : Bool) (i : Nat) : Num :=
      if !op.tr then carried int (mget 0 (if abs then c.wAbs else c.wSum) i)
      else carried int (checkSum int (s.free + entryRoom + sumRoom * (768 + 512 * h + 2 * i + b2n abs))
        (cols.map fun j => let v := (wt (64 * h + j) i).v; if abs then v.abs else v))
    { tile, rows, sign, cols, red, x, w := fun j i => wt (64 * h + j) i, wSum := sumOver false, wAbs := sumOver true
      blocks := t.mx || w.mx }
  let adds :=
    if isComplex eff op.pass then
      let (re, im) := complexSigns op.pass
      [part 0 (nth 0 tiles 0) re, part 0 (nth 0 tiles 1) im]
    else (List.range tiles.length).map fun h => part h (nth 0 tiles h) (some false)
  adds.foldl (fun (acc : State × Flags) a =>
    let (s', f) := acc.1.addTile n p op int a
    (s', acc.2 ||| f)) (s, sawNan (rows.flatMap fun m => (List.range red).map fun i => (x m i).v))

/-- The effect of an MM. -/
def State.runMm (s : State) (n : Nat) (op : PlOp) : State × Flags :=
  (platensOf op.plat).foldl (fun (acc : State × Flags) p =>
    let (s', f) := acc.1.mmPlaten n op p
    (s', acc.2 ||| f)) (s, 0)

/-! ### TZERO and TLOAD (R108) -/

/-- The tag that a bound tile holds as the engine sees it: of the operation, by platen and handle step. -/
def PlOp.tag (op : PlOp) (p h : Nat) : TileTag := nth .unset (nth [] op.tags p) h
def PlOp.tileOf (op : PlOp) (p h : Nat) : Nat := nth 0 (nth [] op.tiles p) h

/-- The rows that a mask names in a platen, whatever the extent. -/
def maskRows (pm : Pred) (p : Nat) : List Nat := span64.filter fun m => rowBit pm p m

/-- A tile's sums set anew from its entries. -/
def State.resum (s : State) (n p tile : Nat) (tag : TileTag) : State :=
  { s.modPc n (fun c => c.setTsum p tile (s.sumsOf n p tile tag)) with free := s.free + 256 * sumRoom }

def State.runTzero (s : State) (n : Nat) (op : PlOp) : State :=
  (platensOf op.plat).foldl (fun s p =>
    let tile := op.tileOf p 0
    let s := s.setTile n p tile ((maskRows op.pm p).flatMap fun m => span64.map fun j => (m, j, 0))
    s.resum n p tile (op.tag p 0)) s

/-- A TLOAD in one platen: the window is read whole, so a NaN anywhere in it sets NAN_SEEN (log 78). -/
def State.tloadPlaten (s : State) (n : Nat) (op : PlOp) (p : Nat) : State × Flags :=
  let t := tdOf (nth 0 op.ta p)
  let tile := op.tileOf p 0
  let tag := tloadTag t
  let e : Env := { press := n, ctx := s.runCtx n }
  let rows := maskRows op.pm p
  let val (m j : Nat) : Nat × Flags :=
    let r := if t.e1 = 1 then 0 else m
    if t.e0 ≤ j || t.e1 ≤ r then (0, 0)
    else
      let v := s.elemNum e t [] ⟨j, r, 0, 0⟩
      if tag = .int32 then ((numInt v % 2 ^ 32).toNat, 0)
      else
        toFloat Fmt.fp32 0 0 v
  let vals := rows.flatMap fun m => span64.map fun j => ((m, j), val m j)
  let clear := if op.tag p 0 ≠ .unset && op.tag p 0 ≠ tag then
      (span64.filter fun m => !rows.contains m).flatMap fun m => span64.map fun j => (m, j, 0)
    else []
  let nan := sawNan (t.coords.map fun k => s.elemNum e t [] k)
  let s := s.setTile n p tile (clear ++ vals.map fun v => (v.1.1, v.1.2, v.2.1))
  (s.resum n p tile tag, vals.foldl (fun f v => f ||| v.2.2) nan)

def State.runTload (s : State) (n : Nat) (op : PlOp) : State × Flags :=
  (platensOf op.plat).foldl (fun (acc : State × Flags) p =>
    let (s', f) := acc.1.tloadPlaten n op p
    (s', acc.2 ||| f)) (s, 0)

/-! ### DRAIN (R108, R126, R127) -/

/-- Whether a sum and the carried sum mismatch (R126). -/
def mismatch (int : Bool) (es : List Num) (sum bnd : W32) : Bool :=
  if int then checkSum true 0 es != sum
  else
    let d := (((exactSum es).1).sub (decodeFloat Fmt.fp32 sum.toNat)).1.abs
    let b := (decodeFloat Fmt.fp32 bnd.toNat).abs
    match b with
    | .fin _ m e => decide (d.cmp (.fin false m (e - 12)) = some .gt)
    | _ => false

/-- The first failing row and column of a checked drain in a platen, 127 for none; none where nothing fails. -/
def State.proofFail (s : State) (n : Nat) (op : PlOp) (p : Nat) : Option (Nat × Nat) :=
  let t := tdOf (nth 0 op.ta p)
  let tile := op.tileOf p 0
  let tag := op.tag p 0
  let sums := (s.pc n).tsum p tile
  let int := decide (tag = .int32)
  let ent (m j : Nat) : Num := entryNum tag (s.tileWord n p tile m j)
  if !op.chk || !sums.chkOk then none
  else
    let row := (fedRows t op.pm p).find? fun m =>
      mismatch int (span64.map fun j => ent m j) (mget 0 sums.rowSum m) (mget 0 sums.rowBnd m)
    let col := (List.range (min 64 t.e0)).find? fun j =>
      mismatch int (span64.map fun m => ent m j) (mget 0 sums.colSum j) (mget 0 sums.colBnd j)
    match row, col with
    | none, none => none
    | r, c => some (r.getD 127, c.getD 127)

/-- A proofing report (R127, R445, R449): the press's registers, the context's event, the error record, and the SUSPECT
bit at the limit of reports within an hour. -/
def State.reportProof (s : State) (n p handle row col : Nat) : State :=
  let loc := wn (p + (handle <<< 2) + (row <<< 8) + (col <<< 16) + (1 <<< 23))
  let s := (s.modPc n fun c => { c with
    proofLoc := if c.proofMis then c.proofLoc else loc
    proofMis := true, proofCnt := c.proofCnt + 1 }).tally 1
  let c := s.runCtx n
  let (d, s) := s.freshWord
  let s := s.ctxEvent c St.proofCheck d (s.pc n).proofCnt
  let s := s.rasError 2 St.proofCheck { cause := 0x08, ctx := some c, locKind := 1, loc := n }
  let (k, s) := s.choose (mget 0 s.proofHr n + 1)
  let s := { s with proofHr := mset 0 s.proofHr n (k + 1) }
  if k + 1 = s.regFld .ras 0 0x40 0 8 then
    let s := { s with ledger := { s.ledger with suspect := s.ledger.suspect ||| (1#128 <<< n) } }
    s.rasError 2 St.proofCheck { cause := 0x08, locKind := 1, loc := n }
  else s

/-- Entries that a DRAIN writes from one platen that draw (R495). -/
def PlOp.drains (op : PlOp) (p : Nat) : Nat :=
  let t := tdOf (nth 0 op.ta p)
  if drawsFor t.fmt op.nc then (fedRows t op.pm p).length * t.e0 else 0

def State.drainPlaten (s : State) (n : Nat) (op : PlOp) (p : Nat) (rs : List Nat) : State × Flags :=
  let t := tdOf (nth 0 op.ta p)
  let tile := op.tileOf p 0
  let tag := op.tag p 0
  let rows := fedRows t op.pm p
  let one (acc : State × Flags × List Nat) (m : Nat) : State × Flags × List Nat :=
    let (s, f, rs) := acc
    let vs := (List.range t.e0).map fun j => entryNum tag (s.tileWord n p tile m j)
    let r : TD := { t with e1 := 1, e2 := 1, e3 := 1 }
    let (els, scs, fl) := convertAll r op.nc vs (rs.take t.e0)
    let pad := els ++ List.replicate (t.pext 0 - els.length) 0
    let s := if vs.isEmpty then s else s.putCase n (t.rowAddr [] ⟨0, m, 0, 0⟩) (packRow t.fmt pad)
    let s := scs.foldl (fun s b => s.putCase n (t.scalePlace [] ⟨b.1.i0, m, 0, 0⟩) [BitVec.ofNat 8 b.2]) s
    (s, f ||| fl ||| sawNan vs, rs.drop t.e0)
  let r := rows.foldl one (s, 0, rs)
  (r.1, r.2.1)

/-- DRAIN (R108): all its draws are taken together, since which goes to which element is free (R495). -/
def State.runDrain (s : State) (n : Nat) (op : PlOp) : State × Flags :=
  let fail := (platensOf op.plat).findSome? fun p => (s.proofFail n op p).map fun rc => (p, rc)
  let (rs, s) := s.srFor n (sumL ((platensOf op.plat).map op.drains))
  let r := (platensOf op.plat).foldl (fun (acc : State × Flags × List Nat) p =>
    let (s, f, rs) := acc
    let (s', g) := s.drainPlaten n op p rs
    (s', f ||| g, rs.drop (op.drains p))) (s, 0, rs)
  match fail with
  | some (p, row, c) => (r.1.reportProof n p op.tile row c, r.2.1)
  | none => (r.1, r.2.1)

/-! ### Start (R86, R111, R113) -/

/-- Whether two operations touch a tile in common, by platen and tile number. -/
def PlOp.shares (a b : PlOp) : Bool :=
  (List.range 4).any fun p => a.plat.getLsbD p && b.plat.getLsbD p &&
    (nth [] a.tiles p).any fun t => (nth [] b.tiles p).contains t

def PlOp.isMM (a : PlOp) : Bool := decide (a.kind = .mm)
def PlOp.isWload (a : PlOp) : Bool := decide (a.kind = .wload)

/-- Whether the engine may start an operation beside those that run (R113). -/
def PlOp.mayStart (op : PlOp) (run : List PlOp) : Bool :=
  match op.kind with
  | .wload => !run.any fun r => r.isWload || r.isMM
  | .mm => !run.any fun r => r.isWload || r.shares op
  | _ => !run.any fun r => r.shares op || !(r.isWload || r.isMM)

/-- The tiles that an operation has bound set to zero, their sums valid (R107). -/
def State.zeroFresh (s : State) (n : Nat) (op : PlOp) : State :=
  (platensOf op.plat).foldl (fun s p => (List.range (nth [] op.tiles p).length).foldl (fun s h =>
    if nth false (nth [] op.fresh p) h then
      let t := op.tileOf p h
      let s := { s with mem := wipe s.mem (tileAddr n p t 0 0) 16384 }
      s.modPc n fun c => c.setTsum p t {}
    else s) s) s

/-- The effect of a platen operation on sorts, tympans and case, with its conditions. -/
def State.platenEffect (s : State) (n : Nat) (op : PlOp) : State × Flags :=
  let s := s.zeroFresh n op
  match op.kind with
  | .wload => s.runWload n op
  | .mm => s.runMm n op
  | .drain => s.runDrain n op
  | .tzero => (s.runTzero n op, 0)
  | .tload => s.runTload n op
  | .tfree => (s, 0)
  | .nop => (s, 0)

/-- Words that a hardware error leaves in entries of the operation's first tile. -/
def State.corruptTile (s : State) (n : Nat) (op : PlOp) (l : List (Nat × Nat × Nat × W32)) : State :=
  l.foldl (fun s e => s.setTile n e.1 (op.tileOf e.1 0) [(e.2.1, e.2.2.1, e.2.2.2.toNat)]) s

/-- PLATEN_START: the oldest entry leaves the queue once R113 allows, and its effect follows those of every earlier
operation (R86). An operation without platens signals at the head of the queue (R111). -/
def State.platenStart (s : State) (n : Nat) (corrupt : List (Nat × Nat × Nat × W32)) : State :=
  let c := s.pc n
  match c.plq with
  | [] => s
  | op :: rest =>
    if op.plat = 0 && op.kind ≠ .wload then s.setPc n ({ c with plq := rest }.signal op.mark)
    else if !op.mayStart c.plRun then s
    else
      let busy := s.busySpans n (s.runCtx n)
      let s := s.setPc n { c with plq := rest, plRun := c.plRun ++ [op] }
      let (t, fl) := s.platenEffect n op
      let t := t.contend s none (s.drainSpans n op) busy
      (t.corruptTile n op corrupt).record n op.line fl

end Sys2Proof.Machine
end

