-- ==== Sys2Proof/Machine/Roller.lean ====
section
/-! DEFINITION. The roller: its slot at issue (R141 to R158) and what the engine does with an operation. -/

namespace Sys2Proof.Machine

/-! ### Functions by class (R146 to R158) -/

/-- Element-wise functions by code, and which of them are unary or bitwise (R146). -/
def ewUnary (code : Nat) : Bool := code == 8 || code == 9 || code == 10
def ewBitwise (code : Nat) : Bool := decide (0x0B ≤ code) && decide (code ≤ 0x0F)
def ewMac : Nat := 7
def ewSelect : Nat := 0x10

/-- The element-wise code of a function field, and its scalar bit. -/
def ewCode (fn : Nat) : Nat := fn % 32
def fnScalar (fn : Nat) : Bool := decide (32 ≤ fn)

/-- Whether a function is listed for a class, with BC (R146 to R158). -/
def fnListed (cls fn : Nat) (bc : Bool) : Bool :=
  let bcOk := !bc || ((cls == 1 || cls == 4) && !fnScalar fn)
  bcOk && match cls with
    | 1 => decide (ewCode fn ≤ 0x10) && !(ewUnary (ewCode fn) && fnScalar fn)
    | 2 => decide (fn ≤ 0x0C)
    | 3 => decide (fn ≤ 1)
    | 4 => decide (fn % 32 ≤ 5)
    | 5 => decide (fn ≤ 8)
    | 6 => decide (fn < 32) && decide (fn % 8 ≤ 6)
    | 7 => decide (fn < 32) && decide (fn % 8 ≤ 6)
    | 8 => fn == 0
    | _ => false

/-- Whether a function takes the scalar of R145. -/
def takesScalar (cls fn : Nat) : Bool :=
  match cls with
  | 1 => fnScalar fn
  | 4 => fnScalar fn
  | 5 => true
  | 6 => fn / 16 == 1
  | 7 => fn / 16 == 1
  | _ => false

/-- Whether a reduction writes an index as well (R155). -/
def isArg (cls fn : Nat) : Bool := cls == 5 && (fn == 7 || fn == 8)

/-- The descriptors that an operation reads. -/
def RlOp.sources (o : RlOp) : List TD :=
  let ta := tdOf o.ta
  let tb := tdOf o.tb
  match o.cls with
  | 1 => [ta] ++ (if ewUnary (ewCode o.fn) || fnScalar o.fn then [] else [tb]) ++
      (if ewCode o.fn = ewMac then [tdOf o.td] else [])
  | 4 => [ta] ++ (if fnScalar o.fn then [] else [tb])
  | 8 => [ta, tb]
  | _ => [ta]

/-- The descriptors that an operation writes. -/
def RlOp.dests (o : RlOp) : List TD :=
  if o.cls = 4 then []
  else if isArg o.cls o.fn then [tdOf o.td, tdOf o.tb]
  else [tdOf o.td]

/-- Whether an operation reads or writes p[PD]: comparisons, SELECT and segmented scans (R146, R149, R157). -/
def namesPd (cls fn : Nat) : Bool := cls == 4 || cls == 7 || (cls == 1 && ewCode fn == ewSelect)

/-- The descriptor registers that a slot names (R75). -/
def rlRegs (cls : Nat) (f : RlF) : List Nat :=
  let fn := f.fn.toNat
  let two := (cls == 1 && !(ewUnary (ewCode fn) || fnScalar fn)) || (cls == 4 && !fnScalar fn) || cls == 8 || isArg cls fn
  f.ta.toNat :: (if cls = 4 then [] else [f.td.toNat]) ++ (if two then [f.tb.toNat] else [])

/-- Groups of a reduction (R152). -/
def groupsOf (n l : Nat) : Nat := if l = 0 || n ≤ l then 1 else ceilDiv n l
/-- Length of a group. -/
def groupLen (n l : Nat) : Nat := if l = 0 || n ≤ l then n else l

/-- The scalar as an unsigned integer (R152). -/
def RlOp.len (o : RlOp) : Nat := o.scalar.toNat % 2 ^ o.swidth

/-- Whether a source counts as floating point in the choice of the compute format (R144). -/
def floatLike (t : TD) : Bool := isFloat t.fmt || t.mx || t.fmt == Fmt.e8m0
/-- The compute format: FP64, FP32, or integers (R144). -/
inductive Compute where
  | fp64 | fp32 | int
  deriving DecidableEq, Repr
def RlOp.compute (o : RlOp) : Compute :=
  let ss := if o.cls = 8 then [] else o.sources
  if ss.any fun t => t.fmt == Fmt.fp64 then .fp64 else if ss.any floatLike then .fp32 else .int
def Compute.fmt : Compute → Nat
  | .fp64 => Fmt.fp64
  | _ => Fmt.fp32

/-! ### Checks at issue -/

/-- Functions on integers only (R146, R152, R156). -/
def intOnly (cls fn : Nat) : Bool :=
  match cls with
  | 1 => ewBitwise (ewCode fn)
  | 5 => decide (4 ≤ fn) && decide (fn ≤ 6)
  | 6 => decide (4 ≤ fn % 8)
  | 7 => decide (4 ≤ fn % 8)
  | _ => false

/-- One descriptor of a roller operation (R77, R141). -/
def rlDesc (t : TD) : Option (Status × W64) :=
  failIf (t.space != 1 || t.plist) St.descInvalid 0 (t.bad [] false true)

/-- The formats of an operation (R52, R144, R146 to R158). -/
def rlFormats (o : RlOp) : Bool :=
  let ta := tdOf o.ta
  let tb := tdOf o.tb
  let td := tdOf o.td
  let cvt := o.cls == 3 && o.fn == 0
  let plain (t : TD) : Bool := t.fmt != Fmt.e8m0 || cvt
  o.sources.all plain && o.dests.all plain &&
  (o.cls ≤ 5 || o.sources.all fun t => !t.mx) &&
  (o.cls == 3 || o.dests.all fun t => !t.mx) &&
  (!intOnly o.cls o.fn || o.sources.all fun t => isInt t.fmt && !t.mx) &&
  (o.cls != 2 || floatLike ta) &&
  (!(o.cls == 3 && o.fn == 1) || (td.fmt == ta.fmt && td.mx == ta.mx)) &&
  (!isArg o.cls o.fn || (tb.fmt == Fmt.int32 && !tb.mx)) &&
  (o.cls != 8 || ((tb.fmt == Fmt.int32 || tb.fmt == Fmt.int16) && td.fmt == ta.fmt))

/-- Element counts and the shapes of broadcasts and block writes (R142, R147, R150, R152, R155). -/
def rlShapes (o : RlOp) (pm : Nat) (pmn : Bool) : Option (Status × W64) :=
  let ta := tdOf o.ta
  let tb := tdOf o.tb
  let td := tdOf o.td
  let g := groupsOf o.n o.len
  let tbSource := (o.cls == 1 && !(ewUnary (ewCode o.fn) || fnScalar o.fn)) || (o.cls == 4 && !fnScalar o.fn)
  firstOf [
    failIf (o.bc && (ta.e2 != 1 || ta.e3 != 1 || (tbSource && tb.count != (if o.bcax then ta.e1 else ta.e0))))
      St.bcastShape 0 none,
    failIf (ta.count < o.n) St.shapeMismatch 0 none,
    failIf (((tbSource && !o.bc) || o.cls == 8) && decide (tb.count < o.n)) St.shapeMismatch 0 none,
    failIf ([1, 2, 3, 6, 7, 8].contains o.cls && decide (td.count < o.n)) St.shapeMismatch 0 none,
    failIf (o.cls == 5 && decide (td.count < g)) St.shapeMismatch 0 none,
    failIf (isArg o.cls o.fn && decide (tb.count < g)) St.shapeMismatch 0 none,
    failIf (o.cls == 3 && td.mx && (td.axis != 0 || pm != 0 || pmn)) St.shapeMismatch 0 none]

/-- A roller operation as captured at issue (R76, R142, R143, R145). -/
def Lc.rlOp (k : Lc) (cls : Nat) (f : RlF) : RlOp :=
  let part := f.xs.toNat % 4
  let m := k.old.getP f.pm.toNat
  { cls := cls, fn := f.fn.toNat, td := k.t f.td.toNat, ta := k.t f.ta.toNat, tb := k.t f.tb.toNat
    scalar := if f.xsImm then wn (immPart k.l part) else k.x f.xs
    swidth := if f.xsImm then immWidth k.l.split else 64
    mask := if f.pmn then ~~~m else m
    pd := f.pd.toNat, pdVal := k.old.getP f.pd.toNat
    n := (k.x f.xn).toNat, nc := f.nc, bc := f.bc, bcax := f.bcax
    mark := markOf f.markEn f.mark, pc := k.old.pc, line := k.old.retired.toNat }

/-- The checks of a roller slot. -/
def chkRoller (k : Lc) (cls : Nat) (f : RlF) : Chk :=
  let o := k.rlOp cls f
  { pre := firstOf [
      failIf (f.rsv != 0) St.rsvNonzero 0 none,
      illegalIf (!fnListed cls o.fn f.bc) none,
      ncChk f.nc none,
      failIf (takesScalar cls o.fn && f.xsImm && decide (immParts k.l.split ≤ f.xs.toNat % 4)) St.immSplitInvalid 0 none,
      failIf (decide (16384 < o.n)) St.countRange 0 none,
      (o.sources ++ o.dests).findSome? rlDesc,
      failIf (!rlFormats o) St.formatUnsupported 0 none,
      rlShapes o f.pm.toNat f.pmn] }

/-- The operation placed in the roller queue, its mark taken. -/
def doRoller (k : Lc) (s : State) (cls : Nat) (f : RlF) : State :=
  let o := k.rlOp cls f
  s.modPc k.n fun c => { c.take o.mark with rlq := c.rlq ++ [o] }

/-! ### Values in the compute format (R144, R145) -/

/-- A value widened into a compute format. -/
def Compute.widen (k : Compute) (v : Num) : Num × Flags :=
  match k with
  | .int => (v, 0)
  | k => roundNear k.fmt v

/-- Element `i` of a vector, in the compute format (R62, R141, R144). Reading an operand sets no condition but NAN_SEEN:
the other bits of NUM_STATUS speak of results (R68, log 78). -/
def State.rlElem (s : State) (e : Env) (k : Compute) (t : TD) (i : Nat) : Num × Flags :=
  let v := s.elemNum e t [] (t.coord i)
  ((k.widen v).1, sawNan [v])

/-- The scalar in the compute format (R145). -/
def RlOp.scalarNum (o : RlOp) (k : Compute) : Num × Flags :=
  match k with
  | .int => (ofInt (sext o.swidth o.scalar.toNat), 0)
  | k =>
    let f := if o.swidth = 64 then Fmt.fp64 else if o.swidth = 32 then Fmt.fp32 else Fmt.bf16
    let v := decodeFloat f (o.scalar.toNat % 2 ^ o.swidth)
    ((k.widen v).1, sawNan [v])

/-- Whether element `i` is active (R143). -/
def RlOp.active (o : RlOp) (i : Nat) : Bool := decide (i < o.n) && o.mask.getLsbD i

/-- An exact result rounded once in the compute format (R66); integers stay exact. -/
def Compute.round (k : Compute) (r : Num × Flags) : Num × Flags :=
  match k with
  | .int => ((match r.1 with | .fin _ _ _ => ofInt (numInt r.1) | w => w), r.2)
  | k =>
    let (w, f) := roundNear k.fmt r.1
    (w, r.2 ||| f)

/-! ### Writing elements -/

/-- One element written to the case: its neighbours in the byte or group kept, the slots that pad the row's last byte or
group zero (R47), bits 12:0 of an E8M10 container zero (R44). -/
def State.putElem (s : State) (n : Nat) (t : TD) (c : Coord) (pat : Nat) : State :=
  let w := fmtWidth t.fmt
  let per := if w = 4 then 2 else if w = 6 then 4 else 1
  let len := per * w / 8
  let g := c.i0 / per
  let bit := c.i0 % per * w
  let a := t.rowAddr [] c + wn (g * len)
  let old := ofBytes (cells s.mem (caseBase n + a.toNat) len) % 2 ^ (min per (t.pext 0 - g * per) * w)
  let lo := old % 2 ^ bit
  let hi := old / 2 ^ (bit + w)
  s.putCase n a (toBytes len (lo + ((storedPat t.fmt pat % 2 ^ w) <<< bit) + (hi <<< (bit + w))))

/-- Whether two descriptors name the same bytes in the same format and layout (R159). -/
def TD.sameAs (a b : TD) : Bool :=
  a.base == b.base && a.fmt == b.fmt && a.mx == b.mx && (!a.mx || (a.scale == b.scale && a.axis == b.axis)) &&
  a.e0 == b.e0 && a.e1 == b.e1 && a.e2 == b.e2 && a.e3 == b.e3 && a.s1 == b.s1 && a.s2 == b.s2 && a.s3 == b.s3

/-- Whether a byte range of the case meets the bytes of a tensor. -/
def TD.meets (t : TD) (a len : Nat) : Bool :=
  (t.ranges []).any fun r => decide (a < r.1.toNat + r.2) && decide (r.1.toNat < a + len)

/-- The tensors against which a destination's elements are unspecified (R159): sources of another layout, any source of
a gather, and the other destination. -/
def RlOp.clashes (o : RlOp) (d : TD) (other : List TD) : List TD :=
  (o.sources.filter fun t => o.cls == 8 || !t.sameAs d) ++ other

/-- Elements of a destination written: vector index and pattern. An element that R159 leaves unspecified takes a free
value. -/
def State.putVector (s : State) (n : Nat) (o : RlOp) (d : TD) (other : List TD) (els : List (Nat × Nat)) : State :=
  let bad := o.clashes d other
  let one (s : State) (e : Nat × Nat) : State :=
    let c := d.coord e.1
    let (a, bit) := d.place [] c
    if bad.any fun t => t.meets a.toNat (ceilDiv (bit + fmtWidth d.fmt) 8) then
      let (v, s) := s.freshWord
      s.putElem n d c v.toNat
    else s.putElem n d c e.2
  els.foldl one s

/-- Values converted for a plain destination under NC and written, with the conditions (R58 to R60, R495). -/
def State.writeVector (s : State) (n : Nat) (o : RlOp) (d : TD) (other : List TD) (vals : List (Nat × Num)) :
    State × Flags :=
  let (rs, s) := s.srFor n (if drawsFor d.fmt o.nc then vals.length else 0)
  let ps := (List.range vals.length).map fun k =>
    let (i, v) := nth (0, .nan) vals k
    let (b, f) := toFmt d.fmt o.nc (nth 0 rs k) v
    ((i, b), f)
  (s.putVector n o d other (ps.map (·.1)), ps.foldl (fun f p => f ||| p.2) 0)

/-! ### Classes 0x01 and 0x04 (R146, R147, R151) -/

/-- A bitwise function on integers. -/
def bitFn (code : Nat) (a b : Int) : Int :=
  let x := BitVec.ofInt 128 a
  let y := BitVec.ofInt 128 b
  let sh := (b % 64).toNat
  match code with
  | 0x0B => (x &&& y).toInt
  | 0x0C => (x ||| y).toInt
  | 0x0D => (x ^^^ y).toInt
  | 0x0E => a * (2 ^ sh : Nat)
  | _ => a / (2 ^ sh : Nat)

/-- An element-wise function on values of the compute format, before its one rounding (R146). -/
def ewFn (k : Compute) (code : Nat) (sel : Bool) (d a b : Num) : Num × Flags :=
  match code with
  | 0x00 => a.add b
  | 0x01 => a.sub b
  | 0x02 => b.sub a
  | 0x03 => a.mul b
  | 0x04 => match k with
    | .int => (ofInt ((numInt a).tdiv (numInt b)), 0)
    | _ => a.div b
  | 0x05 => (a.min b, 0)
  | 0x06 => (a.max b, 0)
  | 0x07 =>
    let (p, f) := a.mul b
    let (t, f') := d.add p
    (t, f ||| f')
  | 0x08 => (a.abs, 0)
  | 0x09 => (a.neg, 0)
  | 0x0A => (a, 0)
  | 0x10 => (if sel then a else b, 0)
  | c => (ofInt (bitFn c (numInt a) (numInt b)), 0)

/-- The second operand of element `i`: the scalar, the paired element, or the broadcast one (R146, R147). -/
def State.rlSecond (s : State) (e : Env) (o : RlOp) (k : Compute) (i : Nat) : Num × Flags :=
  let ta := tdOf o.ta
  let tb := tdOf o.tb
  if o.cls = 1 && ewUnary (ewCode o.fn) then (.fin false 0 0, 0)
  else if fnScalar o.fn then o.scalarNum k
  else if o.bc then s.rlElem e k tb (if o.bcax then i / ta.e0 else i % ta.e0)
  else s.rlElem e k tb i

/-- The active elements, in order. -/
def RlOp.actives (o : RlOp) : List Nat := (List.range o.n).filter o.active

/-- Element-wise arithmetic (R146, R147). An integer division by zero gives all ones and is not converted; it takes its
draw like every element written (R495). -/
def State.runElementWise (s : State) (n : Nat) (o : RlOp) : State × Flags :=
  let e : Env := { press := n, ctx := s.runCtx n }
  let k := o.compute
  let d := tdOf o.td
  let code := ewCode o.fn
  let res := o.actives.map fun i =>
    let (a, f1) := s.rlElem e k (tdOf o.ta) i
    let (b, f2) := s.rlSecond e o k i
    let c := if code = ewMac then s.elemNum e d [] (d.coord i) else Num.fin false 0 0
    let f3 := sawNan [c]
    let ones := code == 4 && decide (k = Compute.int) && b.isZero
    let (v, f4) := if ones then (Num.fin false 0 0, (0 : Flags)) else k.round (ewFn k code (o.pdVal.getLsbD i) c a b)
    (i, ones, v, f1 ||| f2 ||| f3 ||| f4)
  let (s, fl) := s.writeVector n o d [] ((res.filter fun r => !r.2.1).map fun r => (r.1, r.2.2.1))
  let ones := res.filter fun r => r.2.1
  let s := (s.spendDraws n d.fmt o.nc ones.length).putVector n o d [] (ones.map fun r => (r.1, 2 ^ fmtWidth d.fmt - 1))
  (s, res.foldl (fun f r => f ||| r.2.2.2) fl)

/-- Comparison (R151): the destination predicate, zero in every bit that is not active. -/
def State.runComparison (s : State) (n : Nat) (o : RlOp) : State × Flags :=
  let e : Env := { press := n, ctx := s.runCtx n }
  let k := o.compute
  let res := o.actives.map fun i =>
    let (a, f1) := s.rlElem e k (tdOf o.ta) i
    let (b, f2) := s.rlSecond e o k i
    (i, condNum (o.fn % 8) a b, f1 ||| f2)
  let p : Pred := res.foldl (fun p r => if r.2.1 then p ||| (1#16384 <<< r.1) else p) 0
  (s.modPc n fun c => c.setP o.pd p, res.foldl (fun f r => f ||| r.2.2) 0)

/-! ### Class 0x02 (R148) -/

/-- An argument that R148 sends to NaN under R64: below zero for the logarithms and roots. -/
def belowZero (v : Num) : Bool := v.sign && !v.isZero && !v.isNan

/-- The accuracy of a function in units in the last place of the compute format (R148). -/
def accuracy (fn : Nat) (k : Compute) : Nat :=
  match fn, decide (k = .fp64) with
  | 0x5, _ => 1
  | 0x6, _ => 1
  | 0xB, false => 3
  | 0xC, false => 4
  | 0xB, true => 2
  | 0xC, true => 2
  | _, false => 2
  | _, true => 1

/-- The exact result of a function on a finite argument in its domain (R148). -/
def realOf (fn : Nat) (a : Num) : Num :=
  match fn with
  | 0x0 => expReal a
  | 0x1 => exp2Real a
  | 0x2 => lnReal a
  | 0x3 => log2Real a
  | 0x5 => oneNum.quo a.sqrt.1
  | 0x6 => oneNum.quo a
  | 0x7 => sinReal a
  | 0x8 => cosReal a
  | 0x9 => tanhReal a
  | 0xA => sigmoidReal a
  | 0xB => siluReal a
  | _ => geluReal a

/-- The free choice that belongs to a function and an argument: the same on every run. -/
def transChoice (fn : Nat) (k : Compute) (a : Num) : Nat :=
  Config.transcendental fn (decide (k = .fp64)) (toFloat k.fmt 0 0 a).1

/-- Whether a sine or cosine has an argument above 2^16, where R148 bounds only its range. -/
def farAngle (fn : Nat) (a : Num) : Bool :=
  (fn == 7 || fn == 8) && match a with
    | .fin _ m e => above m e 1 16
    | _ => false

/-- A value of [−1, 1] by a free choice. -/
def unitValue (f choice : Nat) : Num :=
  let r := decodeFloat f (choice % 2 ^ fmtWidth f)
  match r.abs.cmp (.fin false 1 0) with
  | some .lt => r
  | some .eq => r
  | _ => .fin false 0 0

/-- Whether a result is a subnormal or a zero that differs from the exact value (R68). -/
def tinyInexact (f : Nat) (r exact : Num) : Bool :=
  match r with
  | .fin _ m e => (m == 0 || above 1 (minExp f) m e) && decide (r.cmp exact ≠ some .eq)
  | _ => false

/-- The result on a finite argument: one that the accuracy of R148 allows, by a free choice. -/
def transOpen (fn : Nat) (k : Compute) (a : Num) : Num × Flags :=
  let f := k.fmt
  let v := realOf fn a
  let far := farAngle fn a
  let r := if far then unitValue f (transChoice fn k a) else within f (accuracy fn k) (transChoice fn k a) v
  (r, flagIf (!r.finite && !r.isNan) Fl.of ||| flagIf (tinyInexact f r (if far then .nan else v)) Fl.uf)

/-- TANH, SIGMOID, SILU and GELU of an infinity: the value of their formula, which for SILU and GELU of −∞ is open: any
value, with NV where it is NaN [log 10]. -/
def transLimit (fn : Nat) (k : Compute) (a : Num) : Num × Flags :=
  let one (neg : Bool) : Num := within k.fmt (accuracy fn k) (transChoice fn k a) (.fin neg 1 0)
  match fn, a.sign with
  | 0x9, neg => (one neg, 0)
  | 0xA, false => (one false, 0)
  | 0xA, true => (.fin false 0 0, 0)
  | _, false => (.inf false, 0)
  | _, true =>
    let r := decodeFloat k.fmt (transChoice fn k a % 2 ^ fmtWidth k.fmt)
    (r, flagIf r.isNan Fl.nv)

/-- A transcendental function on a value of the compute format (R64, R148). -/
def transFn (fn : Nat) (k : Compute) (a : Num) : Num × Flags :=
  if a.isNan then (.nan, 0)
  else match fn with
    | 0x2 | 0x3 =>
      if belowZero a then (.nan, Fl.nv)
      else if a.isZero then (.inf true, Fl.dz)
      else if a.finite then transOpen fn k a else (.inf false, 0)
    | 0x4 =>
      let (r, f) := a.sqrt
      k.round (r, f)
    | 0x5 =>
      if belowZero a then (.nan, Fl.nv)
      else if a.isZero then (.inf a.sign, Fl.dz)
      else if a.finite then transOpen fn k a else (.fin false 0 0, 0)
    | 0x6 =>
      if a.isZero then (.inf a.sign, Fl.dz)
      else if a.finite then transOpen fn k a else (.fin a.sign 0 0, 0)
    | 0x7 | 0x8 => if a.finite then transOpen fn k a else (.nan, Fl.nv)
    | 0x0 | 0x1 =>
      if a.finite then transOpen fn k a else if a.sign then (.fin false 0 0, 0) else (.inf false, 0)
    | _ => if a.finite then transOpen fn k a else transLimit fn k a

def State.runTranscendental (s : State) (n : Nat) (o : RlOp) : State × Flags :=
  let e : Env := { press := n, ctx := s.runCtx n }
  let k := o.compute
  let res := o.actives.map fun i =>
    let (a, f1) := s.rlElem e k (tdOf o.ta) i
    let (v, f2) := transFn o.fn k a
    (i, v, f1 ||| f2)
  let (s, fl) := s.writeVector n o (tdOf o.td) [] (res.map fun r => (r.1, r.2.1))
  (s, res.foldl (fun f r => f ||| r.2.2) fl)

/-! ### Class 0x03 (R149, R150) -/

/-- A value rounded to an integral value under RND (R149). -/
def rintNum (nc : BitVec 4) (v : Num) : Num :=
  match v with
  | .fin neg m e => .fin neg (roundInt (rndOf nc) false m e).toNat 0
  | w => w

/-- The value that a conversion writes, before it enters the destination's format (R62, R149). -/
def State.cvtNum (s : State) (e : Env) (o : RlOp) (i : Nat) : Num × Flags :=
  let ta := tdOf o.ta
  let v := s.elemNum e ta [] (ta.coord i)
  let (w, f) := if o.fn = 1 then (rintNum o.nc v, 0) else widenMx ta (tdOf o.td) v
  (w, f ||| sawNan [v])

/-- The NC under which a conversion writes: RINT has done its rounding. -/
def RlOp.cvtNc (o : RlOp) : BitVec 4 := if o.fn = 1 && decide (rndOf o.nc = .stochastic) then o.nc &&& 0xC else o.nc

/-- Whole blocks written along dimension 0 (R150): slots at or beyond `n` and beyond the extent are zero and choose no
scale. -/
def State.writeBlocks (s : State) (n : Nat) (o : RlOp) (vals : List Num) : State × Flags :=
  let d := tdOf o.td
  let bad := o.clashes d []
  let (rs, s) := s.srFor n (if drawsFor d.fmt o.nc then vals.length else 0)
  let heads := (List.range o.n).filter fun i => i % d.e0 % 32 == 0
  let one (acc : State × Flags) (h : Nat) : State × Flags :=
    let len := min (min 32 (d.e0 - h % d.e0)) (o.n - h)
    let idx := span h len
    let (sc, els, fl) := writeBlock d.fmt o.cvtNc (idx.map (nth .nan vals)) (idx.map (nth 0 rs))
    let c := d.coord h
    let slot (s : State) (k : Nat) : State :=
      let ck : Coord := { c with i0 := c.i0 + k }
      let (a, bit) := d.place [] ck
      if bad.any fun t => t.meets a.toNat (ceilDiv (bit + fmtWidth d.fmt) 8) then
        let (v, s) := s.freshWord
        s.putElem n d ck v.toNat
      else s.putElem n d ck (nth 0 els k)
    let s := (List.range 32).foldl slot acc.1
    let sa := d.scalePlace [] c
    let (sb, s) := if bad.any fun t => t.meets sa.toNat 1 then s.freshWord else (wn sc, s)
    (s.putCase n sa [sb.setWidth 8], acc.2 ||| fl)
  heads.foldl one (s, 0)

def State.runConversion (s : State) (n : Nat) (o : RlOp) : State × Flags :=
  let e : Env := { press := n, ctx := s.runCtx n }
  let d := tdOf o.td
  if d.mx then
    let vs := (List.range o.n).map (s.cvtNum e o)
    let (s, fl) := s.writeBlocks n o (vs.map (·.1))
    (s, vs.foldl (fun f v => f ||| v.2) fl)
  else
    let vs := o.actives.map fun i => (i, s.cvtNum e o i)
    let (rs, s) := s.srFor n (if drawsFor d.fmt o.nc then vs.length else 0)
    let ps := (List.range vs.length).map fun k =>
      let (i, v) := nth (0, (.nan, 0)) vs k
      let (b, f) := toFmt d.fmt o.cvtNc (nth 0 rs k) v.1
      ((i, b), f ||| v.2)
    (s.putVector n o d [] (ps.map (·.1)), ps.foldl (fun f p => f ||| p.2) 0)

/-! ### Reductions (R152 to R155) -/

/-- The identity of a reduction or scan operator by the destination's format (R153). Codes: 0 SUM, 1 PROD, 2 MAX, 3 MIN,
4 AND, 5 OR, 6 XOR. The table gives AND no floating-point identity: a free integer (log 12). -/
def identityOf (op fmt : Nat) : Num :=
  if isFloat fmt then
    match op with
    | 1 => .fin false 1 0
    | 2 => .inf true
    | 3 => .inf false
    | 4 => ofInt (sext 32 (Config.unstated 0x153 op fmt))
    | _ => .fin false 0 0
  else
    match op with
    | 1 => ofInt 1
    | 2 => ofInt (intMin fmt)
    | 3 => ofInt (intMax fmt)
    | 4 => ofInt (intValue fmt (2 ^ fmtWidth fmt - 1))
    | _ => ofInt 0

/-- One application of an operator on exact values. -/
def redFn (op : Nat) (a b : Num) : Num × Flags :=
  match op with
  | 0 => a.add b
  | 1 => a.mul b
  | 2 => (a.max b, 0)
  | 3 => (a.min b, 0)
  | 4 => (ofInt (bitFn 0x0B (numInt a) (numInt b)), 0)
  | 5 => (ofInt (bitFn 0x0C (numInt a) (numInt b)), 0)
  | _ => (ofInt (bitFn 0x0D (numInt a) (numInt b)), 0)

/-- A nonempty list of values reduced: in a free order in floating point, exactly on integers (R154, R157). -/
def reduceList (k : Compute) (op free : Nat) (l : List Num) : Num × Flags :=
  match k with
  | .int => match l with
    | [] => (.fin false 0 0, 0)
    | v :: vs => vs.foldl (fun acc w => let (t, f) := Compute.int.round (redFn op acc.1 w); (t, acc.2 ||| f)) (v, 0)
  | k => freeFold (redFn op) k.fmt free (l.length + 1) l

/-- The index of the extreme of a list, NaN first and the lowest index among equals (R155). -/
def argBest (big : Bool) (l : List (Nat × Num)) : Option (Nat × Num) :=
  l.foldl (fun acc e => match acc with
    | none => some e
    | some b =>
      if b.2.isNan then some b
      else if e.2.isNan then some e
      else if e.2.cmp b.2 = some (if big then Ordering.gt else .lt) then some e else some b) none

def State.runReduction (s : State) (n : Nat) (o : RlOp) : State × Flags :=
  let e : Env := { press := n, ctx := s.runCtx n }
  let k := o.compute
  let d := tdOf o.td
  let arg := isArg o.cls o.fn
  let op := if o.fn = 7 then 2 else if o.fn = 8 then 3 else o.fn
  let g := groupsOf o.n o.len
  let gl := groupLen o.n o.len
  let group (i : Nat) : List (Nat × Num × Flags) :=
    ((span (i * gl) (min gl (o.n - i * gl))).filter o.active).map fun j =>
      let (v, f) := s.rlElem e k (tdOf o.ta) j
      (j - i * gl, v, f)
  let res := (List.range g).map fun i =>
    let l := group i
    let fl := l.foldl (fun f x => f ||| x.2.2) (0 : Flags)
    if l.isEmpty then (i, identityOf op d.fmt, 0xFFFFFFFF, fl)
    else if arg then match argBest (o.fn == 7) (l.map fun x => (x.1, x.2.1)) with
      | some (j, v) => (i, v, j, fl)
      | none => (i, .nan, 0, fl)
    else
      let (v, f) := reduceList k op (s.free + 40000 * i) (l.map fun x => x.2.1)
      (i, v, 0, fl ||| f)
  let s := { s with free := s.free + 40000 * g }
  let tb := tdOf o.tb
  let (s, fl) := s.writeVector n o d (if arg then [tb] else []) (res.map fun r => (r.1, r.2.1))
  let s := if arg then s.putVector n o tb [d] (res.map fun r => (r.1, r.2.2.1)) else s
  (s, res.foldl (fun f r => f ||| r.2.2.2) fl)

/-! ### Scans (R156, R157) -/

/-- First element of the segment that element `i` belongs to. -/
def RlOp.segStart (o : RlOp) (i : Nat) : Nat :=
  if o.cls = 7 then (((List.range (i + 1)).filter fun j => j == 0 || o.pdVal.getLsbD j).getLast?).getD 0 else 0

def State.runScan (s : State) (n : Nat) (o : RlOp) : State × Flags :=
  let e : Env := { press := n, ctx := s.runCtx n }
  let k := o.compute
  let d := tdOf o.td
  let op := o.fn % 8
  let ident := identityOf op d.fmt
  let start := if o.fn / 16 = 1 then o.scalarNum k else (ident, 0)
  let item (j : Nat) : Num × Flags := if o.active j then s.rlElem e k (tdOf o.ta) j else (ident, 0)
  let res := o.actives.map fun i =>
    let b := o.segStart i
    let js := span b ((if (o.fn / 8) % 2 = 1 then i else i + 1) - b)
    let first := if b = 0 then start else (ident, 0)
    let vs : List (Num × Flags) := first :: js.map item
    let (v, f) := reduceList k op (s.free + 40000 * i) (vs.map (·.1))
    (i, v, vs.foldl (fun (g : Flags) (x : Num × Flags) => g ||| x.2) f)
  let s := { s with free := s.free + 40000 * o.n }
  let (s, fl) := s.writeVector n o d [] (res.map fun r => (r.1, r.2.1))
  (s, res.foldl (fun f r => f ||| r.2.2) fl)

/-! ### Gather (R158, R160) -/

def State.runGather (s : State) (n : Nat) (o : RlOp) : State :=
  let e : Env := { press := n, ctx := s.runCtx n }
  let ta := tdOf o.ta
  let tb := tdOf o.tb
  let res := o.actives.map fun i =>
    let j := s.elemBits e tb [] (tb.coord i)
    (i, j, if j < o.n then s.elemBits e ta [] (ta.coord j) else 0)
  let td := tdOf o.td
  let s := (s.spendDraws n td.fmt o.nc res.length).putVector n o td [] (res.map fun r => (r.1, r.2.2))
  if res.any fun r => decide (o.n ≤ r.2.1) then
    (s.modPc n fun c => { c with rlRange := true, rlCount := c.rlCount + 1 }).tally 2
  else s

/-! ### The engine -/

/-- Whether element `i` of a source is NaN. The roller reads elements 0 to n - 1 of each source, active or not (R142), so
each of them is an operand read (NAN_SEEN, R68); a gather moves bit patterns [log 78]. -/
def State.rlNan (s : State) (e : Env) (o : RlOp) (i : Nat) : Bool :=
  let ta := tdOf o.ta
  let tb := tdOf o.tb
  let td := tdOf o.td
  let two := (o.cls == 1 && !ewUnary (ewCode o.fn) || o.cls == 4) && !fnScalar o.fn
  let j := if o.bc then (if o.bcax then i / ta.e0 else i % ta.e0) else i
  o.cls != 8 &&
    ((s.elemNum e ta [] (ta.coord i)).isNan || (two && (s.elemNum e tb [] (tb.coord j)).isNan) ||
      (o.cls == 1 && ewCode o.fn == ewMac && (s.elemNum e td [] (td.coord i)).isNan))

/-- The effect of a roller operation, with its conditions. -/
def State.rollerEffect (s : State) (n : Nat) (o : RlOp) : State × Flags :=
  match o.cls with
  | 1 => s.runElementWise n o
  | 2 => s.runTranscendental n o
  | 3 => s.runConversion n o
  | 4 => s.runComparison n o
  | 5 => s.runReduction n o
  | 8 => (s.runGather n o, 0)
  | _ => s.runScan n o

/-- ROLLER_START: the oldest entry starts once no operation runs (R86, R161). -/
def State.rollerStart (s : State) (n : Nat) : State :=
  let c := s.pc n
  match c.rlq with
  | [] => s
  | o :: rest =>
    if !c.rlRun.isEmpty then s
    else
      let busy := s.busySpans n (s.runCtx n)
      let s := s.setPc n { c with rlq := rest, rlRun := [o] }
      let e : Env := { press := n, ctx := s.runCtx n }
      let nan := flagIf ((List.range o.n).any (s.rlNan e o)) Fl.nanSeen
      let mine := o.dests.flatMap fun t => s.spansOf n (s.runCtx n) .wr t.space (t.ranges [])
      let (t, fl) := s.rollerEffect n o
      (t.contend s none mine busy).record n o.line (fl ||| nan)

end Sys2Proof.Machine
end

