-- ==== Sys2Proof/Machine/Control.lean ====
section
/-! DEFINITION. The control slot (R91 to R96, R122 to R124, R213, R214, R218, R226) but for the kern and galley
submissions: the checks of each operation, and what it does when its condition holds. -/

namespace Sys2Proof.Machine

/-- The condition of R91. -/
def Lc.cond (k : Lc) (f : CtF) : Bool := (k.old.getP f.cp.toNat).getLsbD 0 != f.cpn

/-- Reserved bits of the slot (R74). -/
def ctHead (f : CtF) : Option (Status × W64) := failIf (f.rsv != 0) St.rsvNonzero 0 none
/-- The checks of an operation after the reserved bits. -/
def ctChk (f : CtF) (l : List (Option (Status × W64))) : Chk := { pre := firstOf (ctHead f :: l) }

/-- The mark of an operation whose completion is not its issue. -/
def ctMark (f : CtF) : Option Nat := markOf f.markEn f.mark

/-- The chase of the Line's press. -/
def Lc.ch (k : Lc) : Nat := chaseOf k.n

/-! ### Branches (R91) -/

/-- pc + 64 × IMM14. -/
def Lc.target (k : Lc) (f : CtF) : W64 := k.old.pc + 64 * f.imm.signExtend 64

def chkCtNop (f : CtF) : Chk := ctChk f []
def chkBr (f : CtF) : Chk := ctChk f []
def doBr (k : Lc) (s : State) (f : CtF) : State × Option W64 := (s, some (k.target f))
def chkBrx (k : Lc) (f : CtF) : Chk :=
  ctChk f [failIf ((k.x f.xa).toNat % 64 != 0) St.lineAlign (k.x f.xa) none]
def doBrx (k : Lc) (s : State) (f : CtF) : State × Option W64 := (s, some (k.x f.xa))
def chkCall (f : CtF) : Chk := ctChk f []
def doCall (k : Lc) (s : State) (f : CtF) : State × Option W64 :=
  (s.modPc k.n fun p => p.setX f.xd.toNat (k.old.pc + 64), some (k.target f))
def chkDbnz (f : CtF) : Chk := ctChk f []
def doDbnz (k : Lc) (s : State) (f : CtF) : State × Option W64 :=
  let v := k.x f.xa - 1
  (s.modPc k.n fun p => p.setX f.xa.toNat v, if v ≠ 0 then some (k.target f) else none)

/-! ### Holds and chase barriers (R91 to R93) -/

def chkFence (f : CtF) : Chk := ctChk f []
def doFence (k : Lc) (s : State) : State := s.modPc k.n fun p => { p with hold := .fence }

/-- The barrier that IMM14[3:0] names, and the counter that IMM14[5:0] names. -/
def barNo (f : CtF) : Nat := f.imm.toNat % 16
def ctrNo (f : CtF) : Nat := f.imm.toNat % 64
def State.barrier (s : State) (ch b : Nat) : Barrier := mget {} (s.chase ch).barriers b
def State.counter (s : State) (ch w : Nat) : WorkCounter := mget {} (s.chase ch).counters w
def State.setBarrier (s : State) (ch b : Nat) (x : Barrier) : State :=
  s.setChase ch { s.chase ch with barriers := mset {} (s.chase ch).barriers b x }
def State.setCounter (s : State) (ch w : Nat) (x : WorkCounter) : State :=
  s.setChase ch { s.chase ch with counters := mset {} (s.chase ch).counters w x }

def chkCbarinit (k : Lc) (s : State) (f : CtF) : Chk :=
  let n := (k.x f.xa).toNat
  ctChk f [failIf (n == 0 || decide (8 < n) || !(s.barrier k.ch (barNo f)).arrived.isEmpty) St.syncCount 0 none]
def doCbarinit (k : Lc) (s : State) (f : CtF) : State :=
  s.setBarrier k.ch (barNo f) { ctx := some k.c, expect := (k.x f.xa).toNat, arrived := [] }

def chkCbar (k : Lc) (s : State) (f : CtF) : Chk :=
  ctChk f [failIf (decide ((s.barrier k.ch (barNo f)).ctx ≠ some k.c)) St.syncOwner 0 none]
def doCbar (k : Lc) (s : State) (f : CtF) : State := s.modPc k.n fun p => { p with hold := .cbar (barNo f) }

/-! ### Work counters and claims (R92, R94, R122 to R124) -/

def chkWcinit (k : Lc) (f : CtF) : Chk :=
  let v := k.x f.xa
  ctChk f [failIf (flag v 63 && fld v 61 32 != 0) St.syncCount 0 none]
def doWcinit (k : Lc) (s : State) (f : CtF) : State :=
  let v := k.x f.xa
  let w := s.counter k.ch (ctrNo f)
  let claim := flag v 63
  s.setCounter k.ch (ctrNo f)
    { ctx := some k.c, claim := claim
      value := if claim then wn (fld v 31 0) else v
      bitmap := if claim && !flag v 62 then w.bitmap else 0
      dups := if w.ctx = some k.c then w.dups else 0 }

def chkWcfa (k : Lc) (s : State) (f : CtF) : Chk :=
  let w := s.counter k.ch (ctrNo f)
  let n := (k.x f.xb).toNat
  ctChk f [failIf (decide (w.ctx ≠ some k.c)) St.syncOwner 0 none,
    failIf (w.claim && (n == 0 || decide (64 < n))) St.syncCount 0 none]

/-- The bitmap bits of a claim of `n` values from `v` (R123). -/
def claimBits (v n : Nat) : BitVec 4096 :=
  ((span v n).filter (· < 4096)).foldl (fun b i => b ||| (1#4096 <<< i)) 0

def doWcfa (k : Lc) (s : State) (f : CtF) : State :=
  let w := s.counter k.ch (ctrNo f)
  if w.claim then
    let v := fld w.value 31 0
    let n := (k.x f.xb).toNat
    let bs := claimBits v n
    let dup := w.bitmap &&& bs != 0
    let s := s.setCounter k.ch (ctrNo f)
      { w with value := wn ((v + n) % 2 ^ 32), bitmap := w.bitmap ||| bs, dups := if dup then w.dups + 1 else w.dups }
    s.modPc k.n fun p =>
      { p.setX f.xd.toNat (wn (v + (b2n dup <<< 63))) with dropLatch := dup, dupSeen := p.dupSeen || dup }
  else
    let s := s.setCounter k.ch (ctrNo f) { w with value := w.value + k.x f.xb }
    s.modPc k.n fun p => p.setX f.xd.toNat w.value

/-! ### Forme barriers, remote signals and waits (R95, R96) -/

/-- Whether the press takes part in the barrier of a forme: its sub-take came through it, and it is the context's. -/
def Lc.takesPart (k : Lc) (s : State) (h : Nat) : Bool :=
  (match k.old.sub with
   | some i => match mfind? s.subs i with
     | some t => t.via.contains h
     | none => false
   | none => false) &&
  match mfind? s.formes h with
  | some m => m.ctx == k.c
  | none => false

def chkFbar (k : Lc) (s : State) (f : CtF) : Chk :=
  ctChk f [failIf (!k.takesPart s ((k.x f.xa).toNat % 1024)) St.syncOwner 0 none]
def doFbar (k : Lc) (s : State) (f : CtF) : State :=
  s.modPc k.n fun p => { p with hold := .fbar ((k.x f.xa).toNat % 1024) f.xd.toNat }

def chkRsignal (k : Lc) (s : State) (f : CtF) : Chk :=
  let va := k.x f.xa
  { pre := firstOf [ctHead f, failIf (va.toNat % 8 != 0) St.atomicAlign va none]
    signal := 1
    post := s.rangeFault k.c .wr va 8 }

/-- RSIGNAL: queued inside an open region (R217), discarded under the drop latch (R124), and otherwise made at once or,
where the word stalls in memory, as soon as it no longer does. Its mark counts until the add completes (R85). -/
def doRsignal (k : Lc) (s : State) (f : CtF) : State :=
  let va := k.x f.xa
  let v := k.x f.xb
  if k.old.dropLatch then s
  else match s.openRegion k.n with
    | some r =>
      let x := s.region k.ch r
      s.setRegion k.ch r { x with queue := x.queue ++ [.signal k.c va v k.old.pc], entries := x.entries + 1 }
    | none =>
      let s := s.modPc k.n fun p => p.take (ctMark f)
      let (ok, s) := s.tryAdd k.n k.c va v (ctMark f) k.old.pc
      if ok then s
      else s.modPc k.n fun p => { p with ctRun := p.ctRun ++ [.rsignal va v (ctMark f) k.old.pc] }

/-- Whether an address translates to a page of the local device. -/
def State.isLocal (s : State) (c : Nat) (va : W64) : Bool :=
  match s.resolve c .rd va with
  | .ok l => l.key?.isSome
  | .error _ => false

def chkRwait (k : Lc) (s : State) (f : CtF) : Chk :=
  let va := k.x f.xa
  { pre := firstOf [ctHead f, failIf (va.toNat % 8 != 0) St.misaligned va none]
    post := match s.resolve k.c .rd va with
      | .error st => some (st, va)
      | .ok _ => failIf (!s.isLocal k.c va) St.rwaitNotLocal va none }

/-- Whether the word that a wait names is marked uncorrectable. -/
def State.badWord (s : State) (n c : Nat) (va : W64) : Option Nat := (s.rangeBad (some n) c [(va, 8)]).map (·.2)

/-- RWAIT: evaluated at issue; the press then waits where the condition does not hold (R96). -/
def doRwait (k : Lc) (s : State) (f : CtF) : State :=
  let va := k.x f.xa
  match s.badWord k.n k.c va with
  | some key => s.badRead k.n k.c 5 k.old.pc va key
  | none =>
    let v := ((s.wordAt (some k.n) k.c va).getD 0).toNat
    if (k.x f.xb).toNat ≤ v then s.modPc k.n fun p => p.setX f.xd.toNat 0
    else s.modPc k.n fun p => { p with
      hold := .rwait f.xd.toNat
      watch := some { va := va, pc := k.old.pc, thresh := k.x f.xb, forme := f.imm.toNat % 1024 } }

/-! ### Proof regions (R213, R214, R226) -/

/-- The region that a press holds, opened by it and not ending, with its contents. -/
def Lc.open? (k : Lc) (s : State) : Option (Nat × Region) :=
  match k.old.region with
  | some r => some (r, s.region k.ch r)
  | none => none

def chkPopen (k : Lc) (s : State) (f : CtF) : Chk :=
  let a := k.x f.xa
  let b := k.x f.xb
  let branch : W32 := a.setWidth 32
  let depth := fld b 4 0
  ctChk f [failIf (fld a 63 32 != 0) St.proofState 0 none,
    match k.open? s with
    | some (_, x) =>
      failIf (x.branch != branch) St.proofNest 0 (failIf (decide (x.depth ≤ x.frames)) St.proofLimit 0 none)
    | none =>
      failIf (depth == 0 || decide (16 < depth) || decide (8 < fld b 11 8) || decide (8 < fld b 15 12) ||
        fld b 7 5 != 0 || fld b 63 28 != 0) St.proofLimit 0 none]

/-- The three outcomes of POPEN (R214). -/
def doPopen (k : Lc) (s : State) (f : CtF) : State :=
  let b := k.x f.xb
  let p := (s.ctx k.c).part
  let kst := fld b 11 8
  let pages := fld b 27 16
  match k.open? s with
  | some (r, x) =>
    (s.setRegion k.ch r { x with frames := x.frames + 1 }).modPc k.n fun q => q.setX f.xd.toNat (wn r)
  | none =>
    match mfree (s.chase k.ch).regions 64 0 with
    | some r =>
      if kst ≤ s.poolRoom p (Pool.folio 0) && pages ≤ s.poolRoom p Pool.proof then
        let s := (s.poolTake p (Pool.folio 0) kst).poolTake p Pool.proof pages
        let s := s.setRegion k.ch r
          { press := k.n, ctx := k.c, part := p, branch := (k.x f.xa).setWidth 32, depth := fld b 4 0, frames := 1
            kMax := kst, gMax := fld b 15 12, kFolios := kst, pages := pages }
        s.modPc k.n fun q => { q.setX f.xd.toNat (wn r) with region := some r }
      else (s.bump .chase k.ch 0xB10 0 32 1).modPc k.n fun q => q.setX f.xd.toNat (BitVec.allOnes 64)
    | none => (s.bump .chase k.ch 0xB10 0 32 1).modPc k.n fun q => q.setX f.xd.toNat (BitVec.allOnes 64)

/-- The check of PCOMMIT and PREJECT (R226). -/
def chkRegion (k : Lc) (s : State) (f : CtF) : Chk :=
  let r := (k.x f.xa).toNat
  let ok := match mfind? (s.chase k.ch).regions r with
    | some x => x.press == k.n && x.ctx == k.c && decide (x.st = .opened)
    | none => false
  ctChk f [failIf (decide (63 < r) || !ok) St.proofState 0 none]
def doPcommit (k : Lc) (s : State) (f : CtF) : State :=
  let r := (k.x f.xa).toNat
  (s.setRegion k.ch r { s.region k.ch r with st := .committing }).modPc k.n fun p => { p with hold := .commit r }
def doPreject (k : Lc) (s : State) (f : CtF) : State :=
  let r := (k.x f.xa).toNat
  (s.setRegion k.ch r { s.region k.ch r with st := .rejecting }).modPc k.n fun p => { p with hold := .reject r }

/-! ### END (R91, R124, R218) -/

def chkEnd (k : Lc) (f : CtF) : Chk := ctChk f [failIf k.old.region.isSome St.proofState 0 none]
def doEnd (k : Lc) (s : State) : State := s.modPc k.n fun p => { p with hold := .ending, dropLatch := false }

end Sys2Proof.Machine
end

