-- ==== Sys2Proof/Machine/Kern.lean ====
section
/-! DEFINITION. The kern pipeline at acceptance (R162 to R179, R183, R184, R219): the checks of each command and its
effect on streams, folios and pools. -/

namespace Sys2Proof.Machine

/-! ### Reading a command (R91, R163, R164) -/

/-- The 8 words of the command at a case offset. -/
def State.caseWords (s : State) (n : Nat) (off : W64) : List W64 := toWords 8 (cells s.mem (caseBase n + off.toNat) 64)
/-- The descriptor at a case offset. -/
def State.caseDesc (s : State) (n off : Nat) : Desc := descOf (cells s.mem (caseBase n + off) 64)

/-- Word `i` of a command. -/
def cmdWord (ws : List W64) (i : Nat) : W64 := nth 0 ws i
/-- OP, STREAM and RESULT of a command. -/
def cmdOp (ws : List W64) : Nat := fld (cmdWord ws 0) 3 0
def cmdStream (ws : List W64) : Nat := fld (cmdWord ws 0) 31 16
def cmdResult (ws : List W64) : Nat := fld (cmdWord ws 0) 55 32

/-- A check of a kern command by R167. -/
def kbad (c : Bool) : Option (Status × W64) := failIf c St.kernCmdInvalid 0 none
/-- Words of a command from `i` on that must be zero. -/
def restZero (ws : List W64) (i : Nat) : Bool := (ws.drop i).all fun w => w == 0
/-- Whether the fields of bits `hi:lo` of a word are zero. -/
def zeroIn (w : W64) (l : List (Nat × Nat)) : Bool := l.all fun b => fld w b.1 b.2 == 0

/-- The head of every kern command (R163, R166, R167). -/
def kernHead (ws : List W64) : Option (Status × W64) :=
  let w := cmdWord ws 0
  kbad (cmdOp ws == 0 || decide (6 < cmdOp ws) || !zeroIn w [(15, 4), (63, 56)] || cmdResult ws % 8 != 0 || decide (caseSize < cmdResult ws + 8))

/-- A named stream that is open and owned by the context (R167). -/
def State.kernOwned (s : State) (c h : Nat) : Option (Status × W64) :=
  match mfind? s.kstreams h with
  | some x => kbad (x.ctx != c)
  | none => kbad true

/-! ### Binding to an open region (R217, R219) -/

/-- The check of a command on a stream for a press: bound elsewhere, or no room to bind it. `extra` counts streams that
the command would bind besides. -/
def State.kernBindChk (s : State) (k : Lc) (h extra : Nat) : Option (Status × W64) :=
  let x := s.kstream h
  match x.bound with
  | some (ch, r) =>
    if ch = k.ch && k.old.region = some r then
      failIf (decide (extra ≠ 0) && decide ((s.region ch r).kMax < (s.region ch r).kBound.length + extra))
        St.proofLimit 0 none
    else some (St.proofState, 0)
  | none => match s.openRegion k.n with
    | none => none
    | some r =>
      let g := s.region k.ch r
      failIf (decide (g.kMax < g.kBound.length + 1 + extra) || g.kFolios == 0) St.proofLimit 0
        (failIf (!s.rootRoom x.root (ceilDiv (ceilDiv x.len (perFolio x)) 1024)) St.folioRefLimit 0 none)

/-- The stream bound at its first command inside the press's open region, its snapshot root taken (R219). -/
def State.kernBind (s : State) (k : Lc) (h : Nat) : State :=
  let x := s.kstream h
  match x.bound, s.openRegion k.n with
  | none, some r =>
    let f := (mfree s.folios (2 ^ 24) 0).getD 0
    let s := s.setFolio f { part := x.part, code := 0, refs := 1 }
    let s := s.copyRoot x.root (ceilDiv (ceilDiv x.len (perFolio x)) 1024) f
    let g := s.region k.ch r
    let s := s.setRegion k.ch r
      { g with kFolios := g.kFolios - 1, kBound := g.kBound ++ [{ stream := h, snap := some (f, x.len) }] }
    s.setKstream h { x with bound := some (k.ch, r) }
  | _, _ => s

/-- A stream born inside the press's open region is bound from its creation (R217). -/
def State.kernBorn (s : State) (k : Lc) (h : Nat) : State :=
  match s.openRegion k.n with
  | none => s
  | some r =>
    let g := s.region k.ch r
    (s.setRegion k.ch r { g with kBound := g.kBound ++ [{ stream := h }] }).setKstream h
      { s.kstream h with bound := some (k.ch, r) }

/-- The check that a stream may be born (R219). -/
def State.kernBornChk (s : State) (k : Lc) : Option (Status × W64) :=
  match s.openRegion k.n with
  | none => none
  | some r =>
    let g := s.region k.ch r
    failIf (decide (g.kMax < g.kBound.length + 1)) St.proofLimit 0 none

/-! ### The command placed in the shared control queue (R162, R164) -/

/-- The lowest free handle of the stream table (R167). -/
def State.freeKern (s : State) : Option Nat := mfree s.kstreams 65536 0

/-- A command of a Line with its number in the order of acceptance, before what its operation adds. -/
def Lc.kernCmd (k : Lc) (s : State) (f : CtF) (ws : List W64) : KernCmd :=
  { words := ws, op := cmdOp ws, stream := cmdStream ws, stm := s.kstream (cmdStream ws)
    len := (s.kstream (cmdStream ws)).len, seq := s.nextCmd, ctx := k.c, mark := ctMark f, pc := k.old.pc
    line := k.old.retired.toNat }

/-- The command enters the shared control queue, its mark taken. -/
def State.queueKern (s : State) (k : Lc) (c : KernCmd) : State :=
  ({ s with nextCmd := s.nextCmd + 1 }).modPc k.n fun p => { p.take c.mark with ctq := p.ctq ++ [CtOp.kern c] }

/-- The checks that come first for every KSUB: the slot, then the place of the command (R91). -/
def kernSlot (k : Lc) (f : CtF) (l : List (Option (Status × W64))) : Chk :=
  { pre := firstOf [ctHead f, (lineCase (k.x f.xa)).orElse fun _ => firstOf l] }

/-- VALUE of a creation that finds nothing free (R168, R175). -/
def noHandle : W32 := BitVec.allOnes 32

/-! ### OPEN (R168, R169) -/

/-- Formats that the kern pipeline accepts for keys and values. -/
def kernFmt (fmt : Nat) (mx : Bool) : Bool :=
  if mx then mxFormat fmt else [Fmt.bf16, Fmt.fp16, Fmt.e4m3, Fmt.e5m2].contains fmt

/-- The parameters that OPEN names. -/
def kernParams (s : State) (c : Nat) (ws : List W64) : KStream :=
  let w := cmdWord ws 1
  { ctx := c, part := (s.ctx c).part, kfmt := fld w 3 0, kmx := flag w 4, vfmt := fld w 11 8, vmx := flag w 12
    folio := fld w 19 16, hkv := fld w 31 24, dk := 32 * fld w 39 32, dv := 32 * fld w 47 40
    ropeBase := (cmdWord ws 2).setWidth 32, ropeOff := BitVec.ofNat 32 (fld (cmdWord ws 2) 63 32) }

/-- ROPE_BASE is finite and above 1. -/
def ropeOk (b : W32) : Bool :=
  let v := decodeFloat Fmt.fp32 b.toNat
  v.finite && decide (v.cmp (.fin false 1 0) = some .gt)

def chkKernOpen (k : Lc) (s : State) (f : CtF) : Chk :=
  let ws := s.caseWords k.n (k.x f.xa)
  let w := cmdWord ws 1
  let p := kernParams s k.c ws
  kernSlot k f [kernHead ws,
    kbad (cmdStream ws != 0 || !zeroIn w [(7, 5), (15, 13), (23, 20), (63, 48)] || !restZero ws 3 || p.hkv == 0 ||
      decide (64 < p.hkv) || p.dk == 0 || decide (256 < p.dk) || p.dv == 0 || decide (256 < p.dv) || !ropeOk p.ropeBase),
    failIf (!kernFmt p.kfmt p.kmx || !kernFmt p.vfmt p.vmx) St.formatUnsupported 0 none,
    failIf (decide (9 < p.folio) || decide (folioBytes p.folio < slotBytes p)) St.folioSize 0 none,
    if s.freeKern.isSome && s.poolRoom p.part (Pool.folio 0) != 0 then s.kernBornChk k else none]

/-- OPEN: a table entry and a root from the partition's pool, or VALUE 0xFFFF_FFFF. `s0` is the state of step 2. -/
def doKernOpen (k : Lc) (s0 s : State) (f : CtF) : State :=
  let ws := s0.caseWords k.n (k.x f.xa)
  let p := kernParams s k.c ws
  let c := k.kernCmd s f ws
  match s.freeKern with
  | none => s.queueKern k { c with value := noHandle }
  | some h => match s.newFolio p.part 0 with
    | none => s.queueKern k { c with value := noHandle }
    | some (root, s) =>
      ((s.setKstream h { p with root := root }).kernBorn k h).queueKern k
        { c with new := some h, value := BitVec.ofNat 32 h }

/-! ### APPEND (R173, R174) -/

/-- An offset at which no descriptor of a command can stand (R173, R177). -/
def caseOff (off : Nat) : Bool := off % 64 != 0 || decide (caseSize < off + 64)

/-- A descriptor of a command by the order of R173. -/
def kernDesc (s : State) (n off : Nat) (fmtOk : TD → Bool) (like : TD → Bool) : Option (Status × W64) :=
  let t := tdOf (s.caseDesc n off)
  firstOf [kbad (caseOff off), t.bad [] false false,
    failIf (!fmtOk t) St.formatUnsupported 0 none, kbad (t.space != 1 || !like t)]

/-- Whether a descriptor has the given extents in dimensions 0 to 3. -/
def TD.extents (t : TD) (a b c d : Nat) : Bool := t.e0 == a && t.e1 == b && t.e2 == c && t.e3 == d

def chkKernAppend (k : Lc) (s : State) (f : CtF) : Chk :=
  let ws := s.caseWords k.n (k.x f.xa)
  let w1 := cmdWord ws 1
  let num := fld (cmdWord ws 2) 12 0
  let h := cmdStream ws
  let x := s.kstream h
  let bound := s.kernBind k h
  kernSlot k f [kernHead ws, s.kernOwned k.c h,
    kbad (!zeroIn w1 [(31, 24), (63, 56)] || fld (cmdWord ws 2) 63 13 != 0 || !restZero ws 3 || num == 0 ||
      decide (4096 < num) || decide (0x200000 < num * slotBytes x)),
    kernDesc s k.n (fld w1 23 0) (fun t => kernFmt t.fmt t.mx) fun t =>
      t.extents x.dk x.hkv num 1 && t.fmt == x.kfmt && t.mx == x.kmx && (!t.mx || t.axis == 0),
    kernDesc s k.n (fld w1 55 32) (fun t => kernFmt t.fmt t.mx) fun t =>
      t.extents x.dv x.hkv num 1 && t.fmt == x.vfmt && t.mx == x.vmx && (!t.mx || t.axis == 0),
    failIf (decide (2 ^ 20 < x.len + num)) St.seqLimit 0 none,
    s.kernBindChk k h 0,
    (reserve x x.len num x.len { s := bound }).fault.map fun st => (st, 0)]

/-- APPEND: the positions that the pool can supply are reserved, and the length rises by their number (R174). -/
def doKernAppend (k : Lc) (s0 s : State) (f : CtF) : State :=
  let ws := s0.caseWords k.n (k.x f.xa)
  let h := cmdStream ws
  let c := k.kernCmd s f ws
  let s := s.kernBind k h
  let x := s.kstream h
  let r := reserve x x.len (fld (cmdWord ws 2) 12 0) x.len { s := s }
  let x' := { x with len := x.len + r.slots.length }
  (r.s.setKstream h x').queueKern k
    { c with
      stm := x', value := BitVec.ofNat 32 r.slots.length, copies := r.copies, slots := r.slots
      descs := [s0.caseDesc k.n (fld (cmdWord ws 1) 23 0), s0.caseDesc k.n (fld (cmdWord ws 1) 55 32)] }

/-! ### FORK, TRUNCATE, RELEASE (R175, R176) -/

/-- Root entries that cover positions below `n`. -/
def rootEntries (x : KStream) (n : Nat) : Nat := ceilDiv (ceilDiv n (perFolio x)) 1024

def chkKernFork (k : Lc) (s : State) (f : CtF) : Chk :=
  let ws := s.caseWords k.n (k.x f.xa)
  let h := cmdStream ws
  let x := s.kstream h
  let at_ := fld (cmdWord ws 1) 20 0
  let room := s.freeKern.isSome && s.poolRoom x.part (Pool.folio 0) != 0
  kernSlot k f [kernHead ws, s.kernOwned k.c h,
    kbad (fld (cmdWord ws 1) 63 21 != 0 || !restZero ws 2 || decide (x.len < at_)),
    s.kernBindChk k h (if room && (s.openRegion k.n).isSome then 1 else 0),
    if room then failIf (!(s.kernBind k h).rootRoom x.root (rootEntries x at_)) St.folioRefLimit 0 none else none]

def doKernFork (k : Lc) (s0 s : State) (f : CtF) : State :=
  let ws := s0.caseWords k.n (k.x f.xa)
  let h := cmdStream ws
  let c := k.kernCmd s f ws
  let at_ := fld (cmdWord ws 1) 20 0
  let s := s.kernBind k h
  let x := s.kstream h
  match s.freeKern with
  | none => s.queueKern k { c with value := noHandle }
  | some g => match s.newFolio x.part 0 with
    | none => s.queueKern k { c with value := noHandle }
    | some (root, s) =>
      let s := s.copyRoot x.root (rootEntries x at_) root
      ((s.setKstream g { x with root := root, len := at_, bound := none }).kernBorn k g).queueKern k
        { c with new := some g, value := BitVec.ofNat 32 g }

def chkKernTruncate (k : Lc) (s : State) (f : CtF) : Chk :=
  let ws := s.caseWords k.n (k.x f.xa)
  let h := cmdStream ws
  kernSlot k f [kernHead ws, s.kernOwned k.c h,
    kbad (fld (cmdWord ws 1) 63 21 != 0 || !restZero ws 2 || decide ((s.kstream h).len < fld (cmdWord ws 1) 20 0)),
    s.kernBindChk k h 0]

def doKernTruncate (k : Lc) (s0 s : State) (f : CtF) : State :=
  let ws := s0.caseWords k.n (k.x f.xa)
  let h := cmdStream ws
  let c := k.kernCmd s f ws
  let len := fld (cmdWord ws 1) 20 0
  let s := s.kernBind k h
  let (s, n) := s.trimStream (s.kstream h) len
  (s.setKstream h { s.kstream h with len := len }).queueKern k { c with value := BitVec.ofNat 32 n }

def chkKernRelease (k : Lc) (s : State) (f : CtF) : Chk :=
  let ws := s.caseWords k.n (k.x f.xa)
  let h := cmdStream ws
  kernSlot k f [kernHead ws, s.kernOwned k.c h, kbad (!restZero ws 1), s.kernBindChk k h 0]

/-- RELEASE: at once, or, of a stream that existed before the open region, marked with VALUE 0 (R217). -/
def doKernRelease (k : Lc) (s0 s : State) (f : CtF) : State :=
  let ws := s0.caseWords k.n (k.x f.xa)
  let h := cmdStream ws
  let c := k.kernCmd s f ws
  let s := s.kernBind k h
  match (s.kstream h).bound with
  | none =>
    let (s, n) := s.releaseStream h
    s.queueKern k { c with value := BitVec.ofNat 32 n }
  | some (ch, r) =>
    let g := s.region ch r
    if g.kBound.any fun b => b.stream == h && b.snap.isNone then
      let s := s.setRegion ch r { g with kBound := g.kBound.filter fun b => b.stream != h }
      let (s, n) := s.releaseStream h
      s.queueKern k { c with value := BitVec.ofNat 32 n }
    else
      (s.setRegion ch r { g with
        kBound := g.kBound.map fun b => if b.stream = h then { b with releasing := true } else b }).queueKern k c

/-! ### ATTEND (R177 to R184) -/

/-- The fields of ATTEND. -/
structure Attend where
  qdesc : Nat
  odesc : Nat
  lseOff : Nat
  head  : Nat
  rows  : Nat
  group : Nat
  scale : Nat
  qpos  : Nat
  mask  : Nat
  rope  : Bool
  halves : Bool
  pwide : Bool
  lse   : Bool
  nc    : BitVec 4
  blk   : Nat
  tree  : Nat
  base  : Nat
  deriving DecidableEq, Repr

def attendOf (ws : List W64) : Attend :=
  let w1 := cmdWord ws 1
  let w2 := cmdWord ws 2
  let w3 := cmdWord ws 3
  let w4 := cmdWord ws 4
  let w5 := cmdWord ws 5
  { qdesc := fld w1 23 0, odesc := fld w1 55 32, lseOff := fld w2 23 0, head := fld w2 39 32, rows := fld w2 46 40
    group := fld w2 54 48, scale := fld w3 31 0, qpos := fld w3 51 32, mask := fld w4 2 0, rope := flag w4 3
    halves := flag w4 4, pwide := flag w4 5, lse := flag w4 6, nc := w4.extractLsb' 7 4, blk := fld w4 31 16
    tree := fld w5 23 0, base := fld w5 43 24 }

/-- Masks with a tree record. -/
def Attend.isTree (a : Attend) : Bool := decide (3 ≤ a.mask)
/-- Masks in blocks. -/
def Attend.isBlock (a : Attend) : Bool := a.mask == 2 || a.mask == 4

/-- The scores format of a query and a key format; none for direct 8-bit products (R183). -/
def scoresFmt (q k : Nat) : Option Nat :=
  if fmtWidth q = 16 then
    (if fmtWidth k ≤ 8 || k == q then some q else some Fmt.e8m10)
  else if fmtWidth k = 16 then some k else none

/-- Formats of queries and of outputs (R181, R183). -/
def queryFmt (fmt : Nat) (mx : Bool) : Bool :=
  [Fmt.bf16, Fmt.fp16, Fmt.e4m3, Fmt.e5m2].contains fmt && (!mx || mxFormat fmt)

/-- A field of the tree record: bytes of nodes, INT32 words of positions (R179). -/
def State.treeByte (s : State) (n : Nat) (a : Attend) (off : Nat) : Nat := (cell s.mem (caseBase n + a.tree + off)).toNat
def State.treeWord (s : State) (n : Nat) (a : Attend) (off : Nat) : Nat :=
  ofBytes (cells s.mem (caseBase n + a.tree + off) 4)
def State.parent (s : State) (n : Nat) (a : Attend) (i : Nat) : Nat := s.treeByte n a (64 + i)
def State.qnode (s : State) (n : Nat) (a : Attend) (r : Nat) : Nat := s.treeByte n a (128 + r)
def State.qposOf (s : State) (n : Nat) (a : Attend) (r : Nat) : Int := sext 32 (s.treeWord n a (192 + 4 * r))
def State.knode (s : State) (n : Nat) (a : Attend) (i : Nat) : Nat := s.treeByte n a (512 + i)
def State.kposOf (s : State) (n : Nat) (a : Attend) (i : Nat) : Int := sext 32 (s.treeWord n a (4608 + 4 * i))
def State.nodes (s : State) (n : Nat) (a : Attend) : Nat := s.treeByte n a 0 % 128

/-- The checks of the tree record (R179) for a stream of length `len`. -/
def State.treeChk (s : State) (n : Nat) (a : Attend) (len : Nat) : Option (Status × W64) :=
  if !a.isTree then failIf (a.isBlock && a.blk == 0) St.maskInvalid 0 none
  else
    let keys := len - a.base
    firstOf [
      kbad (a.tree % 64 != 0),
      failIf (decide (len < a.base) || decide (4096 < keys) || (a.isBlock && a.blk == 0)) St.maskInvalid 0 none,
      kbad (decide (caseSize < a.tree + 4608 + 4 * keys) || ofBytes (cells s.mem (caseBase n + a.tree) 8) / 128 != 0),
      failIf (s.nodes n a == 0 || decide (64 < s.nodes n a) ||
        (List.range (s.nodes n a)).any (fun i => s.parent n a i != 0xFF && decide (i ≤ s.parent n a i)) ||
        (List.range a.rows).any (fun r => decide (s.nodes n a ≤ s.qnode n a r) || decide (2 ^ 20 ≤ s.qposOf n a r)) ||
        (List.range keys).any (fun i => decide (s.nodes n a ≤ s.knode n a i) || decide (2 ^ 20 ≤ s.kposOf n a i)))
        St.maskInvalid 0 none]

def chkKernAttend (k : Lc) (s : State) (f : CtF) : Chk :=
  let ws := s.caseWords k.n (k.x f.xa)
  let h := cmdStream ws
  let x := s.kstream h
  let a := attendOf ws
  let q := tdOf (s.caseDesc k.n a.qdesc)
  kernSlot k f [kernHead ws, s.kernOwned k.c h,
    kbad (!zeroIn (cmdWord ws 1) [(31, 24), (63, 56)] || !zeroIn (cmdWord ws 2) [(31, 24), (47, 47), (63, 55)] ||
      fld (cmdWord ws 3) 63 52 != 0 || !zeroIn (cmdWord ws 4) [(15, 11), (63, 32)] || fld (cmdWord ws 5) 63 44 != 0 ||
      !restZero ws 6 || decide (x.hkv ≤ a.head) || a.rows == 0 || decide (64 < a.rows) ||
      !([1, 2, 4, 8, 16, 32, 64].contains a.group) || !(decodeFloat Fmt.fp32 a.scale).finite || decide (4 < a.mask)),
    ncChk a.nc none,
    kbad (caseOff a.qdesc || caseOff a.odesc || (a.lse && (a.lseOff % 4 != 0 || decide (caseSize < a.lseOff + 4 * a.rows)))),
    kernDesc s k.n a.qdesc (fun t => queryFmt t.fmt t.mx) fun t => t.extents x.dk a.rows 1 1 && (!t.mx || t.axis == 0),
    kernDesc s k.n a.odesc (fun t => queryFmt t.fmt t.mx) fun t => t.extents x.dv a.rows 1 1 && (!t.mx || t.axis == 0),
    kbad ((decide (128 < x.dk) && (a.rope || (scoresFmt q.fmt x.kfmt).isSome)) ||
      (decide (128 < x.dv) && (decide (8 < fmtWidth x.vfmt) || a.pwide))),
    failIf (!a.isTree && decide (2 ^ 20 ≤ a.qpos + (a.rows - 1) / a.group)) St.seqLimit 0 none,
    s.treeChk k.n a x.len,
    s.kernBindChk k h 0]

/-- The data folios of a stream that hold its positions, in order. -/
def State.dataFolios (s : State) (x : KStream) : List Nat :=
  (List.range (ceilDiv x.len (perFolio x))).map fun d => ((s.placeOf x (d * perFolio x)).getD (0, 0)).1

def doKernAttend (k : Lc) (s0 s : State) (f : CtF) : State :=
  let ws := s0.caseWords k.n (k.x f.xa)
  let h := cmdStream ws
  let a := attendOf ws
  let c := k.kernCmd s f ws
  let s := s.kernBind k h
  s.queueKern k { c with
    keys := s.dataFolios (s.kstream h), descs := [s0.caseDesc k.n a.qdesc, s0.caseDesc k.n a.odesc] }

end Sys2Proof.Machine
end

