-- ==== Sys2Proof/Machine/KernRun.lean ====
section
/-! DEFINITION. The kern pipeline at execution (R165, R166, R172, R178 to R183): slot writes, copies, attention. -/

namespace Sys2Proof.Machine

/-! ### Order of execution (R165, R197) -/

/-- The streams that a control operation touches, kern and galley apart. -/
def CtOp.kernStreams : CtOp → Nat × List Nat
  | .kern c => (c.seq, (if c.op = 1 then [] else [c.stream]) ++ c.new.toList)
  | _ => (0, [])
/-- Whether an operation is a kern command. -/
def CtOp.isKern : CtOp → Bool
  | .kern _ => true
  | _ => false

/-- The unexecuted control operations of every press. -/
def State.waitingControls (s : State) : List CtOp := s.presses.flatMap fun e => e.2.waitingControls

/-- The control operations that execute on the presses of a chase. -/
def State.runningIn (s : State) (ch : Nat) : List CtOp :=
  s.presses.flatMap fun e => if chaseOf e.1 = ch then e.2.runningControls else []

/-- Whether a command may execute on press `n`: the pipeline of the chase executes no other (R185), and every command
accepted earlier on a stream of this one has executed (R165). -/
def State.kernMay (s : State) (n : Nat) (c : KernCmd) : Bool :=
  let mine := (CtOp.kern c).kernStreams.2
  !((s.runningIn (chaseOf n)).any (·.isKern)) && !s.waitingControls.any fun o => o.isKern && decide (o.kernStreams.1 < c.seq) &&
    o.kernStreams.2.any fun h => mine.contains h

/-! ### Slots (R169) -/

/-- Offset in a slot of the keys and of the values of a head. -/
def keyBytes (x : KStream) : Nat := rowBytes x.kfmt x.dk
def valBytes (x : KStream) : Nat := rowBytes x.vfmt x.dv
def headBytes (x : KStream) : Nat :=
  keyBytes x + (if x.kmx then x.dk / 32 else 0) + valBytes x + (if x.vmx then x.dv / 32 else 0)
def valOff (x : KStream) (h : Nat) : Nat := h * headBytes x + keyBytes x + (if x.kmx then x.dk / 32 else 0)

/-- One head's part of a position of a tensor in the case: packed elements, then scales. -/
def State.headOf (s : State) (e : Env) (t : TD) (d h p : Nat) : List Byte :=
  let els := (List.range d).map fun i => s.elemBits e t [] ⟨i, h, p, 0⟩
  let scs := if t.mx then (List.range (d / 32)).map fun b => BitVec.ofNat 8 (s.elemScale e t [] ⟨32 * b, h, p, 0⟩) else []
  packRow t.fmt els ++ scs

/-- Bytes written into a folio. -/
def State.putFolio (s : State) (f off : Nat) (bs : List Byte) : State :=
  let x := s.folio f
  s.setFolio f { x with bytes := (List.range bs.length).foldl (fun m i => mset 0 m (off + i) (nth 0 bs i)) x.bytes }

/-- The result record of a command, at execution (R166). -/
def State.kernResult (s : State) (n : Nat) (c : KernCmd) (value : W32) : State :=
  s.putCase n (wn (cmdResult c.words)) (toBytes 8 (value.toNat <<< 32))

/-- The lines of folio bytes in the cabinet of a press's chase (R236) [log 85]. -/
def State.folioLines (s : State) (n f off len : Nat) (write : Bool) : State :=
  s.cabRange (chaseOf n) (folioKey f off) len write

/-- The copies of R172 and the slot writes of an APPEND. -/
def State.runAppend (s : State) (n : Nat) (c : KernCmd) : State :=
  let e : Env := { press := n, ctx := c.ctx }
  let s := c.copies.foldl (fun s p =>
    let size := folioBytes c.stm.folio
    ((s.setFolio p.2 { s.folio p.2 with bytes := (s.folio p.1).bytes }).folioLines n p.1 0 size false).folioLines n p.2 0
      size true) s
  let kd := tdOf (nth 0 c.descs 0)
  let vd := tdOf (nth 0 c.descs 1)
  let x := c.stm
  (List.range c.slots.length).foldl (fun s p =>
    let (f, i) := nth (0, 0) c.slots p
    let bs := (List.range x.hkv).flatMap fun h => s.headOf e kd x.dk h p ++ s.headOf e vd x.dv h p
    (s.putFolio f (i * slotBytes x) (padTo (slotBytes x) bs)).folioLines n f (i * slotBytes x) (slotBytes x) true) s

/-! ### Attention (R178 to R183) -/

/-- An element of a folio slot: its bit pattern and scale code. `off` is where the vector starts, `mx` whether scales
follow its `d` elements. -/
def State.slotElem (s : State) (f off fmt d : Nat) (mx : Bool) (i : Nat) : Nat × Nat :=
  let x := s.folio f
  let w := fmtWidth fmt
  let a := off + i * w / 8
  let v := ofBytes ((span a (ceilDiv (i * w % 8 + w) 8)).map fun b => mget 0 x.bytes b)
  ((v >>> (i * w % 8)) % 2 ^ w, if mx then (mget 0 x.bytes (off + rowBytes fmt d + i / 32)).toNat else 127)

/-- The folio and slot offset of a position that an ATTEND reads. -/
def KernCmd.at (c : KernCmd) (pos : Nat) : Nat × Nat :=
  (nth 0 c.keys (pos / perFolio c.stm), (pos % perFolio c.stm) * slotBytes c.stm)

/-- Key and value elements of a position for a head. -/
def State.keyElem (s : State) (c : KernCmd) (h pos i : Nat) : Nat × Nat :=
  let x := c.stm
  let (f, o) := c.at pos
  s.slotElem f (o + h * headBytes x) x.kfmt x.dk x.kmx i
def State.valElem (s : State) (c : KernCmd) (h pos i : Nat) : Nat × Nat :=
  let x := c.stm
  let (f, o) := c.at pos
  s.slotElem f (o + valOff x h) x.vfmt x.dv x.vmx i

/-- Whether node `q` is node `k` or descends from it, as the record stands now (R178). -/
def State.descends (s : State) (n : Nat) (a : Attend) (k : Nat) : Nat → Nat → Bool
  | 0, _ => false
  | fuel + 1, q => q == k || (s.parent n a q != 0xFF && decide (s.parent n a q < q) &&
      s.descends n a k fuel (s.parent n a q))

/-- Query position of a row, and position of a key (R177). -/
def State.qpAt (s : State) (n : Nat) (a : Attend) (r : Nat) : Int :=
  if a.isTree then s.qposOf n a r else (a.qpos + r / a.group : Nat)
def State.kpAt (s : State) (n : Nat) (a : Attend) (j : Nat) : Int :=
  if a.isTree && a.base ≤ j then s.kposOf n a (j - a.base) else j

/-- Whether key `j` is visible to row `r` (R178); `j` is below the length. A tree key whose node is out of range is not
visible (R179). -/
def State.visible (s : State) (n : Nat) (a : Attend) (r j : Nat) : Bool :=
  let kp := s.kpAt n a j
  let qp := s.qpAt n a r
  let order := match a.mask with
    | 0 => true
    | 1 => decide (kp ≤ qp)
    | 3 => decide (kp ≤ qp)
    | _ => decide (kp.fdiv a.blk ≤ qp.fdiv a.blk)
  if a.isTree && a.base ≤ j then
    let kn := s.knode n a (j - a.base)
    decide (kn < min 64 (s.nodes n a)) && s.descends n a kn 65 (s.qnode n a r) && order
  else order

/-- The frequency of a pair: ROPE_BASE^(−2i / d_k) rounded to FP32 (R182). -/
def ropeFreq (base : W32) (pair dk : Nat) : Num :=
  match decodeFloat Fmt.fp32 base.toNat with
  | .fin _ m e =>
    let (k, x) := fxLn m e
    (roundNear Fmt.fp32 (expReal (fxNum (-((k * fxLn2 + x) * (2 * pair : Nat) / (dk : Int)))))).1
  | w => w

/-- The angle of a position and pair: exact, or as a reduction with 64 bits of π leaves it, by a free choice (R182). -/
def ropeAngle (base : W32) (pos : Int) (pair dk : Nat) : Num :=
  let t := ((ofInt pos).mul (ropeFreq base pair dk)).1
  let d : Int := ((Config.rotary base pos pair dk).1 % (2 ^ 41 + 1) : Nat) - (2 ^ 40 : Nat)
  (t.add (t.mul (.fin (decide (d < 0)) d.natAbs (-104))).1).1

/-- Cosine and sine of a position's angle for a pair, each within 2 ulp of FP32 (R182). -/
def rotary (base : W32) (pos : Int) (pair dk : Nat) : Num × Num :=
  let t := ropeAngle base pos pair dk
  let c := Config.rotary base pos pair dk
  (within Fmt.fp32 2 (c.1 / (2 ^ 41 + 1)) (cosReal t), within Fmt.fp32 2 c.2 (sinReal t))

/-- A value of a vector before the scores product (R182, R183): its elements exact with their scales, or rotated. -/
def rotated (fmt : Nat) (a : Attend) (x : KStream) (pos : Int) (v : Nat → Num) (i : Nat) : Num :=
  let half := x.dk / 2
  let pair := if a.halves then i % half else i / 2
  let lo := if a.halves then pair else 2 * pair
  let hi := if a.halves then pair + half else 2 * pair + 1
  let (co, si) := rotary x.ropeBase (pos + x.ropeOff.toNat) pair x.dk
  let w (u : Num) : Num := (roundNear fmt u).1
  let m (u t : Num) : Num := (roundNear Fmt.fp32 (u.mul t).1).1
  let p := w (v lo)
  let q := w (v hi)
  let r := if i = lo then (m p co).sub (m q si) else (m p si).add (m q co)
  (roundNear fmt (roundNear Fmt.fp32 r.1).1).1

/-- The factors of the scores product of a row and a key, and whether they form block sums. -/
def State.scoreTerms (s : State) (n : Nat) (c : KernCmd) (a : Attend) (r j : Nat) : List Num × Flags :=
  let e : Env := { press := n, ctx := c.ctx }
  let q := tdOf (nth 0 c.descs 0)
  let x := c.stm
  let qn (i : Nat) : Num :=
    rawNum q.fmt q.mx (if q.mx then s.elemScale e q [] ⟨i, r, 0, 0⟩ else 127) (s.elemBits e q [] ⟨i, r, 0, 0⟩)
  let kn (i : Nat) : Num :=
    let (b, sc) := s.keyElem c a.head j i
    rawNum x.kfmt x.kmx sc b
  let fmt := (scoresFmt q.fmt x.kfmt).getD Fmt.bf16
  let qv (i : Nat) : Num := if a.rope then rotated fmt a x (s.qpAt n a r) qn i else qn i
  let kv (i : Nat) : Num := if a.rope then rotated fmt a x (s.kpAt n a j) kn i else kn i
  let ps := (List.range x.dk).map fun i => (qv i).mul (kv i)
  let nan := sawNan ((List.range x.dk).flatMap fun i => [qn i, kn i])
  let fl := ps.foldl (fun f p => f ||| p.2) nan
  if (q.mx || x.kmx) && !a.rope then
    let bs := (groups32 (ps.map (·.1))).map exactSum
    (bs.map (·.1), bs.foldl (fun f b => f ||| b.2) fl)
  else (ps.map (·.1), fl)

/-- One rounding to FP32. -/
def r32 (p : Num × Flags) : Num × Flags :=
  let (v, f) := roundNear Fmt.fp32 p.1
  (v, p.2 ||| f)

/-- exp2 and log2 of R148 in FP32. -/
def exp2Num (v : Num) : Num × Flags := transFn 1 .fp32 v
def log2Num (v : Num) : Num × Flags := transFn 3 .fp32 v

/-- The running state of a row (R180). -/
structure RowSt where
  m  : Num := .inf true
  l  : Num := .fin false 0 0
  o  : List Num := []
  fl : Flags := 0
  deriving DecidableEq, Repr

/-- The format in which normalized scores are held (R183). -/
def normFmt (x : KStream) (a : Attend) : Nat :=
  if fmtWidth x.vfmt = 16 then x.vfmt else if a.pwide then Fmt.bf16 else Fmt.e4m3

/-- ln 2 as FP32. -/
def ln2 : Num := decodeFloat Fmt.fp32 0x3F317218

/-- SCALE × log2(e), rounded once to FP32 (R180). log2(e) is taken with 64 fraction bits. -/
def scoreScale (a : Attend) : Num :=
  (roundNear Fmt.fp32 ((decodeFloat Fmt.fp32 a.scale).mul (.fin false 26613026195688644983 (-64))).1).1

/-- One granule of one row (R180): keys `js`, free choices numbered from `free`. -/
def State.granule (s : State) (n : Nat) (c : KernCmd) (a : Attend) (r free : Nat) (js : List Nat) (st : RowSt) : RowSt :=
  let x := c.stm
  let sc := (List.range js.length).map fun i =>
    let j := nth 0 js i
    if s.visible n a r j then
      let (ts, f1) := s.scoreTerms n c a r j
      let (d, f2) := freeFold Num.add Fmt.fp32 (free + 1024 * i) (ts.length + 1) ts
      let (v, f3) := r32 ((scoreScale a).mul d)
      (v, f1 ||| f2 ||| f3)
    else (Num.inf true, 0)
  let mNew := sc.foldl (fun m p => m.max p.1) st.m
  if mNew = .inf true then st
  else
    let (al, fa) := let (d, f) := r32 (st.m.sub mNew); let (v, f') := exp2Num d; (v, f ||| f')
    let ps := sc.map fun p => let (d, f) := r32 (p.1.sub mNew); let (v, f') := exp2Num d; (v, f ||| f' ||| p.2)
    let (la, fb) := r32 (st.l.mul al)
    let (l, fc) := freeFold Num.add Fmt.fp32 (free + 70000) (ps.length + 2) (la :: ps.map (·.1))
    let rp := ps.map fun p => roundNear (normFmt x a) p.1
    let outs := (List.range x.dv).map fun d =>
      let (oa, f0) := r32 ((nth (Num.fin false 0 0) st.o d).mul al)
      let ts := (List.range js.length).map fun i =>
        let (b, code) := s.valElem c a.head (nth 0 js i) d
        let v := rawNum x.vfmt x.vmx code b
        let (t, f) := (nth (Num.nan, 0) rp i).1.mul v
        ((t, f ||| sawNan [v]) : Num × Flags)
      let (o, f1) := freeFold Num.add Fmt.fp32 (free + 71000 + 1000 * d) (ts.length + 2) (oa :: ts.map Prod.fst)
      (o, ts.foldl (fun (f : Flags) (t : Num × Flags) => f ||| t.2) (f0 ||| f1))
    let fl := outs.foldl (fun f o => f ||| o.2) (st.fl ||| fa ||| fb ||| fc)
    let fl := ps.foldl (fun f p => f ||| p.2) fl
    { m := mNew, l := l, o := outs.map (·.1), fl := rp.foldl (fun f p => f ||| p.2) fl }

/-- The state of a row in a command, and back (R186). -/
def RowSt.pack (r : RowSt) : AttendRow :=
  { m := BitVec.ofNat 32 (fp32Bits r.m), l := BitVec.ofNat 32 (fp32Bits r.l)
    o := r.o.map fun v => BitVec.ofNat 32 (fp32Bits v), fl := r.fl }
def AttendRow.row (r : AttendRow) : RowSt :=
  let num (w : W32) : Num := decodeFloat Fmt.fp32 w.toNat
  { m := num r.m, l := num r.l, o := r.o.map num, fl := r.fl }

/-- The rows of an ATTEND before the granules that it still has to take. -/
def KernCmd.start (c : KernCmd) (a : Attend) : List RowSt :=
  if c.rows.isEmpty then List.replicate a.rows { o := List.replicate c.stm.dv (.fin false 0 0) }
  else c.rows.map (·.row)

/-- A row taken through granules. -/
def State.attendRow (s : State) (n : Nat) (c : KernCmd) (a : Attend) (r free : Nat) (gs : List (List Nat)) (st : RowSt) :
    RowSt :=
  gs.foldl (fun st g => s.granule n c a r (free + 400000 * (g.headD 0 / 64)) g st) st

/-- What a row yields after the last granule: its outputs, its log-sum-exp and its conditions (R180, R181). -/
def RowSt.yield (st : RowSt) (dv : Nat) (a : Attend) : List Num × Num × Flags :=
  if st.l.isZero then (List.replicate dv (.fin false 0 0), .inf true, innerFlags st.fl)
  else
    let os := st.o.map fun o => r32 (o.div st.l)
    let (lg, f1) := log2Num st.l
    let (t, f2) := r32 (st.m.add lg)
    let (v, f3) := r32 (t.mul ln2)
    (os.map (·.1), v, innerFlags (os.foldl (fun f o => f ||| o.2) (st.fl ||| (if a.lse then f1 ||| f2 else 0))) |||
      flagIf (os.any fun o => !o.1.finite && !o.1.isNan) (st.fl &&& Fl.of) ||| (if a.lse then f3 else 0))

/-- The granules of 64 keys that hold a key visible to at least one row (R185). -/
def State.granules (s : State) (n : Nat) (c : KernCmd) (a : Attend) : List (List Nat) :=
  ((List.range (ceilDiv c.len 64)).map fun g => span (64 * g) (min 64 (c.len - 64 * g))).filter fun js =>
    js.any fun j => (List.range a.rows).any fun r => s.visible n a r j

/-- NAN_SEEN where a query row with a score above −∞, or the keys and values of the fetched granules, hold a NaN: all of
them are read (R68, log 78). `live` are those rows; the others set no status bit (R181). -/
def State.attendNan (s : State) (n : Nat) (c : KernCmd) (a : Attend) (gs : List (List Nat)) (live : List Nat) : Flags :=
  let e : Env := { press := n, ctx := c.ctx }
  let q := tdOf (nth 0 c.descs 0)
  let x := c.stm
  if live.isEmpty then 0
  else sawNan ((q.coords.filter fun k => live.contains k.i1).map (fun k => s.elemNum e q [] k) ++ gs.flatten.flatMap fun j =>
    ((List.range x.dk).map fun i => let g := s.keyElem c a.head j i; rawNum x.kfmt x.kmx g.2 g.1) ++
    ((List.range x.dv).map fun i => let g := s.valElem c a.head j i; rawNum x.vfmt x.vmx g.2 g.1))

/-- A kern command that executes, changed. -/
def State.setKern (s : State) (n : Nat) (c : KernCmd) : State :=
  s.modPc n fun p => { p with ctRun := p.ctRun.map fun o => match o with
    | .kern d => if d.seq = c.seq then .kern c else o
    | _ => o }

/-- The effect of an ATTEND from where it stands: output, log-sum-exp, status and the result record, whose VALUE counts the
keys of the granules fetched (R180, R181). With a `stop` it takes that many spans of 128 keys more and stops at the
boundary, its rows saved (R186). -/
def State.runAttend (s : State) (n : Nat) (c : KernCmd) (stop : Option Nat) : State :=
  let a := attendOf c.words
  let gs := s.granules n c a
  let d := tdOf (nth 0 c.descs 1)
  let base := if c.rows.isEmpty then s.free else c.free
  let mark := match stop with | some k => (c.next / 128 + k) * 128 | none => 2 ^ 20
  let todo := gs.filter fun g => decide (c.next ≤ g.headD 0) && decide (g.headD 0 < mark)
  let sts := (List.range a.rows).map fun r =>
    s.attendRow n c a r (base + 2 ^ 40 * r) todo (nth {} (c.start a) r)
  let s := if c.rows.isEmpty then { s with free := s.free + 2 ^ 40 * a.rows } else s
  let s := todo.flatten.foldl (fun s j => s.folioLines n (c.at j).1 (c.at j).2 (slotBytes c.stm) false) s
  if stop.isSome then s.setKern n { c with rows := sts.map (·.pack), next := mark, free := base }
  else
  let rows := sts.map fun st => st.yield c.stm.dv a
  let nan := s.attendNan n c a gs ((List.range a.rows).filter fun r => decide ((nth {} sts r).m ≠ .inf true))
  let s := s.setKern n { c with rows := [] }
  let vs := rows.flatMap fun r => r.1
  let (rs, s) := s.srFor n (if drawsFor d.fmt a.nc then vs.length else 0)
  let (els, scs, fl) := convertAll d a.nc vs rs
  let s := (d.writeRuns [] els scs).foldl (fun s r => s.putCase n r.1 r.2) s
  let s := if a.lse then s.putCase n (wn a.lseOff) (rows.flatMap fun r => toBytes 4 (fp32Bits r.2.1)) else s
  let s := s.record n c.line (rows.foldl (fun f r => f ||| r.2.2) (fl ||| nan))
  s.kernResult n c (BitVec.ofNat 32 (sumL (gs.map List.length)))

/-! ### The pipeline -/

/-- The control operation at an index of a press's shared queue leaves it and runs (R492). -/
def State.startControl (s : State) (n idx : Nat) (o : CtOp) : State :=
  s.modPc n fun p => { p with ctq := p.ctq.eraseIdx idx, ctRun := p.ctRun ++ [o] }

/-- KERN_EXECUTE (R165): a command other than ATTEND moves its data and writes its result record, unless a command
accepted earlier on its stream has not executed. -/
def State.kernExecute (s : State) (n idx : Nat) (c : KernCmd) : State :=
  if !s.kernMay n c then s
  else
    let s := s.startControl n idx (.kern c)
    let s := if c.op = 2 then s.runAppend n c else s
    (s.kernResult n c c.value).sweepFolios

/-- ATTEND_EXECUTE (R180): from the start, or from where the command stopped (R186). -/
def State.attendExecute (s : State) (n idx : Nat) (c : KernCmd) (stop : Option Nat) : State :=
  if !s.kernMay n c then s else ((s.startControl n idx (.kern c)).runAttend n c stop).sweepFolios

end Sys2Proof.Machine
end

