-- ==== Sys2Proof/Machine/Galley.lean ====
section
/-! DEFINITION. The galley unit at acceptance (R190, R195 to R199, R208, R209, R217, R219). -/

namespace Sys2Proof.Machine

/-! ### Streams (R195, R198) -/

/-- A check of a galley command by ILLEGAL_OPCODE (R198). -/
def gbad (c : Bool) : Option (Status × W64) := failIf c St.illegalOpcode 0 none

/-- The head of every galley command (R163, R198); a case offset of the result record as R77 checks one. -/
def galleyHead (ws : List W64) : Option (Status × W64) :=
  let w := cmdWord ws 0
  firstOf [gbad (cmdOp ws == 0 || decide (10 < cmdOp ws) || !zeroIn w [(15, 4), (63, 56)]),
    failIf (cmdResult ws % 8 != 0 || decide (caseSize < cmdResult ws + 8)) St.caseRange (wn (cmdResult ws)) none]

/-- A named stream is open, the context's, and of this chase (R198). -/
def State.galleyOwned (s : State) (k : Lc) (h : Nat) : Option (Status × W64) :=
  match mfind? s.galley h with
  | some e => failIf (!e.isOpen || e.owner != k.c || e.chase != k.ch) St.streamInvalid 0 none
  | none => some (St.streamInvalid, 0)

/-- One reference more on the entry stays within its limit (R195). -/
def refRoom (e : GEntry) : Option (Status × W64) := failIf (decide (countLimit ≤ e.refs)) St.streamRefLimit 0 none

/-- Pages that the snapshot of a stream takes (R219). -/
def snapPages (e : GEntry) : Nat := ceilDiv (elemsOf e * stateBytes e.sfmt) 0x10000

/-- The check of a command on a stream for a press inside or outside a region (R219), but for its pages. `extra` counts streams that it
would bind besides. -/
def State.galleyBindChk (s : State) (k : Lc) (h extra : Nat) : Option (Status × W64) :=
  let e := s.gentry h
  match e.bound with
  | some (ch, r) =>
    if ch = k.ch && k.old.region = some r then
      failIf (decide (extra ≠ 0) && decide ((s.region ch r).gMax < (s.region ch r).gBound.length + extra))
        St.proofLimit 0 none
    else some (St.proofState, 0)
  | none => match s.openRegion k.n with
    | none => none
    | some r =>
      let g := s.region k.ch r
      failIf (decide (g.gMax < g.gBound.length + 1 + extra)) St.proofLimit 0 none

/-- The proof pages that the snapshot takes of a stream that the command binds (R219). -/
def State.snapNeed (s : State) (k : Lc) (h : Nat) : Nat :=
  if (s.gentry h).bound.isNone && (s.openRegion k.n).isSome then snapPages (s.gentry h) else 0

/-- The stream bound at acceptance of the region's first command on it; its snapshot is taken at execution (R219). -/
def State.galleyBind (s : State) (k : Lc) (h : Nat) : State :=
  let e := s.gentry h
  match e.bound, s.openRegion k.n with
  | none, some r =>
    let g := s.region k.ch r
    let s := s.setRegion k.ch r
      { g with used := g.used + snapPages e, gBound := g.gBound ++ [{ stream := h, pages := snapPages e }] }
    s.setGentry h { e with bound := some (k.ch, r) }
  | _, _ => s

/-- A stream born inside the region (R217). -/
def State.galleyBorn (s : State) (k : Lc) (h : Nat) : State :=
  match s.openRegion k.n with
  | none => s
  | some r =>
    let g := s.region k.ch r
    (s.setRegion k.ch r { g with gBound := g.gBound ++ [{ stream := h, born := true }] }).setGentry h
      { s.gentry h with bound := some (k.ch, r) }
def State.galleyBornChk (s : State) (k : Lc) : Option (Status × W64) :=
  match s.openRegion k.n with
  | none => none
  | some r =>
    let g := s.region k.ch r
    failIf (decide (g.gMax < g.gBound.length + 1)) St.proofLimit 0 none

/-! ### The command placed in the shared control queue -/

def State.freeGalley (s : State) : Option Nat := mfree s.galley 65536 0

def Lc.galleyCmd (k : Lc) (s : State) (f : CtF) (ws : List W64) : GalleyCmd :=
  { words := ws, op := cmdOp ws, stream := cmdStream ws, agen := (s.gentry (cmdStream ws)).agen, seq := s.nextCmd
    ctx := k.c, region := s.openRegion k.n, mark := ctMark f, pc := k.old.pc, line := k.old.retired.toNat }

def State.queueGalley (s : State) (k : Lc) (c : GalleyCmd) : State :=
  ({ s with nextCmd := s.nextCmd + 1 }).modPc k.n fun p => { p.take c.mark with ctq := p.ctq ++ [CtOp.galley c] }

def galleySlot (k : Lc) (f : CtF) (l : List (Option (Status × W64))) : List (Option (Status × W64)) :=
  [ctHead f, (lineCase (k.x f.xa)).orElse fun _ => firstOf l]

/-- A reference taken for an accepted command (R195). -/
def State.holdEntry (s : State) (h : Nat) : State := s.setGentry h { s.gentry h with refs := (s.gentry h).refs + 1 }

/-- A command on an existing stream accepted: bound, a reference taken, queued. -/
def State.acceptGalley (s : State) (k : Lc) (c : GalleyCmd) : State :=
  ((s.galleyBind k c.stream).holdEntry c.stream).queueGalley k c

/-! ### CREATE (R198, R199) -/

def blkSize (code : Nat) : Nat := 2 ^ code

/-- The entry that CREATE makes. -/
def galleyEntry (s : State) (k : Lc) (ws : List W64) : GEntry :=
  let w := cmdWord ws 1
  { chans := fld w 11 0 + 1, elems := fld w 19 12 + 1, blk := fld w 21 20, sfmt := fld w 23 22, stick := fld w 36 24
    reset := true, owner := k.c, part := (s.ctx k.c).part, chase := k.ch, isOpen := true, refs := 2 }

/-- Whether CREATE or FORK of an entry finds a table entry and two sets (R199). -/
def State.galleyRoom (s : State) (e : GEntry) : Bool :=
  s.freeGalley.isSome && decide (2 ≤ s.poolRoom e.part (Pool.galley (setClass e)))

def chkGalleyCreate (k : Lc) (s : State) (f : CtF) : Chk :=
  let ws := s.caseWords k.n (k.x f.xa)
  let e := galleyEntry s k ws
  { pre := firstOf (galleySlot k f [galleyHead ws,
      gbad (cmdStream ws != 0 || fld (cmdWord ws 1) 63 37 != 0 || !restZero ws 2 || e.sfmt == 3),
      failIf (decide (e.stick < 64) || decide (4096 < e.stick)) St.stickLength 0 none,
      failIf (decide (65536 < elemsOf e) || e.elems % blkSize e.blk != 0) St.shapeMismatch 0 none,
      if s.galleyRoom e then s.galleyBornChk k else none]) }

def doGalleyCreate (k : Lc) (s0 s : State) (f : CtF) : State :=
  let ws := s0.caseWords k.n (k.x f.xa)
  let e := galleyEntry s k ws
  let c := k.galleyCmd s f ws
  match s.freeGalley, s.twoSets e.part (setClass e) with
  | some h, some (a, b, s) =>
    let s := s.setGset a { s.gset a with share := 1 }
    ((s.setGentry h { e with cur := some a, spare := some b }).galleyBorn k h).queueGalley k
      { c with stream := h, new := h }
  | _, _ => s.queueGalley k { c with refused := true }

/-! ### FORK (R194, R208) -/

def chkGalleyFork (k : Lc) (s : State) (f : CtF) : Chk :=
  let ws := s.caseWords k.n (k.x f.xa)
  let h := cmdStream ws
  let e := s.gentry h
  let room := s.galleyRoom e
  { pre := firstOf (galleySlot k f [galleyHead ws, gbad (!restZero ws 1), s.galleyOwned k h, refRoom e,
      failIf (room && (match e.cur with
        | some a => decide (countLimit ≤ (s.gset a).share)
        | none => false)) St.streamRefLimit 0 none,
      s.galleyBindChk k h (if room && (s.openRegion k.n).isSome then 1 else 0)])
    snap := s.snapNeed k h }

def doGalleyFork (k : Lc) (s0 s : State) (f : CtF) : State :=
  let ws := s0.caseWords k.n (k.x f.xa)
  let h := cmdStream ws
  let c := k.galleyCmd s f ws
  let e := s.gentry h
  match s.freeGalley, s.twoSets e.part (setClass e) with
  | some g, some (a, b, s) =>
    let s := s.setGentry g { e with
      cur := none, spare := none, slot := none, res := .resident, isOpen := true, refs := 1, extra := [a, b]
      waiting := false, bound := none, starter := none, acts := [] }
    (s.galleyBorn k g).acceptGalley k { c with new := g }
  | _, _ => s.acceptGalley k { c with refused := true }

/-! ### Commands without words of their own (R196, R209, R217) -/

/-- The checks of a command that uses no word beyond word 0. -/
def chkPlain (k : Lc) (s : State) (f : CtF) : Chk :=
  let ws := s.caseWords k.n (k.x f.xa)
  let h := cmdStream ws
  { pre := firstOf (galleySlot k f [galleyHead ws, gbad (!restZero ws 1), s.galleyOwned k h, refRoom (s.gentry h),
      s.galleyBindChk k h 0])
    snap := s.snapNeed k h }

def chkGalleyReset (k : Lc) (s : State) (f : CtF) : Chk := chkPlain k s f
/-- RESET raises AGEN at acceptance (R209). -/
def doGalleyReset (k : Lc) (s0 s : State) (f : CtF) : State :=
  let c := k.galleyCmd s f (s0.caseWords k.n (k.x f.xa))
  let s := s.acceptGalley k c
  s.setGentry c.stream { s.gentry c.stream with agen := (s.gentry c.stream).agen + 1 }

def chkGalleySwapOut (k : Lc) (s : State) (f : CtF) : Chk := chkPlain k s f
def doGalleySwapOut (k : Lc) (s0 s : State) (f : CtF) : State :=
  s.acceptGalley k (k.galleyCmd s f (s0.caseWords k.n (k.x f.xa)))

def chkGalleySwapIn (k : Lc) (s : State) (f : CtF) : Chk := chkPlain k s f
def doGalleySwapIn (k : Lc) (s0 s : State) (f : CtF) : State :=
  s.acceptGalley k (k.galleyCmd s f (s0.caseWords k.n (k.x f.xa)))

def chkGalleyRelease (k : Lc) (s : State) (f : CtF) : Chk := chkPlain k s f

/-- RELEASE clears OPEN at acceptance (R196); of a stream that existed before the open region it only marks the stream
(R217). -/
def doGalleyRelease (k : Lc) (s0 s : State) (f : CtF) : State :=
  let c := k.galleyCmd s f (s0.caseWords k.n (k.x f.xa))
  let h := c.stream
  let s := s.acceptGalley k c
  let close (s : State) : State :=
    s.setGentry h { s.gentry h with isOpen := false, refs := (s.gentry h).refs - 1, bound := none }
  match (s.gentry h).bound with
  | none => close s
  | some (ch, r) =>
    let g := s.region ch r
    if g.gBound.any fun b => b.stream == h && b.born then
      close (s.setRegion ch r { g with gBound := g.gBound.filter fun b => b.stream != h })
    else s.setRegion ch r { g with
      gBound := g.gBound.map fun b => if b.stream = h then { b with releasing := true } else b }

/-! ### QUERY, LOAD, STORE -/

def chkGalleyQuery (k : Lc) (s : State) (f : CtF) : Chk :=
  let ws := s.caseWords k.n (k.x f.xa)
  let h := cmdStream ws
  let out := fld (cmdWord ws 1) 23 0
  { pre := firstOf (galleySlot k f [galleyHead ws, gbad (fld (cmdWord ws 1) 63 24 != 0 || !restZero ws 2),
      s.galleyOwned k h, failIf (out % 64 != 0 || decide (caseSize < out + 64)) St.caseRange (wn out) none,
      refRoom (s.gentry h), s.galleyBindChk k h 0])
    snap := s.snapNeed k h }
def doGalleyQuery (k : Lc) (s0 s : State) (f : CtF) : State :=
  s.acceptGalley k (k.galleyCmd s f (s0.caseWords k.n (k.x f.xa)))

/-- Formats of the tensors of a stream (R190). -/
def galleyFmt (e : GEntry) (fmt : Nat) : Bool :=
  fmt == Fmt.bf16 || fmt == Fmt.fp16 || fmt == Fmt.fp32 || (e.sfmt == 2 && fmt == Fmt.fp64)

/-- A descriptor of a galley command: its offset, R77, the rules of R190, its extents and its format. -/
def galleyDesc (s : State) (n off : Nat) (e : GEntry) (like : TD → Bool) : Option (Status × W64) :=
  let t := tdOf (s.caseDesc n off)
  firstOf [failIf (off % 64 != 0 || decide (caseSize < off + 64)) St.caseRange (wn off) none,
    failIf (t.mx || decide (1 < t.space)) St.descInvalid 0 none, t.bad [] false false,
    failIf (!galleyFmt e t.fmt) St.formatUnsupported 0 none, failIf (!like t) St.shapeMismatch 0 none]

/-- SDESC of LOAD and STORE. -/
def sdescOf (ws : List W64) : Nat := fld (cmdWord ws 1) 23 0
/-- Ranges of a descriptor in memory. -/
def memRanges (t : TD) : List (W64 × Nat) := if t.space = 0 then t.ranges [] else []

def chkGalleyLoad (k : Lc) (s : State) (f : CtF) : Chk :=
  let ws := s.caseWords k.n (k.x f.xa)
  let h := cmdStream ws
  let e := s.gentry h
  { pre := firstOf (galleySlot k f [galleyHead ws, gbad (fld (cmdWord ws 1) 63 24 != 0 || !restZero ws 2),
      s.galleyOwned k h, galleyDesc s k.n (sdescOf ws) e fun t => t.extents e.elems e.chans 1 1, refRoom e,
      s.galleyBindChk k h 0])
    snap := s.snapNeed k h
    post := s.rangesFault k.c .rd 0 (memRanges (tdOf (s.caseDesc k.n (sdescOf ws)))) }
def doGalleyLoad (k : Lc) (s0 s : State) (f : CtF) : State :=
  let ws := s0.caseWords k.n (k.x f.xa)
  let c := { k.galleyCmd s f ws with descs := [s0.caseDesc k.n (sdescOf ws)] }
  let s := s.acceptGalley k c
  s.setGentry c.stream { s.gentry c.stream with agen := (s.gentry c.stream).agen + 1 }

/-- NC of STORE. -/
def storeNc (ws : List W64) : BitVec 4 := (cmdWord ws 1).extractLsb' 32 4

def chkGalleyStore (k : Lc) (s : State) (f : CtF) : Chk :=
  let ws := s.caseWords k.n (k.x f.xa)
  let h := cmdStream ws
  let e := s.gentry h
  let rs := memRanges (tdOf (s.caseDesc k.n (sdescOf ws)))
  { pre := firstOf (galleySlot k f [galleyHead ws,
      gbad (!zeroIn (cmdWord ws 1) [(31, 24), (63, 36)] || !restZero ws 2), ncChk (storeNc ws) none,
      s.galleyOwned k h, galleyDesc s k.n (sdescOf ws) e fun t => t.extents e.elems e.chans 1 1, refRoom e,
      s.galleyBindChk k h 0])
    snap := s.snapNeed k h
    writes := rs
    post := s.rangesFault k.c .wr 0 rs }
def doGalleyStore (k : Lc) (s0 s : State) (f : CtF) : State :=
  let ws := s0.caseWords k.n (k.x f.xa)
  s.acceptGalley k { k.galleyCmd s f ws with descs := [s0.caseDesc k.n (sdescOf ws)] }

/-! ### STICK (R190, R198, R201) -/

/-- The fields of STICK. -/
structure Stick where
  u : Nat
  a : Nat
  r : Nat
  y : Nat
  h : Nat
  t : Nat
  acoef : Bool
  emitY : Bool
  emitH : Bool
  nc : BitVec 4
  deriving DecidableEq, Repr

def stickOf (ws : List W64) (e : GEntry) : Stick :=
  let w1 := cmdWord ws 1
  let w2 := cmdWord ws 2
  let w3 := cmdWord ws 3
  let w4 := cmdWord ws 4
  { u := fld w1 23 0, a := fld w1 55 32, r := fld w2 23 0, y := fld w2 55 32, h := fld w3 23 0
    t := if fld w3 44 32 = 0 then e.stick else fld w3 44 32
    acoef := flag w4 0, emitY := flag w4 1, emitH := flag w4 2, nc := w4.extractLsb' 3 4 }

/-- The descriptors that a stick uses, by their offsets: none for a tensor that it does not name. -/
def State.stickDescs (s : State) (n : Nat) (p : Stick) : List Desc :=
  [s.caseDesc n p.u, s.caseDesc n p.a, if p.emitY then s.caseDesc n p.r else 0,
    if p.emitY then s.caseDesc n p.y else 0, if p.emitH then s.caseDesc n p.h else 0]
def stickTd (ds : List Desc) (i : Nat) : TD := tdOf (nth 0 ds i)
/-- Ranges of memory that a stick reads, and those that it writes. -/
def stickReads (p : Stick) (ds : List Desc) : List (W64 × Nat) :=
  memRanges (stickTd ds 0) ++ memRanges (stickTd ds 1) ++ (if p.emitY then memRanges (stickTd ds 2) else [])
def stickWrites (p : Stick) (ds : List Desc) : List (W64 × Nat) :=
  (if p.emitY then memRanges (stickTd ds 3) else []) ++ (if p.emitH then memRanges (stickTd ds 4) else [])

/-- The extents of A (R190). -/
def coefLike (e : GEntry) (t : Nat) (a : TD) : Bool :=
  let b := blkSize e.blk
  (if b = 1 then a.e0 == e.elems || a.e0 == 1 else a.e0 == e.elems * b) &&
    (a.e1 == e.chans || a.e1 == 1) && a.e2 == t && a.e3 == 1

def chkGalleyStick (k : Lc) (s : State) (f : CtF) : Chk :=
  let ws := s.caseWords k.n (k.x f.xa)
  let h := cmdStream ws
  let e := s.gentry h
  let p := stickOf ws e
  let ds := s.stickDescs k.n p
  { pre := firstOf (galleySlot k f [galleyHead ws,
      gbad (!zeroIn (cmdWord ws 1) [(31, 24), (63, 56)] || !zeroIn (cmdWord ws 2) [(31, 24), (63, 56)] ||
        !zeroIn (cmdWord ws 3) [(31, 24), (63, 45)] || fld (cmdWord ws 4) 63 7 != 0 || !restZero ws 5),
      ncChk p.nc none, s.galleyOwned k h, gbad (p.acoef && e.blk != 0),
      failIf (decide (p.t < 64) || decide (4096 < p.t)) St.stickLength 0 none,
      galleyDesc s k.n p.u e fun t => t.extents e.elems e.chans p.t 1,
      galleyDesc s k.n p.a e (coefLike e p.t),
      if p.emitY then galleyDesc s k.n p.r e fun t =>
        t.e0 == e.elems && (t.e1 == e.chans || t.e1 == 1) && t.e2 == p.t && t.e3 == 1 else none,
      if p.emitY then galleyDesc s k.n p.y e fun t => t.extents e.chans p.t 1 1 else none,
      if p.emitH then galleyDesc s k.n p.h e fun t => t.extents e.elems e.chans p.t 1 else none,
      refRoom e, s.galleyBindChk k h 0])
    snap := s.snapNeed k h
    writes := stickWrites p ds
    post := firstOf [s.rangesFault k.c .rd 0 (stickReads p ds), s.rangesFault k.c .wr 0 (stickWrites p ds)] }

def doGalleyStick (k : Lc) (s0 s : State) (f : CtF) : State :=
  let ws := s0.caseWords k.n (k.x f.xa)
  let p := stickOf ws (s.gentry (cmdStream ws))
  s.acceptGalley k { k.galleyCmd s f ws with steps := p.t, descs := s0.stickDescs k.n p }

end Sys2Proof.Machine
end

