-- ==== Sys2Proof/Machine/GalleyRun.lean ====
section
/-! DEFINITION. The galley unit at execution (R189 to R194, R200 to R208, R212): sticks, loads and stores, forks, residency. -/

namespace Sys2Proof.Machine

/-! ### Order of execution (R197) and results -/

/-- The streams that a command is on: a refused CREATE is on none (R199), a FORK is on its source and on the stream that it
makes (R197). -/
def GalleyCmd.streams (c : GalleyCmd) : List Nat :=
  if c.op = 1 then (if c.refused then [] else [c.new])
  else if c.op = 3 && !c.refused then [c.stream, c.new] else [c.stream]
def CtOp.galleyStreams : CtOp → Nat × List Nat
  | .galley c => (c.seq, c.streams)
  | _ => (0, [])
def CtOp.isGalley : CtOp → Bool
  | .galley _ => true
  | _ => false
/-- Whether a command may execute on press `n`: the galley unit of the chase executes no other, and every command accepted
earlier on a stream of this one has executed (R197). -/
def State.galleyMay (s : State) (n : Nat) (c : GalleyCmd) : Bool :=
  let mine := c.streams
  !((s.runningIn (chaseOf n)).any (·.isGalley)) &&
  !s.waitingControls.any fun o => o.isGalley && decide (o.galleyStreams.1 < c.seq) &&
    o.galleyStreams.2.any fun h => mine.contains h

/-- Whether a stream does not stand between two commands: one of its commands executes or is a stopped stick, or the FORK that
makes it has not executed (R205, R209). `but` is the number of a command left out of account. -/
def State.streamBusy (s : State) (h : Nat) (but : Option Nat) : Bool :=
  let mine (o : CtOp) (stopped : Bool) : Bool := match o with
    | .galley c => c.streams.contains h && but != some c.seq && (!stopped || c.part.isSome)
    | _ => false
  (s.presses.any fun e => e.2.runningControls.any fun o => mine o false) || (s.waitingControls.any fun o => mine o true) ||
    ((s.gentry h).cur.isNone && !(s.gentry h).extra.isEmpty)

/-- The result record of a galley command (R166, R196). -/
def State.galleyResult (s : State) (n : Nat) (c : GalleyCmd) (st : Status) (value : Nat) : State :=
  s.putCase n (wn (cmdResult c.words)) (toBytes 8 (st.toNat + (value % 2 ^ 32) <<< 32))

/-- A galley command that executes, changed. -/
def State.setRunning (s : State) (n : Nat) (c : GalleyCmd) : State :=
  s.modPc n fun p => { p with ctRun := p.ctRun.map fun o => match o with
    | .galley d => if d.seq = c.seq then .galley c else o
    | _ => o }

/-- A command's own entry in the queue replaced. -/
def State.setGalley (s : State) (n : Nat) (c : GalleyCmd) : State :=
  s.modPc n fun p => { p with ctq := p.ctq.map fun o => match o with
    | .galley d => if d.seq = c.seq then .galley c else o
    | _ => o }

/-! ### State values (R191) -/

/-- The format in which a state is computed. -/
def stateFmt (sfmt : Nat) : Nat := if sfmt = 2 then Fmt.fp64 else Fmt.fp32

/-- A state element: value word and, under FP32C, compensation word, as exact values. -/
structure Elem where
  v : Num := .fin false 0 0
  c : Num := .fin false 0 0
  deriving DecidableEq, Repr
/-- The value that a pair carries. -/
def Elem.full (e : Elem) : Num := if e.v.finite then (e.v.add e.c).1 else e.v

/-- Element `i` of the state of a stream: zero while RESET is set. -/
def stateElem (e : GEntry) (vals : Map Nat) (i : Nat) : Elem :=
  if e.reset then {}
  else
    { v := decodeFloat (stateFmt e.sfmt) (mget 0 vals i)
      c := if e.sfmt = 1 then decodeFloat Fmt.fp32 (mget 0 vals (elemsOf e + i)) else .fin false 0 0 }

/-- The state words of a list of elements. -/
def stateVals (e : GEntry) (l : List Elem) : Map Nat :=
  let f := stateFmt e.sfmt
  let put (m : Map Nat) (i : Nat) (v : Num) : Map Nat := mset 0 m i (toFloat f 0 0 v).1
  (List.range l.length).foldl (fun m i =>
    let x := nth {} l i
    let m := put m i x.v
    if e.sfmt = 1 then put m (elemsOf e + i) x.c else m) []

/-- The words of a stream's current set, or of its swap slot. -/
def State.curVals (s : State) (e : GEntry) : Map Nat :=
  match e.cur with
  | some a => (s.gset a).vals
  | none => match e.slot with
    | some k => (mget ({} : GSlot) s.gslots k).vals
    | none => []

/-! ### The snapshot of a bound stream (R219) -/

/-- The first command of the region on a stream that existed before it takes the snapshot when it executes; a command
accepted before the stream was bound is not of the region (R217). -/
def State.takeSnap (s : State) (c : GalleyCmd) : State :=
  let h := c.stream
  let e := s.gentry h
  match e.bound with
  | none => s
  | some (ch, r) =>
    if c.region ≠ some r then s
    else
    let g := s.region ch r
    s.setRegion ch r { g with gBound := g.gBound.map fun b =>
      if b.stream = h && !b.born && b.snap.isNone then
        { b with snap := some { reset := e.reset, vals := if e.reset then [] else s.curVals e, steps := e.steps
                                err := e.err, comp := e.comp } }
      else b }

/-! ### Affine steps in a free grouping (R192) -/

/-- An affine map on the `b` elements of a block: matrix rows and vector; no rows for the initial state. `g` is the sum of
the logarithms of a run of decays supplied in log form (R189). -/
structure Aff where
  a : List (List Num) := []
  u : List Num := []
  g : Option Num := none
  fl : Flags := 0

/-- 2^g: infinities and NaN as R148 has them. -/
def decayReal (g : Num) : Num :=
  match g with
  | .inf true => .fin false 0 0
  | .inf false => .inf false
  | w => exp2Real w

/-- A row times a vector, plus terms: products rounded, summed in a free order (R192). -/
def rowDot (fmt free : Nat) (row v extra : List Num) : Num × Flags :=
  let ps := (List.range row.length).map fun k =>
    let (p, f) := (nth .nan row k).mul (nth .nan v k)
    let (q, g) := roundNear fmt p
    ((q, f ||| g) : Num × Flags)
  let items := ps.map Prod.fst ++ extra
  let (t, f) := freeFold Num.add fmt free (items.length + 1) items
  (t, ps.foldl (fun (x : Flags) p => x ||| p.2) f)

/-- The composition of two steps, the first one first. Under ACOEF the coefficient of a run is, by a free choice, the product
of its parts or the exponential of the sum of their logarithms, rounded once (R192) [log 77]. -/
def Aff.then_ (fmt free : Nat) (m m' : Aff) : Aff :=
  let col (j : Nat) : List Num := m.a.map fun r => nth .nan r j
  let rows := if m.a.isEmpty then [] else (List.range m'.a.length).map fun i =>
    (List.range m'.a.length).map fun j => rowDot fmt (free + 64 * (8 * i + j)) (nth [] m'.a i) (col j) []
  let us := (List.range m'.a.length).map fun i =>
    rowDot fmt (free + 8192 + 64 * i) (nth [] m'.a i) m.u [nth .nan m'.u i]
  let fl := us.foldl (fun (x : Flags) p => x ||| p.2) (m.fl ||| m'.fl)
  let g := match m.g, m'.g with
    | some x, some y => some (x.add y).1
    | _, _ => none
  let rows := match g, Config.pick (free + 16383) % 2 with
    | some x, 1 => [[roundNear fmt (decayReal x)]]
    | _, _ => rows
  { a := rows.map fun r => r.map Prod.fst, u := us.map Prod.fst, g := g
    fl := rows.foldl (fun x r => r.foldl (fun (x : Flags) p => x ||| p.2) x) fl }

/-- A list of steps composed in a free grouping. -/
def groupAff (fmt free : Nat) : Nat → List Aff → Aff
  | 0, l => l.headD {}
  | fuel + 1, l =>
    match l with
    | [] => {}
    | [m] => m
    | _ =>
      let i := Config.pick free % (l.length - 1)
      let m := Aff.then_ fmt (free + 1) (nth {} l i) (nth {} l (i + 1))
      groupAff fmt (free + 16384) fuel (l.take i ++ m :: l.drop (i + 2))

/-! ### A stick (R189, R191, R192) -/

/-- What a stick computes with: entry, fields, descriptors and the reads' environment. -/
structure StickRun where
  e  : GEntry
  p  : Stick
  ds : List Desc
  env : Env

def StickRun.fmt (k : StickRun) : Nat := stateFmt k.e.sfmt
def StickRun.b (k : StickRun) : Nat := blkSize k.e.blk

/-- An element of a tensor of the stick. -/
def State.stickNum (s : State) (k : StickRun) (i : Nat) (c : Coord) : Num := s.elemNum k.env (stickTd k.ds i) [] c

/-- A[t, c, x] with extents of 1 spread (R189). -/
def State.coefWord (s : State) (k : StickRun) (t c x : Nat) : Num :=
  let a := stickTd k.ds 1
  s.stickNum k 1 ⟨if a.e0 = 1 then 0 else x, if a.e1 = 1 then 0 else c, t, 0⟩
/-- The coefficient exactly: under ACOEF the exponential of A (R189). -/
def State.coef (s : State) (k : StickRun) (t c x : Nat) : Num :=
  let v := s.coefWord k t c x
  if k.p.acoef then decayReal v else v
/-- The coefficient in the state format: exp2 is one operation of R189, rounded to nearest (R192). -/
def State.coefR (s : State) (k : StickRun) (t c x : Nat) : Num × Flags :=
  if k.p.acoef then roundNear k.fmt (s.coef k t c x) else (s.coef k t c x, 0)
/-- U[t, c, n]. -/
def State.input (s : State) (k : StickRun) (t c n : Nat) : Num := s.stickNum k 0 ⟨n, c, t, 0⟩

/-- The step of a block (channel `c`, first element `j`) at step `t`. -/
def State.stepAff (s : State) (k : StickRun) (t c j : Nat) : Aff :=
  let b := k.b
  let rows := (List.range b).map fun i => (List.range b).map fun m =>
    if b = 1 then s.coefR k t c j else s.coefR k t c ((j + i) * b + m)
  let us := (List.range b).map fun i => s.input k t c (j + i)
  let as_ := rows.map fun r => r.map Prod.fst
  { a := as_, u := us, g := if k.p.acoef then some (s.coefWord k t c j) else none
    fl := (rows.flatten).foldl (fun (f : Flags) p => f ||| p.2) (sawNan (as_.flatten ++ us)) }

/-- The state after step `t` under FP32 or FP64: each value in a free grouping of the steps (R192). -/
def State.prefixState (s : State) (k : StickRun) (h0 : List Elem) (t : Nat) : List Elem × Flags :=
  let b := k.b
  let n := k.e.elems
  let blocks := (List.range (elemsOf k.e / b)).map fun q =>
    let i := q * b
    let start : Aff := { u := (List.range b).map fun m => (nth {} h0 (i + m)).v }
    groupAff k.fmt (s.free + 2 ^ 30 * (elemsOf k.e * t + i)) (t + 3)
      (start :: (List.range (t + 1)).map fun u => s.stepAff k u (i / n) (i % n))
  (blocks.flatMap fun m => m.u.map fun v => { v := v }, blocks.foldl (fun (f : Flags) m => f ||| m.fl) 0)

/-- The coefficient that a step multiplies by: under FP32C to more than the pair's precision. -/
def State.coefUsed (s : State) (k : StickRun) (t c x : Nat) : Num :=
  if k.e.sfmt = 1 then s.coef k t c x else (s.coefR k t c x).1

/-- The exact result of one step for an element, from the state before it. -/
def State.exactStep (s : State) (k : StickRun) (h : List Elem) (t i : Nat) : Num :=
  let n := k.e.elems
  let b := k.b
  let c := i / n
  let x := i % n
  if b = 1 then (((s.coefUsed k t c x).mul (nth {} h i).full).1.add (s.input k t c x)).1
  else
    let j := i / b * b
    (exactSum (s.input k t c x :: (List.range b).map fun m =>
      ((s.coefUsed k t c (x * b + m)).mul (nth {} h (j + m)).full).1)).1

/-- A value as its value word and its compensation word. -/
def splitPair (y : Num) : Elem × Flags :=
  let (v, f) := roundNear Fmt.fp32 y
  ({ v := v, c := if v.finite then (roundNear Fmt.fp32 (y.sub v).1).1 else .fin false 0 0 }, f)

/-- A pair whose sum lies within 2^−48 of the magnitude of an exact value, by a free choice (R192). -/
def pairOf (free : Nat) (x : Num) : Elem × Flags :=
  match x with
  | .fin n m e =>
    let p := splitPair (.fin n (m * (2 ^ 60 - 4096 + Config.pick free % 8193)) (e - 60))
    let off := (p.1.full.sub x).1.abs
    if decide (off.cmp (.fin false m (e - 48)) = some .gt) then splitPair x else p
  | w => splitPair w

/-- The states after each step under FP32C. -/
def State.pairStates (s : State) (k : StickRun) (h0 : List Elem) : List (List Elem) × Flags :=
  let r := (List.range k.p.t).foldl (fun (acc : List (List Elem) × List Elem × Flags) t =>
    let ps := (List.range (elemsOf k.e)).map fun i =>
      pairOf (s.free + 2 ^ 30 * (elemsOf k.e * t + i)) (s.exactStep k acc.2.1 t i)
    let l := ps.map Prod.fst
    (acc.1 ++ [l], l, ps.foldl (fun (f : Flags) p => f ||| p.2) acc.2.2)) ([], h0, 0)
  (r.1, r.2.2)

/-- Conditions of a value that a step computed, from what it read and from the exact result: NAN_SEEN and NV of its
operands, OF and UF of the state value (R68, log 78). -/
def valueFlags (fmt : Nat) (ins : List Num) (y : Elem) (exact : Num) : Flags :=
  if ins.any Num.isNan then Fl.nanSeen
  else if y.v.isNan then Fl.nv
  else if !exact.finite then 0
  else flagIf (!y.v.finite) Fl.of |||
    flagIf (tinyInexact fmt y.v exact && decide (y.full.cmp exact ≠ some .eq)) Fl.uf

/-- What a step reads for an element: its input, its coefficients and the state before it. -/
def State.stepReads (s : State) (k : StickRun) (h : List Elem) (t i : Nat) : List Num :=
  let n := k.e.elems
  let b := k.b
  let c := i / n
  let x := i % n
  let j := i / b * b
  s.input k t c x :: (List.range b).flatMap fun m =>
    [s.coefWord k t c (if b = 1 then x else x * b + m), (nth {} h (j + m)).v]

/-- The conditions of all values of a stick. -/
def State.stickFlags (s : State) (k : StickRun) (h0 : List Elem) (hs : List (List Elem)) : Flags :=
  (List.range k.p.t).foldl (fun (f : Flags) t =>
    let prev := if t = 0 then h0 else nth [] hs (t - 1)
    (List.range (elemsOf k.e)).foldl (fun (f : Flags) i =>
      f ||| valueFlags k.fmt (s.stepReads k prev t i) (nth {} (nth [] hs t) i) (s.exactStep k prev t i)) f) 0

/-- The states after each step of a stick, with their conditions. -/
def State.stickStates (s : State) (k : StickRun) (h0 : List Elem) : List (List Elem) × Flags :=
  let (hs, f) : List (List Elem) × Flags :=
    if k.e.sfmt = 1 then s.pairStates k h0
    else
      let l := (List.range k.p.t).map (s.prefixState k h0)
      (l.map Prod.fst, l.foldl (fun (f : Flags) p => f ||| p.2) 0)
  (hs, innerFlags f ||| s.stickFlags k h0 hs)

/-- The readout of a step and channel (R189): in the state format, under FP32C as the pairs carry it (R191, R192). OF
where it is infinite and all it read is finite. -/
def State.readout (s : State) (k : StickRun) (h : List Elem) (t c : Nat) : Num × Flags :=
  let r := stickTd k.ds 2
  let row := (List.range k.e.elems).map fun n => s.stickNum k 2 ⟨n, if r.e1 = 1 then 0 else c, t, 0⟩
  let v := (List.range k.e.elems).map fun n => (nth {} h (c * k.e.elems + n)).full
  let free := s.free + 2 ^ 62 + 2 ^ 20 * (k.e.chans * t + c)
  let (y, f) :=
    if k.e.sfmt = 1 then
      let ps := (List.range row.length).map fun i => (nth .nan row i).mul (nth .nan v i)
      let (x, g) := exactSum (ps.map Prod.fst)
      ((pairOf free x).1.full, ps.foldl (fun (f : Flags) p => f ||| p.2) g)
    else rowDot k.fmt free row v []
  (y, innerFlags f ||| sawNan row ||| flagIf (!y.finite && !y.isNan && (row ++ v).all Num.finite) Fl.of)

/-! ### Drift telemetry (R212) -/

/-- A nonnegative value rounded up into FP32. -/
def roundUp32 (v : Num) : Nat :=
  let b := (toFloat Fmt.fp32 1 0 v).1
  match (decodeFloat Fmt.fp32 b).cmp v with
  | some .lt => b + 1
  | _ => b

/-- The ratio of two magnitudes. -/
def ratio (a b : Num) : Num := (a.abs.div b.abs).1
/-- The largest of a list of ratios; zero for none. -/
def maxNum (l : List Num) : Num := l.foldl Num.max (.fin false 0 0)

/-- ERR_BOUND and COMP_MAX after a stick. -/
def State.drift (s : State) (k : StickRun) (h0 : List Elem) (hs : List (List Elem)) : W32 × W32 :=
  let elems := List.range (elemsOf k.e)
  let step (t : Nat) : Num :=
    let prev := if t = 0 then h0 else nth [] hs (t - 1)
    maxNum (elems.filterMap fun i =>
      let y := (nth {} (nth [] hs t) i).full
      if y.finite && !y.isZero then some (ratio ((y.sub (s.exactStep k prev t i)).1) y) else none)
  let err := (List.range k.p.t).foldl (fun b t =>
    roundUp32 ((decodeFloat Fmt.fp32 b).add (step t)).1) k.e.err.toNat
  let comp := if k.e.sfmt ≠ 1 then k.e.comp.toNat else
    (toFloat Fmt.fp32 0 0 (maxNum (decodeFloat Fmt.fp32 k.e.comp.toNat :: hs.flatMap fun h => h.filterMap fun x =>
      if x.v.finite && !x.v.isZero then some (ratio x.c x.v) else none))).1
  (BitVec.ofNat 32 err, BitVec.ofNat 32 comp)

/-! ### Outputs -/

/-- A tensor of a galley command written under NC, to the case or to memory; remote and host parts become requests, or
proof-queue entries inside a region. Values in the order of elements. -/
def State.galleyWrite (s : State) (n : Nat) (c : GalleyCmd) (env : Env) (t : TD) (nc : BitVec 4) (vs : List Num) :
    State × Flags :=
  let (rs, s) := s.srFor n (if drawsFor t.fmt nc then vs.length else 0)
  let (els, _, fl) := convertAll t nc vs rs
  let runs := t.writeRuns [] els []
  let s :=
    if t.space = 1 then runs.foldl (fun s r => s.putCase n r.1 r.2) s
    else
      let far := s.farParts c.ctx .wr (runs.map fun r => (r.1, r.2.length))
      let s := (s.putLocal env runs).wrote
      match (if env.prov then s.openRegion n else none) with
      | some r =>
        let pages := dedup (far.map fun p => p.2.1.toNat / 0x10000)
        pages.foldl (fun s pg => s.stageWrite (chaseOf n) r c.ctx pg
          ((far.filter fun p => p.2.1.toNat / 0x10000 == pg).map fun p => (p.2.1, partBytes runs p.2.1 p.2.2)) c.pc 5
          (some c.line)) s
      | none => far.foldl (fun s p =>
          s.askWrite { cause := .galleyWrite n c.seq, ctx := c.ctx, pc := c.pc, slot := 5, va := p.2.1 } p.1
            (partBytes runs p.2.1 p.2.2)) s
  (s, fl)

/-- State elements of a slice (R210). -/
def sliceElems (e : GEntry) : Nat := 256 / (blkSize e.blk * (if e.sfmt = 0 then 1 else if e.sfmt = 1 then 2 else 4))

/-- The words of the elements below `n` from one set, the others from another. -/
def mergeVals (e : GEntry) (n : Nat) (a b : Map Nat) : Map Nat :=
  (List.range (elemsOf e)).foldl (fun m i =>
    let src := if i < n then a else b
    let m := mset 0 m i (mget 0 src i)
    if e.sfmt = 1 then mset 0 m (elemsOf e + i) (mget 0 src (elemsOf e + i)) else m) []

/-- A stick run from the current set, or from zeros, into the spare set (step 3 of R201). With a `stop` it stops after that
many slices more: those finished stand in the spare set, and the slice index is kept (R210). -/
def State.runStick (s : State) (n : Nat) (c : GalleyCmd) (env : Env) (stop : Option Nat) : State :=
  let e := s.gentry c.stream
  let k : StickRun := { e := e, p := stickOf c.words e, ds := c.descs, env := env }
  let k := { k with p := { k.p with t := c.steps } }
  let cur := s.curVals e
  let h0 := (List.range (elemsOf e)).map (stateElem e cur)
  let base := if c.part.isSome then c.free else s.free
  let s0 := { s with free := base }
  let (hs, f0) := s0.stickStates k h0
  let (err, comp) := s0.drift k h0 hs
  let ys := (List.range c.steps).flatMap fun t => (List.range e.chans).map fun ch => s0.readout k (nth [] hs t) t ch
  let f0 := f0 ||| sawNan (h0.map Elem.full)
  let fl := if k.p.emitY then ys.foldl (fun (f : Flags) y => f ||| y.2) f0 else f0
  let s := if c.part.isSome then s else { s with free := s.free + 2 ^ 63 }
  let last := stateVals e ((hs.getLast?).getD h0)
  let past := (c.part.getD 0) * sliceElems e
  let vals (upTo : Nat) : Map Nat := match e.spare with
    | some p => mergeVals e past (s.gset p).vals (mergeVals e upTo last (s.gset p).vals)
    | none => last
  let done := if c.part.isSome then vals (elemsOf e) else last
  match stop with
  | some j =>
    let stand := min (ceilDiv (elemsOf e) (sliceElems e)) (c.part.getD 0 + j)
    let s := match e.spare with
      | some p => s.setGset p { s.gset p with vals := vals (stand * sliceElems e) }
      | none => s
    s.setRunning n { c with part := some stand, free := base }
  | none =>
  let s := match e.spare with
    | some p => (s.setGset p { s.gset p with vals := done }).swapSets c.stream
    | none => s
  let s := s.setRunning n { c with part := none }
  let s := s.setGentry c.stream { s.gentry c.stream with
    reset := false, steps := e.steps + wn c.steps, err := err, comp := comp }
  let (s, fl) := if k.p.emitH then
      let (s, f) := s.galleyWrite n c env (stickTd c.descs 4) k.p.nc (hs.flatMap fun h => h.map Elem.full)
      (s, fl ||| f)
    else (s, fl)
  let (s, fl) := if k.p.emitY then
      let (s, f) := s.galleyWrite n c env (stickTd c.descs 3) k.p.nc (ys.map Prod.fst)
      (s, fl ||| f)
    else (s, fl)
  (s.record n c.line fl).galleyResult n c St.ok c.steps

/-! ### Residency (R204 to R206) -/

/-- A swap-out begins (R204, R205): a free slot is taken and the stream becomes SWAPPING_OUT; false where it cannot. No
command of the stream executes. -/
def State.beginSwapOut (s : State) (h : Nat) : Bool × State :=
  let e := s.gentry h
  let u := slotUnits e
  if e.res = .resident && u ≤ s.poolRoom e.part Pool.swap then
    match mfree s.gslots (2 ^ 24) 0 with
    | some k =>
      let s := { s.poolTake e.part Pool.swap u with gslots := mput s.gslots k { part := e.part, units := u } }
      (true, s.setGentry h { e with res := .swappingOut, slot := some k })
    | none => (false, s)
  else (false, s)

/-- A swap-in begins (R204), by a waiting command of a press and Line or by none. -/
def State.beginSwapIn (s : State) (h : Nat) (who : Option (Nat × W64)) : State :=
  let e := s.gentry h
  let s := s.setGentry h { e with res := .swappingIn, waiting := false, starter := who }
  if who.isSome then s.bump .chase e.chase 0xA00 0 32 1 else s

/-- SWAP_OUT_END (R194, R204, R205): state and header written to the slot, two sets to the pool. -/
def State.endSwapOut (s : State) (h : Nat) : State :=
  let e := s.gentry h
  if e.res ≠ .swappingOut then s
  else
    let k := e.slot.getD 0
    let x := mget ({} : GSlot) s.gslots k
    let s := { s with gslots := mput s.gslots k { x with gen := e.gen, vals := s.curVals { e with slot := none } } }
    let s := match e.spare with | some a => s.freeSet a | none => s
    let s := match e.cur with
      | some a => match s.dropSet a with
        | (s, some b) => s.freeSet b
        | (s, none) => s
      | none => s
    s.setGentry h { s.gentry h with res := .swapped, cur := none, spare := none }

/-- The stream that autoswap takes next (R207): RESIDENT, of the partition and class, REFS = 1, oldest last execution; one
whose FORK has not executed has no current set yet. -/
def State.swapVictim (s : State) (part cls : Nat) : Option Nat :=
  (s.galley.foldl (fun (acc : Option (Nat × GEntry)) e =>
    if e.2.res = .resident && e.2.part == part && setClass e.2 == cls && e.2.refs == 1 && e.2.cur.isSome then
      match acc with
      | none => some e
      | some b => if e.2.lastExec < b.2.lastExec then some e else acc
    else acc) none).map (·.1)

/-- The charge of streams that are on their way out, in sets of a class. -/
def State.comingSets (s : State) (part cls : Nat) : Nat :=
  2 * (s.galley.filter fun e => e.2.res = .swappingOut && e.2.part == part && setClass e.2 == cls).length

/-- Autoswap for a waiting swap-in (R207): swap-outs begin until the sets on their way serve it or no stream remains. -/
def autoswap (part cls : Nat) : Nat → State → State
  | 0, s => s
  | fuel + 1, s =>
    if 2 ≤ s.poolRoom part (Pool.galley cls) + s.comingSets part cls then s
    else match s.swapVictim part cls with
      | none => s
      | some h => match s.beginSwapOut h with
        | (true, s) => autoswap part cls fuel (s.bump .chase (s.gentry h).chase 0xA08 0 32 1)
        | (false, s) => s

/-- SWAP_IN_END (R204, R206): two sets taken, the slot read and checked; while the pool is short the swap-in waits, and
autoswap may free sets for it. A bad slot is an uncorrectable error: a fault found after issue of the Line whose waiting
command started the swap-in, and otherwise the end of the owner (R98). -/
def State.endSwapIn (s : State) (h : Nat) (good : Bool) : State :=
  let e := s.gentry h
  if e.res ≠ .swappingIn then s
  else match s.twoSets e.part (setClass e) with
    | none =>
      let s := if e.waiting then s else
        (s.setGentry h { e with waiting := true }).bump .chase e.chase 0xA08 32 32 1
      if (s.part e.part).autoswap then autoswap e.part (setClass e) 65536 s else s
    | some (a, b, s) =>
      let k := e.slot.getD 0
      let x := mget ({} : GSlot) s.gslots k
      let s := (s.setGset a { s.gset a with share := 1, vals := x.vals })
      let s := ({ s with gslots := mdel s.gslots k }).poolGive x.part Pool.swap x.units
      let s := s.setGentry h { e with
        res := .resident, cur := some a, spare := some b, slot := none, waiting := false, starter := none }
      if good then s
      else match e.starter with
      | some (n, pc) => s.late n e.owner St.hbmUncorrectable 5 pc 0
      | none => (s.teardown e.owner St.hbmUncorrectable).rasError 3 St.hbmUncorrectable
        { cause := 0x02, ctx := some e.owner, locKind := 2, loc := e.chase }

/-! ### The other commands (R200, R208) -/

/-- A command that needs a RESIDENT stream: a swapped one starts its swap-in (R204); true once it is RESIDENT. -/
def State.needResident (s : State) (n : Nat) (c : GalleyCmd) : Bool × State :=
  match (s.gentry c.stream).res with
  | .resident => (true, s)
  | .swapped => (false, s.beginSwapIn c.stream (some (n, c.pc)))
  | _ => (false, s)

def State.runReset (s : State) (h : Nat) : State :=
  let e := s.gentry h
  s.setGentry h { e with reset := true, gen := e.gen + 1, steps := 0, err := 0, comp := 0 }

/-- The words of a loaded state: every compensation word is zero (R200). -/
def loadVals (e : GEntry) (l : List Num) : Map Nat := stateVals { e with reset := false } (l.map fun v => { v := v })

/-- A state written into the spare set, which then becomes current (R194, R200). -/
def State.installState (s : State) (h : Nat) (vals : Map Nat) : State :=
  let e := s.gentry h
  let s := match e.spare with
    | some p => (s.setGset p { s.gset p with vals := vals }).swapSets h
    | none => s
  s.setGentry h { s.gentry h with reset := false, gen := e.gen + 1, steps := 0, err := 0, comp := 0 }

/-- Words 2 to 7 of an entry, zeros before them (R200 and *The stream table*). -/
def entryImage (e : GEntry) : List Byte :=
  let res := match e.res with | .resident => 0 | .swappingOut => 1 | .swapped => 2 | .swappingIn => 3
  let w2 := (e.chans - 1) + ((e.elems - 1) <<< 12) + (e.blk <<< 20) + (e.sfmt <<< 22) + (e.stick <<< 24) +
    (b2n e.reset <<< 37) + (res <<< 38) + (e.owner <<< 40) + (e.part <<< 52) + (e.chase <<< 55) + (b2n e.isOpen <<< 59)
  toBytes 16 0 ++ toBytes 8 w2 ++ toBytes 8 (e.gen.toNat + (e.agen.toNat <<< 32)) ++ toBytes 8 e.refs ++
    toBytes 8 e.steps.toNat ++ toBytes 8 (e.err.toNat + (e.comp.toNat <<< 32)) ++ toBytes 8 0

/-- A FORK at execution (R208). -/
def State.runFork (s : State) (h g : Nat) : State :=
  let e := s.gentry h
  let d := s.gentry g
  match e.cur, d.extra with
  | some a, [x, y] =>
    let z := s.gset a
    let s := s.setGset a { z with share := z.share + 1, reserve := z.reserve ++ [y] }
    s.setGentry g { d with
      cur := some a, spare := some x, extra := [], reset := e.reset, gen := e.gen, steps := e.steps, err := e.err
      comp := e.comp }
  | _, _ => s

/-- RELEASE at execution: nothing more for a stream that a region keeps, its sets returned otherwise (R193, R217). -/
def State.runRelease (s : State) (h : Nat) : State × Nat :=
  let e := s.gentry h
  if e.isOpen then (s, 0) else s.returnSets h

/-- The effect of a command that may run, with its result record. -/
def State.runGalley (s : State) (n : Nat) (c : GalleyCmd) (env : Env) : State :=
  let h := c.stream
  let e := s.gentry h
  match c.op with
  | 1 => if c.refused then s.galleyResult n c St.streamTableFull (2 ^ 32 - 1) else s.galleyResult n c St.ok c.new
  | 3 =>
    if c.refused then s.galleyResult n c St.streamTableFull (2 ^ 32 - 1)
    else (s.runFork h c.new).galleyResult n c St.ok c.new
  | 4 => (s.runReset h).galleyResult n c St.ok 0
  | 5 =>
    let t := stickTd c.descs 0
    let l := t.coords.map fun k => (roundNear (stateFmt e.sfmt) (s.elemNum env t [] k)).1
    let s := s.record n c.line (sawNan l)
    (s.installState h (loadVals e l)).galleyResult n c St.ok (elemsOf e)
  | 6 =>
    let cur := s.curVals e
    let vs := (List.range (elemsOf e)).map fun i => (stateElem e cur i).full
    let (s, fl) := s.galleyWrite n c env (stickTd c.descs 0) (storeNc c.words) vs
    (s.record n c.line (fl ||| sawNan vs)).galleyResult n c St.ok (elemsOf e)
  | 7 =>
    let (ok, s) := s.beginSwapOut h
    s.galleyResult n c St.ok (b2n ok)
  | 8 =>
    let s := if e.res = .swapped then s.beginSwapIn h none else s
    s.galleyResult n c St.ok 1
  | 9 =>
    let (s, k) := s.runRelease h
    s.galleyResult n c St.ok k
  | _ =>
    let s := s.putCase n (wn (fld (cmdWord c.words 1) 23 0)) (entryImage e)
    s.galleyResult n c St.ok 64

/-- Ranges of memory that a command reads and writes. -/
def GalleyCmd.reads (c : GalleyCmd) (e : GEntry) : List (W64 × Nat) :=
  match c.op with
  | 2 => stickReads (stickOf c.words e) c.descs
  | 5 => memRanges (stickTd c.descs 0)
  | _ => []
def GalleyCmd.writes (c : GalleyCmd) (e : GEntry) : List (W64 × Nat) :=
  match c.op with
  | 2 => stickWrites (stickOf c.words e) c.descs
  | 6 => memRanges (stickTd c.descs 0)
  | _ => []

/-- The reads' environment of a command. -/
def GalleyCmd.env (c : GalleyCmd) (n : Nat) : Env := { press := n, ctx := c.ctx, prov := c.region.isSome, got := c.got }

/-- A command whose turn has come makes sure of its memory: remote and host bytes are asked for and waited for, stalled
pages provoke their moves, an uncorrectable sector ends it (R37, R85, R98, R252). True where it may run now. -/
def State.galleyReady (s : State) (n : Nat) (c : GalleyCmd) : Bool × State :=
  let e := s.gentry c.stream
  let far := s.farParts c.ctx .rd (c.reads e)
  if !c.asked && !far.isEmpty then
    let s := s.setGalley n { c with asked := true }
    (false, far.foldl (fun s p =>
      s.askRead { cause := .galleyRead n c.seq, ctx := c.ctx, pc := c.pc, slot := 5, va := p.2.1 } p.1 p.2.2) s)
  else if s.requests.any fun r => decide (r.2.cause = .galleyRead n c.seq) then (false, s)
  else
    let (b1, s) := s.rangeStalls c.ctx false (c.reads e)
    let (b2, s) := s.rangeStalls c.ctx true (c.writes e)
    if b1 || b2 then (false, s)
    else match s.rangeBad (c.env n).view c.ctx (c.reads e) with
      | some (va, k) => (false, s.badRead n c.ctx 5 c.pc va k)
      | none => (true, s)

/-- A command starts: it leaves the queue, the time of its stream's last execution is noted, the snapshot taken. A refused
CREATE touches no stream (R199). -/
def State.startGalley (s : State) (n idx : Nat) (c : GalleyCmd) : State :=
  let s := s.startControl n idx (.galley c)
  let s := if c.streams.isEmpty then s else s.takeSnap c
  let s := { s with useClock := s.useClock + 1 }
  if !c.streams.isEmpty && mhas s.galley c.stream then s.setGentry c.stream { s.gentry c.stream with lastExec := s.useClock } else s

/-- Whether a command waits for its stream to be RESIDENT (R201, R204, R208). -/
def GalleyCmd.waitsResident (c : GalleyCmd) : Bool := !([1, 7, 8].contains c.op || c.refused)

/-- GALLEY_EXECUTE (R197, R200, R204): a command other than STICK, in the order of its stream. A SWAP_OUT or SWAP_IN
waits only for a swap under way. -/
def State.galleyExecute (s : State) (n idx : Nat) (c : GalleyCmd) : State :=
  let res := (s.gentry c.stream).res
  if !s.galleyMay n c || (!c.refused && c.op != 1 && (res == .swappingOut || res == .swappingIn)) then s
  else
    let (ok, s) := if c.waitsResident then s.needResident n c else (true, s)
    if !ok then s
    else
      let (ready, s) := s.galleyReady n c
      if ready then ((s.touch (c.env n) (c.reads (s.gentry c.stream))).startGalley n idx c).runGalley n c (c.env n) else s

/-- STICK_EXECUTE (R201): from the start, or from the slice at which it stopped (R210). -/
def State.stickExecute (s : State) (n idx : Nat) (c : GalleyCmd) (stop : Option Nat) : State :=
  if !s.galleyMay n c then s
  else
    let (ok, s) := s.needResident n c
    if !ok then s
    else if c.part.isNone && decide ((s.gentry c.stream).gen ≠ c.agen) then
      ((s.startGalley n idx c).galleyResult n c St.generationStale 0).bump .chase (chaseOf n) 0xA00 32 32 1
    else
      let (ready, s) := s.galleyReady n c
      if ready then ((s.touch (c.env n) (c.reads (s.gentry c.stream))).startGalley n idx c).runStick n c (c.env n) stop
      else s

/-! ### What the runtime asks for between two commands (R205, R207, R209) -/

/-- AGEN raised beside GEN (R209). -/
def State.bumpAgen (s : State) (h : Nat) : State := s.setGentry h { s.gentry h with agen := (s.gentry h).agen + 1 }

/-- A state written into a swapped stream's slot, whose header takes the new generation [log 37]. -/
def State.loadSlot (s : State) (h k : Nat) (vals : Map Nat) : State :=
  let e := s.gentry h
  let s := { s with gslots := mput s.gslots k { mget ({} : GSlot) s.gslots k with gen := e.gen + 1, vals := vals } }
  s.setGentry h { e with reset := false, gen := e.gen + 1, steps := 0, err := 0, comp := 0 }

/-- What the runtime asks for, done. -/
def State.runAct (s : State) (h : Nat) (a : GAct) : State :=
  let e := s.gentry h
  match a with
  | .swapOut => (s.beginSwapOut h).2
  | .reset => (s.runReset h).bumpAgen h
  | .load vals =>
    (match e.res, e.slot with
      | .resident, _ => s.installState h vals
      | .swappingOut, _ => s.installState h vals
      | _, some k => s.loadSlot h k vals
      | _, none => s).bumpAgen h

/-- It is done at once between two commands of the stream, and otherwise when the one that executes has completed
(R205, R209). -/
def State.askAct (s : State) (h : Nat) (a : GAct) : State :=
  if s.streamBusy h none then s.setGentry h { s.gentry h with acts := (s.gentry h).acts ++ [a] } else s.runAct h a

/-- What was asked for while a command of the stream executed. -/
def State.runActs (s : State) (h : Nat) : State :=
  if !mhas s.galley h || s.streamBusy h none then s
  else
    let as_ := (s.gentry h).acts
    if as_.isEmpty then s else as_.foldl (fun s a => s.runAct h a) (s.setGentry h { s.gentry h with acts := [] })

end Sys2Proof.Machine
end

