-- ==== Sys2Proof/Machine/Issue.lean ====
section
/-! DEFINITION. The issue of a Line (R73, R74, R75, R78, R83, R87, R97, R220, R491): its slots gathered, the conditions on
which it waits, its checks in their order, its guard and its effect. The instruction of a compositor (R82, R83). -/

namespace Sys2Proof.Machine

/-- The queue that a slot's operation enters (R87). -/
inductive Queue where
  | none | tm | platen | roller | control
  deriving DecidableEq, Repr

/-- What a slot's effect leaves: the state, the conditions that it raised, and a branch target. -/
structure Did where
  s  : State
  fl : Flags := 0
  goal : Option W64 := none

/-- A slot's operation. `xs`, `ps` and `ts` are the registers that it reads or writes (R75), `xd` the scalar register
that it writes, `lists` the pointer lists that it reads in step 2 (R119), `scal` the operation of a scalar slot, `sub` the command row of a KSUB (false) or GSUB (true), `cond` the control
slot's fields, `wakes` says that others may be able to go on after it. -/
structure SlotDef where
  slot  : Nat
  xs    : List Nat := []
  ps    : List Nat := []
  ts    : List Nat := []
  lists : Lc → State → List (W64 × Nat) := fun _ _ => []
  xd    : Option Nat := none
  queue : Queue := .none
  scal  : Option (Regs → Scal) := none
  lis   : Bool := false
  mem   : Bool := false
  sub   : Option (Bool × Nat) := none
  cond  : Option CtF := none
  wakes : Bool := false
  chk   : Lc → State → Chk := fun _ _ => {}
  /-- Line, state of step 2, whether a later slot writes the register too, state so far. -/
  act   : Lc → State → Bool → State → Did := fun _ _ _ s => { s := s }

/-! ### Scalar slots -/

/-- Number of a scalar slot. -/
def slotNo : ScalarSlot → Nat
  | .s0 => 0
  | .s1 => 1

/-- The translation of a scalar access; the only access of the service window is an SD to its offset 0 (R377). -/
def State.scalarFault (s : State) (c : Nat) (k : Kind) (va : W64) (size : Nat) : Option (Status × W64) :=
  match s.resolve c k va with
  | .error st => some (st, va)
  | .ok (.service off) => failIf (!(k == .wr && off == 0 && size == 8)) St.pageAccess va none
  | .ok _ => none

/-- The checks of a scalar operation: its own, then the translation of its access (R491). -/
def scalarChk (s : State) (c : Nat) (drop : Bool) (o : Scal) : Chk :=
  match o.eff with
  | .load _ va size _ => { pre := o.chk, post := s.scalarFault c .rd va size }
  | .store va size _ => { pre := o.chk, writes := if drop then [] else [(va, size)], post := s.scalarFault c .wr va size }
  | _ => { pre := o.chk }

/-- A scalar slot from its operation. -/
def scalarSlot (sl : ScalarSlot) (op : Regs → Scal) (xs ps : List Nat) (xd : Option Nat) (mem store : Bool) : SlotDef :=
  { slot := slotNo sl, xs := xs, ps := ps, xd := xd, scal := some op, mem := mem, wakes := store
    chk := fun k s => scalarChk s k.c k.old.dropLatch (op k.old.regs)
    act := fun k s0 kill s =>
      let (s', fl) := s.scalarDo k.n k.old (slotNo sl) kill (s0.openRegion k.n).isSome k.old.dropLatch (op k.old.regs).eff
      { s := s', fl := fl } }

/-- Forms A, B and S whose registers are scalar ones. -/
def slotA (a : FormA) (op : Regs → FormA → Scal) : SlotDef :=
  scalarSlot a.slot (fun r => op r a) [a.rd.toNat, a.rs1.toNat, a.rs2.toNat] [] (some a.rd.toNat) false false
def slotB (b : FormB) (op : Regs → FormB → Scal) : SlotDef :=
  scalarSlot b.slot (fun r => op r b) [b.rd.toNat, b.rs1.toNat] [] (some b.rd.toNat) false false
def slotLoad (b : FormB) (op : Regs → FormB → Scal) : SlotDef := { slotB b op with mem := true }
def slotS (c : FormS) (op : Regs → FormS → Scal) : SlotDef :=
  scalarSlot c.slot (fun r => op r c) [c.rs2.toNat, c.rs1.toNat] [] none true true
/-- A comparison: a predicate is written. -/
def slotCmp (a : FormA) (op : Regs → FormA → Scal) : SlotDef :=
  scalarSlot a.slot (fun r => op r a) [a.rs1.toNat, a.rs2.toNat] [a.rd.toNat] none false false
/-- A form B operation that writes no scalar register. -/
def slotBread (b : FormB) (op : Regs → FormB → Scal) : SlotDef :=
  scalarSlot b.slot (fun r => op r b) [b.rs1.toNat] [] none false false

/-! ### The other slots -/

/-- A tensor-move operation; its operands and pointer lists are those of step 2 (R76, R119). -/
def tmSlotDef (xs : List (BitVec 6)) (ts : List (BitVec 5)) (chk : Lc → State → Chk) (act : Lc → State → State → State) :
    SlotDef :=
  { slot := 2, xs := xs.map (·.toNat), ts := ts.map (·.toNat), queue := .tm, chk := chk
    act := fun k s0 _ s => { s := act k s0 s } }
/-- The runs of memory that hold the pointer lists of a COPY or a PREFETCH (R119). -/
def tmLists (f : TmF) (kind : TmKind) (dest : Bool) (k : Lc) (s : State) : List (W64 × Nat) :=
  (k.tmOp s f kind).listRuns dest
/-- A platen operation: `ts` are the descriptor registers that it names. -/
def plSlotDef (ps : List (BitVec 4)) (ts : List Nat) (chk : Lc → Chk) (act : Lc → State → State) : SlotDef :=
  { slot := 3, ps := ps.map (·.toNat), ts := ts, queue := .platen, chk := fun k _ => chk k
    act := fun k _ _ s => { s := act k s } }
/-- The registers t[(TA + k) mod 32] of the platens taking part (R89). -/
def taRegs (f : PlF) : List Nat := (platensOf f.plat).map fun k => (f.ta.toNat + k) % 32
def rlSlotDef (cls : Nat) (f : RlF) : SlotDef :=
  { slot := 4, queue := .roller
    xs := (if takesScalar cls f.fn.toNat && !f.xsImm then [f.xs.toNat] else []) ++ [f.xn.toNat]
    ps := f.pm.toNat :: (if namesPd cls f.fn.toNat then [f.pd.toNat] else [])
    ts := rlRegs cls f
    chk := fun k _ => chkRoller k cls f, act := fun k _ _ s => { s := doRoller k s cls f } }
def ctSlotDef (f : CtF) (xs : List (BitVec 6)) (chk : Lc → State → Chk) (act : Lc → State → State) : SlotDef :=
  { slot := 5, xs := xs.map (·.toNat), ps := [f.cp.toNat], cond := some f, chk := chk
    act := fun k _ _ s => { s := act k s } }
/-- A branch. -/
def brSlotDef (f : CtF) (xs : List (BitVec 6)) (chk : Lc → Chk) (act : Lc → State → State × Option W64) : SlotDef :=
  { slot := 5, xs := xs.map (·.toNat), ps := [f.cp.toNat], cond := some f, chk := fun k _ => chk k
    act := fun k _ _ s => { s := (act k s).1, goal := (act k s).2 } }
/-- A KSUB (false) or GSUB (true) of a command row. -/
def subSlotDef (f : CtF) (galley : Bool) (op : Nat) (chk : Lc → State → Chk) (act : Lc → State → State → State) : SlotDef :=
  { slot := 5, xs := [f.xa.toNat], ps := [f.cp.toNat], cond := some f, queue := .control, sub := some (galley, op)
    chk := chk, act := fun k s0 _ s => { s := act k s0 s } }

/-- The slot operation that a command carries; none for a command that is no part of a Line. -/
def slotOf (i : Instr) : Option SlotDef :=
  match i with
  | .scalarNop _ sl rest => some (scalarSlot sl (fun _ => nopOp rest) [] [] none false false)
  | .alu _ a => some (slotA a opAlu)
  | .addi _ b => some (slotB b opAddi)
  | .andi _ b => some (slotB b opAndi)
  | .ori _ b => some (slotB b opOri)
  | .xori _ b => some (slotB b opXori)
  | .slli _ b => some (slotB b opSlli)
  | .srli _ b => some (slotB b opSrli)
  | .srai _ b => some (slotB b opSrai)
  | .slti _ b => some (slotB b opSlti)
  | .lis l b => some { scalarSlot b.slot (fun r => opLis r l b) [b.rd.toNat] [] (some b.rd.toNat) false false with lis := true }
  | .lb _ b => some (slotLoad b opLb)
  | .lh _ b => some (slotLoad b opLh)
  | .lw _ b => some (slotLoad b opLw)
  | .ld _ b => some (slotLoad b opLd)
  | .lbu _ b => some (slotLoad b opLbu)
  | .lhu _ b => some (slotLoad b opLhu)
  | .lwu _ b => some (slotLoad b opLwu)
  | .sb _ c => some (slotS c opSb)
  | .sh _ c => some (slotS c opSh)
  | .sw _ c => some (slotS c opSw)
  | .sd _ c => some (slotS c opSd)
  | .ldc _ b => some (slotB b opLdc)
  | .stc _ c => some (scalarSlot c.slot (fun r => opStc r c) [c.rs2.toNat, c.rs1.toNat] [] none false false)
  | .cmp _ a => some (slotCmp a opCmp)
  | .plog _ a =>
    some (scalarSlot a.slot (fun r => opPlog r a) [] [a.rd.toNat, a.rs1.toNat, a.rs2.toNat] none false false)
  | .pget _ a =>
    some (scalarSlot a.slot (fun r => opPget r a) [a.rd.toNat, a.rs2.toNat] [a.rs1.toNat] (some a.rd.toNat) false false)
  | .pset _ a =>
    some (scalarSlot a.slot (fun r => opPset r a) [a.rs1.toNat, a.rs2.toNat] [a.rd.toNat] none false false)
  | .fadd _ a => some (slotA a opFadd)
  | .fsub _ a => some (slotA a opFsub)
  | .fmul _ a => some (slotA a opFmul)
  | .fdiv _ a => some (slotA a opFdiv)
  | .fsqrt _ a =>
    some (scalarSlot a.slot (fun r => opFsqrt r a) [a.rd.toNat, a.rs1.toNat] [] (some a.rd.toNat) false false)
  | .fmin _ a => some (slotA a opFmin)
  | .fmax _ a => some (slotA a opFmax)
  | .fcmp _ a => some (slotCmp a opFcmp)
  | .fcvt _ hi a =>
    some (scalarSlot a.slot (fun r => opFcvt r hi a) [a.rd.toNat, a.rs1.toNat] [] (some a.rd.toNat) false false)
  | .bnz _ b => some (slotBread b opBnz)
  | .bz _ b => some (slotBread b opBz)
  | .jal _ b => some (scalarSlot b.slot (fun r => opJal r b) [b.rd.toNat] [] (some b.rd.toNat) false false)
  | .jalr _ b => some (slotB b opJalr)
  | .rdcsr _ b => some (scalarSlot b.slot (fun r => opRdcsr r b) [b.rd.toNat] [] (some b.rd.toNat) false false)
  | .wrcsr _ b => some (slotBread b opWrcsr)
  | .tset _ b => some { slotBread b opTset with ts := [b.rd.toNat % 32] }
  | .tget _ b =>
    some { scalarSlot b.slot (fun r => opTget r b) [b.rd.toNat] [] (some b.rd.toNat) false false with
      ts := [b.rs1.toNat % 32] }
  | .tmNop _ f => some { tmSlotDef [] [] (fun _ _ => chkTmNop f) (fun _ _ s => s) with queue := .none }
  | .copy _ f =>
    some { tmSlotDef [f.xa, f.xb] [f.td, f.ts] (fun k s => chkCopy k s f) (fun k s0 s => doCopyIssue k s0 s f) with
      lists := tmLists f .copy true }
  | .dload _ f => some (tmSlotDef [f.xa] [f.td] (fun k _ => chkDload k f) fun k s0 s => doDload k s0 s f)
  | .dstore _ f => some (tmSlotDef [f.xa] [f.ts] (fun k _ => chkDstore k f) fun k s0 s => doDstore k s0 s f)
  | .prefetch _ f =>
    some { tmSlotDef [] [f.ts] (fun k s => chkPrefetch k s f) (fun k s0 s => doPrefetchIssue k s0 s f) with
      lists := tmLists f .prefetch false }
  | .fill _ f => some (tmSlotDef [] [f.td] (fun k s => chkFill k s f) fun k s0 s => doFillIssue k s0 s f)
  | .slugPack _ f =>
    some (tmSlotDef [f.xa] [f.td, f.ts] (fun k s => chkSlugPack k s f) fun k s0 s => doSlugPackIssue k s0 s f)
  | .slugUnpack _ f =>
    some (tmSlotDef [] [f.td, f.ts] (fun k s => chkSlugUnpack k s f) fun k s0 s => doSlugUnpackIssue k s0 s f)
  | .plNop _ f => some { plSlotDef [] [] (fun _ => chkPlNop f) (fun _ s => s) with queue := .none }
  | .wload _ f => some (plSlotDef [] [f.tw.toNat] (fun k => chkWload k f) fun k s => doWload k s f)
  | .mm _ f => some (plSlotDef [f.pm] (taRegs f) (fun k => chkMm k f) fun k s => doMm k s f)
  | .drain _ f => some (plSlotDef [f.pm] (taRegs f) (fun k => chkDrain k f) fun k s => doDrain k s f)
  | .tzero _ f => some (plSlotDef [f.pm] [] (fun k => chkTzero k f) fun k s => doTzero k s f)
  | .tfree _ f => some (plSlotDef [] [] (fun _ => chkTfree f) fun k s => doTfree k s f)
  | .tload _ f => some (plSlotDef [f.pm] (taRegs f) (fun k => chkTload k f) fun k s => doTload k s f)
  | .elementWiseArithmetic _ f => some (rlSlotDef 1 f)
  | .transcendental _ f => some (rlSlotDef 2 f)
  | .conversion _ f => some (rlSlotDef 3 f)
  | .comparison _ f => some (rlSlotDef 4 f)
  | .reduction _ f => some (rlSlotDef 5 f)
  | .scan _ f => some (rlSlotDef 6 f)
  | .segmentedScan _ f => some (rlSlotDef 7 f)
  | .permutationGather _ f => some (rlSlotDef 8 f)
  | .ctNop _ f => some (ctSlotDef f [] (fun _ _ => chkCtNop f) fun _ s => s)
  | .br _ f => some (brSlotDef f [] (fun _ => chkBr f) fun k s => doBr k s f)
  | .brx _ f => some (brSlotDef f [f.xa] (fun k => chkBrx k f) fun k s => doBrx k s f)
  | .call _ f => some { brSlotDef f [f.xd] (fun _ => chkCall f) (fun k s => doCall k s f) with xd := some f.xd.toNat }
  | .dbnz _ f => some { brSlotDef f [f.xa] (fun _ => chkDbnz f) (fun k s => doDbnz k s f) with xd := some f.xa.toNat }
  | .fence _ f => some { ctSlotDef f [] (fun _ _ => chkFence f) (fun k s => doFence k s) with wakes := true }
  | .cbarinit _ f => some (ctSlotDef f [f.xa] (fun k s => chkCbarinit k s f) fun k s => doCbarinit k s f)
  | .cbar _ f => some { ctSlotDef f [] (fun k s => chkCbar k s f) (fun k s => doCbar k s f) with wakes := true }
  | .wcinit _ f => some (ctSlotDef f [f.xa] (fun k _ => chkWcinit k f) fun k s => doWcinit k s f)
  | .wcfa _ f =>
    some { ctSlotDef f [f.xb, f.xd] (fun k s => chkWcfa k s f) (fun k s => doWcfa k s f) with xd := some f.xd.toNat }
  | .fbar _ f =>
    some { ctSlotDef f [f.xa, f.xd] (fun k s => chkFbar k s f) (fun k s => doFbar k s f) with
      xd := some f.xd.toNat, wakes := true }
  | .rsignal _ f =>
    some { ctSlotDef f [f.xa, f.xb] (fun k s => chkRsignal k s f) (fun k s => doRsignal k s f) with
      queue := .control, wakes := true }
  | .rwait _ f =>
    some { ctSlotDef f [f.xa, f.xb, f.xd] (fun k s => chkRwait k s f) (fun k s => doRwait k s f) with
      xd := some f.xd.toNat, wakes := true }
  | .popen _ f =>
    some { ctSlotDef f [f.xa, f.xb, f.xd] (fun k s => chkPopen k s f) (fun k s => doPopen k s f) with
      xd := some f.xd.toNat }
  | .pcommit _ f => some (ctSlotDef f [f.xa] (fun k s => chkRegion k s f) fun k s => doPcommit k s f)
  | .preject _ f => some (ctSlotDef f [f.xa] (fun k s => chkRegion k s f) fun k s => doPreject k s f)
  | .endTake _ f => some (ctSlotDef f [] (fun k _ => chkEnd k f) fun k s => doEnd k s)
  | .kernOpen _ f => some (subSlotDef f false 1 (fun k s => chkKernOpen k s f) fun k s0 s => doKernOpen k s0 s f)
  | .kernAppend _ f => some (subSlotDef f false 2 (fun k s => chkKernAppend k s f) fun k s0 s => doKernAppend k s0 s f)
  | .kernAttend _ f => some (subSlotDef f false 3 (fun k s => chkKernAttend k s f) fun k s0 s => doKernAttend k s0 s f)
  | .kernFork _ f => some (subSlotDef f false 4 (fun k s => chkKernFork k s f) fun k s0 s => doKernFork k s0 s f)
  | .kernTruncate _ f =>
    some (subSlotDef f false 5 (fun k s => chkKernTruncate k s f) fun k s0 s => doKernTruncate k s0 s f)
  | .kernRelease _ f =>
    some (subSlotDef f false 6 (fun k s => chkKernRelease k s f) fun k s0 s => doKernRelease k s0 s f)
  | .galleyCreate _ f =>
    some (subSlotDef f true 1 (fun k s => chkGalleyCreate k s f) fun k s0 s => doGalleyCreate k s0 s f)
  | .galleyStick _ f => some (subSlotDef f true 2 (fun k s => chkGalleyStick k s f) fun k s0 s => doGalleyStick k s0 s f)
  | .galleyFork _ f => some (subSlotDef f true 3 (fun k s => chkGalleyFork k s f) fun k s0 s => doGalleyFork k s0 s f)
  | .galleyReset _ f => some (subSlotDef f true 4 (fun k s => chkGalleyReset k s f) fun k s0 s => doGalleyReset k s0 s f)
  | .galleyLoad _ f => some (subSlotDef f true 5 (fun k s => chkGalleyLoad k s f) fun k s0 s => doGalleyLoad k s0 s f)
  | .galleyStore _ f => some (subSlotDef f true 6 (fun k s => chkGalleyStore k s f) fun k s0 s => doGalleyStore k s0 s f)
  | .galleySwapOut _ f =>
    some (subSlotDef f true 7 (fun k s => chkGalleySwapOut k s f) fun k s0 s => doGalleySwapOut k s0 s f)
  | .galleySwapIn _ f =>
    some (subSlotDef f true 8 (fun k s => chkGalleySwapIn k s f) fun k s0 s => doGalleySwapIn k s0 s f)
  | .galleyRelease _ f =>
    some (subSlotDef f true 9 (fun k s => chkGalleyRelease k s f) fun k s0 s => doGalleyRelease k s0 s f)
  | .galleyQuery _ f => some (subSlotDef f true 10 (fun k s => chkGalleyQuery k s f) fun k s0 s => doGalleyQuery k s0 s f)
  | _ => none

/-! ### Gathering a Line (R73) [log 5] -/

/-- A slot that no command carries and that breaks an encoding rule: a bit set that must be zero (R74), or an operation
code or class that no table lists (R79, R88 to R91). -/
def brokenSlot (j : Nat) (st : Status) : SlotDef := { slot := j, chk := fun _ _ => { pre := some (st, 0) } }

/-- The slots of a Line in the order of R78, from its header and its commands; a later command of a slot replaces an
earlier one. -/
def lineSlots (l : Line) (is : List Instr) : List SlotDef :=
  (List.range 6).filterMap fun j =>
    if l.stray.getLsbD j then some (brokenSlot j St.rsvNonzero)
    else if l.unlisted.getLsbD j then some (brokenSlot j St.illegalOpcode)
    else (is.filterMap slotOf).reverse.find? fun d => d.slot == j

/-- A command whose Line has more: kept until the last one arrives. -/
def State.gather (s : State) (n : Nat) (i : Instr) : State :=
  s.setPress n { s.press n with gathered := (s.press n).gathered ++ [i] }

/-- Whether a KSUB or GSUB row is another than the OP of the command that lies in the case (log 5). -/
def State.rowWrong (s : State) (n : Nat) (d : SlotDef) : Bool :=
  match d.sub, d.xs with
  | some (g, op), xa :: _ =>
    let off := (s.pc n).getX xa
    let got := cmdOp (s.caseWords n off)
    (lineCase off).isNone && got != op && got != 0 && decide (got ≤ if g then 10 else 6)
  | _, _ => false

/-! ### Step 1 of R78 (R75, R83, R87, R307) -/

/-- Scalar registers with a load outstanding. -/
def State.pendingX (s : State) (n c : Nat) : List Nat :=
  ((s.pc n).stall.filterMap fun x => match x with | .load _ _ _ rd _ _ _ => some rd | _ => none) ++
  s.requests.filterMap fun e => match e.2.cause with
    | .load p rd _ _ => if p = n && e.2.ctx = c then some rd else none
    | _ => none
/-- Predicates that roller comparisons will write. -/
def PressCtx.pendingP (p : PressCtx) : List Nat :=
  (p.rlq ++ p.rlRun).filterMap fun o => if o.cls = 4 then some o.pd else none

/-- Descriptor registers that DLOADs will write. -/
def PressCtx.pendingT (p : PressCtx) : List Nat :=
  (p.tmq ++ p.tmRun).filterMap fun o => if o.kind = .dload then some o.treg else none

/-- Whether a queue has room (R87). -/
def PressCtx.room (p : PressCtx) : Queue → Bool
  | .none => true
  | .tm => decide (p.tmq.length < 8)
  | .platen => decide (p.plq.length < 8)
  | .roller => decide (p.rlq.length < 8)
  | .control => decide (p.ctq.length < 8)

/-- Registers of a slot free of pending writes; register 0 never has one. -/
def clear (used pending : List Nat) : Bool := used.all fun r => r == 0 || !pending.contains r

/-- Step 1 of R78: whether a Line may issue. -/
def State.lineReady (s : State) (n : Nat) (l : Line) (ds : List SlotDef) : Bool :=
  let p := s.pc n
  let xs := s.pendingX n (s.runCtx n)
  decide (p.hold = .none) && !(s.press n).preempt &&
  ((List.range 16).all fun k => !l.wait.getLsbD k || mget 0 p.marks k == 0) &&
  (!l.lpen || clear [l.lpred.toNat] p.pendingP) &&
  ds.all fun d => clear d.xs xs && clear d.ps p.pendingP && (d.ts.all fun t => !p.pendingT.contains t) &&
    p.room d.queue && (!d.mem || p.stall.isEmpty)

/-- The pointer lists of a Line that are not at hand yet: on remote or host pages whose bytes have not landed, or on
pages that stall (R119, R252). -/
def State.listsWait (s : State) (k : Lc) (ds : List SlotDef) : Bool :=
  let rs := ds.flatMap fun d => d.lists k s
  (s.farParts k.c .rd rs).any (fun p => (List.range p.2.2).any fun i => !mhas k.old.lists (p.2.1 + wn i).toNat) ||
    (s.rangeStalls k.c false rs).1

/-- The press asks for them, once, and waits (R119). -/
def State.askLists (s : State) (k : Lc) (ds : List SlotDef) : State :=
  let rs := ds.flatMap fun d => d.lists k s
  let s := (s.rangeStalls k.c false rs).2
  if k.old.listAsked then s
  else
    let far := s.farParts k.c .rd rs
    let s := s.modPc k.n fun p => { p with listAsked := !far.isEmpty }
    far.foldl (fun s p =>
      s.askRead { cause := .listRead k.n, ctx := k.c, pc := k.old.pc, slot := 2, va := p.2.1 } p.1 p.2.2) s

/-! ### Step 2 of R78 (R97, R220, R491) -/

/-- The home pages that local writes touch, and the destination pages of remote and host writes (R220). -/
def State.writePages (s : State) (c : Nat) (ws : List (W64 × Nat)) : List Nat × List Nat :=
  ws.foldl (fun acc r => (segs r.1 r.2).foldl (fun (acc : List Nat × List Nat) p =>
    match s.resolve c .wr p.1 with
    | .ok l => match l.key? with
      | some k => if acc.1.contains (k / 0x10000) then acc else (acc.1 ++ [k / 0x10000], acc.2)
      | none =>
        let pg := p.1.toNat / 0x10000
        if acc.2.contains pg then acc else (acc.1, acc.2 ++ [pg])
    | .error _ => acc) acc) ([], [])

/-- What a Line has counted against its region so far: home pages shadowed, pages and entries taken. -/
structure Need where
  homes   : List Nat := []
  pages   : Nat := 0
  entries : Nat := 0
  deriving DecidableEq, Repr

/-- The needs of one more slot added. -/
def State.need (s : State) (k : Lc) (a : Need) (c : Chk) : Need :=
  let (hs, far) := s.writePages k.c c.writes
  let new := hs.filter fun h => !a.homes.contains h
  { homes := a.homes ++ new, pages := a.pages + new.length + far.length + c.snap
    entries := a.entries + far.length + (if k.old.dropLatch then 0 else c.signal) }

/-- The resources of the open region that a Line needs (R220): what is counted, or the fault. -/
def needFault (x : Region) (a : Need) : Option (Status × W64) :=
  failIf (decide (x.pages < a.pages)) St.proofLimit 0 (failIf (decide (64 < a.entries)) St.proofQueueFull 0 none)

/-- What a region has taken before the Line. -/
def Region.need (x : Region) : Need := { homes := x.homes, pages := x.used, entries := x.entries }

/-- The first failing check of the slots, with its slot (R491). -/
def State.slotsFault (s : State) (k : Lc) : List SlotDef → Need → Option (Status × W64 × BitVec 3)
  | [], _ => none
  | d :: ds, a =>
    let c := d.chk k s
    let place (e : Option (Status × W64)) : Option (Status × W64 × BitVec 3) :=
      e.map fun x => (x.1, x.2, BitVec.ofNat 3 d.slot)
    let a' := match s.openRegion k.n with
      | some _ => s.need k a c
      | none => a
    let res := match s.openRegion k.n with
      | some r => needFault (s.region (chaseOf k.n) r) a'
      | none => none
    match place (firstOf [c.pre, res, c.post]) with
    | some e => some e
    | none => s.slotsFault k ds a'

/-- The counts at the start of a Line. -/
def State.need0 (s : State) (n : Nat) : Need :=
  match s.openRegion n with
  | some r => (s.region (chaseOf n) r).need
  | none => {}

/-- Step 2 of R78: the first failing check of a Line (R491). -/
def State.lineFault (s : State) (k : Lc) (ds : List SlotDef) : Option (Status × W64 × BitVec 3) :=
  match s.rangeFault k.c .ex k.old.pc 64 with
  | some (st, va) => some (st, va, 7)
  | none =>
    if k.l.rsv ≠ 0 then some (St.rsvNonzero, 0, 6)
    else if k.l.split = 3 then some (St.immSplitInvalid, 0, 6)
    else s.slotsFault k ds (s.need0 k.n)

/-! ### Steps 3 to 7 of R78 -/

/-- Step 3: whether the Line takes effect. -/
def Lc.guard (k : Lc) : Bool := !k.l.lpen || (k.old.getP k.l.lpred.toNat).getLsbD 0 != k.l.lneg

/-- Whether a slot takes effect: a control slot on its condition (R91). -/
def SlotDef.live (d : SlotDef) (k : Lc) : Bool :=
  match d.cond with
  | some f => k.cond f
  | none => true

/-- The slots' effects in their order; a load whose register a later slot writes too leaves it alone. -/
def actAll (k : Lc) (s0 : State) : List SlotDef → Did → Did
  | [], r => r
  | d :: ds, r =>
    let kill := ds.any fun e => e.xd.isSome && e.xd == d.xd
    let x := d.act k s0 kill r.s
    actAll k s0 ds { s := x.s, fl := r.fl ||| x.fl, goal := x.goal }

/-- Pages and entries taken from the open region (R220); `act` has counted an RSIGNAL's entry and a snapshot's pages
already. -/
def State.takeNeeds (s s0 : State) (k : Lc) (ds : List SlotDef) : State :=
  match s0.openRegion k.n with
  | none => s
  | some r =>
    let a0 := s0.need0 k.n
    let a := ds.foldl (fun a d => s0.need k a { d.chk k s0 with signal := 0, snap := 0 }) a0
    let x := s.region (chaseOf k.n) r
    s.setRegion (chaseOf k.n) r { x with
      homes := a.homes, used := x.used + (a.pages - a0.pages), entries := x.entries + (a.entries - a0.entries) }

/-- The Line has issued: RETIRED and the program counter advance; counted conditions are forgotten once no operation of
an earlier Line is outstanding (R68, R84). -/
def PressCtx.retire (p : PressCtx) (next : W64) : PressCtx :=
  let idle := p.tmq.isEmpty && p.tmRun.isEmpty && p.plq.isEmpty && p.plRun.isEmpty && p.rlq.isEmpty &&
    p.rlRun.isEmpty && p.ctq.isEmpty && p.ctRun.isEmpty
  { p with
    pc := next, retired := p.retired + 1, held := [], lists := [], listAsked := false
    raised := if idle then [] else p.raised }

/-- The proof-queue entries of a Line's writes to other devices and to the host take their places at issue (R220). -/
def State.placeEntries (s : State) (k : Lc) (ds : List SlotDef) : State :=
  match s.openRegion k.n with
  | none => s
  | some r =>
    let qs := ds.flatMap fun d => (s.writePages k.c (d.chk k s).writes).2.map fun pg =>
      Queued.write k.c pg [] k.old.pc d.slot k.old.retired.toNat
    let x := s.region (chaseOf k.n) r
    if qs.isEmpty then s else s.setRegion (chaseOf k.n) r { x with queue := x.queue ++ qs }

/-- Steps 4 to 7 of R78 for a Line that takes effect. -/
def State.lineEffect (s : State) (k : Lc) (ds : List SlotDef) : State :=
  let live := ds.filter fun d => d.live k
  let r := actAll k s live { s := s.placeEntries k live }
  let s' := (r.s.takeNeeds s k live).record k.n k.old.retired.toNat r.fl
  let s' := s'.modPc k.n fun p => p.retire (r.goal.getD (k.old.pc + 64))
  if live.any (·.wakes) then s'.settle else s'

/-- The Line's place: press, context, state before it. -/
def State.lc (s : State) (n : Nat) (l : Line) : Lc := { n := n, c := s.runCtx n, old := s.pc n, l := l }

/-- A Line processed in the order of R78. -/
def State.issueLine (s : State) (n : Nat) (l : Line) (is : List Instr) : State :=
  let ds := lineSlots l is
  let k := s.lc n l
  if !s.lineReady n l ds then s.modPc n fun p => { p with held := is }
  else if s.listsWait k ds then (s.askLists k ds).modPc n fun p => { p with held := is }
  else match s.lineFault k ds with
    | some (st, va, slot) => (s.precise n st slot va).settle
    | none => if k.guard then s.lineEffect k ds else s.modPc n fun p => p.retire (k.old.pc + 64)

/-! ### Compositors (R82, R83, R97) [log 6] -/

/-- A precise fault of a compositor: it stops and its context is torn down. -/
def State.compFault (s : State) (m : Nat) (st : Status) (slot : BitVec 3) (va : W64) : State :=
  let x := s.comp m
  let f : FaultRec := { valid := true, status := st, slot, pc := x.pc &&& 0xFFFFFFFFFFFF, va }
  ((s.setComp m { x with fault := f }).teardown x.ctx st).settle

/-- An instruction of a compositor. -/
def State.issueComp (s : State) (m : Nat) (l : Line) (d : SlotDef) (op : Regs → Scal) : State :=
  let x := s.comp m
  let n := 128 + m
  let pending := (x.stall.filterMap fun y => match y with | .load _ _ _ rd _ _ _ => some rd | _ => none) ++
    s.requests.filterMap fun e => match e.2.cause with
      | .load p rd _ _ => if p = n then some rd else none
      | _ => none
  if x.fault.valid || (d.mem && !x.stall.isEmpty) || !clear d.xs pending then s
  else
    let o := op x.regs
    let c := scalarChk s x.ctx false o
    match firstOf [failIf (l.unlisted != 0) St.illegalOpcode 0 none, c.pre, c.post] with
    | some (st, va) => s.compFault m st (BitVec.ofNat 3 d.slot) va
    | none =>
      let s := s.compDo m d.lis o.eff
      if d.wakes then s.settle else s

/-! ### A command of a Line -/

/-- The command of a slot: on a press it completes or extends its Line, on a compositor it is an instruction. -/
def issue (l : Line) (i : Instr) (s : State) : Host.Outcome State Fault Refusal :=
  match l.core with
  | .press n =>
    if 128 ≤ n then .fault .noSuchUnit
    else if (s.press n).st ≠ .running ∨ (s.press n).run = none then .fault .notRunning
    else if l.more then .next (s.gather n i)
    else
      let is := (s.press n).gathered ++ [i]
      let s := if (s.press n).gathered = [] then s else s.setPress n { s.press n with gathered := [] }
      if (lineSlots l is).any (s.rowWrong n) then .fault .rowMismatch else .next (s.issueLine n l is)
  | .comp m =>
    if 64 ≤ m then .fault .noSuchUnit
    else match slotOf i with
      | some d => match d.scal with
        | some op => .next (s.issueComp m l d op)
        | none => .fault .noSuchUnit
      | none => .fault .noSuchUnit

end Sys2Proof.Machine
end

