-- ==== Sys2Proof/Machine/LineExec.lean ====
section
/-! DEFINITION. The commands of the slots of a Line, one meaning each: the slot's operation issued under R78. What each does
stands in the checks and effects that `slotOf` names for it. -/

namespace Sys2Proof.Machine

/-! ### Scalar slots (R79 to R84) -/

def execScalarNop (l : Line) (slot : ScalarSlot) (rest : BitVec 25) (s : State) : Host.Outcome State Fault Refusal :=
  issue l (.scalarNop l slot rest) s
def execAlu (l : Line) (a : FormA) (s : State) : Host.Outcome State Fault Refusal := issue l (.alu l a) s
def execAddi (l : Line) (b : FormB) (s : State) : Host.Outcome State Fault Refusal := issue l (.addi l b) s
def execAndi (l : Line) (b : FormB) (s : State) : Host.Outcome State Fault Refusal := issue l (.andi l b) s
def execOri (l : Line) (b : FormB) (s : State) : Host.Outcome State Fault Refusal := issue l (.ori l b) s
def execXori (l : Line) (b : FormB) (s : State) : Host.Outcome State Fault Refusal := issue l (.xori l b) s
def execSlli (l : Line) (b : FormB) (s : State) : Host.Outcome State Fault Refusal := issue l (.slli l b) s
def execSrli (l : Line) (b : FormB) (s : State) : Host.Outcome State Fault Refusal := issue l (.srli l b) s
def execSrai (l : Line) (b : FormB) (s : State) : Host.Outcome State Fault Refusal := issue l (.srai l b) s
def execSlti (l : Line) (b : FormB) (s : State) : Host.Outcome State Fault Refusal := issue l (.slti l b) s
def execLis (l : Line) (b : FormB) (s : State) : Host.Outcome State Fault Refusal := issue l (.lis l b) s
def execLb (l : Line) (b : FormB) (s : State) : Host.Outcome State Fault Refusal := issue l (.lb l b) s
def execLh (l : Line) (b : FormB) (s : State) : Host.Outcome State Fault Refusal := issue l (.lh l b) s
def execLw (l : Line) (b : FormB) (s : State) : Host.Outcome State Fault Refusal := issue l (.lw l b) s
def execLd (l : Line) (b : FormB) (s : State) : Host.Outcome State Fault Refusal := issue l (.ld l b) s
def execLbu (l : Line) (b : FormB) (s : State) : Host.Outcome State Fault Refusal := issue l (.lbu l b) s
def execLhu (l : Line) (b : FormB) (s : State) : Host.Outcome State Fault Refusal := issue l (.lhu l b) s
def execLwu (l : Line) (b : FormB) (s : State) : Host.Outcome State Fault Refusal := issue l (.lwu l b) s
def execSb (l : Line) (c : FormS) (s : State) : Host.Outcome State Fault Refusal := issue l (.sb l c) s
def execSh (l : Line) (c : FormS) (s : State) : Host.Outcome State Fault Refusal := issue l (.sh l c) s
def execSw (l : Line) (c : FormS) (s : State) : Host.Outcome State Fault Refusal := issue l (.sw l c) s
def execSd (l : Line) (c : FormS) (s : State) : Host.Outcome State Fault Refusal := issue l (.sd l c) s
def execLdc (l : Line) (b : FormB) (s : State) : Host.Outcome State Fault Refusal := issue l (.ldc l b) s
def execStc (l : Line) (c : FormS) (s : State) : Host.Outcome State Fault Refusal := issue l (.stc l c) s
def execCmp (l : Line) (a : FormA) (s : State) : Host.Outcome State Fault Refusal := issue l (.cmp l a) s
def execPlog (l : Line) (a : FormA) (s : State) : Host.Outcome State Fault Refusal := issue l (.plog l a) s
def execPget (l : Line) (a : FormA) (s : State) : Host.Outcome State Fault Refusal := issue l (.pget l a) s
def execPset (l : Line) (a : FormA) (s : State) : Host.Outcome State Fault Refusal := issue l (.pset l a) s
def execFadd (l : Line) (a : FormA) (s : State) : Host.Outcome State Fault Refusal := issue l (.fadd l a) s
def execFsub (l : Line) (a : FormA) (s : State) : Host.Outcome State Fault Refusal := issue l (.fsub l a) s
def execFmul (l : Line) (a : FormA) (s : State) : Host.Outcome State Fault Refusal := issue l (.fmul l a) s
def execFdiv (l : Line) (a : FormA) (s : State) : Host.Outcome State Fault Refusal := issue l (.fdiv l a) s
def execFsqrt (l : Line) (a : FormA) (s : State) : Host.Outcome State Fault Refusal := issue l (.fsqrt l a) s
def execFmin (l : Line) (a : FormA) (s : State) : Host.Outcome State Fault Refusal := issue l (.fmin l a) s
def execFmax (l : Line) (a : FormA) (s : State) : Host.Outcome State Fault Refusal := issue l (.fmax l a) s
def execFcmp (l : Line) (a : FormA) (s : State) : Host.Outcome State Fault Refusal := issue l (.fcmp l a) s
def execFcvt (l : Line) (hi : Bool) (a : FormA) (s : State) : Host.Outcome State Fault Refusal :=
  issue l (.fcvt l hi a) s
def execBnz (l : Line) (b : FormB) (s : State) : Host.Outcome State Fault Refusal := issue l (.bnz l b) s
def execBz (l : Line) (b : FormB) (s : State) : Host.Outcome State Fault Refusal := issue l (.bz l b) s
def execJal (l : Line) (b : FormB) (s : State) : Host.Outcome State Fault Refusal := issue l (.jal l b) s
def execJalr (l : Line) (b : FormB) (s : State) : Host.Outcome State Fault Refusal := issue l (.jalr l b) s
def execRdcsr (l : Line) (b : FormB) (s : State) : Host.Outcome State Fault Refusal := issue l (.rdcsr l b) s
def execWrcsr (l : Line) (b : FormB) (s : State) : Host.Outcome State Fault Refusal := issue l (.wrcsr l b) s
def execTset (l : Line) (b : FormB) (s : State) : Host.Outcome State Fault Refusal := issue l (.tset l b) s
def execTget (l : Line) (b : FormB) (s : State) : Host.Outcome State Fault Refusal := issue l (.tget l b) s

/-! ### Tensor-move slot (R88) -/

def execTmNop (l : Line) (f : TmF) (s : State) : Host.Outcome State Fault Refusal := issue l (.tmNop l f) s
def execCopy (l : Line) (f : TmF) (s : State) : Host.Outcome State Fault Refusal := issue l (.copy l f) s
def execDload (l : Line) (f : TmF) (s : State) : Host.Outcome State Fault Refusal := issue l (.dload l f) s
def execDstore (l : Line) (f : TmF) (s : State) : Host.Outcome State Fault Refusal := issue l (.dstore l f) s
def execPrefetch (l : Line) (f : TmF) (s : State) : Host.Outcome State Fault Refusal := issue l (.prefetch l f) s
def execFill (l : Line) (f : TmF) (s : State) : Host.Outcome State Fault Refusal := issue l (.fill l f) s
def execSlugPack (l : Line) (f : TmF) (s : State) : Host.Outcome State Fault Refusal := issue l (.slugPack l f) s
def execSlugUnpack (l : Line) (f : TmF) (s : State) : Host.Outcome State Fault Refusal := issue l (.slugUnpack l f) s

/-! ### Platen slot (R89) -/

def execPlNop (l : Line) (f : PlF) (s : State) : Host.Outcome State Fault Refusal := issue l (.plNop l f) s
def execWload (l : Line) (f : PlF) (s : State) : Host.Outcome State Fault Refusal := issue l (.wload l f) s
def execMm (l : Line) (f : PlF) (s : State) : Host.Outcome State Fault Refusal := issue l (.mm l f) s
def execDrain (l : Line) (f : PlF) (s : State) : Host.Outcome State Fault Refusal := issue l (.drain l f) s
def execTzero (l : Line) (f : PlF) (s : State) : Host.Outcome State Fault Refusal := issue l (.tzero l f) s
def execTfree (l : Line) (f : PlF) (s : State) : Host.Outcome State Fault Refusal := issue l (.tfree l f) s
def execTload (l : Line) (f : PlF) (s : State) : Host.Outcome State Fault Refusal := issue l (.tload l f) s

/-! ### Roller slot (R140 to R161) -/

def execElementWiseArithmetic (l : Line) (f : RlF) (s : State) : Host.Outcome State Fault Refusal :=
  issue l (.elementWiseArithmetic l f) s
def execTranscendental (l : Line) (f : RlF) (s : State) : Host.Outcome State Fault Refusal :=
  issue l (.transcendental l f) s
def execConversion (l : Line) (f : RlF) (s : State) : Host.Outcome State Fault Refusal := issue l (.conversion l f) s
def execComparison (l : Line) (f : RlF) (s : State) : Host.Outcome State Fault Refusal := issue l (.comparison l f) s
def execReduction (l : Line) (f : RlF) (s : State) : Host.Outcome State Fault Refusal := issue l (.reduction l f) s
def execScan (l : Line) (f : RlF) (s : State) : Host.Outcome State Fault Refusal := issue l (.scan l f) s
def execSegmentedScan (l : Line) (f : RlF) (s : State) : Host.Outcome State Fault Refusal :=
  issue l (.segmentedScan l f) s
def execPermutationGather (l : Line) (f : RlF) (s : State) : Host.Outcome State Fault Refusal :=
  issue l (.permutationGather l f) s

/-! ### Control slot (R91) -/

def execCtNop (l : Line) (f : CtF) (s : State) : Host.Outcome State Fault Refusal := issue l (.ctNop l f) s
def execBr (l : Line) (f : CtF) (s : State) : Host.Outcome State Fault Refusal := issue l (.br l f) s
def execBrx (l : Line) (f : CtF) (s : State) : Host.Outcome State Fault Refusal := issue l (.brx l f) s
def execCall (l : Line) (f : CtF) (s : State) : Host.Outcome State Fault Refusal := issue l (.call l f) s
def execDbnz (l : Line) (f : CtF) (s : State) : Host.Outcome State Fault Refusal := issue l (.dbnz l f) s
def execFence (l : Line) (f : CtF) (s : State) : Host.Outcome State Fault Refusal := issue l (.fence l f) s
def execCbarinit (l : Line) (f : CtF) (s : State) : Host.Outcome State Fault Refusal := issue l (.cbarinit l f) s
def execCbar (l : Line) (f : CtF) (s : State) : Host.Outcome State Fault Refusal := issue l (.cbar l f) s
def execWcinit (l : Line) (f : CtF) (s : State) : Host.Outcome State Fault Refusal := issue l (.wcinit l f) s
def execWcfa (l : Line) (f : CtF) (s : State) : Host.Outcome State Fault Refusal := issue l (.wcfa l f) s
def execFbar (l : Line) (f : CtF) (s : State) : Host.Outcome State Fault Refusal := issue l (.fbar l f) s
def execRsignal (l : Line) (f : CtF) (s : State) : Host.Outcome State Fault Refusal := issue l (.rsignal l f) s
def execRwait (l : Line) (f : CtF) (s : State) : Host.Outcome State Fault Refusal := issue l (.rwait l f) s
def execPopen (l : Line) (f : CtF) (s : State) : Host.Outcome State Fault Refusal := issue l (.popen l f) s
def execPcommit (l : Line) (f : CtF) (s : State) : Host.Outcome State Fault Refusal := issue l (.pcommit l f) s
def execPreject (l : Line) (f : CtF) (s : State) : Host.Outcome State Fault Refusal := issue l (.preject l f) s
def execEndTake (l : Line) (f : CtF) (s : State) : Host.Outcome State Fault Refusal := issue l (.endTake l f) s

/-! ### Kern commands (R162 to R188) -/

def execKernOpen (l : Line) (f : CtF) (s : State) : Host.Outcome State Fault Refusal := issue l (.kernOpen l f) s
def execKernAppend (l : Line) (f : CtF) (s : State) : Host.Outcome State Fault Refusal := issue l (.kernAppend l f) s
def execKernAttend (l : Line) (f : CtF) (s : State) : Host.Outcome State Fault Refusal := issue l (.kernAttend l f) s
def execKernFork (l : Line) (f : CtF) (s : State) : Host.Outcome State Fault Refusal := issue l (.kernFork l f) s
def execKernTruncate (l : Line) (f : CtF) (s : State) : Host.Outcome State Fault Refusal :=
  issue l (.kernTruncate l f) s
def execKernRelease (l : Line) (f : CtF) (s : State) : Host.Outcome State Fault Refusal :=
  issue l (.kernRelease l f) s

/-! ### Galley commands (R189 to R212) -/

def execGalleyCreate (l : Line) (f : CtF) (s : State) : Host.Outcome State Fault Refusal :=
  issue l (.galleyCreate l f) s
def execGalleyStick (l : Line) (f : CtF) (s : State) : Host.Outcome State Fault Refusal :=
  issue l (.galleyStick l f) s
def execGalleyFork (l : Line) (f : CtF) (s : State) : Host.Outcome State Fault Refusal := issue l (.galleyFork l f) s
def execGalleyReset (l : Line) (f : CtF) (s : State) : Host.Outcome State Fault Refusal :=
  issue l (.galleyReset l f) s
def execGalleyLoad (l : Line) (f : CtF) (s : State) : Host.Outcome State Fault Refusal := issue l (.galleyLoad l f) s
def execGalleyStore (l : Line) (f : CtF) (s : State) : Host.Outcome State Fault Refusal :=
  issue l (.galleyStore l f) s
def execGalleySwapOut (l : Line) (f : CtF) (s : State) : Host.Outcome State Fault Refusal :=
  issue l (.galleySwapOut l f) s
def execGalleySwapIn (l : Line) (f : CtF) (s : State) : Host.Outcome State Fault Refusal :=
  issue l (.galleySwapIn l f) s
def execGalleyRelease (l : Line) (f : CtF) (s : State) : Host.Outcome State Fault Refusal :=
  issue l (.galleyRelease l f) s
def execGalleyQuery (l : Line) (f : CtF) (s : State) : Host.Outcome State Fault Refusal :=
  issue l (.galleyQuery l f) s

end Sys2Proof.Machine
end

