-- ==== Sys2Proof/Machine/Engines.lean ====
section
/-! DEFINITION. What the engines of a press do on their own: starts and completions of queued operations (R85, R86, R113,
R161, R165, R197, R492), the ends of galley swaps (R204 to R207), and the proof engine (R227, R229). -/

namespace Sys2Proof.Machine

/-! ### Completion (R85, R495) -/

/-- A tensor move that has taken effect and has no request outstanding leaves, and signals its mark. One that stopped at a
4 KiB boundary first makes the writes that remain (R307). -/
def State.completeTm (s : State) (n idx : Nat) : State :=
  match (s.pc n).tmRun[idx]? with
  | some op =>
    let s := s.finishMove n (s.runCtx n) op
    if op.done && s.tmOutstanding n (s.runCtx n) op.line == 0 then
      let p := s.pc n
      s.setPc n ({ p with tmRun := p.tmRun.eraseIdx idx }.signal op.mark)
    else s
  | none => s

/-- A platen operation, all of whose writes are visible, leaves and signals. -/
def State.completePl (s : State) (n idx : Nat) : State :=
  let p := s.pc n
  match p.plRun[idx]? with
  | some op => s.setPc n ({ p with plRun := p.plRun.eraseIdx idx }.signal op.mark)
  | none => s

/-- A roller operation likewise. -/
def State.completeRl (s : State) (n idx : Nat) : State :=
  let p := s.pc n
  match p.rlRun[idx]? with
  | some op => s.setPc n ({ p with rlRun := p.rlRun.eraseIdx idx }.signal op.mark)
  | none => s

/-- The entry on which an accepted galley command holds a reference: a FORK is a command on its source (R195). -/
def GalleyCmd.holds (c : GalleyCmd) : List Nat := if c.op = 3 then [c.stream] else c.streams

/-- The reference that a galley command holds is dropped at its completion (R195), and what the runtime asked of its streams
meanwhile is done (R205, R209). -/
def State.dropCommand (s : State) (c : GalleyCmd) : State :=
  let s := c.holds.foldl (fun s h => if mhas s.galley h then s.dropEntry h else s) s
  c.streams.foldl (fun s h => s.runActs h) s

/-- The executing control operation at an index runs to its end where it had stopped (R186, R210). -/
def State.finishControl (s : State) (n idx : Nat) : State :=
  match (s.pc n).ctRun[idx]? with
  | some (.kern c) => if c.rows.isEmpty then s else s.runAttend n c none
  | some (.galley c) => if c.part.isSome then s.runStick n c (c.env n) none else s
  | _ => s

/-- A control operation that has executed leaves and signals; a galley command also waits for its writes (R85). -/
def State.completeCt (s : State) (n idx : Nat) : State :=
  let s := s.finishControl n idx
  let p := s.pc n
  match p.ctRun[idx]? with
  | some (.kern c) => (s.setPc n ({ p with ctRun := p.ctRun.eraseIdx idx }.signal c.mark)).sweepFolios
  | some (.galley c) =>
    if s.requests.any fun e => decide (e.2.cause = .galleyWrite n c.seq) then s
    else (s.setPc n ({ p with ctRun := p.ctRun.eraseIdx idx }.signal c.mark)).dropCommand c
  | _ => s

/-- The completion of an operation of the context that stands on a press. -/
def State.completeHere (s : State) (n : Nat) (e : Engine) (idx : Nat) : State :=
  match e with
  | .tm => s.completeTm n idx
  | .platen => s.completePl n idx
  | .roller => s.completeRl n idx
  | .control => s.completeCt n idx

/-- The operations of an engine that a press state holds, and of them those that a saved context can complete: a tensor move
that stopped goes on only after the resume (R310, R312). -/
def PressCtx.running (p : PressCtx) (e : Engine) : Nat :=
  match e with
  | .tm => p.tmRun.length
  | .platen => p.plRun.length
  | .roller => p.rlRun.length
  | .control => p.ctRun.length
def PressCtx.stopped (p : PressCtx) (e : Engine) (idx : Nat) : Bool :=
  match e, p.tmRun[idx]? with
  | .tm, some op => !op.left.isEmpty
  | _, _ => false

/-- OPERATION_COMPLETE for an engine of a press: the operations of the context on the press are counted first, then those of
the contexts saved on it, which complete as usual (R310). -/
def State.complete (s : State) (n : Nat) (e : Engine) (idx : Nat) : State :=
  let p := s.press n
  let k := if p.run.isSome then p.cur.running e else 0
  if idx < k then s.completeHere n e idx
  else
    let saved := p.slotA.toList ++ p.slotB.toList
    let rec go : List Slot → Nat → State
      | [], _ => s
      | x :: xs, i =>
        if i < x.st.running e then
          (if x.st.stopped e i then s else s.inContext n x.ctx fun s => s.completeHere n e i)
        else go xs (i - x.st.running e)
    go saved (idx - k)

/-! ### Commands of the engines of a press -/

/-- What an engine command of a press does, where a context runs there. -/
def onPress (n : Nat) (s : State) (f : State → State) : Host.Outcome State Fault Refusal :=
  if 128 ≤ n then .fault .noSuchUnit
  else if (s.press n).run = none then .fault .notRunning
  else .next (f s)

/-- The kern command, and the galley command, at an index of a press's shared queue. -/
def State.kernAt (s : State) (n idx : Nat) : Option KernCmd :=
  match (s.pc n).ctq[idx]? with
  | some (.kern c) => some c
  | _ => none
def State.galleyAt (s : State) (n idx : Nat) : Option GalleyCmd :=
  match (s.pc n).ctq[idx]? with
  | some (.galley c) => some c
  | _ => none

def execTmEngineStart (o : StartAt) (s : State) : Host.Outcome State Fault Refusal :=
  onPress o.num s fun s => (s.tmStart o.num o.stop).settle
def execPlatenStart (press : Nat) (corrupt : List (Nat × Nat × Nat × W32)) (s : State) : Host.Outcome State Fault Refusal :=
  onPress press s fun s => s.platenStart press corrupt
def execRollerStart (press : Nat) (s : State) : Host.Outcome State Fault Refusal :=
  onPress press s fun s => s.rollerStart press
def execOperationComplete (press : Nat) (e : Engine) (idx : Nat) (s : State) : Host.Outcome State Fault Refusal :=
  if 128 ≤ press then .fault .noSuchUnit
  else if (s.press press).run = none && (s.press press).slotA.isNone && (s.press press).slotB.isNone then .fault .notRunning
  else .next (s.complete press e idx).settle

/-- KERN_EXECUTE of the command at an index; an index that holds none, or an ATTEND, is no such unit. -/
def execKernExecute (press idx : Nat) (s : State) : Host.Outcome State Fault Refusal :=
  match s.kernAt press idx with
  | some c => if c.op = 3 then .fault .rowMismatch else onPress press s fun s => s.kernExecute press idx c
  | none => .fault .noSuchUnit
def execAttendExecute (press : Nat) (o : StartAt) (s : State) : Host.Outcome State Fault Refusal :=
  match s.kernAt press o.num with
  | some c => if c.op = 3 then onPress press s fun s => s.attendExecute press o.num c o.stop else .fault .rowMismatch
  | none => .fault .noSuchUnit
def execGalleyExecute (press idx : Nat) (s : State) : Host.Outcome State Fault Refusal :=
  match s.galleyAt press idx with
  | some c => if c.op = 2 then .fault .rowMismatch else onPress press s fun s => (s.galleyExecute press idx c).settle
  | none => .fault .noSuchUnit
def execStickExecute (press : Nat) (o : StartAt) (s : State) : Host.Outcome State Fault Refusal :=
  match s.galleyAt press o.num with
  | some c => if c.op = 2 then onPress press s fun s => (s.stickExecute press o.num c o.stop).settle else .fault .rowMismatch
  | none => .fault .noSuchUnit

/-! ### Swaps (R204 to R207) -/

def execSwapOutEnd (stream : Nat) (s : State) : Host.Outcome State Fault Refusal :=
  if mhas s.galley stream then .next (s.endSwapOut stream) else .fault .noSuchUnit
def execSwapInEnd (stream : Nat) (slotGood : Bool) (s : State) : Host.Outcome State Fault Refusal :=
  if mhas s.galley stream then .next (s.endSwapIn stream slotGood).settle else .fault .noSuchUnit

/-! ### The proof engine (R227, R229) -/

/-- The address of a key as a place: memory or a placed page. -/
def keyLoc (k : Nat) : Loc :=
  if k < 2 ^ 60 then .mem k else .page ((k - 2 ^ 60) / 0x200000) ((k - 2 ^ 60) % 0x200000)

/-- The copies of a commit that stall: sealed buffers and pages that must first move (R252, R348). -/
def State.commitStalls (s : State) (x : Region) : Bool × State :=
  x.shadow.foldl (fun (a : Bool × State) e =>
    let l := keyLoc (e.1 * 32)
    if a.2.pageStalls l true || a.2.windowHolds none l 32 then (true, a.2.provoke l true) else a) (false, s)

/-- PROOF_COMMIT_ENGINE: step 1 of R227 holds until everything issued has completed; from step 2 on the engine carries the
commit through, whatever runs on the press (R231, R232). Its copies wait for pages that stall, its entries for credits. -/
def State.commitEngine (s : State) (c r : Nat) : State :=
  let x := s.region c r
  if x.st = .issuing then s.finishCommit c r
  else if !(decide (x.st = .copying) ||
      (decide (x.st = .committing) && decide ((s.press x.press).run = some x.ctx) && s.drained x.press)) then s
  else
    let s := s.setRegion c r { x with st := .copying }
    let (wait, s) := s.commitStalls x
    if wait then s else s.commitRegion c r

/-- PROOF_REJECT_ENGINE (R229). -/
def State.rejectEngine (s : State) (c r : Nat) : State :=
  let x := s.region c r
  if x.st ≠ .rejecting ∨ (s.press x.press).run ≠ some x.ctx then s
  else if !s.drained x.press then s
  else s.rejectRegion c r

def execProofCommitEngine (chase region : Nat) (s : State) : Host.Outcome State Fault Refusal :=
  if mhas (s.chase chase).regions region then .next (s.commitEngine chase region).settle else .fault .noSuchUnit
def execProofRejectEngine (chase region : Nat) (s : State) : Host.Outcome State Fault Refusal :=
  if mhas (s.chase chase).regions region then .next (s.rejectEngine chase region).settle else .fault .noSuchUnit

end Sys2Proof.Machine
end

