-- ==== Sys2Proof/Machine/RegAccess.lean ====
section
/-! DEFINITION. Control space (R4 to R8, R30, R467 to R471): what each register reads, field-by-field writes, and accesses
that are misaligned or reach no register. -/

namespace Sys2Proof.Machine

/-! ### Registers whose value another unit holds -/

/-- Whether a chase is in service (R470): MGMT.IDENT.UNFENCED. -/
def State.unfenced (s : State) (c : Nat) : Bool := (s.reg .mgmt 0 0x10).getLsbD (16 + c)

/-- Presses on which a context runs as R469 means it. -/
def State.pressShown (s : State) (n : Nat) : Bool :=
  decide ((s.press n).st = .running ∨ (s.press n).st = .idle) && (s.press n).run.isSome

/-- Handles bound in platen `k` (TYMPAN_MAP). -/
def PressCtx.boundMap (c : PressCtx) (k : Nat) : W64 :=
  (c.binds.filter fun e => e.1 / 64 == k).foldl (fun w e => w ||| (1#64 <<< (e.1 % 64))) 0

/-- PROOF_REGION as a word (R233). -/
def State.regionWord (s : State) (n : Nat) : W64 :=
  match (s.pc n).region with
  | some r =>
    let x := s.region (chaseOf n) r
    wn (r + (1 <<< 6) + (x.frames <<< 8) + (x.depth <<< 16) + (x.branch.toNat <<< 32))
  | none => 0

/-- A register of the PRESS block as the context's own Line would read it (R469). Offsets 0x0320 and 0x0328, which the
tables give twice, are the proofing registers [log 27]. -/
def State.pressReg (s : State) (n o : Nat) : W64 :=
  let c := s.pc n
  match o with
  | 0x200 => c.numStatus.setWidth 64
  | 0x250 => c.srSeed
  | 0x280 => c.fault.pc
  | 0x288 => c.fault.info
  | 0x290 => c.fault.va
  | 0x300 => resetWord .press 0x300
  | 0x308 => (List.range 4).foldl (fun w k => w ||| wn ((c.bound k).length <<< (8 * k))) 0
  | 0x310 => c.boundMap 0
  | 0x318 => c.boundMap 1
  | 0x320 => wn (b2n c.proofMis)
  | 0x328 => c.proofCnt.setWidth 64
  | 0x330 => c.proofLoc
  | 0x380 => wn (b2n c.rlRange)
  | 0x388 => c.rlCount.setWidth 64
  | 0x400 => s.regionWord n
  | 0x480 => wn (c.slugBlk.toNat + (c.slugRaw.toNat <<< 32))
  | _ => if 0x208 ≤ o && decide (o < 0x248) && o % 8 == 0 then (mget 0 c.numCount ((o - 0x208) / 8)).setWidth 64 else 0

/-- A register of the CHASE block. -/
def State.chaseReg (s : State) (c o : Nat) : W64 :=
  if 0x800 ≤ o && decide (o < 0xA00) then
    let w := mget ({} : WorkCounter) (s.chase c).counters ((o - 0x800) / 8)
    wn (b2n w.claim + (w.dups.toNat <<< 32))
  else if o = 0xB00 then (s.chase c).regions.foldl (fun w e => w ||| (1#64 <<< e.1)) 0
  else s.reg .chase c o

/-- Contexts of a partition in ACTIVE or TEARDOWN (R299). -/
def State.liveCtxs (s : State) (p : Nat) : Nat := (s.ctxs.filter fun e => e.2.part == p && decide (e.2.st ≠ .free)).length

/-- A register of the PART block (R473). -/
def State.partReg (s : State) (o : Nat) : W64 :=
  let p := o / 0x40
  let x := s.part p
  if x.st = 0 then 0
  else if o % 0x40 = 0 then
    wn (x.chases.toNat + (x.groups.toNat <<< 16) + (b2n x.conf <<< 48) + (b2n x.whole <<< 49))
  else wn (x.quota + (s.liveCtxs p <<< 16) + (x.sessFirst <<< 32) + (x.sessLast <<< 48))

/-- A register of the POOL block (R473). -/
def State.poolReg (s : State) (o : Nat) : W64 :=
  let p := o / 0x100
  if (s.part p).st = 0 then 0
  else wn (s.poolTotal p (o % 0x100 / 8) % 2 ^ 32 + ((s.poolFree p (o % 0x100 / 8) % 2 ^ 32) <<< 32))

/-- SCHED.PRESS_STATE of a press. -/
def State.schedReg (s : State) (n : Nat) : W64 :=
  let p := s.press n
  let st := match p.st with
    | .idle => 0 | .running => 1 | .saving => 2 | .restoring => 3 | .zeroizing => 4 | .parking => 5
  let slot (o : Option Slot) (lo v : Nat) : Nat := match o with
    | some x => (x.ctx <<< lo) + (1 <<< v)
    | none => 0
  wn (p.run.getD 0 + (b2n p.run.isSome <<< 12) + (st <<< 13) + slot p.slotA 16 28 + slot p.slotB 32 44)

/-- TELEM.PRESSES. -/
def State.telemPresses (s : State) : W64 :=
  let run := (s.presses.filter fun e => decide (e.2.st = .running)).length
  let sw := (s.presses.filter fun e => decide (e.2.st = .saving ∨ e.2.st = .restoring ∨ e.2.st = .parking)).length
  wn (run + (sw <<< 8))

/-- SEC.PART_STATE (R430). -/
def State.partStates (s : State) : W64 := (List.range 8).foldl (fun w p => w ||| wn ((s.part p).st <<< (4 * p))) 0

/-- Life-cycle code (R418): 0 MANUFACTURE, 1 PROVISIONED, 2 DEPLOYED, 3 RETURNED, 4 DECOMMISSIONED. -/
def Fuses.lifecycle (f : Fuses) : Nat :=
  if f.lcDecom then 4
  else if f.lcDepl then (if f.returns % 2 = 1 then 3 else 2)
  else if f.lcProv then 1 else 0

/-- A register as it reads, and the free words that a clock or a traffic count takes (R12, R321) [log 3]. -/
def State.readReg (s : State) (b : Block) (i o : Nat) : W64 × State :=
  match b with
  | .press => (if s.unfenced (i / 8) && s.pressShown i then s.pressReg i o else 0, s)
  | .chase => (if s.unfenced i then s.chaseReg i o else 0, s)
  | .part => (s.partReg o, s)
  | .pool => (s.poolReg o, s)
  | .sched => (if o < 0x400 then s.schedReg (o / 8) else s.reg b i o, s)
  | .telem =>
    if o = 0x08 then (s.telemPresses, s)
    else if o = 0x20 then (wn (s.txBytes / 2 ^ 20 % 2 ^ 32 + ((s.rxBytes / 2 ^ 20 % 2 ^ 32) <<< 32)), s)
    else if o = 0x00 || o == 0x10 || o == 0x18 then s.freshWord
    else (s.reg b i o, s)
  | .sec =>
    if o = 0x00 then (wn (s.sec.fuses.lifecycle + (s.sec.fuses.returns <<< 3) + ((s.sec.startCount % 2 ^ 32) <<< 32)), s)
    else if o = 0x10 then (s.partStates, s)
    else if 0x20 ≤ o then ((s.part ((o - 0x20) / 8)).keyEpoch, s)
    else (s.reg b i o, s)
  | .boot =>
    if o = 0 then (putFld (s.reg b i o) 8 8 s.ledger.fails, s)
    else if o = 0x08 then (s.ledger.skip.setWidth 64, s)
    else if o = 0x10 then (s.ledger.alt.setWidth 64 ||| (s.ledger.fenced.setWidth 64 <<< 32), s)
    else if 0x20 ≤ o then (s.ledger.suspect.extractLsb' (64 * ((o - 0x20) / 8)) 64, s)
    else (s.reg b i o, s)
  | .hbm =>
    if 0x1000 ≤ o && 14 ≤ s.regFld .boot 0 0 0 5 then
      let n := ((channelPcs (channelOf ((o - 0x1000) / 8))).flatMap fun pc => mget [] s.ledger.spares pc).length
      (putFld (putFld (s.reg b i o) 2 4 n) 6 4 (4 - n), s)
    else (s.reg b i o, s)
  | .quoin => (if o = 0x20 then wn s.tokensFree else s.reg b i o, s)
  | .place =>
    if o % 0x40 = 0x28 then
      (putFld (s.reg b i o) 1 1 (b2n (s.placed.any fun e => e.2.part == o / 0x40 && e.2.poison)), s)
    else (s.reg b i o, s)
  | _ => (s.reg b i o, s)

/-! ### Reads by address -/

/-- The read-clears fields of a register zeroed (R7). -/
def State.clearRc (s : State) (b : Block) (i o : Nat) : State :=
  match fieldsAt b o with
  | some fs => if fs.any fun f => decide (f.acc = .rc) then
      s.setReg b i o ((fs.filter fun f => decide (f.acc = .rc)).foldl (fun w f => putFld w f.lo f.w 0) (s.reg b i o))
    else s
  | none => s

/-- A read of an aligned address of control space in a block: zero where no register lies (R468), RC fields cleared. -/
def State.readAt (s : State) (b : Block) (i o : Nat) : W64 × State :=
  match fieldsAt b o with
  | none => (0, s)
  | some _ =>
    let (v, s) := s.readReg b i o
    (v, s.clearRc b i o)

/-- A correctable error of the control-access unit (R4, R30). -/
def State.accessError (s : State) (a : Nat) : State := s.rasError 0 0 { cause := 0x07, addr := a }

/-! ### Writes field by field (R5, R8) -/

/-- Whether a value of a field is one of its codes (R8): the fields that are enumerated and have undefined codes. -/
def codeOk (b : Block) (o : Nat) (f : Field) (v : Nat) : Bool :=
  if b = .eth && o = 0x10 && f.lo = 0 then decide (v ≤ 3)
  else if b = .audit && o = 0 && f.lo = 0 then decide (1 ≤ v) && decide (v ≤ 0xD)
  else true

/-- One field written under its access code. -/
def writeField (old v : W64) (f : Field) : W64 :=
  let x := fld v (f.lo + f.w - 1) f.lo
  match f.acc with
  | .rw | .wo => putFld old f.lo f.w x
  | .w1c => putFld old f.lo f.w (fld old (f.lo + f.w - 1) f.lo &&& (2 ^ f.w - 1 - x))
  | .w1s => putFld old f.lo f.w (fld old (f.lo + f.w - 1) f.lo ||| x)
  | .ro | .rc => old

/-- A write that sets BADENUM, with its count (R8, R408). -/
def State.badEnum (s : State) : State := s.raiseFlag 0 .mgmt 0x08 0 .audit 0x108 0 32

/-- A plain write to a register: each field takes effect on its own (R5, R8). -/
def State.plainWrite (s : State) (b : Block) (i o : Nat) (v : W64) : State :=
  match fieldsAt b o with
  | none => s
  | some fs =>
    let ok (f : Field) : Bool := f.acc != .rw || codeOk b o f (fld v (f.lo + f.w - 1) f.lo)
    let s := s.setReg b i o ((fs.filter ok).foldl (fun w f => writeField w v f) (s.reg b i o))
    if fs.all ok then s else s.badEnum

/-! ### Paths (R470, R487) -/

/-- Whether a block ignores every write: the PRESS blocks (R469), and a fenced chase (R470). -/
def State.ignores (s : State) (b : Block) (i : Nat) : Bool :=
  match b with
  | .press => true
  | .chase => !s.unfenced i
  | _ => false

end Sys2Proof.Machine
end

