-- ==== Sys2Proof/Machine/Manage.lean ====
section
/-! DEFINITION. The shell of the management channel (R358, R359): which sessions and modes allow an operation, the rules
of item lists (R475, R476), the scope of a data session, responses, and long operations (R318 to R320, R360). -/

namespace Sys2Proof.Machine

/-! ### Item keys (R476) -/

namespace Key
def part : Nat := 0x0001
def context : Nat := 0x0002
def vaddr : Nat := 0x0003
def length : Nat := 0x0004
def handle : Nat := 0x0005
def action : Nat := 0x0006
def forme : Nat := 0x0007
def chases : Nat := 0x0100
def groups : Nat := 0x0101
def share : Nat := 0x0102
def sessions : Nat := 0x0103
def ctxQuota : Nat := 0x0104
def conf : Nat := 0x0105
def spread : Nat := 0x0106
def folioPool : Nat := 0x0110
def galleyPool : Nat := 0x0120
def swapArea : Nat := 0x0128
def proofPages : Nat := 0x0129
def frames : Nat := 0x012A
def heap : Nat := 0x012B
def cls : Nat := 0x0200
def retainPriv : Nat := 0x0201
def resvLo : Nat := 0x0202
def resvHi : Nat := 0x0203
def jobTag : Nat := 0x0204
def minProtect : Nat := 0x0300
def ticketId : Nat := 0x0301
def secret : Nat := 0x0302
def queue : Nat := 0x0400
def depth : Nat := 0x0401
def session : Nat := 0x0402
def buf : Nat := 0x0410
def wake : Nat := 0x0411
def hostAddr : Nat := 0x0420
def origin : Nat := 0x0430
def originSession : Nat := 0x0431
def originDevice : Nat := 0x0432
def tier : Nat := 0x0433
def exportable : Nat := 0x0434
def image : Nat := 0x0435
def stackMask : Nat := 0x0440
def algo : Nat := 0x0441
def apply : Nat := 0x0442
def interface : Nat := 0x0450
def loop : Nat := 0x0451
def addr : Nat := 0x0460
def value : Nat := 0x0461
def kind : Nat := 0x0470
def svnCommit : Nat := 0x0471
def deviceId : Nat := 0x0480
def stream : Nat := 0x0490
def list : Nat := 0x04A0
def nlayers : Nat := 0x04A1
def window : Nat := 0x04A2
def wrap : Nat := 0x04A3
def progress : Nat := 0x04A4
def job : Nat := 0x04A5
def tset : Nat := 0x04B0
def seedw : Nat := 0x04B1
def pageSize : Nat := 0x0500
def pages : Nat := 0x0501
def pte : Nat := 0x0502
def perm : Nat := 0x0503
def pin : Nat := 0x0504
def imagePage : Nat := 0x0506
def tableWord : Nat := 0x0600
def ipv4 : Nat := 0x0700
def ipv6Hi : Nat := 0x0701
def ipv6Lo : Nat := 0x0702
def udpPort : Nat := 0x0703
def link : Nat := 0x0710
end Key

/-- The least and greatest value of a key (R475, R476). A value whose table gives no range may be any word. -/
def keyRange (k : Nat) : Nat × Nat :=
  if k = Key.part then (0, 7)
  else if k = Key.context ∨ k = Key.queue ∨ k = Key.image then (0, 4095)
  else if k = Key.handle ∨ k = Key.buf ∨ k = Key.originDevice ∨ k = Key.deviceId ∨ k = Key.stream ∨ k = Key.tset ∨
      k = Key.chases then (0, 0xFFFF)
  else if k = Key.forme ∨ k = Key.originSession then (0, 1023)
  else if k = Key.groups ∨ k = Key.jobTag ∨ k = Key.ipv4 then (0, 0xFFFFFFFF)
  else if 0x0110 ≤ k ∧ k ≤ 0x012B then (0, 0xFFFFFFFF)
  else if k = Key.share then (0, 64)
  else if k = Key.ctxQuota then (0, 4096)
  else if k = Key.spread then (0, 128)
  else if k = Key.conf ∨ k = Key.cls ∨ k = Key.minProtect ∨ k = Key.exportable ∨ k = Key.algo ∨ k = Key.apply ∨
      k = Key.svnCommit ∨ k = Key.pageSize ∨ k = Key.wrap then (0, 1)
  else if k = Key.retainPriv then (0, 3)
  else if k = Key.depth then (16, 4096)
  else if k = Key.session then (1, 1023)
  else if k = Key.origin ∨ k = Key.interface ∨ k = Key.pin then (0, 2)
  else if k = Key.tier then (2, 3)
  else if k = Key.stackMask ∨ k = Key.seedw then (0, 255)
  else if k = Key.job then (0, 15)
  else if k = Key.pages then (1, 65536)
  else if k = Key.perm then (0, 7)
  else if k = Key.imagePage then (0, 289855)
  else if k = Key.udpPort then (1, 65535)
  else if k = Key.link then (0, 31)
  else (0, 2 ^ 64 - 1)

/-- Whether an item's value is allowed (R475): its range, the bits outside its fields, and the kinds of R414. -/
def itemOk (e : Nat × W64) : Bool :=
  let v := e.2.toNat
  let (lo, hi) := keyRange e.1
  decide (lo ≤ v) && decide (v ≤ hi) &&
    (e.1 != Key.sessions || (bits v 15 10 == 0 && bits v 63 26 == 0)) &&
    (e.1 != Key.kind || (decide (1 ≤ v) && decide (v ≤ 5)) || v == 0xE || v == 0xF)

end Sys2Proof.Machine

namespace Sys2Proof

/-- The value of an item, if the list has it. -/
def MReq.item? (r : MReq) (k : Nat) : Option W64 := (r.items.find? fun e => e.1 == k).map (·.2)
/-- The value of an item as a number; `d` where the list has none. -/
def MReq.num (r : MReq) (k : Nat) (d : Nat := 0) : Nat := match r.item? k with | some v => v.toNat | none => d
def MReq.has (r : MReq) (k : Nat) : Bool := (r.item? k).isSome

end Sys2Proof

namespace Sys2Proof.Machine

/-- An operation of the management channel (R359): which sessions may use it, whether service mode (R441) and restricted
mode (R424) allow it, its keys with those that are required, and whether its list has the general form. -/
structure OpRule where
  all        : Bool := false
  service    : Bool := false
  restricted : Bool := false
  keys       : List (Nat × Bool) := []
  plain      : Bool := true
  deriving DecidableEq, Repr

/-- Whether no key stands twice. -/
def noRepeat : List (Nat × W64) → Bool
  | [] => true
  | e :: es => !es.any (fun x => x.1 == e.1) && noRepeat es

/-- The item rules of R475 for an operation with a plain list. -/
def OpRule.listOk (o : OpRule) (r : MReq) : Bool :=
  !o.plain ||
    (r.items.all (fun e => itemOk e && o.keys.any fun k => k.1 == e.1) &&
      o.keys.all (fun k => !k.2 || r.has k.1) && noRepeat r.items)

/-- Whether what a request names lies in the scope of its session (R358): a data session's own partition, and contexts
and queues of it; every named context is ACTIVE and every named queue exists. -/
def State.inScope (s : State) (r : MReq) : Bool :=
  let mine (p : Nat) : Bool := r.session == 0 || p == (s.session r.session).part
  mine (if r.session == 0 then 0 else r.part) &&
    (match r.item? Key.part with | some p => mine p.toNat | none => true) &&
    (match r.item? Key.context with
      | some c => decide ((s.ctx c.toNat).st = .active) && mine (s.ctx c.toNat).part
      | none => true) &&
    (match r.item? Key.queue with
      | some q => match mfind? s.queues q.toNat with | some x => mine x.part | none => false
      | none => true)

/-- Service mode (R441) and restricted mode (R423). -/
def State.serviceMode (s : State) : Bool := s.regFld .boot 0 0 6 1 == 1
def State.restrictedMode (s : State) : Bool := s.regFld .sec 0 0x08 0 1 == 1

/-- The refusal of a request before its operation looks at it, if there is one. -/
def State.gate (s : State) (o : OpRule) (r : MReq) : Option Status :=
  if s.serviceMode && !(o.service && r.session == 0) then some St.serviceMode
  else if s.restrictedMode && !(o.restricted && r.session == 0) then some St.restrictedMode
  else if !o.all && r.session != 0 then some St.descriptorInvalid
  else if !o.listOk r then some St.descriptorInvalid
  else if !s.inScope r then some St.descriptorInvalid
  else none

/-- A final response to a request (R358). -/
def State.reply (s : State) (r : MReq) (st : Status) (items : List (Nat × W64)) : State :=
  s.send r.session (.manage r.reqId st items [] false)
/-- A request refused. -/
def State.refuse (s : State) (r : MReq) (st : Status) : State := s.reply r st []
/-- A request answered with success and no items. -/
def State.done (s : State) (r : MReq) : State := s.reply r St.ok []

/-- An operation of the management channel. A request on a session that is not open cannot be read and has no effect. -/
def manage (o : OpRule) (r : MReq) (s : State) (f : State → State) : Host.Outcome State Fault Refusal :=
  if 1024 ≤ r.session then .fault .noSuchUnit
  else if !s.sessionOpen r.session then .next s
  else match s.gate o r with
    | some st => .next (s.refuse r st)
    | none => .next (f s)

/-! ### Long operations (R318, R319, R360) -/

/-- Long operations that have not ended. -/
def State.liveLongs (s : State) : Nat := (s.longops.filter fun e => decide (e.2.st ≠ .done)).length

/-- The handle of a new long operation: the lowest number without a record, else the lowest whose operation has ended;
none where 256 are live (R317's table, log 28). -/
def State.newHandle (s : State) : Option Nat :=
  if 256 ≤ s.liveLongs then none
  else match mfree s.longops 65536 0 with
    | some h => some h
    | none => (s.longops.find? fun e => decide (e.2.st = .done)).map (·.1)

/-- A long operation started and answered with its handle (R360); QUEUE_FULL at the limit. -/
def State.startLong (s : State) (r : MReq) (k : LongKind) (ctx : Option Nat) (f : Nat → State → State) : State :=
  match s.newHandle with
  | none => s.refuse r St.queueFull
  | some h =>
    let s := { s with longops := mput s.longops h { kind := k, session := r.session, reqId := r.reqId, ctx := ctx } }
    f h (s.send r.session (.manage r.reqId St.ok [(Key.handle, wn h)] [] false))

def State.longop (s : State) (h : Nat) : LongOp := mget {} s.longops h
def State.setLongop (s : State) (h : Nat) (o : LongOp) : State := { s with longops := mput s.longops h o }

/-- A record posted by a long operation on its session (R319, R360); one of a collective on the event session of its
context, or held (R381). -/
def State.postLong (s : State) (h : Nat) (st : Status) (items : List (Nat × W64)) (last : Bool) : State :=
  let o := s.longop h
  let its := (Key.handle, wn h) :: items
  match o.kind with
  | .collective c _ => match s.eventSession c with
    | some n => s.send n (.manage o.reqId st its [] last)
    | none => s.setCtx c { s.ctx c with heldLongs := (s.ctx c).heldLongs ++ [(st, its, last)] }
  | _ => s.send o.session (.manage o.reqId st its [] last)

/-- The session through which a long operation is commanded (R318, R381). -/
def State.longSession (s : State) (h : Nat) : Option Nat :=
  match (s.longop h).kind with
  | .collective c _ => s.eventSession c
  | _ => some (s.longop h).session

/-- A long operation ends with its final record; `items` stand in key order (R475). -/
def State.endLong (s : State) (h : Nat) (st : Status) (items : List (Nat × W64)) : State :=
  (s.setLongop h { s.longop h with st := .done }).postLong h st items true

/-- A long operation that runs, at the end of its work. -/
def State.longLive (s : State) (h : Nat) : Bool :=
  mhas s.longops h && decide ((s.longop h).st ≠ .done)

end Sys2Proof.Machine
end

