-- ==== Sys2Proof/Machine/Formes.lean ====
section
/-! DEFINITION. Formes and the imposer: forme descriptors (R13 to R17, R302), how a take is split (R18 to R24, R120,
R494), sliding-window takes (R128 to R133), and fences of completed takes (R347). -/

namespace Sys2Proof.Machine

/-! ### Forme descriptors -/

/-- The formes that a forme contains at any depth, itself included. -/
def State.formeClosure (s : State) : Nat → Nat → List Nat
  | 0, _ => []
  | fuel + 1, h => h :: (s.forme h).members.foldl (fun acc m =>
      acc ++ (if m.isForme then s.formeClosure fuel m.index else [])) []

/-- Whether a forme is in use (R17): a take on it, or on one that contains it, is outstanding until its record is sent, or
another installed forme names it. -/
def State.formeBusy (s : State) (h : Nat) : Bool :=
  (s.takes.any fun e => (decide (e.2.st ≠ .done) || e.2.unsent) && !e.2.marker && (s.formeClosure 6 e.2.forme).contains h) ||
    s.formes.any fun e => e.2.members.any fun m => m.isForme && m.index == h

/-- The header of a descriptor and its reserved fields (R16). -/
def formeHeadOk (w0 w1 : W64) (rest : List W64) : Bool :=
  let level := fld w0 2 0
  let count := fld w0 20 8
  decide (3 ≤ level) && decide (1 ≤ count) && decide (count ≤ 4096) && fld w0 7 3 == 0 && fld w0 23 21 == 0 &&
    fld w0 63 62 == 0 && fld w1 63 32 == 0 && rest.all (· == 0)

/-- One member entry: its reserved fields. -/
def memberRsvOk (w : W64) : Bool :=
  fld w 15 4 == 0 && fld w 31 26 == 0 && fld w 63 48 == 0 && (flag w 0 || fld w 25 23 == 0)
def memberOf (w : W64) : Member :=
  { isForme := flag w 0, level := fld w 3 1, index := fld w 25 16, device := fld w 47 32 }

/-- The context that reserves a press (R301). -/
def State.reserver (s : State) (n : Nat) : Option Nat :=
  (s.ctxs.find? fun e => decide (e.2.st ≠ .free) && e.2.resv.getLsbD n).map (·.1)

/-- Whether a member press may stand in a forme of a context (R16, R302). A press of another device is held by a
context bound under the same job tag or not: nothing here shows which (log 29). -/
def State.memberPressOk (s : State) (c : Nat) (jobTag : W32) (m : Member) : Bool :=
  let x := s.ctx c
  if m.device = s.myId then
    (s.part x.part).chases.getLsbD (m.index / 8) &&
      (if x.critical then x.resv.getLsbD m.index
       else match s.reserver m.index with
        | some o => !(s.ctx o).retain
        | none => true)
  else jobTag != 0 && Config.pick s.free % 2 == 0

/-- Validation of a forme descriptor (R13, R14, R16, R302): the handle and the forme to install, or nothing. -/
def State.checkForme (s : State) (body : List Byte) : Option (Nat × Forme) :=
  let ws := toWords (body.length / 8) body
  let w0 := nth 0 ws 0
  let w1 := nth 0 ws 1
  let level := fld w0 2 0
  let count := fld w0 20 8
  let c := fld w0 35 24
  let h := fld w0 61 52
  let tag := (fld w1 31 0)
  let mws := ws.drop 8
  let ms := mws.map memberOf
  let x := s.ctx c
  let presses := ms.foldl (fun acc m =>
    acc ++ (if m.isForme then s.formePresses 6 m.index else [m.device * 128 + m.index])) []
  let ok :=
    body.length == 64 + 8 * count && formeHeadOk w0 w1 (slice2 ws) && mws.all memberRsvOk &&
      decide (x.st = .active) &&
      (level != 3 || (ms.all fun m => !m.isForme && m.level == 3) && count == 1) &&
      (ms.all fun m =>
        if m.isForme then
          decide (m.level < level) && mhas s.formes m.index && decide ((s.forme m.index).ctx = c) &&
            (s.forme m.index).level == m.level
        else m.level == 3 && s.memberPressOk c (BitVec.ofNat 32 tag) m) &&
      dedup presses == presses && !mhas s.formes h
  if ok then
    some (h, { level := level, ctx := c, head := fld w0 51 36, jobTag := BitVec.ofNat 32 tag, members := ms })
  else none
where
  /-- Words 2 to 7 of the header. -/
  slice2 (ws : List W64) : List W64 := (ws.drop 2).take 6

/-- FORME_INSTALL (R16): a handle in use cannot be replaced (R17). -/
def State.installForme (s : State) (r : MReq) (body : List Byte) : State :=
  let w0 := nth 0 (toWords 1 body) 0
  let c := fld w0 35 24
  if r.session != 0 && decide ((s.ctx c).st ≠ .free) && (s.ctx c).part != (s.session r.session).part then
    s.refuse r St.descriptorInvalid
  else if 64 ≤ body.length && mhas s.formes (fld w0 61 52) && s.formeBusy (fld w0 61 52) then s.refuse r St.formeBusy
  else match s.checkForme body with
    | none => { s.refuse r St.formeInvalid with free := s.free + 1 }
    | some (h, f) => ({ s with formes := mput s.formes h f, free := s.free + 1 }).done r

def execFormeInstall (r : MReq) (body : List Byte) (s : State) : Host.Outcome State Fault Refusal :=
  manage { all := true, plain := false } r s fun s => s.installForme r body

/-- FORME_RELEASE (R17). -/
def execFormeRelease (r : MReq) (s : State) : Host.Outcome State Fault Refusal :=
  manage { all := true, keys := [(Key.forme, true)] } r s fun s =>
    let h := r.num Key.forme
    if !mhas s.formes h then s.refuse r St.descriptorInvalid
    else if r.session != 0 && (s.ctx (s.forme h).ctx).part != (s.session r.session).part then
      s.refuse r St.descriptorInvalid
    else if s.formeBusy h then s.refuse r St.formeBusy
    else ({ s with formes := mdel s.formes h }).done r

/-! ### Sliding-window takes (R128 to R133) -/

/-- The fields of a window record (R128). -/
structure Window where
  kind : Nat
  kt : Nat
  kh : Nat
  kw : Nat
  st : Nat
  sy : Nat
  sx : Nat
  dt : Nat
  dy : Nat
  dx : Nat
  groups : Nat
  padTop : Nat
  padBottom : Nat
  padLeft : Nat
  padRight : Nat
  padFront : Nat
  padBack : Nat
  inD : Nat
  outD : Nat
  wtD : Nat
  biasD : Nat
  biasEn : Bool
  furniture : Nat
  cbIn : Nat
  cbOut : Nat
  tIn : Nat
  deriving DecidableEq, Repr

def windowOf (w : List W64) : Window :=
  let f (i hi lo : Nat) : Nat := fld (nth 0 w i) hi lo
  { kind := f 0 1 0, kt := f 0 15 8, kh := f 0 23 16, kw := f 0 31 24, st := f 0 39 32, sy := f 0 47 40, sx := f 0 55 48
    dt := f 1 7 0, dy := f 1 15 8, dx := f 1 23 16, groups := f 1 47 32
    padTop := f 2 15 0, padBottom := f 2 31 16, padLeft := f 2 47 32, padRight := f 2 63 48
    padFront := f 3 15 0, padBack := f 3 31 16, inD := f 3 35 32, outD := f 3 39 36, wtD := f 3 43 40
    biasD := f 3 47 44, biasEn := flag (nth 0 w 3) 48
    furniture := f 4 31 0, cbIn := f 5 15 0, cbOut := f 5 31 16, tIn := f 5 47 32 }

/-- The reserved fields of a window record are zero and its fields in range (R128, R132). -/
def Window.rangesOk (v : Window) (w : List W64) : Bool :=
  let f (i hi lo : Nat) : Nat := fld (nth 0 w i) hi lo
  f 0 7 3 == 0 && f 0 63 56 == 0 && f 1 31 24 == 0 && f 1 63 48 == 0 && f 3 63 49 == 0 && f 4 63 36 == 0 &&
    f 5 63 48 == 0 && nth 0 w 6 == 0 && nth 0 w 7 == 0 && v.kind != 3 &&
    decide (1 ≤ v.kt ∧ v.kt ≤ 16 ∧ 1 ≤ v.kh ∧ v.kh ≤ 64 ∧ 1 ≤ v.kw ∧ v.kw ≤ 64) &&
    decide (1 ≤ v.st ∧ v.st ≤ 16 ∧ 1 ≤ v.sy ∧ v.sy ≤ 16 ∧ 1 ≤ v.sx ∧ v.sx ≤ 16) &&
    decide (1 ≤ v.dt ∧ 1 ≤ v.dy ∧ 1 ≤ v.dx ∧ 1 ≤ v.cbIn ∧ 1 ≤ v.cbOut ∧ 1 ≤ v.tIn) &&
    (if v.kind = 0 then decide (1 ≤ v.groups)
     else v.groups == 0 && v.wtD == 0 && !v.biasEn && v.cbIn == v.cbOut)

/-- One output extent (R131). -/
def outExtent (ext padA padB k d st : Nat) : Int :=
  ((ext + padA + padB : Nat) - ((k - 1) * d : Nat) - 1 : Int).fdiv st + 1

/-- Channels per block (R129): none for formats wider than 16 bits. -/
def blockChannels (fmt : Nat) : Option Nat :=
  if fmtWidth fmt = 16 then some 16 else if fmtWidth fmt ≤ 8 then some 32 else none

/-- The layout of R129. -/
def layoutOk (t : TD) (b : Nat) : Bool :=
  t.e0 == b && decide (t.s1 = ((b * fmtWidth t.fmt / 8 : Nat) : Int)) && decide ((t.e2 : Int) * t.s2 ≤ t.s3) && !t.mx &&
    !t.plist

/-- Validation of a window record against the descriptors of its take (R129 to R132). -/
def windowOk (w : List W64) (ds : List Desc) : Bool :=
  let v := windowOf w
  match ds[v.inD]?, ds[v.outD]? with
  | some di, some dout =>
    let i := tdOf di
    let o := tdOf dout
    match blockChannels i.fmt, blockChannels o.fmt with
    | some bi, some bo =>
      let hOut := outExtent i.e2 v.padTop v.padBottom v.kh v.dy v.sy
      let wOut := outExtent i.e1 v.padLeft v.padRight v.kw v.dx v.sx
      let tOut := outExtent v.tIn v.padFront v.padBack v.kt v.dt v.st
      let n := i.e3 / (v.tIn * v.cbIn)
      let cIn := v.cbIn * bi
      let cOut := v.cbOut * bo
      v.rangesOk w && decide (v.furniture < 2 ^ fmtWidth i.fmt) &&
        decide (1 ≤ hOut ∧ 1 ≤ wOut ∧ 1 ≤ tOut) && i.e3 % (v.tIn * v.cbIn) == 0 &&
        decide ((o.e1 : Int) = wOut ∧ (o.e2 : Int) = hOut ∧ (o.e3 : Int) = n * tOut * v.cbOut) &&
        layoutOk i bi && layoutOk o bo && !o.role && o.sdim == 2 && !i.role && i.sdim == 2 &&
        (if v.kind = 0 then
          platenOperand i && platenResult o && cIn % v.groups == 0 && cOut % v.groups == 0 &&
            (match ds[v.wtD]? with
              | some dw =>
                let x := tdOf dw
                x.role && x.e0 == cOut && x.e1 == cIn / v.groups && x.e2 == v.kt * v.kh * v.kw && x.e3 == 1 && !x.mx &&
                  !x.plist
              | none => false) &&
            (!v.biasEn || (match ds[v.biasD]? with
              | some db =>
                let x := tdOf db
                x.e0 == cOut && x.e1 == 1 && x.e2 == 1 && x.e3 == 1
              | none => false))
         else i.fmtOk false && o.fmtOk false)
    | _, _ => false
  | _, _ => false

/-! ### Splitting (R18 to R20, R494, R120) -/

/-- A descriptor with its extent along a dimension replaced. -/
def setExt (d : Desc) (k v : Nat) : Desc :=
  let i := 2 + k / 2
  setDword d i (putFld (dword d i) (32 * (k % 2)) 32 v)

/-- A split descriptor rewritten for the indices `a .. b-1` of its split dimension (R20, R494). -/
def shareDesc (d : Desc) (a b : Nat) : Desc :=
  let t := tdOf d
  let k := t.sdim
  if t.ext k ≤ a then setExt d k 0
  else
    let step : Int :=
      if t.plist then 8 * (a : Int)
      else if k = 0 then ((a * fmtWidth t.fmt / 8 : Nat) : Int)
      else (a : Int) * (if k = 1 then t.s1 else if k = 2 then t.s2 else t.s3)
    let c : Coord := ⟨if k = 0 then a else 0, if k = 1 then a else 0, if k = 2 then a else 0, if k = 3 then a else 0⟩
    let d := setDword d 0 (t.base + w64 step)
    let d := if t.mx then setDword d 1 (t.scale + wn (if t.plist then 8 * a else t.blockNo c)) else d
    setExt d k (min b (t.ext k) - a)

/-- Whether a split descriptor can be split at a granule (R120, R494). -/
def splitOk (gran : Nat) (d : Desc) : Bool :=
  let t := tdOf d
  let k := t.sdim
  (!t.plist || k == 3) &&
    (!t.mx || t.plist || (((List.range 4).all fun j => decide (j ≤ k) || t.ext j == 1) &&
      (k != t.axis || gran % 32 == 0))) &&
    (k != 0 || gran % (if fmtWidth t.fmt = 4 then 2 else if fmtWidth t.fmt = 6 then 4 else 1) == 0)

/-- The descriptor whose split dimension is the split axis (R342, R133). -/
def axisDesc (ds : List Desc) (w : Option (List W64)) : Option TD :=
  match w with
  | some w => (ds[(windowOf w).outD]?).map tdOf
  | none => (ds.find? fun d => !(tdOf d).role).map tdOf

/-- Number of granules (R18, R342). -/
def splitGranules (ds : List Desc) (w : Option (List W64)) (gran : Nat) : Nat :=
  match axisDesc ds w with
  | none => 1
  | some t => ceilDiv (t.ext t.sdim) gran

/-- A share of a window record for output rows `a` to `b`, with the input descriptor's rows (R133). -/
def shareWindow (w : List W64) (di : Desc) (a b : Nat) : List W64 × Desc :=
  let v := windowOf w
  let t := tdOf di
  let lo : Int := (a * v.sy : Nat) - (v.padTop : Int)
  let hi : Int := (b * v.sy : Nat) - (v.padTop : Int) + ((v.kh - 1) * v.dy : Nat)
  let loC := max lo 0
  let hiC := min hi ((t.e2 : Int) - 1)
  let pads (p q : Int) : List W64 := setNth w 2 (putFld (putFld (nth 0 w 2) 0 16 p.toNat) 16 16 q.toNat)
  if loC ≤ hiC then
    (pads (loC - lo) (hi - hiC), setExt (setDword di 0 (t.base + w64 (loC * t.s2))) 2 (hiC - loC + 1).toNat)
  else (pads (hi - lo + 1) 0, setExt di 2 0)

/-- The descriptors and window record of the share of granules `first .. first+n-1` (R20, R133). -/
def shareOf (ds : List Desc) (w : Option (List W64)) (gran first n : Nat) : List Desc × Option (List W64) :=
  match axisDesc ds w with
  | none => (ds, w)
  | some t =>
    let a := first * gran
    let b := min ((first + n) * gran) (t.ext t.sdim)
    let cut (d : Desc) : Desc := if (tdOf d).role then d else shareDesc d a b
    match w with
    | none => (ds.map cut, none)
    | some w =>
      let i := (windowOf w).inD
      let (w', di) := shareWindow w (nth 0 ds i) a (b - 1)
      ((List.range ds.length).map fun k => if k = i then di else cut (nth 0 ds k), some w')

/-- A share that reaches a press, or a member on another device. -/
structure Piece where
  device : Nat
  press  : Nat
  far    : Option Nat
  descs  : List Desc
  window : Option (List W64)
  via    : List Nat
  deriving DecidableEq, Repr

/-- Granules of each member in proportion to its press count: first granule and number (R19). -/
def apportion (g : Nat) (cs : List Nat) : List (Nat × Nat) :=
  let total := sumL cs
  let base := cs.map fun c => g * c / total
  let left := g - sumL base
  let ns := (List.range cs.length).map fun i => nth 0 base i + (if i < left then 1 else 0)
  (List.range cs.length).map fun i => (sumL (ns.take i), nth 0 ns i)

/-- Press count of a member (R19). -/
def State.memberCount (s : State) (m : Member) : Nat :=
  if m.isForme then (s.formePresses 6 m.index).length else 1

/-- The sub-takes of a share on a forme (R18 to R20). A level-3 forme has no imposer: its press runs the share. -/
def State.split (s : State) : Nat → Nat → List Desc → Option (List W64) → Nat → List Nat → List Piece
  | 0, _, _, _, _, _ => []
  | fuel + 1, h, ds, w, gran, via =>
    let f := s.forme h
    let via := via ++ [h]
    if f.level = 3 then
      match f.members with
      | m :: _ => [{ device := m.device, press := m.index, far := none, descs := ds, window := w, via := via }]
      | [] => []
    else
      let shares := apportion (splitGranules ds w gran) (f.members.map s.memberCount)
      (List.range f.members.length).foldl (fun acc i =>
        let m := nth ({} : Member) f.members i
        let (first, n) := nth (0, 0) shares i
        if n = 0 then acc
        else
          let (ds', w') := shareOf ds w gran first n
          if m.isForme then
            if m.device = s.myId then acc ++ s.split fuel m.index ds' w' gran via
            else acc ++ [{ device := m.device, press := 0, far := some m.index, descs := ds', window := w', via := via }]
          else acc ++ [{ device := m.device, press := m.index, far := none, descs := ds', window := w', via := via }]) []

/-! ### The imposer -/

/-- Whether every earlier take of a queue than the one at place `i` has completed (R341, R343). -/
def State.earlierDone (s : State) (q : CmdQueue) (i : Nat) : Bool :=
  (q.takes.take i).all fun k => match mfind? s.takes k with
    | some t => decide (t.st = .done ∨ t.st = .publishing)
    | none => true

/-- The take that a queue passes to the imposer next: in acceptance order, a MARKER when all before it has completed, a
take that waits for those before it holding back the ones behind (R341, R343). -/
def State.nextTakeOf (s : State) (q : CmdQueue) : Option Nat :=
  let rec go : List Nat → Nat → Option Nat
    | [], _ => none
    | k :: ks, i => match mfind? s.takes k with
      | none => go ks (i + 1)
      | some t =>
        if t.st ≠ .queued then go ks (i + 1)
        else if t.marker then (if s.earlierDone q i then some k else go ks (i + 1))
        else if t.waitPrev && !s.earlierDone q i then none
        else some k
  go q.takes 0

/-- A sub-take given to a press of this device; the request of an owner for a press that serves others is latched for
pre-emption (R306). -/
def State.giveSub (s : State) (k : Nat) (t : Take) (i : Nat) (p : Piece) : State :=
  let n := s.nextSub
  let sub : SubTake :=
    { take := k, ctx := t.ctx, press := p.press, member := i, via := p.via, descs := p.descs, arg := t.arg,
      entry := t.entry, window := p.window, order := t.order }
  let s := { s with nextSub := n + 1, subs := mput s.subs n sub }
  let pr := s.press p.press
  match pr.run with
  | some c =>
    if s.reserver p.press = some t.ctx && !(s.ctx c).critical then s.setPress p.press { pr with preempt := true } else s
  | none => s

/-- The forme barriers of a take, one for each forme that hands a sub-take on, with the presses that take part, those of other
devices as one sign (R95). -/
def State.openBarriers (s : State) (k : Nat) (ps : List Piece) : State :=
  let here := ps.filter fun p => p.device == s.myId && p.far.isNone
  let hs := dedup (ps.foldl (fun acc p => acc ++ p.via) [])
  { s with fbars := hs.foldl (fun m h =>
      let expect := (here.filter fun p => p.via.contains h).map (·.press)
      let far := ps.any fun p => p.via.contains h && (p.device != s.myId || p.far.isSome)
      mput m (k * 1024 + h) { expect := expect, remote := far }) s.fbars }

/-- A take passed to the imposer: split, or completed at once where it cannot be split (R120, R494) or has no granule
(R18). A share for a member on another device leaves over Quoin. A take that also has a split axis of extent zero ends with
the status of the broken condition, and one of a level-3 forme, whose press runs it without an imposer, completes at once on
extent zero as every other (DESIGN CHOICE, log 95). -/
def State.impose (s : State) (k : Nat) (t : Take) : State :=
  if t.marker then s.endTake k St.ok
  else if !mhas s.formes t.forme then s.endTake k St.formeInvalid
  else if (t.descs.filter fun d => !(tdOf d).role).any fun d => !splitOk t.granule d then
    s.endTake k St.formeSplitInvalid
  else if splitGranules t.descs t.window t.granule = 0 then s.endTake k St.ok
  else
    let ps := s.split 6 t.forme t.descs t.window t.granule []
    let s := { s with takes := mput s.takes k { t with st := .running, left := ps.length } }
    let s := s.openBarriers k ps
    (List.range ps.length).foldl (fun s i =>
      match ps[i]? with
      | none => s
      | some p =>
        if p.device = s.myId && p.far.isNone then s.giveSub k t i p
        else s.emit (.subtake p.device k (p.far.getD t.forme))) s

/-- IMPOSER_SPLIT of a queue. -/
def State.imposeQueue (s : State) (q : Nat) : State :=
  match s.nextTakeOf (mget {} s.queues q) with
  | none => s
  | some k => match mfind? s.takes k with
    | none => s
    | some t => s.impose k t

def execImposerSplit (queue : Nat) (s : State) : Host.Outcome State Fault Refusal :=
  if mhas s.queues queue then .next (s.imposeQueue queue) else .fault .noSuchUnit

/-! ### Completion of sub-takes and fences (R24, R91, R347) -/

/-- A sub-take reported complete to its imposer: the take completes with the last one, with the status of the lowest
member that failed (R24). -/
def State.subDone (s : State) (k : Nat) (member : Nat) (st : Status) : State :=
  match mfind? s.takes k with
  | none => s
  | some t =>
    let ends := if st = St.ok then t.ends else mput t.ends member st
    let t := { t with left := t.left - 1, ends := ends }
    let s := { s with takes := mput s.takes k t }
    if t.left = 0 then s.endTake k (match ends with | e :: _ => e.2 | [] => St.ok) else s

/-- What a press keeps after a sub-take (R305): a latency-critical context's state stays on its press; any other press
state is zeroized. -/
def State.leavePress (s : State) (n c : Nat) : State :=
  if (s.ctx c).critical then
    let p := s.press n
    s.setPress n { p with st := .idle, cur := { p.cur with
      sub := none, hold := .none, held := [], dropLatch := false, dupSeen := false }, gathered := [], preempt := false }
  else s.zeroPress n

/-- SUBTAKE_COMPLETE: the END hold of a press released once everything it waits for has completed (R91, R225); a sub-take
that made a duplicate claim says so (R124). -/
def State.finishSub (s : State) (n : Nat) : State :=
  let p := s.pc n
  match p.sub with
  | none => s
  | some k =>
    if p.hold ≠ .ending ∨ !s.drained n then s
    else match mfind? s.subs k with
      | none => s
      | some x =>
        let s := s.leavePress n x.ctx
        let s := { s with subs := mdel s.subs k }
        s.subDone x.take x.member (if p.dupSeen then St.claimDuplicate else St.ok)

def execSubtakeComplete (press : Nat) (s : State) : Host.Outcome State Fault Refusal :=
  onPress press s fun s => s.finishSub press

/-- The state of a context's Lines on a press and in its save slots. -/
def Press.statesOf (p : Press) (c : Nat) : List PressCtx :=
  (if p.run = some c then [p.cur] else []) ++
    (match p.slotA with | some x => if x.ctx = c then [x.st] else [] | none => []) ++
    (match p.slotB with | some x => if x.ctx = c then [x.st] else [] | none => [])

/-- Writes issued to a buffer's range and not yet completed (R347): stalled stores and tensor moves of its context. -/
def State.bufferWrites (s : State) (b : Buffer) : Bool :=
  let hit (va : W64) (len : Nat) : Bool := decide (va.toNat < b.base + b.len) && decide (b.base < va.toNat + len)
  s.presses.any fun e => (e.2.statesOf b.ctx).any fun p =>
    (p.stall.any fun x => match x with
      | .store va size _ _ _ _ => hit va size
      | .load _ _ _ _ _ _ _ => false) ||
    (p.tmq ++ p.tmRun).any fun o =>
      let t := tdOf o.td
      t.space == 0 && (t.ranges o.tdList).any fun r => hit r.1 r.2

/-- FENCE_PUBLISH (R347, R351): the take of a queue, by its place, whose fence is due; the buffer takes the generation and
is sealed, and the record follows. A take with writes to host windows outstanding waits. -/
def State.publish (s : State) (k : Nat) (t : Take) : State :=
  match t.fence with
  | none => s
  | some (b, g) =>
    let x := mget ({} : Buffer) s.buffers b
    let busy := s.bufferWrites x || s.requests.any fun e => (e.2.kind == 4 || e.2.merge.isSome) && e.2.ctx == t.ctx
    if busy then s
    else
      let s := if mhas s.buffers b then
          { s with buffers := mput s.buffers b { x with gen := g, sealed := true } } else s
      s.recordTake k 0 none (BitVec.ofNat 32 g)

def execFencePublish (queue seq : Nat) (s : State) : Host.Outcome State Fault Refusal :=
  match s.takes.find? (fun e => e.2.queue == queue && e.2.seq == seq && decide (e.2.st = .publishing)) with
  | some (k, t) => .next (s.publish k t)
  | none => .fault .noSuchUnit

end Sys2Proof.Machine
end

