-- ==== Sys2Proof/Machine/Sched.lean ====
section
/-! DEFINITION. Contexts and presses (R298 to R314): creation and destruction of contexts, which work a press takes next,
pre-emption, and faults found after issue. -/

namespace Sys2Proof.Machine

/-! ### Contexts (R298 to R301) -/

/-- RESV of a create request (R300). -/
def resvOf (r : MReq) : BitVec 128 :=
  BitVec.ofNat 128 (r.num Key.resvLo + (r.num Key.resvHi <<< 64))

/-- The lowest FREE context number (R299). -/
def State.freeCtx (s : State) : Option Nat := (List.range 4096).find? fun c => decide ((s.ctx c).st = .free)

/-- Why RESV cannot be granted (R300): a press outside the partition's chases, one that another live context reserves,
or any press for a best-effort context. -/
def State.resvBad (s : State) (p : Nat) (critical : Bool) (resv : BitVec 128) : Bool :=
  resv != 0 && (!critical || (List.range 128).any fun n =>
    resv.getLsbD n && (!(s.part p).chases.getLsbD (n / 8) || (s.reserver n).isSome))

/-- The refusal of a create request, in the order of R300. -/
def State.createRefusal (s : State) (r : MReq) : Option Status :=
  let p := r.num Key.part
  let st := (s.part p).st
  if !s.idValid then some St.deviceIdUnset
  else if st = 2 ∨ st = 3 then some St.partitionBusy
  else if (s.part p).quota ≤ s.liveCtxs p then some St.contextLimit
  else if s.resvBad p (r.num Key.cls == 1) (resvOf r) then some St.reservationUnavailable
  else none

/-- Address of the first-level table of a context: one 4 KiB page of the firmware reserve each [log 7]. -/
def rootOf (c : Nat) : Nat := 0x008D88000000 + c * 0x1000

/-- The record of a new context (R300). -/
def newCtx (r : MReq) (c : Nat) : Ctx :=
  let rp := r.num Key.retainPriv
  { st := .active, critical := r.num Key.cls == 1, retain := rp % 2 == 1, priv := rp / 2 % 2 == 1
    part := r.num Key.part, jobTag := BitVec.ofNat 32 (r.num Key.jobTag), root := rootOf c, resv := resvOf r }

def State.createCtx (s : State) (r : MReq) : State :=
  match s.createRefusal r with
  | some st => s.refuse r st
  | none => match s.freeCtx with
    | none => s.refuse r St.contextLimit
    | some c => (s.setCtx c (newCtx r c)).reply r St.ok [(Key.context, wn c)]

def execContextCreate (r : MReq) (s : State) : Host.Outcome State Fault Refusal :=
  manage { all := true, keys := [(Key.part, true), (Key.cls, true), (Key.retainPriv, false), (Key.resvLo, false),
    (Key.resvHi, false), (Key.jobTag, false)] } r s fun s => s.createCtx r

/-- CONTEXT_DESTROY (R314): teardown begins with CONTEXT_TORN_DOWN. -/
def execContextDestroy (r : MReq) (s : State) : Host.Outcome State Fault Refusal :=
  manage { all := true, keys := [(Key.context, true)] } r s fun s =>
    (s.teardown (r.num Key.context) St.contextTornDown).done r

/-! ### What a press takes next (R303, R305, R342) -/

/-- Registers that the start of a sub-take sets (R342): t0 to t(ND - 1), x1, x56 to x63 of a window take, the program
counter. -/
def PressCtx.start (c : PressCtx) (k : Nat) (x : SubTake) : PressCtx :=
  let c := (List.range x.descs.length).foldl (fun (c : PressCtx) i => c.setT i (nth 0 x.descs i)) c
  let c := c.setX 1 x.arg
  let c := match x.window with
    | some w => (List.range 8).foldl (fun (c : PressCtx) i => c.setX (56 + i) (nth 0 w i)) c
    | none => c
  { c with pc := x.entry, sub := some k }

/-- The oldest waiting sub-take of a press that satisfies `f`, by acceptance of its take (R303). -/
def State.oldestSub (s : State) (n : Nat) (f : SubTake → Bool) : Option (Nat × SubTake) :=
  (s.subs.filter fun e => e.2.press == n && !e.2.started && f e.2).foldl (fun a e => match a with
    | none => some e
    | some b => if e.2.order < b.2.order then some e else some b) none

/-- A sub-take started on a press, over the press state that stands there (R305, R342). -/
def State.startSub (s : State) (n k : Nat) (x : SubTake) : State :=
  let p := s.press n
  let s := { s with subs := mput s.subs k { x with started := true } }
  s.setPress n { p with st := .running, run := some x.ctx, cur := p.cur.start k x, preempt := false, gathered := [] }

/-- The state of a latency-critical context that stands idle on a press parked in slot A (R305). -/
def State.park (s : State) (n : Nat) : State :=
  let p := s.press n
  match p.run with
  | none => s
  | some c =>
    let slot : Slot := { ctx := c, st := p.cur, cells := s.caseImage n }
    let s := s.zeroPress n
    s.setPress n { s.press n with slotA := some slot }

/-- The status bits of a landing table applied as sets (R68, R312). -/
def PressCtx.applyLanding (p : PressCtx) (l : Map W32) : PressCtx :=
  l.foldl (fun (p : PressCtx) e => { p with
    numStatus := p.numStatus ||| (1#8 <<< e.1), numCount := mset 0 p.numCount e.1 (mget 0 p.numCount e.1 + e.2) }) p

/-- The state of a slot put back on the press, which then runs its context, its landing table applied (R312). -/
def State.unslot (s : State) (n : Nat) (x : Slot) : State :=
  let s := s.loadImage n x.cells
  s.setPress n { s.press n with
    st := .running, run := some x.ctx, cur := x.st.applyLanding x.landing, preempt := false, gathered := [] }

/-- The owner's parked state brought back, if there is one (R305, R313). -/
def State.unpark (s : State) (n : Nat) : State :=
  match (s.press n).slotA with
  | none => s
  | some x =>
    let s := s.unslot n x
    s.setPress n { s.press n with slotA := none }

/-- The context saved by pre-emption resumes (R303, R312): an RWAIT is evaluated against the word as it stands (R311), and
tensor moves that stopped go on. -/
def State.resume (s : State) (n : Nat) (x : Slot) : State :=
  let again (p : PressCtx) : PressCtx := { p with watch := p.watch.map fun w => { w with met := false } }
  let s := s.unslot n { x with st := again x.st }
  let s := ((s.setPress n { s.press n with slotB := none }).watchWords).loseWatch n
  if (s.press n).run = some x.ctx then (s.pc n).tmRun.foldl (fun s op => s.finishMove n x.ctx op) s else s

/-- Whether a press is reserved with RETAIN = 1: no other context runs on it (R301). -/
def State.retained (s : State) (n : Nat) : Bool :=
  match s.reserver n with
  | some c => (s.ctx c).retain
  | none => false

/-- The next work of a press that has none: the reserving context's oldest sub-take, the context saved on the press,
the oldest best-effort sub-take; otherwise, and where another context retains the press, it stays idle (R301, R303). -/
def State.takeNext (s : State) (n : Nat) : State :=
  let owner := s.reserver n
  match s.oldestSub n fun x => decide (owner = some x.ctx) with
  | some (k, x) =>
    let s := if (s.press n).run = some x.ctx then s else s.unpark n
    s.startSub n k x
  | none =>
    if s.retained n then s
    else match (s.press n).slotB with
      | some b => (s.park n).resume n b
      | none => match s.oldestSub n fun x => !(s.ctx x.ctx).critical with
        | some (k, x) => (s.park n).startSub n k x
        | none => s

/-- Whether a press has no work: no sub-take runs on it. -/
def State.pressFree (s : State) (n : Nat) : Bool := decide ((s.press n).st = .idle)

def execPressDispatch (press : Nat) (s : State) : Host.Outcome State Fault Refusal :=
  if 128 ≤ press then .fault .noSuchUnit
  else if s.pressFree press then .next (s.takeNext press).settle
  else .next s

/-! ### Pre-emption (R306 to R313) -/

/-- The longest of R308 in NOC_CLK cycles: 60 µs at 2.0 GHz. -/
def preemptBound : Nat := 120000

/-- A pre-emption counted (R306, R308): `cycles` is its length in NOC_CLK cycles. -/
def State.countPreempt (s : State) (c cycles : Nat) : State :=
  let s := s.setCtx c { s.ctx c with preempts := (s.ctx c).preempts + 1 }
  let s := s.bump .sched 0 0x400 0 32 1
  let s := if s.regFld .sched 0 0x400 32 32 < cycles then s.setFld .sched 0 0x400 32 32 (min cycles 0xFFFFFFFF) else s
  if preemptBound < cycles then s.bump .sched 0 0x408 48 16 1 else s

/-- The operations of an engine that have started completed, from the first on. -/
def completeAll (n : Nat) (e : Engine) : Nat → State → State
  | 0, s => s
  | fuel + 1, s => completeAll n e fuel (s.completeHere n e 0)

/-- An ATTEND or a stick that executes stops: it is held before the press's commands that have not started (R186, R210). -/
def CtOp.stops (o : CtOp) : Bool :=
  match o with
  | .kern c => !c.rows.isEmpty
  | .galley c => c.part.isSome
  | .rsignal _ _ _ _ => false
def PressCtx.stopControl (p : PressCtx) : PressCtx :=
  { p with ctq := p.ctRun.filter (·.stops) ++ p.ctq, ctRun := p.ctRun.filter fun o => !o.stops }

/-- Step 2 of R307: platen and roller finish their operations; an ATTEND or a stick stops at its boundary, and any other kern
or galley command finishes (R186, R210); tensor moves stay where they stopped. -/
def State.quiesce (s : State) (n : Nat) : State :=
  let s := completeAll n .platen (s.pc n).plRun.length s
  let s := completeAll n .roller (s.pc n).rlRun.length s
  let s := s.modPc n fun p => p.stopControl
  (List.range (s.pc n).ctRun.length).reverse.foldl (fun s i => s.completeHere n .control i) s

/-- Steps 2 to 5 of R307: the best-effort context goes to slot B, and the owner's sub-take starts from slot A or from
zeroized state. A sub-take whose END has issued is left to complete (R313). -/
def State.preemptSave (s : State) (n cycles : Nat) : State :=
  let p := s.press n
  match p.run, s.reserver n with
  | some c, some o =>
    match s.oldestSub n fun x => x.ctx == o with
    | none => s.setPress n { p with preempt := false }
    | some (k, x) =>
      if !p.preempt || p.cur.hold = .ending || (s.ctx c).critical then s
      else
        let s := s.quiesce n
        let slot : Slot := { ctx := c, st := s.pc n, cells := s.caseImage n }
        let s := s.zeroPress n
        let s := s.setPress n { s.press n with slotB := some slot }
        (((s.unpark n).startSub n k x).countPreempt c cycles).settle
  | _, _ => s.setPress n { p with preempt := false }

def execPreemptSave (press cycles : Nat) (s : State) : Host.Outcome State Fault Refusal :=
  if 128 ≤ press then .fault .noSuchUnit else .next (s.preemptSave press cycles)

/-! ### Faults found after issue (R98) -/

/-- ASYNC_FAULT; a code of a unit that no device has (R11) is no fault of this one. -/
def execAsyncFault (press : Nat) (status : Status) (slot : BitVec 3) (pc va : W64) (s : State) :
    Host.Outcome State Fault Refusal :=
  if St.reportable status then onPress press s fun s => (s.late press (s.runCtx press) status slot pc va).settle
  else .fault .noSuchUnit

end Sys2Proof.Machine
end

