-- ==== Sys2Proof/Machine/Hbm.lean ====
section
/-! DEFINITION. The HBM subsystem (R272 to R297): address maps, regulators, memory-side atomics, errors found in stored
bits, retraining windows, retirement and loop-backs. -/

namespace Sys2Proof.Machine

/-! ### Retirement (R294) -/

/-- Whether a context holds pages of its own, not placed ones, with data on a pseudo-channel. -/
def State.ctxHolds (s : State) (c pc : Nat) : Bool :=
  let hit (p : Page) : Bool := match p.tgt with
    | .frame pa => s.lost pc pa
    | _ => false
  ((s.ctx c).pages.any fun e => hit e.2) || (s.ctx c).large.any fun e => hit e.2

/-- The tier at which a page's data stands, a move under way leaving it where it was. -/
def PlaceEnt.stands (x : PlaceEnt) : Tier := if x.tier = .moving then x.was else x.tier

/-- Where the data of a placed page begins in HBM: its frame at T2P, its granules at T2C (R251). -/
def State.storageOf (s : State) (e : PlaceEnt) : Option Nat :=
  match e.stands with
  | .t2p => some e.frame
  | .t2c => s.granuleAt e.part e.heap.1
  | _ => none

/-- Whether a placed page has data on a pseudo-channel (R294). -/
def State.pageOn (s : State) (e : PlaceEnt) (pc : Nat) : Bool :=
  match s.storageOf e with
  | some a => s.lost pc a
  | none => false

/-- A pseudo-channel retired (R294): reported and recorded, its placed pages poisoned, and every context with other data
on it torn down. -/
def State.retirePc (s : State) (pc : Nat) : State :=
  if s.pcState pc = 2 then s
  else
    let s := s.setPcState pc 2
    let s := (s.setFld .hbm 0 0x38 1 1 1).setFld .hbm 0 0 32 10 (s.regFld .hbm 0 0 32 10 - 1)
    let s := { s with ledger := { s.ledger with retired := s.ledger.retired ++ [pc], seq := s.ledger.seq + 1 } }
    let s := s.rasError 3 St.channelRetired { cause := 0x02, locKind := 3, loc := pc }
    let s := s.placed.foldl (fun s e => if s.pageOn e.2 pc then s.poisonPage e.1 else s) s
    s.ctxs.foldl (fun s e =>
      if e.2.st = .active && s.ctxHolds e.1 pc then s.teardown e.1 St.hbmUncorrectable else s) s

/-! ### Errors found in stored bits (R267, R287 to R289, R294) -/

/-- Whether the granules of a page at T2C, or those that a demotion or promotion leaves, hold an address. -/
def State.areaHolds (s : State) (e : PlaceEnt) (pa : Nat) : Bool :=
  decide (e.stands = .t2c) && (List.range e.heap.2).any fun i =>
    s.granuleAt e.part (e.heap.1 + i) == some (pa / 0x1000 * 0x1000)

/-- The placed page whose frame or area holds an address, also while it moves (R267). -/
def State.placedAt (s : State) (pa : Nat) : Option Nat :=
  (s.placed.find? fun e =>
    (decide (e.2.stands = .t2p) && decide (e.2.frame ≤ pa) && decide (pa < e.2.frame + 0x200000)) ||
      s.areaHolds e.2 pa).map (·.1)

/-- The events of the last hour after one more, of the `n` counted so far: how many of those are older by now is a free choice,
since no rule gives the device a clock of hours [log 88]. -/
def State.hourly (s : State) (n : Nat) : Nat × State :=
  if n = 0 then (1, s)
  else
    let (k, s) := s.choose (n + 1)
    (n - k + 1, s)

/-- A corrected error counted for its lane and reported (R293, R445). -/
def State.hbmCorrected (s : State) (pc pa lane : Nat) : State :=
  let l := mget [] s.laneCes pc
  let (n, s) := s.hourly (mget 0 l lane)
  let s := { s with laneCes := mset [] s.laneCes pc (mset 0 l lane n) }
  (s.bump .hbm 0 (pcOff pc) 16 32 1).rasError 0 0 { cause := 0x02, locKind := 3, loc := pc, addr := pa }

/-- An uncorrectable error or tag mismatch at a key: counted, the placed page poisoned or the sector or unit marked, and the
pseudo-channel retired at RETIRE_UE in an hour (R267, R287, R289, R294). -/
def State.hbmUncorrected (s : State) (pc k : Nat) (tag : Bool) : State :=
  let s := s.bump .hbm 0 (pcOff pc) 48 16 1
  let (n, s) := s.hourly (mget 0 s.pcUes pc)
  let s := { s with pcUes := mset 0 s.pcUes pc n }
  let s :=
    if 2 ^ 60 ≤ k then s.poisonPage ((k - 2 ^ 60) / 0x200000)
    else match s.placedAt k with
      | some e => s.poisonPage e
      | none =>
        if tag then (if s.tagBad.contains (k / 512) then s else { s with tagBad := k / 512 :: s.tagBad })
        else if s.bad.contains (k / 32) then s else { s with bad := k / 32 :: s.bad }
  if s.regFld .hbm 0 0x28 16 8 ≤ n then s.retirePc pc else s

/-- Stored bits that the controller did not write (R289, R290): in tagged memory a tag that is not that of the ciphertext is
found, and one that is passes, whatever its age; sector-mapped memory has no tag to tell. What passes is what memory now
holds. False where the mismatch is found. -/
def State.readAltered (s : State) (pa : Nat) (cipher : List Byte) (tag : BitVec 56) : Bool × State :=
  if s.tagged pa then
    if s.tagOf pa cipher = tag then
      let u := pa / 512 * 512
      (true, { s with mem := (List.range 16).foldl (fun m i =>
        putCells m (u + 32 * i) (s.plainSector (u + 32 * i) (slice cipher (32 * i) 32))) s.mem })
    else (false, s)
  else (true, { s with mem := putCells s.mem (pa / 32 * 32) (s.plainSector (pa / 32 * 32) cipher) })

/-! ### Memory-side atomics (R283 to R286) -/

/-- The code that stands for INT64 in an atomic's format field (log 32). -/
def fmtInt64 : Nat := 0xF

/-- Bytes of an element of an atomic's format. -/
def atomBytes (fmt : Nat) : Nat := if fmt = fmtInt64 then 8 else if fmt = Fmt.bf16 then 2 else 4

/-- The pairings of R283. -/
def atomPairOk (op fmt : Nat) : Bool :=
  match op with
  | 0 => fmt == Fmt.fp32 || fmt == Fmt.bf16 || fmt == Fmt.int32 || fmt == fmtInt64
  | 1 | 2 => fmt == Fmt.fp32 || fmt == Fmt.int32
  | _ => false

/-- The refusal of an atomic by R283 or R284. -/
def atomRefusal (op fmt pa n : Nat) : Option Status :=
  if !atomPairOk op fmt then some St.atomicInvalid
  else if n = 0 ∨ 8 < n ∨ pa % atomBytes fmt ≠ 0 ∨ pa % 32 + n * atomBytes fmt > 32 then some St.atomicAlign
  else none

/-- FP32 order with −0 below +0 (R285). -/
def fpLess (a b : Num) : Bool :=
  match a.cmp b with
  | some .lt => true
  | some .eq => a.isZero && b.isZero && a.sign && !b.sign
  | _ => false

/-- One element of an atomic (R285). -/
def atomElem (op fmt m v : Nat) : Nat :=
  if fmt = fmtInt64 then (m + v) % 2 ^ 64
  else if fmt = Fmt.int32 then
    if op = 0 then (m + v) % 2 ^ 32
    else
      let less := decide (sext 32 v < sext 32 m)
      if op = 1 then (if less then v % 2 ^ 32 else m) else (if less then m else v % 2 ^ 32)
  else
    let a := decodeNum fmt m
    let b := decodeNum fmt v
    if op = 0 then (toFmt fmt 0 0 (a.add b).1).1
    else if a.isNan || b.isNan then canonNan fmt
    else
      let less := fpLess b a
      if op = 1 then (if less then v % 2 ^ fmtWidth fmt else m) else (if less then m else v % 2 ^ fmtWidth fmt)

/-- The elements of one request updated together at a key of local memory, any cabinet's copy recalled first, and in tagged
memory the unit moved (R279, R285, R286). -/
def State.performAtomic (s : State) (k op fmt : Nat) (vs : List Nat) : State :=
  let n := atomBytes fmt
  let s := ((s.recall none (k / 256 * 256)).unitMoved k).endAtomic true
  let bs := (List.range vs.length).foldl (fun acc i =>
    acc ++ toBytes n (atomElem op fmt (ofBytes ((span (k + i * n) n).map s.homeByte)) (nth 0 vs i))) []
  (s.setHomes k bs).wrote

/-- A response to a device that asked (R376). -/
def State.respond (s : State) (typ dest : Nat) (tag : W32) (st : Status) (data : List Byte) : State :=
  let p := { basePacket s 0 dest 0 data.length with typ := typ, tag := tag, status := st, data := data, jobTag := 0 }
  (s.inject p).1

/-- An atomic or write that ended, reported to its issuer (R286, R98). -/
def State.atomEnd (s : State) (src : AtomSrc) (atomic : Bool) (st : Status) (pa : Nat) : State :=
  match src with
  | .press n pc => if st = St.ok then s else s.late n (s.runCtx n) st 5 pc (wn pa)
  | .remote d tag => s.respond (if atomic then 6 else 4) d tag st []
  | .internal => s

/-- An atomic or write performed at its pseudo-channel (R286, R287). -/
def State.atomNow (s : State) (pc : Nat) (h : HeldAtom) : State :=
  let atomic := match h.body with | .atomic _ _ _ => true | .write _ => false
  let fail (s : State) (tag : Bool) : State :=
    let s := s.hbmUncorrected pc h.pa tag
    (if atomic then s.endAtomic false else s).atomEnd h.src atomic
      (if tag then St.tagMismatch else St.hbmUncorrectable) h.pa
  let go (s : State) : State := match h.body with
    | .atomic op fmt vs =>
      (s.performAtomic h.pa op.toNat fmt.toNat (vs.map (·.toNat))).atomEnd h.src true St.ok h.pa
    | .write bs => (s.outsideWrite h.pa bs).atomEnd h.src false St.ok h.pa
  let n := match h.body with | .atomic _ fmt vs => vs.length * atomBytes fmt.toNat | .write _ => 0
  if s.pcState pc = 2 then fail s false
  else if atomic && s.isBad h.pa n then fail s (decide (s.badStatus h.pa = St.tagMismatch))
  else match h.ecc with
    | .good => go s
    | .corrected lane => go (s.hbmCorrected pc h.pa lane)
    | .uncorrectable => fail s false
    | .altered cipher tag =>
      let (ok, s) := s.readAltered ((s.paOf h.pa).getD h.pa) cipher tag
      if ok then go s else fail s true

/-- MEMORY_ATOMIC: refused under R283 or R284, or accepted, and performed in queue order, or held while the pseudo-channel is
in a retraining window (R286, R292). While its page or a sealed buffer stalls it, it stays where it is (R252, R348)
[log 89]. -/
def State.memoryAtomic (s : State) (pc : Nat) (h : HeldAtom) : State :=
  let l : Loc := if h.pa < 2 ^ 60 then .mem h.pa else .page ((h.pa - 2 ^ 60) / 0x200000) ((h.pa - 2 ^ 60) % 0x200000)
  let refused := match h.body with
    | .atomic op fmt vs => atomRefusal op.toNat fmt.toNat h.pa vs.length
    | .write _ => none
  match refused with
  | some st => (s.atomEnd h.src true st h.pa).settle
  | none =>
    if s.stalls l true then (s.provoke l true).settle
    else
      let s := match h.body with | .atomic _ _ _ => s.acceptAtomic | .write _ => s
      if s.pcState pc = 1 then { s with pcHeld := mset [] s.pcHeld pc (mget [] s.pcHeld pc ++ [h]) }
      else (s.atomNow pc h).settle

/-- MEMORY_ATOMIC at a physical address, which may lie in the frame of a placed page (R237, R253). -/
def execMemoryAtomic (src : AtomSrc) (pa : Nat) (body : AtomBody) (ecc : Ecc) (s : State) :
    Host.Outcome State Fault Refusal :=
  match s.hbmMap pa with
  | some (pc, _) => .next (s.memoryAtomic pc { src, pa := s.keyOf pa, body, ecc })
  | none => .fault .noSuchUnit

/-! ### Regulators (R281, R282) -/

/-- HBM.REG[p] and HBM.REG_STAT[p]. -/
def regOff (p : Nat) : Nat := 0x100 + 0x10 * p

/-- Tokens after `cycles` of refill at the HBM scale in force (R281, R460). -/
def State.refill (s : State) (p cycles : Nat) : Nat :=
  let share := s.regFld .hbm 0 (regOff p) 8 7
  let depth := s.regFld .hbm 0 (regOff p) 16 8 * 2048
  let scale := s.regFld .pwr 0 0x08 24 5
  min depth ((s.part p).tokens + 8 * share * cycles * scale / 16)

/-- The charge of a request (R281): the sectors it moves at the pins, with the tag sectors that miss the tag cache, at most two
for each unit and none where there are no tags; nothing for one served from the unit buffer. -/
def State.chargeOf (s : State) (q : HbmReq) : Nat :=
  let n := s.pinSectors q.pa q.len q.write
  if s.tagged q.pa then (if n = 0 then 0 else n + min q.tagMiss (2 * ((q.pa % 512 + q.len + 511) / 512))) else n

/-- The pseudo-channel of a request. -/
def State.reqPc (s : State) (q : HbmReq) : Nat := match s.hbmMap q.pa with | some (pc, _) => pc | none => 0

/-- The class of an admitted request of a partition (R282): 1 where it owns the group of the pseudo-channel, or the whole
device, 2 elsewhere; 3 is that of a borrowed request. -/
def State.classOf (s : State) (p pc : Nat) : Nat := if s.wholeLayout || s.groupOwner (pc / 16) == p then 1 else 2

/-- The next request of a pseudo-channel's queue served: the oldest of the first class that is there (R282). -/
def serveOne (l : List (Nat × Nat)) : List (Nat × Nat) :=
  match l.findIdx? (fun e => e.2 == 1), l.findIdx? (fun e => e.2 == 2) with
  | some i, _ => l.eraseIdx i
  | none, some i => l.eraseIdx i
  | none, none => l.drop 1

/-- The queue of a pseudo-channel after `n` requests have been served. -/
def serveSome : Nat → List (Nat × Nat) → List (Nat × Nat)
  | 0, l => l
  | n + 1, l => serveSome n (serveOne l)

/-- A request that leaves the ingress: it joins the queue of its pseudo-channel and moves its units (R279, R282). -/
def State.admitted (s : State) (p cls : Nat) (q : HbmReq) : State :=
  let pc := s.reqPc q
  let s := { s with pcQueues := mset [] s.pcQueues pc (mget [] s.pcQueues pc ++ [(p, cls)]) }
  (span (q.pa / 512) ((q.pa % 512 + q.len + 511) / 512)).foldl
    (fun s u => if q.write then s.unitWritten (512 * u) else s.unitRead (512 * u)) s

/-- The ingress of a partition in arrival order: the request at its head leaves with its charge taken, or by borrowing, and the
first that finds neither holds the rest back (R281, R282). -/
def drainIngress (p : Nat) : Nat → State → State
  | 0, s => s
  | fuel + 1, s =>
    let x := s.part p
    match x.ingress with
    | [] => s
    | q :: qs =>
      let charge := s.chargeOf q
      let pc := s.reqPc q
      let idle := (mget [] s.pcQueues pc).all fun e => e.2 == 3
      if s.regFld .hbm 0 (regOff p) 0 1 = 0 then s
      else if charge ≤ x.tokens then
        drainIngress p fuel ((s.setPart p { x with tokens := x.tokens - charge, ingress := qs }).admitted p (s.classOf p pc) q)
      else if s.regFld .hbm 0 (regOff p) 1 1 = 1 && idle then
        drainIngress p fuel (((s.setPart p { x with ingress := qs }).bump .hbm 0 (regOff p + 8) 32 32 1).admitted p 3 q)
      else s

/-- REGULATOR_ADMIT: `cycles` have passed since the bucket was last looked at, in which the pseudo-channel of the request has
served `served` requests. The request joins the ingress behind those that wait; one that then waits for tokens is counted. A
scrub write or an access of the management controller is exempt. -/
def State.admitReq (s : State) (p : Nat) (src : ReqSrc) (q : HbmReq) (cycles served : Nat) : State :=
  let s := s.setPart p { s.part p with tokens := s.refill p cycles }
  let pc := s.reqPc q
  let s := { s with pcQueues := mset [] s.pcQueues pc (serveSome served (mget [] s.pcQueues pc)) }
  if src = .scrub ∨ src = .management then s.admitted p (s.classOf p pc) q
  else
    let s := s.setPart p { s.part p with ingress := (s.part p).ingress ++ [q] }
    let s := drainIngress p (s.part p).ingress.length s
    if (s.part p).ingress.isEmpty || s.regFld .hbm 0 (regOff p) 0 1 == 0 then s else s.bump .hbm 0 (regOff p + 8) 0 32 1

def execRegulatorAdmit (part : Nat) (src : ReqSrc) (q : HbmReq) (cycles served : Nat) (s : State) :
    Host.Outcome State Fault Refusal :=
  if 8 ≤ part then .fault .noSuchUnit else .next (s.admitReq part src q cycles served)

/-- HBM.STATUS.CFG_REJECT set (R282). -/
def State.hbmReject (s : State) : State := s.raiseFlag 0x07 .hbm 0x38 0 .hbm 0x38 32 32

/-- The sum of SHARE over all partitions if partition `p` took `v`. -/
def State.shareSum (s : State) (p v : Nat) : Nat :=
  sumL ((upTo 8).map fun q => if q = p then v else s.regFld .hbm 0 (regOff q) 8 7)

/-- A write of HBM.REG[p] (R282). -/
def State.writeHbmReg (s : State) (p : Nat) (v : W64) : State :=
  if 64 < s.shareSum p (fld v 14 8) then s.hbmReject else s.plainWrite .hbm 0 (regOff p) v

/-- Whether a control-space access path may write a register: the I3C target writes BOOT.LEDGER_CTL and PWR.CAP only, and
nothing in DECOMMISSIONED (R487). -/
def State.pathWrites (s : State) (path : RegPath) (b : Block) (o : Nat) : Bool :=
  match path with
  | .i3c => s.sec.fuses.lifecycle != 4 && ((b = .boot && o == 0x18) || (b = .pwr && o == 0))
  | _ => true

/-- A register write of a path: ignored where the path does not permit it. -/
def regWriteBy (path : RegPath) (b : Block) (o : Nat) (s : State) (f : State → State) :
    Host.Outcome State Fault Refusal :=
  if s.pathWrites path b o then .next (f s) else .next s

def execHbmRegWrite (path : RegPath) (p : Nat) (v : W64) (s : State) : Host.Outcome State Fault Refusal :=
  if 8 ≤ p then .fault .noSuchUnit else regWriteBy path .hbm (regOff p) s fun s => s.writeHbmReg p v

/-! ### Patrol, retraining (R287, R292, R293) -/

/-- HBM_PATROL of a sector: corrected data is written back, an uncorrectable sector is handled as R287 states. -/
def State.patrol (s : State) (pc pa : Nat) (ecc : Ecc) : State :=
  match ecc with
  | .good => s
  | .corrected lane => s.hbmCorrected pc pa lane
  | .uncorrectable => s.hbmUncorrected pc pa false
  | .altered cipher tag =>
    let (ok, s) := s.readAltered pa cipher tag
    if ok then s else s.hbmUncorrected pc pa true

/-- The line at a place of the data array of a chase's cabinet: set by set, 16 ways each [log 92]. -/
def State.cabLineAt (s : State) (c i : Nat) : Option CabLine :=
  ((s.chase c).cabinet.filter fun l => l.addr / 256 % 4096 == i / 16)[i % 16]?

/-- Every sector of a line marked uncorrectable (R240). -/
def State.markLine (s : State) (a : Nat) : State :=
  { s with bad := (span (a / 32) 8).filter (fun b => !s.bad.contains b) ++ s.bad }

/-- An error found in a cabinet line (R240): a single-bit error is corrected in place; a clean line is fetched again; a dirty one
is lost, which poisons its placed page, or else it is written back marked. Any error of more bits is uncorrectable. -/
def State.cabEcc (s : State) (c : Nat) (l : CabLine) (ecc : Ecc) : State :=
  match ecc with
  | .good => s
  | .corrected _ => (s.bump .chase c 0xC08 0 32 1).rasError 0 0 { cause := 0x04, locKind := 2, loc := c }
  | _ =>
    let x := s.chase c
    let s := s.setChase c { x with cabinet := x.cabinet.filter fun m => m.addr != l.addr }
    if !l.dirty then
      ((s.fillLine c l.addr false).bump .chase c 0xC08 32 16 1).rasError 1 0 { cause := 0x04, locKind := 2, loc := c }
    else
      let s := s.bump .chase c 0xC08 48 16 1
      if decide (2 ^ 60 ≤ l.addr) && decide (l.addr < 2 ^ 61) then s.poisonPage ((l.addr - 2 ^ 60) / 0x200000)
      else
        (((s.bump .chase c 0xC00 32 32 1).lineWritten l.addr).markLine l.addr).rasError 2 St.hbmUncorrectable
          { cause := 0x04, locKind := 2, loc := c }

/-- HBM_PATROL, and at an address of the data array of a cabinet the check of the line that stands there: no row of the table
carries an error found in a cabinet (R28, R240) [log 92]. -/
def execHbmPatrol (pc addr : Nat) (ecc : Ecc) (s : State) : Host.Outcome State Fault Refusal :=
  if 512 ≤ pc then .fault .noSuchUnit
  else match (upTo 16).find? fun c => decide (cabBase c ≤ addr) && decide (addr < cabBase c + 0x1000000) with
    | some c => match s.cabLineAt c ((addr - cabBase c) / 256) with
      | some l => .next (s.cabEcc c l ecc)
      | none => .next s
    | none => .next (s.patrol pc addr ecc)

/-- Pseudo-channels of a stack in windows. -/
def State.inWindows (s : State) (stack : Nat) : Nat :=
  ((span (64 * stack) 64).filter fun pc => s.pcState pc == 1).length

/-- Spare lanes of a channel: four, which its two pseudo-channels share (R272, R293) [log 34]. -/
def spareLanes : List Nat := [0, 1, 2, 3]

/-- The lanes of a channel that have taken a spare, with the spare. -/
def State.sparesUsed (s : State) (ch : Nat) : List (Nat × Nat) := (channelPcs ch).flatMap fun pc => mget [] s.ledger.spares pc

/-- Whether a channel has a spare left. -/
def State.spareFree (s : State) (ch : Nat) : Bool := spareLanes.any fun k => (s.sparesUsed ch).all fun e => e.2 != k

/-- A lane switched to the lowest spare of its channel that is free, and the spare map recorded; with none free the lane stays
in use (R293). -/
def State.switchLane (s : State) (pc lane : Nat) : State :=
  let used := s.sparesUsed (channelOf pc)
  match spareLanes.find? fun k => used.all fun e => e.2 != k with
  | none => s
  | some k => { s with ledger := { s.ledger with
      spares := mset [] s.ledger.spares pc (mget [] s.ledger.spares pc ++ [(lane, k)]), seq := s.ledger.seq + 1 } }

/-- The lanes of a pseudo-channel whose corrected errors of the last hour exceed LANE_CE (R293). -/
def State.worn (s : State) (pc : Nat) : List Nat :=
  ((mget [] s.laneCes pc).filter fun e => decide (s.regFld .hbm 0 0x28 0 16 < e.2)).map (·.1)

/-- HBM_RETRAIN_WINDOW: the window opens unless MAXPAR of the stack are open; lanes past their limit take spares, and their
counts begin anew (R292, R293). -/
def State.openWindow (s : State) (pc : Nat) : State :=
  if s.pcState pc ≠ 0 ∨ s.regFld .hbm 0 0x20 24 3 ≤ s.inWindows (pc / 64) then s
  else
    let s := { s.setPcState pc 1 with windows := pc :: s.windows }
    let l := s.worn pc
    let s := l.foldl (fun s k => s.switchLane pc k) s
    { s with laneCes := mset [] s.laneCes pc ((mget [] s.laneCes pc).filter fun e => !l.contains e.1) }

/-- The pseudo-channel is number 64 × stack + k of the device (R272). -/
def execHbmRetrainWindow (stack k : Nat) (s : State) : Host.Outcome State Fault Refusal :=
  if 8 ≤ stack ∨ 64 ≤ k then .fault .noSuchUnit else .next (s.openWindow (64 * stack + k))

/-- RETRAINING_WINDOW_END: held requests proceed in order; the second failed window in a row retires the pseudo-channel
(R292, R294). -/
def State.closeWindow (s : State) (pc : Nat) (failed : Bool) : State :=
  if s.pcState pc ≠ 1 then s
  else
    let s := { s.setPcState pc 0 with windows := s.windows.filter fun w => w != pc }
    let n := if failed then mget 0 s.pcFails pc + 1 else 0
    let s := { s with pcFails := mset 0 s.pcFails pc n }
    let s := if 2 ≤ n then s.retirePc pc else s
    let hs := mget [] s.pcHeld pc
    let s := { s with pcHeld := mset [] s.pcHeld pc [] }
    (hs.foldl (fun s h => s.atomNow pc h) s).settle

def execRetrainingWindowEnd (pc : Nat) (failed : Bool) (s : State) : Host.Outcome State Fault Refusal :=
  if 512 ≤ pc then .fault .noSuchUnit else .next (s.closeWindow pc failed)

/-! ### Loop-backs (R297, R455) -/

/-- LOOPBACK of an interface (R476). -/
def loopRule : OpRule := { service := true, keys := [(Key.interface, true), (Key.loop, true)] }

/-- Partitions with data on a pseudo-channel: the owner of its group, and under the whole-device layout or with a spread
region every partition with chases (R297). -/
def State.partsOn (s : State) (pc : Nat) : List Nat :=
  (upTo 8).filter fun p => (s.part p).st != 0 && (s.wholeLayout || s.spread != 0 || s.groupOwner (pc / 16) == p)

/-- Whether a loop-back request is denied (R297, R452). In DEPLOYED depth 3 is the field subset's. -/
def State.hbmLoopDenied (s : State) (pc depth : Nat) : Bool :=
  let lc := s.sec.fuses.lifecycle
  (s.partsOn pc).any (fun p => s.liveCtxs p != 0) || (depth == 3 && !(lc == 0 || lc == 3 || lc == 2)) ||
    s.pcState pc != 0

/-- A loop-back of an interface asked for on the management channel: refused, or answered when its run ends (R476). -/
def State.loopback (s : State) (r : MReq) (k : Nat) (res : Except Status State) : State :=
  match res with
  | .error st => s.refuse r st
  | .ok s => { s with loopReqs := mput s.loopReqs k (r.session, r.reqId) }

/-- The answer of the LOOPBACK request whose run has ended, with the final LOOP_CTL (R476). -/
def State.answerLoop (s : State) (k : Nat) (v : W64) : State :=
  match mfind? s.loopReqs k with
  | none => s
  | some (n, id) =>
    ({ s with loopReqs := mdel s.loopReqs k }).send n (.manage id St.ok [(Key.loop, v)] [] false)

/-- What a test pattern leaves in the array (R297, R451): the listed bytes that it covers, told by their pseudo-channel and
address, hold free values, and the rest are not read again before a scrub or a start zero-fills them [log 90]. -/
def State.overwritten (s : State) (hit : Nat → Nat → Bool) : State :=
  s.mem.foldl (fun s e => match s.hbmMap e.1 with
    | some (q, _) =>
      if hit q e.1 then
        let (w, s) := s.freshWord
        { s with mem := putCell s.mem e.1 (w.setWidth 8) }
      else s
    | none => s) s

/-- An HBM loop-back started by an image of LOOP_CTL: the pseudo-channel leaves service (R297). -/
def State.startHbmLoop (s : State) (v : W64) : Except Status State :=
  let pc := fld v 8 0
  let depth := fld v 10 9
  if s.regFld .hbm 0 0x40 11 1 = 1 then .error St.opState
  else if s.hbmLoopDenied pc depth then .error St.bistDenied
  else
    let s := s.setReg .hbm 0 0x40 (wn (pc + (depth <<< 9) + (1 <<< 11)))
    let s := s.setPcState pc 3
    .ok (if depth = 3 then (s.partsOn pc).foldl (fun s p => s.setPart p { s.part p with st := 3 }) (s.overwritten fun q _ => q == pc) else s)

def execHbmLoopbackStart (r : MReq) (s : State) : Host.Outcome State Fault Refusal :=
  manage loopRule r s fun s =>
    if r.num Key.interface = 2 then s.loopback r 2 (s.startHbmLoop ((r.item? Key.loop).getD 0))
    else s.refuse r St.descriptorInvalid

/-- HBM_LOOPBACK_END (R297). -/
def State.endHbmLoop (s : State) (pass : Bool) (signature : W32) : State :=
  if s.regFld .hbm 0 0x40 11 1 = 0 then s
  else
    let pc := s.regFld .hbm 0 0x40 0 9
    let depth := s.regFld .hbm 0 0x40 9 2
    let s := (s.setFld .hbm 0 0x40 11 1 0).setFld .hbm 0 0x40 12 2 (1 + 2 * b2n pass)
    let s := if depth = 3 then s.setFld .hbm 0 0x40 32 32 signature.toNat else s
    (s.setPcState pc 0).answerLoop 2 (s.reg .hbm 0 0x40)

def execHbmLoopbackEnd (pass : Bool) (signature : W32) (s : State) : Host.Outcome State Fault Refusal :=
  .next (s.endHbmLoop pass signature)

end Sys2Proof.Machine
end

