-- ==== Sys2Proof/Machine/Frames.lean ====
section
/-! DEFINITION. Where pages get their memory: the ranges of a partition (R274, R277, R296), the frames that MAP and
MIGRATE allocate (R33), the frames of the T2P pool and the granules of the cold heap (R257). -/

namespace Sys2Proof.Machine

/-! ### The memory of a partition -/

/-- Bytes of a partition's pools, which are areas of its memory (R170, R193, R204, R215, R257). -/
def poolBytes (total : Map Nat) : Nat :=
  let t (i : Nat) : Nat := mget 0 total i
  sumL ((upTo 10).map fun c => t (Pool.folio c) * folioBytes c) +
    sumL ((upTo 8).map fun k => t (Pool.galley k) * ((k + 1) * 0x10000)) +
    (t Pool.swap + t Pool.proof) * 0x10000 + t Pool.frames * 0x200000 + t Pool.heap * 0x1000

/-- Memory of a partition in its own windows, or in the whole range. -/
def State.partBytes (s : State) (p : Nat) : Nat := sumL ((s.pageRanges p false).map (·.2))

/-! ### Frames -/

/-- The spans of addresses of a partition's cold heap, from the top of its memory down (R257) [log 84]. -/
def heapIn : List (Nat × Nat) → Nat → List (Nat × Nat)
  | [], _ => []
  | r :: rs, n =>
    let top := (r.1 + r.2) / 0x1000
    let m := min n (top - ceilDiv r.1 0x1000)
    if n = 0 then [] else ((top - m) * 0x1000, m * 0x1000) :: heapIn rs (n - m)

def State.heapSpans (s : State) (p : Nat) : List (Nat × Nat) :=
  heapIn (s.homeRanges p).reverse (s.poolTotal p Pool.heap + sumL ((s.part p).deadHeap.map (·.2)))

/-- Whether a range overlaps memory that is allocated or retired. -/
def State.taken (s : State) (a n : Nat) : Bool :=
  (s.frames.any fun e => decide (e.1 < a + n) && decide (a < e.1 + e.2.1)) ||
    (s.poolFrames.any fun e => decide (e.1 < a + n) && decide (a < e.1 + 0x200000)) ||
    (s.deadFrames.any fun b => decide (b < a + n) && decide (a < b + 0x200000)) ||
    s.parts.any fun e => (s.heapSpans e.1).any fun r => decide (r.1 < a + n) && decide (a < r.1 + r.2)

/-- Whether a spread frame that holds an address belongs to no other partition (R277). -/
def State.spreadMine (s : State) (p a : Nat) : Bool :=
  s.wholeLayout || decide (a < s.spreadBase) ||
    s.frames.all fun e => e.2.2 == p || decide (e.1 < s.spreadBase) || e.1 / 0x200000 != a / 0x200000

/-- Candidates for a frame of `n` bytes: the starts of ranges and the ends of what is allocated. -/
def State.frameSpots (s : State) (rs : List (Nat × Nat)) (n : Nat) : List Nat :=
  let ends : List Nat := s.frames.map fun e => e.1 + e.2.1
  let next : List Nat := s.frames.map fun e => (e.1 / 0x200000 + 1) * 0x200000
  let pool : List Nat := s.poolFrames.map fun e => e.1 + 0x200000
  let dead : List Nat := s.deadFrames.map fun b => b + 0x200000
  let starts : List Nat := rs.map fun r => r.1
  (starts ++ ends ++ next ++ pool ++ dead).map fun a => ceilDiv a n * n

/-- Whether an address is good for a frame of `n` bytes in some range. -/
def State.frameFits (s : State) (p : Nat) (rs : List (Nat × Nat)) (n a : Nat) : Bool :=
  (rs.any fun r => decide (r.1 ≤ a) && decide (a + n ≤ r.1 + r.2)) && !s.taken a n && s.spreadMine p a

/-- Bytes that MAP and MIGRATE hold of a partition's own windows or range. -/
def State.mapped (s : State) (p : Nat) : Nat :=
  sumL ((s.frames.filter fun e => e.2.2 == p && (s.wholeLayout || decide (e.1 < s.spreadBase))).map (·.2.1)) +
    0x200000 * (s.deadFrames.filter fun b => (s.pageRanges p false).any fun r =>
      decide (r.1 ≤ b) && decide (b < r.1 + r.2)).length

/-- The lowest free frame of `n` bytes for a context's pages, outside what the pools need (R33, R277) [log 8]. -/
def State.findFrame (s : State) (p : Nat) (priv : Bool) (n : Nat) : Option Nat :=
  let rs := s.pageRanges p priv
  let ok := (s.frameSpots rs n).filter (s.frameFits p rs n)
  let inSpread := !s.wholeLayout && priv && s.spread != 0
  if !inSpread && s.partBytes p < s.mapped p + poolBytes (s.part p).total + n then none
  else match ok with
    | [] => none
    | a :: as => some (as.foldl Nat.min a)

/-- A zero-filled frame taken. -/
def State.takeFrame (s : State) (p a n : Nat) : State :=
  { s with
    frames := mput s.frames a (n, p)
    mem := wipe s.mem a n }.clearBad a n

/-- The highest free 2 MiB frame for the T2P pool (R257) [log 8]. -/
def State.findPoolFrame (s : State) (p : Nat) : Option Nat :=
  let rs := s.pageRanges p false
  let tops : List Nat := rs.map (fun r => (r.1 + r.2) / 0x200000) ++ (s.heapSpans p).map (fun r => r.1 / 0x200000) ++ s.frames.map (fun e => e.1 / 0x200000) ++
    s.poolFrames.map (fun e => e.1 / 0x200000) ++ s.deadFrames.map fun b => b / 0x200000
  let ok := ((tops.filter (0 < ·)).map fun k => (k - 1) * 0x200000).filter (s.frameFits p rs 0x200000)
  if s.poolRoom p Pool.frames = 0 then none
  else match ok with
    | [] => none
    | a :: as => some (as.foldl Nat.max a)

def State.takePoolFrame (s : State) (p a : Nat) : State :=
  { s.poolTake p Pool.frames 1 with
    poolFrames := mput s.poolFrames a p
    mem := wipe s.mem a 0x200000 }.clearBad a 0x200000

/-- A frame returned to where it came from. -/
def State.freeFrame (s : State) (a : Nat) : State :=
  match mfind? s.poolFrames a with
  | some p => { s.poolGive p Pool.frames 1 with poolFrames := mdel s.poolFrames a }
  | none => { s with frames := mdel s.frames a }

/-- A frame retired for good: it leaves TOTAL of its pool (R268, R473). -/
def State.loseFrame (s : State) (a : Nat) : State :=
  let s := { s with deadFrames := if s.deadFrames.contains a then s.deadFrames else s.deadFrames ++ [a] }
  match mfind? s.poolFrames a with
  | some p =>
    let x := s.part p
    { s.setPart p { x with total := mset 0 x.total Pool.frames (mget 0 x.total Pool.frames - 1) } with
      poolFrames := mdel s.poolFrames a }
  | none => { s with frames := mdel s.frames a }

/-! ### The cold heap -/

/-- Runs of granules of a partition's cold heap that are held or retired. -/
def State.heapRuns (s : State) (p : Nat) : List (Nat × Nat) :=
  ((s.placed.filter fun e => e.2.part == p && e.2.heap.2 != 0).map fun e => e.2.heap) ++ (s.part p).deadHeap

/-- The lowest free run of `n` granules outside windows and ranges that take no new allocation (R257, R295, R296)
[log 8]. -/
def State.findHeap (s : State) (p n : Nat) : Option Nat :=
  let runs := s.heapRuns p
  let size := s.poolTotal p Pool.heap + sumL ((s.part p).deadHeap.map (·.2))
  let open_ (g : Nat) : Bool := match s.granuleAt p g with
    | some a => !s.barred a
    | none => true
  let ok := (s.granuleStarts p ++ runs.map fun r => r.1 + r.2).filter fun a =>
    decide (a + n ≤ size) && (runs.all fun r => decide (a + n ≤ r.1) || decide (r.1 + r.2 ≤ a)) &&
      open_ a && open_ (a + n - 1)
  if s.poolRoom p Pool.heap < n then none
  else match ok with
    | [] => none
    | a :: as => some (as.foldl Nat.min a)

/-- Granules of an area of USED sectors (R257). -/
def heapGranules (used : Nat) : Nat := ceilDiv (4160 + 32 * used) 4096

/-- The granules of a page returned to its heap. -/
def State.freeHeap (s : State) (e : Nat) : State :=
  let x := s.entry e
  (s.poolGive x.part Pool.heap x.heap.2).setEntry e { x with heap := (0, 0) }

/-- The granules of a page retired (R268, R473). -/
def State.loseHeap (s : State) (e : Nat) : State :=
  let x := s.entry e
  if x.heap.2 = 0 then s
  else
    let p := s.part x.part
    let s := s.setPart x.part { p with
      total := mset 0 p.total Pool.heap (mget 0 p.total Pool.heap - x.heap.2), deadHeap := p.deadHeap ++ [x.heap] }
    s.setEntry e { x with heap := (0, 0) }

end Sys2Proof.Machine
end

