-- ==== Sys2Proof/Machine/Placement.lean ====
section
/-! DEFINITION. Placed pages (R251 to R259), poisoned pages (R267 to R270), weight streaming (R260 to R262), the model
library (R263 to R266), table sets (R245), and MIGRATE (R259). -/

namespace Sys2Proof.Machine

/-! ### Pages and their storage -/

/-- Whether a context maps a placed page. -/
def State.maps (s : State) (c e : Nat) : Bool := (s.ctx c).large.any fun x => decide (x.2.tgt = .placed e)
/-- The contexts that map a placed page. -/
def State.mappers (s : State) (e : Nat) : List Nat := (s.ctxs.filter fun x => s.maps x.1 e).map (·.1)

/-- TIER as a code (R251). -/
def Tier.code (t : Tier) : Nat :=
  match t with
  | .t2p => 0
  | .t2c => 1
  | .t3 => 2
  | .moving => 3

/-- Words 0 and 1 of a placement entry (R251). -/
def PlaceEnt.words (x : PlaceEnt) : W64 × W64 :=
  (wn (x.tier.code + (b2n x.clean <<< 2) + (x.pin <<< 3) + (b2n x.poison <<< 5) + (b2n x.incomp <<< 6) + (x.holds <<< 7) +
    (x.heat <<< 12) + (x.tbase <<< 28) + ((x.image.getD 0xFFF) <<< 44)), wn x.originOff)

/-- The address that TARGET of a page names: for a placed page its frame at T2P, its slug area at T2C, zero at T3, where its
data stands while it moves (R37, R251). -/
def State.targetOf (s : State) (p : Page) : Nat :=
  match p.tgt with
  | .frame a => (s.myId <<< 48) + a
  | .placed e => match s.storageOf (s.entry e) with
    | some a => (s.myId <<< 48) + a
    | none => 0
  | .remote d a => (d <<< 48) + a
  | .host _ _ => 0

/-- The page-table entry that maps a page (table before R32). -/
def State.pteWord (s : State) (p : Page) : W64 :=
  wn (3 + (b2n p.rd <<< 2) + (b2n p.wr <<< 3) + (b2n p.ex <<< 4) + (s.targetOf p / 0x10000 <<< 16))

/-- Cabinet lines of a key range written back and dropped (step 2 of R256). -/
def State.dropLines (s : State) (lo n : Nat) : State :=
  (List.range 16).foldl (fun s c =>
    let cab := (s.chase c).cabinet
    let hit (l : CabLine) : Bool := decide (lo ≤ l.addr) && decide (l.addr < lo + n)
    let k := (cab.filter fun l => hit l && l.dirty).length
    let s := if cab.any hit then s.setChase c { s.chase c with cabinet := cab.filter fun l => !hit l } else s
    if k = 0 then s else s.bump .chase c 0xC00 32 32 k) s

/-- Cells as logical bytes of a page. -/
def cellsMap (l : List Host.Cell) : Map Byte := l.map fun e => (e.1, e.2)

/-- The logical bytes of a page where they stand. -/
def State.pageBytes (s : State) (e : Nat) : Map Byte :=
  let x := s.entry e
  if x.stands = .t2p then cellsMap (carve s.mem x.frame 0x200000) else x.bytes

/-- Logical bytes put into a frame. -/
def State.fillFrame (s : State) (a : Nat) (bs : Map Byte) : State :=
  { s with mem := bs.foldl (fun m b => putCell m (a + b.1) b.2) s.mem }

/-- The error marks of a range that gets another name. -/
def State.rekeyBad (s : State) (old new n : Nat) : State :=
  let go (u k : Nat) : Nat := if decide (old ≤ k * u) && decide (k * u < old + n) then (k * u - old + new) / u else k
  { s with bad := s.bad.map (go 32), tagBad := s.tagBad.map (go 512) }

/-- A page that gets another name without a move of its bytes: its lines, error marks and shadow sectors keep their
contents (R221, R259). -/
def State.rename (s : State) (old new n : Nat) : State := ((s.rekeyLines old new n).rekeyShadows old new n).rekeyBad old new n

/-- A page whose fetch from the origin is over. -/
def PlaceEnt.idle (x : PlaceEnt) : PlaceEnt := { x with asked := false, failed := false, area := [] }

/-- The area of a page as it has landed from its origin. -/
def State.areaBytes (s : State) (x : PlaceEnt) : List Byte :=
  match x.image.bind fun i => mfind? s.images i with
  | some m => (List.range (m.areaLen x.originOff)).map fun j => mget 0 x.area (x.originOff + j)
  | none => []

/-- USED of an area (R241). -/
def areaUsed (area : List Byte) : Nat := ofBytes (slice area 12 4)

/-- The logical bytes of an area under the checks of R249, with the sets of a table base (R245); none where a check fails. -/
def State.decodeArea (s : State) (p tbase : Nat) (area : List Byte) : Option (List Byte) :=
  match unpackArea (fun k => s.tset p (tbase + k)) 0x200000 (ofBytes (slice area 16 1) % 16) area with
  | .ok bs => some bs
  | .error _ => none

/-- Bytes as a sparse array. -/
def sparse (bs : List Byte) : Map Byte := ((List.range bs.length).map fun i => (i, nth 0 bs i)).filter fun e => e.2 != 0

/-! ### Moves (R255, R256) -/

/-- A move begun (step 1 of R256). -/
def State.startMove (s : State) (e : Nat) (m : Move) : State :=
  let x := s.entry e
  s.setEntry e { x with tier := .moving, was := x.tier, move := some m }

/-- The end of a move without effect: the page stays where it was. -/
def State.stayPut (s : State) (e : Nat) : State :=
  let x := s.entry e
  if x.move.isNone then s else s.setEntry e { x with tier := x.was, move := none }

/-- PLACE.COUNT_A[p] and COUNT_B[p]. -/
def State.countMove (s : State) (p o lo w : Nat) : State := s.bump .place 0 (0x40 * p + o) lo w 1

/-- The end of a promotion: into the frame given, its heap granules freed. -/
def State.promoteInto (s : State) (e a : Nat) : State :=
  let x := s.entry e
  let bs := x.bytes
  let s := (s.dropLines (pageKey e 0) 0x200000).fillFrame a bs
  let s := s.freeHeap e
  let s := s.setEntry e { s.entry e with tier := .t2p, move := none, frame := a, bytes := [] }
  s.countMove x.part 0x10 0 32

/-- A promotion ends: it waits while no frame is free (R258). -/
def State.endPromote (s : State) (e : Nat) : State :=
  let x := s.entry e
  match s.findPoolFrame x.part with
  | none => s
  | some a => (s.takePoolFrame x.part a).promoteInto e a

/-- A demotion ends: abandoned where the area is above 75 per cent (R255) or the heap has no room [log 36]. -/
def State.endDemote (s : State) (e used : Nat) : State :=
  let x := s.entry e
  let s := s.countMove x.part 0x10 32 32
  if 1572864 < 4160 + 32 * used then (s.stayPut e).setEntry e { (s.stayPut e).entry e with incomp := true }
  else match s.findHeap x.part (heapGranules used) with
    | none => s.stayPut e
    | some h =>
      let bs := s.pageBytes e
      let s := (s.dropLines (pageKey e 0) 0x200000).freeFrame x.frame
      let s := s.poolTake x.part Pool.heap (heapGranules used)
      s.setEntry e { s.entry e with
        tier := .t2c, move := none, bytes := bs, heap := (h, heapGranules used), used := used, frame := 0 }

/-- A fetch from T3 ends once the whole area has come from the origin: at T2C, where the granules are free; a page that a
streaming job holds goes on to T2P. An area that fails its check poisons the page, and one whose read failed is asked for
again [log 36]. -/
def State.endFetch (s : State) (e : Nat) (good : Bool) : State :=
  let x := s.entry e
  if !x.asked || s.reading (.origin e) then s
  else if x.failed then s.setEntry e x.idle
  else
    let area := s.areaBytes x
    match (if good then s.decodeArea x.part x.tbase area else none) with
    | none => (s.stayPut e).poisonPage e
    | some bs =>
      let g := heapGranules (areaUsed area)
      match s.findHeap x.part g with
      | none => s
      | some h =>
        let s := s.poolTake x.part Pool.heap g
        let s := s.setEntry e { x.idle with
          tier := .t2c, move := none, heap := (h, g), used := areaUsed area, bytes := sparse bs }
        let s := s.countMove x.part 0x18 16 16
        if x.holds = 0 then s else s.streamPromote x.part e

/-- PAGE_MOVE_COMPLETE: `used` is USED of a demoted page's area; `good` tells whether the stored bits of every slug decode
under R249. A slug check failure poisons the page (R267), and a page poisoned while it moves stays where it was. -/
def State.endMove (s : State) (e used : Nat) (good : Bool) : State :=
  if (s.entry e).poison then s.stayPut e
  else match (s.entry e).move with
    | some .demote => s.endDemote e used
    | some .promote => if good then s.endPromote e else (s.stayPut e).poisonPage e
    | some .fetch => s.endFetch e good
    | none => s

def execPageMoveComplete (entry used : Nat) (good : Bool) (s : State) : Host.Outcome State Fault Refusal :=
  if mhas s.placed entry then .next (s.endMove entry used good).settle else .fault .noSuchUnit

/-! ### The epoch (R254, R255, R258) -/

/-- Entries of a partition that satisfy `f`, in order of HEAT, ties by the lower number (R255). -/
def State.byHeat (s : State) (p : Nat) (down : Bool) (f : PlaceEnt → Bool) : List Nat :=
  let l := s.placed.filter fun e => e.2.part == p && f e.2
  (sortBy (fun a b => if down then decide (b.2.heat ≤ a.2.heat) else decide (a.2.heat ≤ b.2.heat)) l).map (·.1)

/-- Moves left and the state, as an epoch goes on. -/
abbrev Epoch := Nat × State

/-- Whether a page may be demoted (R255). -/
def PlaceEnt.mayDemote (x : PlaceEnt) : Bool := decide (x.tier = .t2p) && x.pin == 0 && x.holds == 0 && !x.incomp

/-- The reserve refilled, outside the move limit (R258). -/
def State.refillReserve (s : State) (p : Nat) : State :=
  let short := s.reserveFrames p - s.frameFree p
  let eligible := s.byHeat p false fun x => x.mayDemote && mhas s.poolFrames x.frame
  (eligible.take short).foldl (fun s e => s.startMove e .demote) s

def epochPromote (p : Nat) (a : Epoch) : Epoch :=
  let thr := a.2.regFld .place 0 (0x40 * p + 8) 0 16
  (a.2.byHeat p true fun x => !x.poison && decide (x.tier = .t2c) && decide (thr ≤ x.heat) && x.pin != 2).foldl (fun a e =>
    if a.1 = 0 then a
    else if a.2.frameFree p ≤ a.2.reserveFrames p then (a.1, a.2.countMove p 0x18 32 16)
    else (a.1 - 1, a.2.startMove e .promote)) a

def epochDemote (p : Nat) (a : Epoch) : Epoch :=
  let thr := a.2.regFld .place 0 (0x40 * p + 8) 16 16
  (a.2.byHeat p false fun x => x.mayDemote && decide (x.heat < thr)).foldl (fun a e =>
    if a.1 = 0 then a else (a.1 - 1, a.2.startMove e .demote)) a

/-- Granules of the cold heap that are held. -/
def State.heapHeld (s : State) (p : Nat) : Nat := s.poolTotal p Pool.heap - s.poolFree p Pool.heap

/-- A page evicted to T3: no data moves (R255). -/
def State.evict (s : State) (p e : Nat) : State :=
  let s := (s.dropLines (pageKey e 0) 0x200000).freeHeap e
  (s.setEntry e { s.entry e with tier := .t3 }).countMove p 0x18 0 16

def epochEvict (p : Nat) (a : Epoch) : Epoch :=
  let high := a.2.regFld .place 0 (0x40 * p + 8) 32 7
  let low := a.2.regFld .place 0 (0x40 * p + 8) 40 7
  let above (s : State) (pct : Nat) : Bool := decide (pct * s.poolTotal p Pool.heap < 100 * s.heapHeld p)
  if !above a.2 high then a
  else
    (a.2.byHeat p false fun x => decide (x.tier = .t2c) && a.2.hasOrigin x && x.pin == 0 && x.holds == 0).foldl
      (fun a e => if a.1 = 0 || !above a.2 low then a else (a.1 - 1, a.2.evict p e)) a

/-- PLACEMENT_EPOCH of a partition, if its epochs run. -/
def State.epoch (s : State) (p : Nat) : State :=
  if s.regFld .place 0 (0x40 * p) 0 1 = 0 then s
  else
    let moves := s.regFld .place 0 (0x40 * p) 32 16
    let s := (epochEvict p (epochDemote p (epochPromote p (moves, s.refillReserve p)))).2
    { s with placed := mmap (fun _ e => if e.part = p then { e with heat := e.heat / 2 } else e) s.placed }

def execPlacementEpoch (part : Nat) (s : State) : Host.Outcome State Fault Refusal :=
  if 8 ≤ part then .fault .noSuchUnit else .next (s.epoch part)

/-! ### Poisoned pages (R267 to R270) -/

/-- Whether a virtual address of a context lies in a placed page. -/
def State.onPage (s : State) (c e : Nat) (va : W64) : Bool :=
  match s.pageAt c va.toNat with
  | some (p, _) => decide (p.tgt = .placed e)
  | none => false

/-- The first address of ranges that lies in a placed page. -/
def State.rangeOn (s : State) (c e : Nat) (rs : List (W64 × Nat)) : Option W64 :=
  (rs.flatMap fun r => (List.range (r.2 / 0x200000 + 2)).filterMap fun i =>
    let va := if i = 0 then r.1 else wn ((r.1.toNat / 0x200000 + i) * 0x200000)
    if va.toNat < r.1.toNat + r.2 then some va else none).find? (s.onPage c e)

/-- The stalled scalar access to a placed page: its slot, PC and address. -/
def State.stallOn (s : State) (c e : Nat) (l : List Stalled) : Option (Nat × W64 × W64) :=
  l.findSome? fun x => match x with
    | .load va size _ _ _ pc slot => (s.rangeOn c e [(va, size)]).map fun a => (slot, pc, a)
    | .store va size _ _ pc slot => (s.rangeOn c e [(va, size)]).map fun a => (slot, pc, a)

/-- The access of a context on a core to a placed page, if one waits there: its slot, PC and address (R98, R269). A galley
command waits there when its turn has come. -/
def State.accessOn (s : State) (n c e : Nat) : Option (Nat × W64 × W64) :=
  if 128 ≤ n then (if (s.comp (n - 128)).ctx = c then s.stallOn c e (s.comp (n - 128)).stall else none)
  else match s.pcOf n c with
    | none => none
    | some p =>
      let control (o : CtOp) : Option (Nat × W64 × W64) := match o with
        | .rsignal va _ _ pc => if s.onPage c e va then some (5, pc, va) else none
        | .galley g =>
          if s.galleyMay n g then
            (s.rangeOn c e (g.reads (s.gentry g.stream) ++ g.writes (s.gentry g.stream))).map fun a => (5, g.pc, a)
          else none
        | .kern _ => none
      match s.stallOn c e p.stall with
      | some r => some r
      | none => match p.tmRun.findSome? fun o =>
          (s.rangeOn c e (o.reads ++ o.writes)).map fun a => (tmSlot.toNat, o.pc, a) with
        | some r => some r
        | none => (p.ctRun ++ p.ctq).findSome? control

/-- A context that maps a page without origin torn down (R269): with the place of its access, or with FAULT_PC 0. -/
def State.tearPoisoned (s : State) (e c : Nat) : State :=
  match (upTo 192).findSome? fun n => (s.accessOn n c e).map fun a => (n, a) with
  | some (n, slot, pc, va) => s.coreLate n c St.poisonNoOrigin (BitVec.ofNat 3 slot) pc va
  | none => match (upTo 128).find? fun n => (s.pcOf n c).isSome with
    | some n => s.late n c St.poisonNoOrigin 5 0 0
    | none =>
      if (s.ctx c).st = .active then
        (s.teardown c St.poisonNoOrigin).rasError 3 St.poisonNoOrigin { cause := 0x02, ctx := some c }
      else s

/-- The storage of an ended page retired once no context maps it (R269). -/
def State.retireStorage (s : State) (e : Nat) : State :=
  let x := s.entry e
  if !(x.poison && x.lost) || !(s.mappers e).isEmpty then s
  else
    let s := if x.stands = .t2p then s.loseFrame x.frame else s.loseHeap e
    match x.image with
    | some _ => s.setEntry e { (s.entry e).idle with tier := .t3, move := none, frame := 0, bytes := [] }
    | none => { s with placed := mdel s.placed e }

/-- R269: a poisoned page without an origin copy ends. -/
def State.endPoison (s : State) (e : Nat) : State :=
  let x := s.entry e
  let s := (s.setEntry e { x with lost := true }).countMove x.part 0x20 32 16
  ((s.mappers e).foldl (fun s c => s.tearPoisoned e c) s).retireStorage e

/-- POISON cleared (steps 3 and 4 of R268). -/
def State.repaired (s : State) (e : Nat) (t : Tier) : State :=
  let x := s.entry e
  ((s.setEntry e { x.idle with poison := false, tries := 0, tier := t, move := none }).countMove x.part 0x20 16 16).rasError
    1 0 { cause := 0x02 }

/-- A page repaired from the area that its origin sent (R268): the area takes fresh granules, and of a page at T2P it is then
decoded into a fresh frame; the failed storage is retired. While all is held it waits; a partition without memory outside the
windows that hold a retired pseudo-channel ends the page (R295). -/
def State.repairPage (s : State) (e used : Nat) (bs : List Byte) : State :=
  let x := s.entry e
  let g := heapGranules used
  match s.findHeap x.part g with
  | none => if s.hasRoom x.part then s else s.endPoison e
  | some h =>
    if x.stands = .t2p then
      match s.findPoolFrame x.part with
      | none => s
      | some a =>
        let s := ((s.takePoolFrame x.part a).fillFrame a (sparse bs)).loseFrame x.frame
        (s.setEntry e { s.entry e with frame := a }).repaired e .t2p
    else
      let s := (s.loseHeap e).poolTake x.part Pool.heap g
      (s.setEntry e { s.entry e with heap := (h, g), used := used, bytes := sparse bs }).repaired e .t2c

/-- A failed attempt at a repair: the third ends the page as one without an origin copy (R268). -/
def State.failRepair (s : State) (e : Nat) : State :=
  let x := s.entry e
  if 2 ≤ x.tries then s.endPoison e else s.setEntry e { x.idle with tries := x.tries + 1 }

/-- POISON_REPAIR: `good` tells whether the attempt comes through; one that does waits for the whole area, and its check
decides (R268). -/
def State.repair (s : State) (e : Nat) (good : Bool) : State :=
  let x := s.entry e
  if !s.hasOrigin x then (if x.lost then s else s.endPoison e)
  else if !good then s.failRepair e
  else if !x.asked || s.reading (.origin e) then s
  else if x.failed then s.failRepair e
  else match s.decodeArea x.part x.tbase (s.areaBytes x) with
    | none => s.failRepair e
    | some bs => s.repairPage e (areaUsed (s.areaBytes x)) bs

def execPoisonRepair (entry : Nat) (good : Bool) (s : State) : Host.Outcome State Fault Refusal :=
  if (s.entry entry).poison then .next (s.repair entry good).settle else .fault .noSuchUnit

/-! ### PLACE (R259) -/

/-- A placed page's storage freed and its entry removed. -/
def State.removePlaced (s : State) (e : Nat) : State :=
  let x := s.entry e
  let s := s.dropLines (pageKey e 0) 0x200000
  let s :=
    if x.stands = .t2p then (if x.poison then s.loseFrame x.frame else s.freeFrame x.frame)
    else if x.poison then s.loseHeap e else s.freeHeap e
  { s with placed := mdel s.placed e }

/-- The 2 MiB page that a PLACE names, with its number, if the address is well formed. -/
def State.placeTarget (s : State) (r : MReq) : Option (Nat × Page) :=
  let va := r.num Key.vaddr
  if va % 0x200000 ≠ 0 ∨ 2 ^ 48 ≤ va then none
  else (mfind? (s.ctx (r.num Key.context)).large (va / 0x200000)).map fun p => (va / 0x200000, p)

def State.setLarge (s : State) (c k : Nat) (p : Page) : State :=
  let x := s.ctx c
  s.setCtx c { x with large := mput x.large k p }

def placeRule : OpRule :=
  { all := true, keys := [(Key.context, true), (Key.vaddr, true), (Key.action, true), (Key.pin, false)] }

/-- A page registered: its home bytes keep their frame, and its lines in the cabinets their contents. -/
def State.placeRegister (s : State) (r : MReq) : State :=
  let c := r.num Key.context
  match s.placeTarget r with
  | some (k, p) => match p.tgt, mfree s.placed (2 ^ 24) 0 with
    | .frame a, some e =>
      if !p.own then s.refuse r St.descriptorInvalid
      else
        let x : PlaceEnt := { part := (s.ctx c).part, tier := .t2p, frame := a }
        (((s.rename a (pageKey e 0) 0x200000).setEntry e x).setLarge c k { p with tgt := .placed e }).done r
    | _, _ => s.refuse r St.descriptorInvalid
  | none => s.refuse r St.descriptorInvalid

def execPlaceRegister (r : MReq) (s : State) : Host.Outcome State Fault Refusal :=
  manage placeRule r s fun s =>
    if r.num Key.action = 0 then s.placeRegister r else s.refuse r St.descriptorInvalid

/-- ACTION 1: the page, promoted first if it is not at T2P, becomes an ordinary page in its frame. Without a frame for
the promotion the request is refused [log 36]. -/
def State.placeEnd (s : State) (r : MReq) : State :=
  let c := r.num Key.context
  match s.placeTarget r with
  | some (k, p) => match p.tgt with
    | .placed e =>
      if (s.entry e).image.isSome then s.refuse r St.opState
      else
        let s' := if (s.entry e).tier = .t2p then s
          else if (s.entry e).stands = .t2p then s.stayPut e
          else s.endPromote e
        let x := s'.entry e
        if x.tier ≠ .t2p then s.refuse r St.opState
        else
          let s := s'.rename (pageKey e 0) x.frame 0x200000
          let s := { s with placed := mdel s.placed e }
          (s.setLarge c k { p with tgt := .frame x.frame, own := true }).done r
    | _ => s.refuse r St.descriptorInvalid
  | none => s.refuse r St.descriptorInvalid

def execPlaceEnd (r : MReq) (s : State) : Host.Outcome State Fault Refusal :=
  manage placeRule r s fun s =>
    if r.num Key.action = 1 then (s.placeEnd r).settle else s.refuse r St.descriptorInvalid

/-- Frames of a partition's T2P pool that no page with PIN 1 holds (R258). -/
def State.unpinnedFrames (s : State) (p : Nat) : Nat :=
  s.poolTotal p Pool.frames - (s.placed.filter fun e => e.2.part == p && e.2.pin == 1).length

/-- ACTION 2: PIN set, unless it would leave fewer than RESERVE unpinned frames (R258). -/
def State.placePin (s : State) (r : MReq) : State :=
  match s.placeTarget r with
  | some (_, p) => match p.tgt with
    | .placed e =>
      let x := s.entry e
      let v := r.num Key.pin
      if v = 1 && x.pin != 1 && decide (s.unpinnedFrames x.part < s.reserveFrames x.part + 1) then s.refuse r St.opState
      else (s.setEntry e { x with pin := v }).done r
    | _ => s.refuse r St.descriptorInvalid
  | none => s.refuse r St.descriptorInvalid

def execPlacePin (r : MReq) (s : State) : Host.Outcome State Fault Refusal :=
  manage placeRule r s fun s =>
    if r.num Key.action = 2 && r.has Key.pin then s.placePin r else s.refuse r St.descriptorInvalid

/-! ### Placement registers (R271) -/

/-- Whether values of PLACE.CFG and PLACE.THRESH may stand. -/
def placeCfgOk (cfg thr : W64) : Bool :=
  fld cfg 31 16 != 0 && fld cfg 47 32 != 0 && decide (fld thr 31 16 < fld thr 15 0) &&
    decide (fld thr 46 40 < fld thr 38 32) && decide (fld thr 38 32 ≤ 100) && decide (8 ≤ fld thr 55 48)

/-- A write of PLACE.CFG[p] or PLACE.THRESH[p], at offset `o` of the block. -/
def State.placeCfg (s : State) (o : Nat) (v : W64) : State :=
  let p := o / 0x40
  let cfg := if o % 0x40 = 0 then v else s.reg .place 0 (0x40 * p)
  let thr := if o % 0x40 = 8 then v else s.reg .place 0 (0x40 * p + 8)
  if placeCfgOk cfg thr then s.plainWrite .place 0 o v
  else s.raiseFlag 0x06 .place (0x40 * p + 0x28) 0 .place (0x40 * p + 0x28) 32 32

def execPlaceCfgWrite (path : RegPath) (addr : Nat) (v : W64) (s : State) : Host.Outcome State Fault Refusal :=
  match blockOf addr with
  | some (.place, _, o) =>
    if o < 0x200 && (o % 0x40 == 0 || o % 0x40 == 8) then regWriteBy path .place o s fun s => s.placeCfg o v
    else .fault .noSuchUnit
  | _ => .fault .noSuchUnit

/-! ### Weight streaming (R260 to R262) -/

/-- The bytes of a range of a context's memory as the management controller reads them; none where a page cannot be
read. -/
def State.ctxRead (s : State) (c : Nat) (va : W64) (n : Nat) : Option (List Byte) :=
  (allSome ((List.range n).map fun i => match s.resolve c .rd (va + wn i) with
    | .ok l => l.key?
    | .error _ => none)).map fun ks => ks.map s.homeByte

def streamRule : OpRule :=
  { all := true
    keys := [(Key.context, true), (Key.action, true), (Key.list, false), (Key.nlayers, false), (Key.window, false),
      (Key.wrap, false), (Key.progress, false), (Key.job, false)] }

/-- The layer records of a job (R260); none where they cannot be read or are malformed. -/
def State.layerRecords (s : State) (r : MReq) : Option (List (Nat × Nat)) :=
  match s.ctxRead (r.num Key.context) (wn (r.num Key.list)) (16 * r.num Key.nlayers) with
  | none => none
  | some bs =>
    let ls := (List.range (r.num Key.nlayers)).map fun i =>
      (ofBytes (slice bs (16 * i) 6), ofBytes (slice bs (16 * i + 8) 4))
    if ls.all fun l => l.1 % 0x200000 == 0 then some ls else none

/-- Whether every page of the layers is placed (R260). -/
def State.layersPlaced (s : State) (c : Nat) (ls : List (Nat × Nat)) : Bool :=
  ls.all fun l => (List.range l.2).all fun k => match s.pageAt c (l.1 + k * 0x200000) with
    | some (p, _) => match p.tgt with | .placed _ => true | _ => false
    | none => false

def State.streamCreate (s : State) (r : MReq) : State :=
  let c := r.num Key.context
  let p := (s.ctx c).part
  let n := r.num Key.nlayers
  let w := r.num Key.window
  let prog := wn (r.num Key.progress)
  let need := [Key.list, Key.nlayers, Key.window, Key.wrap, Key.progress].all fun k => r.has k
  let rangeOk := decide (1 ≤ n) && decide (n ≤ 65535) && decide (2 ≤ w) && decide (w ≤ 8)
  if !need || !rangeOk || prog.toNat % 8 != 0 || (s.wordAt none c prog).isNone then s.refuse r St.descriptorInvalid
  else match s.layerRecords r with
    | none => s.refuse r St.descriptorInvalid
    | some ls =>
      if !s.layersPlaced c ls then s.refuse r St.descriptorInvalid
      else match mfree (s.part p).jobs 16 0 with
        | none => s.refuse r St.queueFull
        | some i =>
          let j : StreamJob := { ctx := c, layers := ls, window := w, wrap := r.num Key.wrap == 1, progress := prog }
          let x := s.part p
          ((s.setPart p { x with jobs := mput x.jobs i j }).slideJob p i j).reply r St.ok [(Key.job, wn i)]

def execStreamJobCreate (r : MReq) (s : State) : Host.Outcome State Fault Refusal :=
  manage streamRule r s fun s =>
    if r.num Key.action = 0 then s.streamCreate r else s.refuse r St.descriptorInvalid

/-- A job ended: its HOLDs removed (R262). -/
def State.endJob (s : State) (p i : Nat) (j : StreamJob) : State :=
  let s := j.held.foldl (fun s e =>
    let x := s.entry e
    if mhas s.placed e then s.setEntry e { x with holds := x.holds - 1 } else s) s
  let x := s.part p
  s.setPart p { x with jobs := mdel x.jobs i }

def State.streamEnd (s : State) (r : MReq) : State :=
  let c := r.num Key.context
  let p := (s.ctx c).part
  match mfind? (s.part p).jobs (r.num Key.job) with
  | some j => if j.ctx = c then (s.endJob p (r.num Key.job) j).done r else s.refuse r St.descriptorInvalid
  | none => s.refuse r St.descriptorInvalid

def execStreamJobEnd (r : MReq) (s : State) : Host.Outcome State Fault Refusal :=
  manage streamRule r s fun s =>
    if r.num Key.action = 1 && r.has Key.job then s.streamEnd r else s.refuse r St.descriptorInvalid

/-! ### Table sets (R245) -/

/-- Sets that the device's store holds. -/
def State.storeSets (s : State) : Nat := sumL (s.parts.map fun e => e.2.tsets.length)

/-- The four tables of a set packed in 512 bytes (R263). -/
def tablesOf (bs : List Byte) : List (List Nat) :=
  (List.range 4).map fun k => (List.range 256).map fun v =>
    let b := (nth 0 bs (128 * k + v / 2)).toNat
    if v % 2 = 0 then b % 16 else b / 16

def tablesOk (ts : List (List Nat)) : Bool := ts.all tableOk

/-- Whether a placed page names a library set of its partition. -/
def State.setNamed (s : State) (p k : Nat) : Bool :=
  s.images.any fun e => e.2.part == p && decide (e.2.tbase ≤ k) && decide (k < e.2.tbase + e.2.tsets) &&
    s.placed.any fun x => decide (x.2.image = some e.1)

def State.setTset (s : State) (p k : Nat) (t : TableSet) : State :=
  let x := s.part p
  s.setPart p { x with tsets := mput x.tsets k t }

def tableWords (r : MReq) : List Byte :=
  (List.range 64).flatMap fun i => toBytes 8 (r.num (Key.tableWord + i))

def State.tableset (s : State) (r : MReq) : State :=
  let p := r.num Key.part
  let k := r.num Key.tset
  let ts := tablesOf (tableWords r)
  let old := s.tset p k
  if (s.part p).st = 0 || !tablesOk ts || (k < 4096 && !r.has Key.seedw) then s.refuse r St.descriptorInvalid
  else if old.isNone && decide (16384 ≤ s.storeSets) then s.refuse r St.libraryFull
  else if 4096 ≤ k && s.setNamed p k then s.refuse r St.opState
  else
    let t := old.getD {}
    let t : TableSet :=
      if k < 4096 then { t with lens := ts, seeds := ts, seedw := r.num Key.seedw } else { t with lens := ts }
    (s.setTset p k t).done r

def execTableset (r : MReq) (s : State) : Host.Outcome State Fault Refusal :=
  manage { all := true, keys := [(Key.part, true), (Key.tset, true), (Key.seedw, false)] ++
    (List.range 64).map fun i => (Key.tableWord + i, true) } r s fun s => s.tableset r

/-! ### The model library (R263 to R266) -/

/-- The fields of an image header (R263). -/
structure ImageHead where
  tsets    : Nat
  pages    : Nat
  modelId  : W64
  tsetList : Nat
  pageList : Nat
  digest   : List Byte
  deriving DecidableEq, Repr

/-- An image's header; none where it is malformed. -/
def imageHead (bs : List Byte) : Option ImageHead :=
  let f := headField bs
  if headOk bs && imageSize bs == bs.length then
    some { tsets := f 6 2, pages := f 8 4, modelId := wn (f 16 8), tsetList := f 24 8, pageList := f 32 8,
           digest := slice bs 64 48 }
  else none

/-- Page-list entry `j`: offset and size; none where it is malformed. -/
def imagePage (h : ImageHead) (bs : List Byte) (j : Nat) : Option (Nat × Nat) :=
  let f (o n : Nat) : Nat := ofBytes (slice bs (h.pageList + 16 * j + o) n)
  if f 6 2 == 0 && f 12 4 == 0 && f 0 6 % 32 == 0 && decide (f 0 6 + f 8 4 ≤ bs.length) then some (f 0 6, f 8 4) else none

/-- The tables of an image and its pages; none where the image is malformed or its digest does not match. -/
def imageParts (h : ImageHead) (bs : List Byte) : Option (List (List (List Nat)) × List (Nat × Nat)) :=
  let ts := (List.range h.tsets).map fun k => tablesOf (slice bs (h.tsetList + 512 * k) 512)
  match allSome ((List.range h.pages).map (imagePage h bs)) with
  | none => none
  | some ps => if ts.all tablesOk && Config.sha384 (bs.drop 128) == h.digest then some (ts, ps) else none

/-- TBASE: the lowest library number from which the wanted sets are free (R264 step 2). -/
def State.findTbase (s : State) (p n : Nat) : Option Nat :=
  let ts := (s.part p).tsets
  let free (b : Nat) : Bool :=
    decide (b + n ≤ 65536) && ts.all fun e => decide (e.1 < b) || decide (b + n ≤ e.1)
  let spots := 4096 :: (ts.filter fun e => decide (4096 ≤ e.1)).map (·.1 + 1)
  match spots.filter free with
  | [] => none
  | a :: as => some (as.foldl Nat.min a)

/-- One page of an image placed; the status where it cannot be. -/
def State.placeImagePage (s : State) (p i tbase : Nat) (t2 : Bool) (org : Bool) (area : List Byte) (off : Nat) :
    Except Status (Nat × State) :=
  let used := areaUsed area
  let logical := s.decodeArea p tbase area
  match mfree s.placed (2 ^ 24) 0 with
  | none => .error St.libraryFull
  | some e =>
    let x : PlaceEnt :=
      { part := p, tier := .t3, clean := org, tbase := tbase, image := some i, originOff := off, used := used
        bytes := if t2 then sparse (logical.getD []) else [] }
    if !t2 then .ok (e, s.setEntry e x)
    else match logical with
      | none => .error St.slugCheck
      | some _ => match s.findHeap p (heapGranules used) with
        | none => .error St.libraryFull
        | some h =>
          .ok (e, (s.poolTake p Pool.heap (heapGranules used)).setEntry e
            { x with tier := .t2c, heap := (h, heapGranules used) })

/-- The pages of an image placed one after the other. -/
def State.placeImage (s : State) (p i tbase : Nat) (t2 org : Bool) (bs : List Byte) :
    List (Nat × Nat) → List Nat → Except Status (List Nat × State)
  | [], es => .ok (es, s)
  | a :: as, es => match s.placeImagePage p i tbase t2 org (slice bs a.1 a.2) a.1 with
    | .error st => .error st
    | .ok (e, s) => s.placeImage p i tbase t2 org bs as (es ++ [e])

/-- The work of a model load after its library entry is taken: the state with the image, or the status that ends it. -/
def State.loadModel (s : State) (i tier : Nat) (bs : List Byte) : Except Status State :=
  let m := mget ({} : Image) s.images i
  match imageHead bs with
  | none => .error St.descriptorInvalid
  | some h => match s.findTbase m.part h.tsets with
    | none => .error St.libraryFull
    | some tb =>
      if 16384 < s.storeSets + h.tsets then .error St.libraryFull
      else match imageParts h bs with
        | none => .error St.descriptorInvalid
        | some (ts, ps) =>
          let s := (List.range ts.length).foldl (fun s k => s.setTset m.part (tb + k) { lens := nth [] ts k }) s
          match s.placeImage m.part i tb (tier == 2) (m.origin != 0) bs ps [] with
          | .error st => .error st
          | .ok (es, s) =>
            .ok { s with images := mput s.images i { m with
              modelId := h.modelId, digest := h.digest, tbase := tb, tsets := h.tsets, pages := es, areas := ps
              raw := if m.exportable then m.raw else [] } }

/-- A model load ended with a status, and everything it took released (R264). -/
def State.dropLoad (s : State) (handle i : Nat) (st : Status) : State :=
  { s with images := mdel s.images i }.endLong handle st []

/-- A model load at its stop point: it ends with its image once that has been read, or with the failure of a read [log 44];
until then it goes on (R264). -/
def State.endLoad (s : State) (handle i tier : Nat) : State :=
  let m := mget ({} : Image) s.images i
  match m.failed with
  | some st => s.dropLoad handle i st
  | none =>
    if !m.atEnd then s
    else match s.loadModel i tier m.raw with
      | .ok s => s.endLong handle St.ok [(Key.image, wn i)]
      | .error st => s.dropLoad handle i st

/-- A MODEL_LOAD request's own rules (R264). -/
def State.loadOk (s : State) (r : MReq) : Bool :=
  let o := r.num Key.origin
  let n := r.num Key.originSession r.session
  (s.part (r.num Key.part)).st != 0 && (o == 2 || r.has Key.hostAddr) && (o != 2 || r.has Key.originDevice) &&
    (o == 2 || n == 0 || (s.session n).part == r.num Key.part && s.sessionOpen n) && !(o == 0 && r.num Key.tier == 3)

/-- The library entry that a load takes (step 1 of R264): no rule says which of the free ones, so the command names it, and
where that one is in use the lowest free one stands in [log 44]. -/
def State.takeEntry (s : State) (entry : Nat) : Option Nat :=
  if entry < 4096 && !mhas s.images entry then some entry else mfree s.images 4096 0

def State.modelLoad (s : State) (r : MReq) (entry : Nat) : State :=
  if !s.loadOk r then s.refuse r St.descriptorInvalid
  else match s.takeEntry entry with
    | none => s.refuse r St.libraryFull
    | some i =>
      s.startLong r (.modelLoad i (r.num Key.tier)) none fun _ s =>
        ({ s with images := mput s.images i {
            part := r.num Key.part, origin := r.num Key.origin, originSession := r.num Key.originSession r.session
            originDevice := r.num Key.originDevice, hostAddr := wn (r.num Key.hostAddr)
            exportable := r.num Key.exportable == 1 } }).pumpLoad i

def execModelLoad (r : MReq) (entry : Nat) (s : State) : Host.Outcome State Fault Refusal :=
  manage { all := true, keys := [(Key.part, true), (Key.origin, true), (Key.tier, true), (Key.hostAddr, false),
    (Key.originSession, false), (Key.originDevice, false), (Key.exportable, false)] } r s fun s =>
      s.modelLoad r entry

/-- Whether an image is still being loaded. -/
def State.loading (s : State) (i : Nat) : Bool :=
  s.longops.any fun e => decide (e.2.st ≠ .done) && match e.2.kind with
    | .modelLoad j _ => j == i
    | _ => false

/-- An image's pages, sets and entry freed (R266). -/
def State.unload (s : State) (i : Nat) : State :=
  let m := mget ({} : Image) s.images i
  let s := m.pages.foldl (fun s e => s.removePlaced e) s
  let x := s.part m.part
  let s := s.setPart m.part { x with
    tsets := x.tsets.filter fun e => decide (e.1 < m.tbase) || decide (m.tbase + m.tsets ≤ e.1) }
  { s with images := mdel s.images i }

def State.modelUnload (s : State) (r : MReq) : State :=
  let i := r.num Key.image
  match mfind? s.images i with
  | none => s.refuse r St.descriptorInvalid
  | some m =>
    if r.session != 0 && m.part != (s.session r.session).part then s.refuse r St.descriptorInvalid
    else if s.loading i || m.pages.any fun e => !(s.mappers e).isEmpty then s.refuse r St.opState
    else (s.unload i).done r

def execModelUnload (r : MReq) (s : State) : Host.Outcome State Fault Refusal :=
  manage { all := true, keys := [(Key.image, true)] } r s fun s => s.modelUnload r

/-! ### MIGRATE (R259) -/

/-- The mappings of one 2 MiB range of a context: the large page, or its 32 base pages. -/
def State.rangePages (s : State) (c k : Nat) : Option (List (Nat × Page)) :=
  let x := s.ctx c
  match mfind? x.large k with
  | some p => some [(k, p)]
  | none => allSome ((List.range 32).map fun i => (mfind? x.pages (32 * k + i)).map fun p => (32 * k + i, p))

/-- Whether a range can be moved: mapped throughout, and by local frames that MAP allocated. -/
def State.rangeMoves (s : State) (c k : Nat) : Bool :=
  match s.rangePages c k with
  | none => false
  | some ps => ps.all fun e => match e.2.tgt with | .frame _ => e.2.own | _ => false

/-- The bytes of a range, with what is marked uncorrectable in it, put elsewhere. -/
def State.moveBytes (s : State) (src dst n : Nat) : State :=
  let s := ((s.dropLines src n).rekeyShadows src dst n).rekeyBad src dst n
  { s with mem := restore s.mem dst (carve s.mem src n) }

/-- One range moved to a fresh frame: copied, switched, the old frames freed; none where no frame is free. -/
def State.migrateRange (s : State) (c k : Nat) : Option State :=
  let x := s.ctx c
  match s.rangePages c k, s.findFrame x.part x.priv 0x200000 with
  | some ps, some a =>
    match ps with
    | [(_, p)] => match p.tgt with
      | .frame old =>
        let s := ((s.takeFrame x.part a 0x200000).moveBytes old a 0x200000).freeFrame old
        some (s.setLarge c k { p with tgt := .frame a })
      | _ => some s
    | _ =>
      let s := { s.takeFrame x.part a 0x200000 with frames := s.frames }
      some (ps.foldl (fun s e => match e.2.tgt with
        | .frame old =>
          let b := a + (e.1 % 32) * 0x10000
          let s := (s.moveBytes old b 0x10000).freeFrame old
          let s := { s with frames := mput s.frames b (0x10000, x.part) }
          let y := s.ctx c
          s.setCtx c { y with pages := mput y.pages e.1 { e.2 with tgt := .frame b } }
        | _ => s) s)
  | _, _ => none

/-- The ranges of a migration moved in turn; false where one finds no frame. -/
def State.migrateAll (s : State) (c : Nat) : List Nat → State × Bool
  | [] => (s, true)
  | k :: ks => match s.migrateRange c k with
    | none => (s, false)
    | some s => s.migrateAll c ks

/-- A migration runs to its end; where a range finds no frame it ends as MAP would (log 36). -/
def State.endMigrate (s : State) (handle c va pages : Nat) : State :=
  let (s, ok) := s.migrateAll c (span (va / 0x200000) pages)
  s.endLong handle (if ok then St.ok else St.descriptorInvalid) []

def State.migrate (s : State) (r : MReq) : State :=
  let c := r.num Key.context
  let va := r.num Key.vaddr
  let n := r.num Key.pages
  if va % 0x200000 ≠ 0 || decide (2 ^ 48 < va + n * 0x200000) ||
      !(span (va / 0x200000) n).all (s.rangeMoves c) then s.refuse r St.descriptorInvalid
  else s.startLong r (.migrate c va n 0) (some c) fun _ s => s

def execMigrate (r : MReq) (s : State) : Host.Outcome State Fault Refusal :=
  manage { all := true, keys := [(Key.context, true), (Key.vaddr, true), (Key.pages, true)] } r s fun s => s.migrate r

end Sys2Proof.Machine
end

