-- ==== Sys2Proof/Machine/Paging.lean ====
section
/-! DEFINITION. MAP, UNMAP and PROTECT (R33 to R36, R224), the runtime's commands on galley streams (R207, R209), and the
device identifier (R27, R472). -/

namespace Sys2Proof.Machine

/-! ### Ranges of pages (R33) -/

def mapKeys : List (Nat × Bool) := [(Key.context, true), (Key.vaddr, true), (Key.pageSize, true), (Key.pages, true)]

/-- A request's pages: whether they are 2 MiB pages, the number of the first and how many. -/
structure PageRange where
  large : Bool
  first : Nat
  count : Nat
  deriving DecidableEq, Repr

/-- Bytes of a page. -/
def PageRange.size (g : PageRange) : Nat := if g.large then 0x200000 else 0x10000
def PageRange.base (g : PageRange) : Nat := g.first * g.size
def PageRange.nums (g : PageRange) : List Nat := span g.first g.count

/-- The pages that a request names, where VADDR is aligned and the range lies below the service window (R33, R377). -/
def pageRange (r : MReq) : Option PageRange :=
  let g : PageRange :=
    { large := r.num Key.pageSize == 1, first := r.num Key.vaddr / (if r.num Key.pageSize = 1 then 0x200000 else 0x10000)
      count := r.num Key.pages }
  if r.num Key.vaddr % g.size ≠ 0 ∨ serviceBase < g.base + g.count * g.size then none else some g

/-- Whether any part of a page is mapped, by an entry of either size (R33). -/
def Ctx.touched (x : Ctx) (large : Bool) (k : Nat) : Bool :=
  if large then mhas x.large k || x.pages.any fun e => e.1 / 32 == k
  else mhas x.pages k || mhas x.large (k / 32)

/-- The entry of exactly a size that maps a page. -/
def Ctx.entryOf (x : Ctx) (large : Bool) (k : Nat) : Option Page := if large then mfind? x.large k else mfind? x.pages k
def Ctx.putEntry (x : Ctx) (large : Bool) (k : Nat) (p : Page) : Ctx :=
  if large then { x with large := mput x.large k p } else { x with pages := mput x.pages k p }
def Ctx.delEntry (x : Ctx) (large : Bool) (k : Nat) : Ctx :=
  if large then { x with large := mdel x.large k } else { x with pages := mdel x.pages k }

/-! ### MAP -/

/-- The permissions of a PTE item. -/
def ptePage (w : W64) : Page := { rd := flag w 2, wr := flag w 3, ex := flag w 4 }
/-- V, LEAF and RSV of a PTE item (R33). -/
def pteOk (w : W64) : Bool := flag w 0 && flag w 1 && fld w 15 5 == 0

/-- Pages of the context's own memory mapped one after the other; none where no frame is left. -/
def State.mapLocal (s : State) (c : Nat) (g : PageRange) (p : Page) : List Nat → Option State
  | [] => some s
  | k :: ks =>
    let x := s.ctx c
    match s.findFrame x.part x.priv g.size with
    | none => none
    | some a =>
      let s := s.takeFrame x.part a g.size
      (s.setCtx c ((s.ctx c).putEntry g.large k { p with tgt := .frame a, own := true })).mapLocal c g p ks

/-- Pages of a peer mapped: page i takes TARGET advanced by i pages. -/
def State.mapFar (s : State) (c : Nat) (g : PageRange) (p : Page) (w : W64) : State :=
  s.setCtx c ((List.range g.count).foldl (fun x i =>
    x.putEntry g.large (g.first + i) { p with tgt := .remote (fld w 63 48) (fld w 47 16 * 0x10000 + i * g.size) }) (s.ctx c))

/-- Pages of a library image mapped: every entry names the page's placement entry (R251). -/
def State.mapImage (s : State) (c : Nat) (g : PageRange) (p : Page) (es : List Nat) : State :=
  s.setCtx c ((List.range g.count).foldl (fun x i =>
    x.putEntry true (g.first + i) { p with tgt := .placed (nth 0 es i) }) (s.ctx c))

/-- The placement entries that a MAP with an IMAGE item names, if the image and its pages are there. -/
def State.imageEntries (s : State) (r : MReq) (g : PageRange) : Option (List Nat) :=
  let i := r.num Key.image
  let m := mget ({} : Image) s.images i
  let f := r.num Key.imagePage
  if mhas s.images i && !s.loading i && m.part == (s.ctx (r.num Key.context)).part && g.large && r.has Key.imagePage &&
      decide (f + g.count ≤ m.pages.length) then some ((m.pages.drop f).take g.count)
  else none

def State.map (s : State) (r : MReq) : State :=
  let c := r.num Key.context
  let w := (r.item? Key.pte).getD 0
  let p := ptePage w
  match pageRange r with
  | none => s.refuse r St.descriptorInvalid
  | some g =>
    if !pteOk w || g.nums.any ((s.ctx c).touched g.large) || (r.has Key.imagePage && !r.has Key.image) then
      s.refuse r St.descriptorInvalid
    else if r.has Key.image then
      match s.imageEntries r g with
      | none => s.refuse r St.descriptorInvalid
      | some es =>
        if es.any fun e => (s.entry e).poison && (s.entry e).lost then s.refuse r St.opState
        else (s.mapImage c g p es).done r
    else if fld w 63 48 = s.myId then
      match s.mapLocal c g p g.nums with
      | none => s.refuse r St.descriptorInvalid
      | some s => s.done r
    else if g.large && fld w 20 16 != 0 then s.refuse r St.descriptorInvalid
    else (s.mapFar c g p w).done r

def execMap (r : MReq) (s : State) : Host.Outcome State Fault Refusal :=
  manage { all := true, keys := mapKeys ++ [(Key.pte, true), (Key.image, false), (Key.imagePage, false)] } r s fun s =>
    s.map r

/-! ### UNMAP and PROTECT -/

/-- Whether every page of a range is mapped by an entry of its size, and by no host window (R33). -/
def State.rangeMapped (s : State) (c : Nat) (g : PageRange) : Bool :=
  g.nums.all fun k => match (s.ctx c).entryOf g.large k with
    | some p => match p.tgt with | .host _ _ => false | _ => true
    | none => false

/-- A request kept until UNMAP_COMPLETE ends it (R36): the lowest free number. No rule limits how many wait: 65,536 do, and
one more is refused with QUEUE_FULL (DESIGN CHOICE, log 96). -/
def State.queueUnmap (s : State) (r : MReq) (g : PageRange) (perm : Option (BitVec 3)) : State :=
  match mfree s.unmaps 65536 0 with
  | none => s.refuse r St.queueFull
  | some i =>
    let u : UnmapReq :=
      { ctx := r.num Key.context, first := g.first, pages := g.count, large := g.large, perm := perm
        session := r.session, reqId := r.reqId }
    { s with unmaps := mput s.unmaps i u }

def execUnmap (r : MReq) (s : State) : Host.Outcome State Fault Refusal :=
  manage { all := true, keys := mapKeys } r s fun s =>
    match pageRange r with
    | none => s.refuse r St.descriptorInvalid
    | some g =>
      if s.rangeMapped (r.num Key.context) g then s.queueUnmap r g none else s.refuse r St.descriptorInvalid

/-- A page with its permissions replaced by RD, WR and EX of a PERM item. -/
def Page.protect (p : Page) (perm : BitVec 3) : Page :=
  { p with rd := perm.getLsbD 0, wr := perm.getLsbD 1, ex := perm.getLsbD 2 }
/-- Whether a permission is lowered. -/
def Page.lowered (p : Page) (perm : BitVec 3) : Bool :=
  (p.rd && !perm.getLsbD 0) || (p.wr && !perm.getLsbD 1) || (p.ex && !perm.getLsbD 2)

/-- The entries of a range with new permissions. -/
def Ctx.protect (x : Ctx) (g : PageRange) (perm : BitVec 3) : Ctx :=
  g.nums.foldl (fun x k => match x.entryOf g.large k with
    | some p => x.putEntry g.large k (p.protect perm)
    | none => x) x

def State.protect (s : State) (r : MReq) : State :=
  let c := r.num Key.context
  let perm := BitVec.ofNat 3 (r.num Key.perm)
  match pageRange r with
  | none => s.refuse r St.descriptorInvalid
  | some g =>
    if !s.rangeMapped c g then s.refuse r St.descriptorInvalid
    else
      let low := g.nums.any fun k => match (s.ctx c).entryOf g.large k with
        | some p => p.lowered perm
        | none => false
      if low then s.queueUnmap r g (some perm) else ((s.setCtx c ((s.ctx c).protect g perm)).done r).settle

def execProtect (r : MReq) (s : State) : Host.Outcome State Fault Refusal :=
  manage { all := true, keys := mapKeys ++ [(Key.perm, true)] } r s fun s => s.protect r

/-- Whether an access of the context to the range is outstanding (R36): a stalled access of a press or a compositor, a tensor
move that waits or runs, an add of RSIGNAL, a host access that stalls, or a remote or host request. -/
def State.rangeInUse (s : State) (c lo n : Nat) : Bool :=
  let hit (va : W64) (len : Nat) : Bool := decide (va.toNat < lo + n) && decide (lo < va.toNat + len)
  let stalled (x : Stalled) : Bool := match x with
    | .load va size _ _ _ _ _ => hit va size
    | .store va size _ _ _ _ => hit va size
  let moves (o : TmOp) : Bool := (!o.done || !o.left.isEmpty) && (o.reads ++ o.writes).any fun r => hit r.1 r.2
  (s.presses.any fun e => (e.2.statesOf c).any fun p =>
    p.stall.any stalled || (p.tmq ++ p.tmRun).any moves ||
    p.ctRun.any fun o => match o with
      | .rsignal va _ _ _ => hit va 8
      | _ => false) ||
  (s.comps.any fun e => e.2.ctx == c && e.2.stall.any stalled) ||
  (s.hostq.any fun a => a.ctx == c && hit a.va a.len) ||
  s.requests.any fun e => e.2.ctx == c && !e.2.cause.own && hit e.2.va e.2.len

/-- Whether an open region holds shadow sectors of a page (R224). -/
def State.shadowed (s : State) (p : Page) (size : Nat) : Bool :=
  match (p.loc 0).key? with
  | none => false
  | some k => s.chases.any fun ch => ch.2.regions.any fun e =>
      e.2.shadow.any fun x => decide (k ≤ x.1 * 32) && decide (x.1 * 32 < k + size)

/-- Whether an UNMAP or PROTECT must still wait (R36, R224). -/
def State.unmapWaits (s : State) (u : UnmapReq) (g : PageRange) : Bool :=
  let dropsWr := match u.perm with | none => true | some b => !b.getLsbD 1
  s.rangeInUse u.ctx g.base (g.count * g.size) ||
    (dropsWr && g.nums.any fun k => match (s.ctx u.ctx).entryOf g.large k with
      | some p => s.shadowed p g.size
      | none => false)

/-- One page's entry removed and what MAP allocated for it freed (R33, R266, R269). -/
def State.dropPage (s : State) (c : Nat) (large : Bool) (k : Nat) : State :=
  match (s.ctx c).entryOf large k with
  | none => s
  | some p =>
    let s := s.setCtx c ((s.ctx c).delEntry large k)
    match p.tgt with
    | .frame a => if p.own then (s.dropLines a (if large then 0x200000 else 0x10000)).freeFrame a else s
    | .placed e => if (s.entry e).image.isSome then s.retireStorage e else s.removePlaced e
    | _ => s

/-- UNMAP_COMPLETE of a waiting request: once nothing holds it, its effect and its response; waiting RWAITs of the context
are evaluated once more (R36, R96). -/
def State.endUnmap (s : State) (i : Nat) (u : UnmapReq) : State :=
  let g : PageRange := { large := u.large, first := u.first, count := u.pages }
  if s.unmapWaits u g then s
  else
    let s := { s with unmaps := mdel s.unmaps i }
    let s := match u.perm with
      | some b => s.setCtx u.ctx ((s.ctx u.ctx).protect g b)
      | none => g.nums.foldl (fun s k => s.dropPage u.ctx g.large k) s
    let s := s.send u.session (.manage u.reqId St.ok [] [] false)
    (s.presses.foldl (fun s e => if (s.press e.1).run = some u.ctx then s.loseWatch e.1 else s) s).settle

def execUnmapComplete (idx : Nat) (s : State) : Host.Outcome State Fault Refusal :=
  match mfind? s.unmaps idx with
  | some u => .next (s.endUnmap idx u)
  | none => .fault .noSuchUnit

/-! ### GALLEY_SWAP (R207, R209) -/

def gallSwapRule : OpRule :=
  { all := true, keys := [(Key.context, true), (Key.action, true), (Key.stream, false), (Key.vaddr, false)] }

/-- A GALLEY_SWAP on a stream of its context, of the action of the row; DESCRIPTOR_INVALID otherwise. -/
def onStream (r : MReq) (action : Nat) (s : State) (f : Nat → State → State) : Host.Outcome State Fault Refusal :=
  manage gallSwapRule r s fun s =>
    let h := r.num Key.stream
    if r.num Key.action = action && r.has Key.stream && mhas s.galley h && (s.gentry h).isOpen &&
        (s.gentry h).owner == r.num Key.context then f h s
    else s.refuse r St.descriptorInvalid

/-- ACTION 0: a swap-out begins between two commands of the stream, or nothing where R205 says so. -/
def execRuntimeSwapOut (r : MReq) (s : State) : Host.Outcome State Fault Refusal :=
  onStream r 0 s fun h s => (s.askAct h .swapOut).done r

/-- ACTION 1: a swapped stream's swap-in begins. -/
def execRuntimeSwapIn (r : MReq) (s : State) : Host.Outcome State Fault Refusal :=
  onStream r 1 s fun h s => (if (s.gentry h).res = .swapped then s.beginSwapIn h none else s).done r

/-- Autoswap of the context's partition set. -/
def State.setAutoswap (s : State) (r : MReq) (on : Bool) : State :=
  let p := (s.ctx (r.num Key.context)).part
  (s.setPart p { s.part p with autoswap := on }).done r

def execAutoswapDisable (r : MReq) (s : State) : Host.Outcome State Fault Refusal :=
  manage gallSwapRule r s fun s =>
    if r.num Key.action = 2 then s.setAutoswap r false else s.refuse r St.descriptorInvalid

def execAutoswapEnable (r : MReq) (s : State) : Host.Outcome State Fault Refusal :=
  manage gallSwapRule r s fun s =>
    if r.num Key.action = 3 then s.setAutoswap r true else s.refuse r St.descriptorInvalid

/-- ACTION 4: RESET between two commands. -/
def execRuntimeReset (r : MReq) (s : State) : Host.Outcome State Fault Refusal :=
  onStream r 4 s fun h s => (s.askAct h .reset).done r

/-- ACTION 5: LOAD of E values at VADDR between two commands. -/
def State.runtimeLoad (s : State) (r : MReq) (h : Nat) : State :=
  let e := s.gentry h
  let f := stateFmt e.sfmt
  let w := fmtWidth f / 8
  match s.ctxRead e.owner (wn (r.num Key.vaddr)) (elemsOf e * w) with
  | none => s.refuse r St.descriptorInvalid
  | some bs =>
    let l := (List.range (elemsOf e)).map fun i => decodeNum f (ofBytes (slice bs (i * w) w))
    (s.askAct h (.load (loadVals e l))).done r

def execRuntimeLoad (r : MReq) (s : State) : Host.Outcome State Fault Refusal :=
  onStream r 5 s fun h s => if r.has Key.vaddr then s.runtimeLoad r h else s.refuse r St.descriptorInvalid

/-! ### The device identifier (R27, R472) -/

/-- MGMT.CFG_ERR.LOCKED set, with its counter. -/
def State.idLocked (s : State) : State := s.raiseFlag 0x00 .mgmt 0x08 1 .mgmt 0x08 32 32

/-- A write of ID (R27, R472). Whether it starts the training of links that stand DOWN is not stated: they stay DOWN until they
are trained again (DESIGN CHOICE, log 94). -/
def State.setId (s : State) (id : Nat) : State :=
  if s.idValid then s.idLocked
  else { s.setReg .mgmt 0 0 (wn (id % 65536 + 65536)) with flash := { s.flash with deviceId := some (id % 65536) } }

def execDeviceIdSet (r : MReq) (s : State) : Host.Outcome State Fault Refusal :=
  manage { keys := [(Key.deviceId, true)] } r s fun s => (s.setId (r.num Key.deviceId)).done r

/-- UNSET written. When the bit returns to 0 after a write that takes effect is not stated: it never shows 1 (DESIGN CHOICE,
log 94). -/
def State.unsetId (s : State) : State :=
  let free := !(s.ctxs.any fun e => decide (e.2.st ≠ .free)) &&
    (upTo 32).all fun l => s.linkState l == LinkSt.down || s.linkState l == LinkSt.off
  if free then { s.setReg .mgmt 0 0 0 with flash := { s.flash with deviceId := none } } else s.idLocked

def execMgmtUnset (path : RegPath) (s : State) : Host.Outcome State Fault Refusal :=
  regWriteBy path .mgmt 0 s fun s => s.unsetId

end Sys2Proof.Machine
end

