-- ==== Sys2Proof/Machine/Landing.lean ====
section
/-! DEFINITION. How remote and host requests end (R85, R310, R352, R375): data that lands, writes that are acknowledged,
and failures. -/

namespace Sys2Proof.Machine

/-- Bytes that have landed for an operation, by virtual address. -/
def landBytes (m : Map Byte) (va : W64) (bs : List Byte) : Map Byte :=
  (List.range bs.length).foldl (fun m i => mput m (va.toNat + i) (nth 0 bs i)) m

/-- Bytes that landed for the tensor move of a Line. -/
def PressCtx.landTm (p : PressCtx) (line : Nat) (va : W64) (bs : List Byte) : PressCtx :=
  { p with tmRun := p.tmRun.map fun o => if o.line = line then { o with got := landBytes o.got va bs } else o }

/-- Bytes that landed for the galley command of a number. -/
def PressCtx.landGalley (p : PressCtx) (seq : Nat) (va : W64) (bs : List Byte) : PressCtx :=
  { p with ctq := p.ctq.map fun o => match o with
      | .galley c => if c.seq = seq then .galley { c with got := landBytes c.got va bs } else o
      | _ => o }

/-- Bytes of an origin reach the page or the load that asked for them (R256, R264, R268). -/
def State.landOrigin (s : State) (r : Request) (bs : List Byte) : State :=
  match r.cause with
  | .origin e => if (s.entry e).asked then s.setEntry e { s.entry e with area := landBytes (s.entry e).area r.va bs } else s
  | .image i => match mfind? s.images i with
    | some m => { s with images := mput s.images i { m with coming := landBytes m.coming r.va bs } }
    | none => s
  | _ => s

/-- The data of a read reaches what asked for it; nothing lands for a context that is torn down (R317). -/
def State.landData (s : State) (r : Request) (bs : List Byte) : State :=
  if r.cause.own then s.landOrigin r bs
  else if (s.ctx r.ctx).st ≠ .active then s
  else match r.cause with
    | .load n rd size signed => s.putX n r.ctx rd (extend signed size (ofBytes bs))
    | .tensorRead n line => s.modOf n r.ctx fun p => p.landTm line r.va bs
    | .galleyRead n seq => s.modOf n r.ctx fun p => p.landGalley seq r.va bs
    | .listRead n => s.modOf n r.ctx fun p => { p with lists := landBytes p.lists r.va bs }
    | _ => s

/-- What follows the end of a write or add: a mark signalled, a region's commit finished. -/
def State.landDone (s : State) (r : Request) : State :=
  match r.cause with
  | .signal n => if (s.ctx r.ctx).st = .active then s.modOf n r.ctx fun p => p.signal r.mark else s
  | .region c g => s.finishCommit c g
  | _ => s

/-- A read that ends with its data. -/
def State.endRead (s : State) (tag : Nat) (r : Request) (bs : List Byte) : State :=
  ((s.retire tag r).landData r bs).settle

/-- A write or add that ends. -/
def State.endWrite (s : State) (tag : Nat) (r : Request) : State :=
  ((s.retire tag r).landDone r).settle

/-- A request that fails: a fault found after issue (R98); a region's commit goes on to its end. -/
def State.endFail (s : State) (tag : Nat) (r : Request) (st : Status) : State :=
  let s := (s.retire tag r).requestFault r st
  (match r.cause with
    | .region c g => s.finishCommit c g
    | _ => s).settle

/-- An outstanding request by its tag. -/
def State.request? (s : State) (tag : Nat) : Option Request := mfind? s.requests tag

end Sys2Proof.Machine
end

