-- ==== Sys2Proof/Machine/Taosh.lean ====
section
/-! DEFINITION. The Ethernet port and the Taosh transport (R322 to R338, R361, R362): link and neighbours, sending with
acknowledgements, credits and congestion window, the handshake, keys, tickets, and the end of a session. -/

namespace Sys2Proof.Machine

/-! ### The port (R324, R325) -/

/-- Whether the port tries codes 1 and 2 when it does not come up (R324). -/
def State.fallsBack (s : State) : Bool := s.regFld .eth 0 0 50 1 == 1 && s.regFld .eth 0 0 48 2 == 0

/-- The code that a port that falls back tries: never 3, which only MODE brings (R324). -/
def State.attempt (s : State) : Nat := if s.regFld .eth 0 8 1 2 = 3 then 0 else s.regFld .eth 0 8 1 2

/-- PORT_LINK_CHANGE: the mode in use is the configured one unless fallback has chosen another. -/
def State.portLink (s : State) (up : Bool) : State :=
  let was := s.regFld .eth 0 8 0 1
  let mode := s.regFld .eth 0 0 48 2
  if up then
    let s := if s.fallsBack then s.setFld .eth 0 8 1 2 s.attempt else s.setFld .eth 0 8 1 2 mode
    s.setFld .eth 0 8 0 1 1
  else
    let s := s.setFld .eth 0 8 0 1 0
    let s := if was = 1 && s.fallsBack then s.setFld .eth 0 8 1 2 0 else s
    if was = 1 then s.bump .eth 0 8 32 16 1 else s

def execPortLinkChange (up : Bool) (s : State) : Host.Outcome State Fault Refusal := .next (s.portLink up)

/-- PORT_FALLBACK: codes 1 and 2 are tried in turn, then 0 again (R324). -/
def State.portFallback (s : State) : State :=
  if s.fallsBack ∧ s.regFld .eth 0 8 0 1 = 0 then s.setFld .eth 0 8 1 2 ((s.attempt + 1) % 3) else s

def execPortFallback (s : State) : Host.Outcome State Fault Refusal := .next s.portFallback

/-- TAOSH.COUNT.OTHER_DROP (R325, R327). -/
def State.otherDrop (s : State) : State := s.bump .taosh 0 8 48 16 1

/-- The link-local address formed from the MAC address: FE80::/64 with the modified EUI-64. -/
def State.linkLocal (s : State) : BitVec 128 :=
  let m := s.regFld .eth 0 0 0 48
  let hi := bits m 47 24 ^^^ 0x020000
  BitVec.ofNat 128 ((0xFE80 <<< 112) + (hi <<< 40) + (0xFFFE <<< 24) + bits m 23 0)

/-- The IPv6 address in use (R325). -/
def State.ipv6 (s : State) : BitVec 128 := if s.flash.ipv6 = 0 then s.linkLocal else s.flash.ipv6

/-- Whether a question is one that the device answers (R325). -/
def State.answers (s : State) (q : Neighbor) : Bool :=
  match q with
  | .arp ip => s.flash.ipv4 != 0 && ip == s.flash.ipv4
  | .nd ip => ip == s.ipv6
  | _ => true

def execNeighborRequest (q : Neighbor) (s : State) : Host.Outcome State Fault Refusal :=
  .next (if s.answers q then s.emit (.neighbor q) else s.otherDrop)

/-- PACKET_DISCARD: PAUSE and tagged frames are discarded, every other packet also counted (R323, R325, R327). -/
def execPacketDiscard (why : BadPacket) (s : State) : Host.Outcome State Fault Refusal :=
  match why with
  | .pauseOrTagged => .next s
  | _ => .next s.otherDrop

/-! ### Sending (R329 to R333) -/

/-- Fields of TAOSH.CC_CFG. -/
def State.ackEvery (s : State) : Nat := s.regFld .taosh 0 0 8 5
def State.rtoMin (s : State) : Nat := s.regFld .taosh 0 0 32 16

/-- Bytes of a message's body (R326, R340 to R358); a sealed one carries 32 bytes more (R357). -/
def msgLen (m : Msg) : Nat :=
  match m with
  | .complete rs => 64 * rs.length
  | .readResp _ _ _ d => 16 + d.length
  | .writeHost _ _ d => 32 + d.length
  | .writeAck _ _ => 32
  | .pullReq _ _ _ => 32
  | .event _ => 32
  | .manage _ _ is b _ => 16 + 16 * is.length + b.length

/-- Whether the messages of a session are sealed (R356). -/
def State.sealedSession (s : State) (n : Nat) : Bool := n != 0 && (s.part (s.session n).part).conf

/-- The transport keys that a secret gives (R337, R338). -/
def transportKeys (k : Keys) (secret : List Byte) : Keys :=
  { k with
    h2d := Config.hkdfExpand secret (label "taosh h2d key") 32
    d2h := Config.hkdfExpand secret (label "taosh d2h key") 32
    h2dIv := Config.hkdfExpand secret (label "taosh h2d iv") 12
    d2hIv := Config.hkdfExpand secret (label "taosh d2h iv") 12 }

/-- The keys of a session updated (R338): the phase flips, and the old keys are kept for late packets. -/
def Session.update (x : Session) : Session :=
  let k := transportKeys x.keys x.keys.update
  let k := { k with update := Config.hkdfExpand x.keys.update (label "taosh update") 48 }
  { x with keys := k, oldKeys := some x.keys, phase := !x.phase, authFails := 0 }

/-- A packet number taken; the device starts a key update at 2^31 (R329, R338). -/
def Session.takePn (x : Session) : Session :=
  let x := { x with txPn := (x.txPn + 1) % 2 ^ 32 }
  if x.txPn = 2 ^ 31 then x.update else x

/-- The header of the packet that carries a segment. -/
def Session.headOf (x : Session) (n : Nat) (g : SentSeg) : SegHead :=
  { cls := g.cls, phase := x.phase, first := g.off == 0, last := g.last, sealed := g.sealed, session := n, pn := x.txPn
    msn := g.msn, off := g.off, mlen := g.mlen, len := g.len }

/-- `n` bytes of Taosh payload taken, and leaving in packets (TELEM.PORT) [log 71]. -/
def State.takePayload (s : State) (n : Nat) : State := { s with rxBytes := s.rxBytes + n }
def State.emitPayload (s : State) (n : Nat) (o : Out) : State := ({ s with txBytes := s.txBytes + n }).emit o

/-- A segment in flight, sent for the first time or again: a new packet number, the keys and KEY_PHASE of now. -/
def State.sendSegment (s : State) (n : Nat) (g : SentSeg) : State :=
  let x := s.session n
  let g := { g with pn := x.txPn }
  let h := x.headOf n g
  (s.setSession n { x with flight := x.flight ++ [g] }.takePn).emitPayload g.len (.segment h (packetBytes x h g.payload))

/-- A message as it travels: its plain body, or a sealed record of it (R356, R357). Records of messages have BLOCK 0
[log 83]. -/
def State.cutOf (s : State) (n : Nat) (m : Msg) : CutMsg :=
  let x := s.session n
  let c : CutMsg := { msn := x.txMsn, cls := m.cls, mlen := msgLen m }
  if s.sealedSession n then
    { c with mlen := c.mlen + 32, sealed := true, body := sealRecord x.keys n x.txRseq 0 m.body }
  else { c with body := m.body }

/-- The takes whose records have been sent are no longer outstanding (R17). -/
def State.recordsSent (s : State) (rs : List Completion) : State :=
  rs.foldl (fun (s : State) (r : Completion) =>
    let sent (t : Take) : Bool :=
      t.queue == r.queue && decide (t.st = .done) && BitVec.ofNat 32 t.seq == r.seq && r.seq != 0xFFFFFFFF
    { s with takes := mmap (fun _ t => if sent t then { t with unsent := false } else t) s.takes }) s

/-- The next part of the message at the head of the queue: a new segment, which takes a credit. -/
def State.sendNew (s : State) (n : Nat) : State :=
  let x := s.session n
  match x.queue with
  | [] => s
  | m :: rest =>
    let c := x.cut.getD (s.cutOf n m)
    let len := min x.mss (c.mlen - c.sent)
    let last := decide (c.mlen ≤ c.sent + len)
    let recs := match m with | .complete rs => rs | _ => []
    let y := { x with txNew := x.txNew + 1, txRseq := if x.cut.isNone && c.sealed then x.txRseq + 1 else x.txRseq }
    let y :=
      if last then
        { y with cut := none, queue := rest, txMsn := (x.txMsn + 1) % 2 ^ 32
                 unackedRecs := if recs.isEmpty then x.unackedRecs else mput x.unackedRecs x.txMsn recs }
      else { y with cut := some { c with sent := c.sent + len } }
    let s := (s.setSession n y).sendSegment n
      { msn := c.msn, off := c.sent, cls := c.cls, mlen := c.mlen, sealed := c.sealed, last := last, len := len
        payload := slice c.body c.sent len }
    if last then (s.recordsSent recs).emit (.taosh n m) else s

/-- SEGMENT_SEND: a lost segment first, which takes no credit; otherwise a new one while a credit is held. Nothing is sent
while cwnd segments are in flight (R331, R332). -/
def State.segmentSend (s : State) (n : Nat) : State :=
  let x := s.session n
  if x.st ≠ .isOpen ∨ x.cwnd ≤ (x.flight.length : Rat) then s
  else match x.lost with
    | g :: rest => (s.setSession n { x with lost := rest }).sendSegment n g
    | [] => if x.limit ≤ x.txNew then s else s.sendNew n

/-- What a command that names a session does. -/
def onSession (n : Nat) (s : State) (f : State → State) : Host.Outcome State Fault Refusal :=
  if 1024 ≤ n then .fault .noSuchUnit else .next (f s)

def execSegmentSend (session : Nat) (s : State) : Host.Outcome State Fault Refusal :=
  onSession session s fun s => s.segmentSend session

/-- Completion records acknowledged: the takes give up their places (R340). -/
def State.freePlaces (s : State) (rs : List Completion) : State :=
  rs.foldl (fun s r =>
    let q := mget ({} : CmdQueue) s.queues r.queue
    let keep := q.takes.filter fun k => match mfind? s.takes k with
      | some t => !(t.st = .done && BitVec.ofNat 32 t.seq == r.seq)
      | none => false
    let gone := q.takes.filter fun k => !keep.contains k
    if mhas s.queues r.queue && r.seq != 0xFFFFFFFF then
      { s with queues := mput s.queues r.queue { q with takes := keep }
               takes := s.takes.filter fun e => !gone.contains e.1 }.sweepQueue r.queue
    else s) s

/-- How far a packet number lies ahead of another; PNs are compared modulo 2^32 (R338), so one less than 2^31 ahead is the
later. -/
def pnAhead (a b : Nat) : Nat := (a + 2 ^ 32 - b % 2 ^ 32) % 2 ^ 32

/-- Whether a packet number lies in a pair of an acknowledgement, whichever of its ends is the earlier. -/
def inRange (r : Nat × Nat) (pn : Nat) : Bool :=
  let (lo, hi) := if pnAhead r.2 r.1 < 2 ^ 31 then r else (r.2, r.1)
  decide (pnAhead pn lo ≤ pnAhead hi lo)

/-- Whether an acknowledgement covers a packet number (R330): unused pairs are zero. -/
def ackCovers (a : AckBody) (pn : Nat) : Bool :=
  pn == a.largest || a.ranges.any fun r => !(r.1 == 0 && r.2 == 0) && inRange r pn

/-- Whether an acknowledgement covers a packet number at least 3 higher (R329): LARGEST does. -/
def ackPasses (a : AckBody) (pn : Nat) : Bool := decide (3 ≤ pnAhead a.largest pn) && decide (pnAhead a.largest pn < 2 ^ 31)

/-- ACK received: segments acknowledged, losses found (R329), credit raised (R331), places of acknowledged completion
records freed (R340). A loss halves cwnd once in a round trip (R332). -/
def State.ackIn (s : State) (n : Nat) (a : AckBody) : State :=
  let x := s.session n
  let acked := x.flight.filter fun g => ackCovers a g.pn
  let rest := x.flight.filter fun g => !ackCovers a g.pn
  let lost := rest.filter fun g => ackPasses a g.pn
  let loss := !lost.isEmpty && !x.halved
  let credit := (a.creditLimit.toNat + 2 ^ 32 - x.limit % 2 ^ 32) % 2 ^ 32
  let x := { x with
    flight := rest.filter fun g => !ackPasses a g.pn
    lost := x.lost ++ lost
    cwnd := if loss then max 2 (x.cwnd / 2) else x.cwnd
    halved := x.halved || loss
    limit := if credit < 2 ^ 31 then x.limit + credit else x.limit
    rtoUs := if acked.isEmpty then x.rtoUs else s.rtoMin }
  let open_ (m : Nat) : Bool := (x.flight ++ x.lost).any fun g => g.msn == m
  let done := x.unackedRecs.filter fun e => !open_ e.1
  let x := { x with unackedRecs := x.unackedRecs.filter fun e => open_ e.1 }
  (s.setSession n x).freePlaces (done.flatMap (·.2))

/-- A packet number received. A packet may flip the phase; without one the device starts a key update when the numbers reach
2^31 (R338). -/
def Session.seePn (x : Session) (pn : Nat) (flips : Bool) : Session :=
  let reached := decide (2 ^ 31 ≤ pn) && x.rxPns.all fun q => decide (q < 2 ^ 31)
  { (if flips || reached then x.update else x) with rxPns := if x.rxPns.contains pn then x.rxPns else pn :: x.rxPns }

def execAck (session pn : Nat) (a : AckBody) (s : State) : Host.Outcome State Fault Refusal :=
  onSession session s fun s =>
    let x := s.session session
    if x.st = .isOpen then
      ((s.takePayload 64).setSession session (x.seePn pn false)).ackIn session a
    else s

/-- RETRANSMIT_TIMEOUT: what is in flight is lost, cwnd is 2, the timer doubles up to 10 ms (R332, R333). -/
def State.retransmit (s : State) (n : Nat) : State :=
  let x := s.session n
  if x.st ≠ .isOpen then s
  else s.setSession n { x with
    flight := [], lost := x.lost ++ x.flight, cwnd := 2, rtoUs := min 10000 (2 * max 1 x.rtoUs) }

def execRetransmitTimeout (session : Nat) (s : State) : Host.Outcome State Fault Refusal :=
  onSession session s fun s => s.retransmit session

/-- CWND_UPDATE: `marked` of `acked` packets raised CE_COUNT (R332). -/
def Session.cwndUpdate (x : Session) (acked marked : Nat) : Session :=
  let f : Rat := if acked = 0 then 0 else (marked : Rat) / acked
  let al := (15 * x.alpha + f) / 16
  { x with alpha := al, halved := false
           cwnd := if 0 < f then max 2 (x.cwnd * (1 - al / 2)) else min 512 (x.cwnd + 1) }

def execCwndUpdate (session acked marked : Nat) (s : State) : Host.Outcome State Fault Refusal :=
  onSession session s fun s =>
    let x := s.session session
    if x.st = .isOpen then s.setSession session (x.cwndUpdate acked marked) else s

/-! ### Acknowledging (R330) -/

/-- The runs of packet numbers below the largest, newest first. -/
def pnRuns : List Nat → Option (Nat × Nat) → List (Nat × Nat)
  | [], none => []
  | [], some r => [r]
  | p :: ps, none => pnRuns ps (some (p, p))
  | p :: ps, some (lo, hi) => if (p + 1) % 2 ^ 32 = lo then pnRuns ps (some (p, hi)) else (lo, hi) :: pnRuns ps (some (p, p))

/-- The acknowledgement body that a session would send now; DELAY is a free word. -/
def State.ackBody (s : State) (n : Nat) : AckBody × State :=
  let x := s.session n
  let largest := x.rxPns.foldl (fun m p => if pnAhead p m < 2 ^ 31 then p else m) (x.rxPns.headD 0)
  let pns := sortBy (fun a b => decide (pnAhead largest a ≤ pnAhead largest b)) x.rxPns
  let (d, s) := s.freshWord
  ({ largest := largest, delay := d.toNat % 2 ^ 32, ceCount := x.rxCe
     creditLimit := BitVec.ofNat 32 (x.w + x.rxDone), ranges := (pnRuns (pns.drop 1) none).take 6 }, s)

/-- An acknowledgement sent. -/
def State.sendAck (s : State) (n : Nat) : State :=
  let (a, s) := s.ackBody n
  let x := s.session n
  let h : SegHead := { phase := x.phase, session := n, pn := x.txPn, len := 64 }
  let s := s.setSession n { x with unacked := 0, rxLimit := x.w + x.rxDone }.takePn
  s.emitPayload 64 (.ackPacket n a (packetBytes x h (ackBytes a)))

def execAckTimer (session : Nat) (s : State) : Host.Outcome State Fault Refusal :=
  onSession session s fun s =>
    if (s.session session).st = .isOpen && (s.session session).unacked != 0 then s.sendAck session else s

/-! ### The end of a session (R333, R359, R406, R429) -/

/-- Number that stands for no session. -/
def noSession : Nat := 1024

/-- The records and events of a session's unsent or unacknowledged messages go back to their queues and contexts. -/
def State.takeBack (s : State) (x : Session) : State :=
  let recs := x.unackedRecs.flatMap (·.2) ++ x.queue.flatMap fun m => match m with | .complete rs => rs | _ => []
  let evs := x.queue.filterMap fun m => match m with | .event e => some e | _ => none
  let s := recs.foldl (fun s r =>
    let q := mget ({} : CmdQueue) s.queues r.queue
    if mhas s.queues r.queue then { s with queues := mput s.queues r.queue { q with records := q.records ++ [r] } } else s) s
  evs.foldl (fun s e =>
    if e.wide then { s with heldWide := s.heldWide ++ [e] }
    else
      let y := s.ctx e.ctx
      s.setCtx e.ctx { y with events := (y.events ++ [e]).drop ((y.events ++ [e]).length - 256) }) s

/-- A session ends: its number is free, its keys are gone, its queues unbound with their records and events held, its
host accesses fail, and nothing is sent on its number for it any more. -/
def State.endSession (s : State) (n : Nat) : State :=
  let x := s.session n
  if x.st ≠ .isOpen then s
  else
    let s := { s with
      sessions := mset {} s.sessions n { ({} : Session) with pend := x.pend }
      queues := mmap (fun _ q => if q.session = some n then { q with session := none } else q) s.queues
      hostwins := mmap (fun _ h => if h.session = n then { h with session := noSession } else h) s.hostwins
      longops := mmap (fun _ o => if o.session = n then { o with session := noSession } else o) s.longops
      unmaps := mmap (fun _ u => if u.session = n then { u with session := noSession } else u) s.unmaps
      loopReqs := s.loopReqs.filter fun e => e.2.1 != n
      hostq := s.hostq.filter fun a => a.session != n
      requests := mmap (fun _ r => if r.session = some n then { r with failed := some St.pullFailed } else r) s.requests }
    (s.takeBack x).settle

def execSessionFail (session : Nat) (s : State) : Host.Outcome State Fault Refusal :=
  onSession session s fun s => s.endSession session

/-- A message sent at once, before its session ends. -/
def State.answerNow (s : State) (r : MReq) (st : Status) : State :=
  s.emit (.taosh r.session (.manage r.reqId st [] [] false))

def execClose (r : MReq) (s : State) : Host.Outcome State Fault Refusal :=
  manage { all := true } r s fun s => (s.answerNow r St.ok).endSession r.session

def execEcho (r : MReq) (body : List Byte) (s : State) : Host.Outcome State Fault Refusal :=
  manage { all := true, plain := false } r s fun s =>
    if 8192 < body.length then s.refuse r St.descriptorInvalid
    else s.send r.session (.manage r.reqId St.ok [] body false)

/-- NET_CONFIG (R325): both halves of an IPv6 address come together. -/
def State.netConfig (s : State) (r : MReq) : State :=
  if r.has Key.ipv6Hi != r.has Key.ipv6Lo then s.refuse r St.descriptorInvalid
  else
    let f := s.flash
    let f' := { f with
      ipv4 := BitVec.ofNat 32 (r.num Key.ipv4 f.ipv4.toNat)
      ipv6 := if r.has Key.ipv6Hi then BitVec.ofNat 128 ((r.num Key.ipv6Hi <<< 64) + r.num Key.ipv6Lo) else f.ipv6
      port := r.num Key.udpPort f.port }
    let s := { s with flash := f' }
    if f' = f then s.done r
    else (upTo 1024).foldl (fun s n => s.endSession n) (s.answerNow r St.ok)

def execNetConfig (r : MReq) (s : State) : Host.Outcome State Fault Refusal :=
  manage { keys := [(Key.ipv4, false), (Key.ipv6Hi, false), (Key.ipv6Lo, false), (Key.udpPort, false)] } r s
    fun s => s.netConfig r

/-! ### Tickets (R334, R359) -/

/-- Draw number of the DRBG taken (R427). -/
def State.takeDraw (s : State) : Nat × State :=
  (s.sec.draws, { s with sec := { s.sec with draws := s.sec.draws + 1 } })

def State.ticketIssue (s : State) (r : MReq) : State :=
  let p := r.num Key.part
  if (s.part p).st = 0 then s.refuse r St.descriptorInvalid
  else match mfree s.tickets (2 ^ 32) 1 with
    | none => s.refuse r St.queueFull
    | some i =>
      let (d, s) := s.takeDraw
      let secret := Config.drbg d 32
      let t : Ticket := { id := wn i, secret := secret, part := p, minProtect := r.num Key.minProtect }
      { s with tickets := mput s.tickets i t }.reply r St.ok
        ((Key.ticketId, wn i) :: (List.range 4).map fun k => (Key.secret + k, wn (ofBytes (slice secret (8 * k) 8))))

def execTicketIssue (r : MReq) (s : State) : Host.Outcome State Fault Refusal :=
  manage { keys := [(Key.part, true), (Key.minProtect, true)] } r s fun s => s.ticketIssue r

def State.ticketRevoke (s : State) (r : MReq) : State :=
  let id := wn (r.num Key.ticketId)
  match s.tickets.find? fun e => e.2.id == id with
  | none => s.refuse r St.descriptorInvalid
  | some (i, _) =>
    let s := { s with tickets := mdel s.tickets i }
    (s.sessions.foldl (fun s e => if e.1 != 0 && e.2.ticket == id then s.endSession e.1 else s) s).done r

def execTicketRevoke (r : MReq) (s : State) : Host.Outcome State Fault Refusal :=
  manage { keys := [(Key.ticketId, true)] } r s fun s => s.ticketRevoke r

/-! ### The handshake (R334 to R337) -/

/-- The body of HELLO_1 (R335). -/
def helloBytes (h : Hello1) : List Byte :=
  toBytes 1 h.typ ++ toBytes 1 h.protect ++ toBytes 2 h.session ++ toBytes 2 h.mss ++ toBytes 2 h.w ++
    toBytes 8 h.ticket.toNat ++ h.nonce ++ h.x25519 ++ h.mlkem

/-- Whether a HELLO_1 is discarded without an answer (R335). -/
def helloDiscarded (h : Hello1) : Bool := !h.wellSized || h.typ != 1 || decide (1 < h.protect) || decide (1024 ≤ h.session)

/-- The ticket of a HELLO_1, if it is known. -/
def State.ticketOf (s : State) (id : W64) : Option Ticket := (s.tickets.find? fun e => e.2.id == id).map (·.2)

/-- The refusal of a HELLO_1 (R336, R420, R424, R430, R441), if there is one. -/
def State.helloRefusal (s : State) (h : Hello1) : Option Status :=
  let sized := decide (1024 ≤ h.mss) && decide (h.mss ≤ 8192) && h.mss % 64 == 0 && decide (16 ≤ h.w) && decide (h.w ≤ 4096)
  if s.sec.fuses.lifecycle = 4 then some St.sessionInvalid
  else if !sized then some St.sessionInvalid
  else if h.session = 0 then (if h.ticket = 0 then none else some St.sessionInvalid)
  else if s.serviceMode then some St.serviceMode
  else if s.restrictedMode then some St.sessionInvalid
  else match s.ticketOf h.ticket with
    | none => some St.sessionInvalid
    | some t =>
      let p := s.part t.part
      if decide (p.sessFirst ≤ h.session) && decide (h.session ≤ p.sessLast) && decide (t.minProtect ≤ h.protect) &&
          p.st == 1 then none
      else some St.sessionInvalid

/-- The keys of a handshake (R337). -/
def helloKeys (h1 h2 ikm : List Byte) : Keys :=
  let prk := Config.hkdfExtract (Config.sha384 (h1 ++ h2)) ikm
  let k := transportKeys {} prk
  { k with
    finished := Config.hkdfExpand prk (label "taosh finished") 48
    record := Config.hkdfExpand prk (label "taosh record") 32
    update := Config.hkdfExpand prk (label "taosh update") 48 }

/-- HELLO_2 up to its signatures, and whole (R335). -/
def hello2Head (session d : Nat) (h : Hello1) : List Byte :=
  [2, 0] ++ toBytes 2 session ++ toBytes 4 0 ++ Config.drbg d 32 ++ Config.x25519Pub d ++ Config.mlkemCt h.mlkem d
def hello2Body (h1 head : List Byte) : List Byte :=
  let m := Config.sha384 (h1 ++ head)
  head ++ Config.edSign m ++ Config.mlSign m ++ toBytes 3 0

/-- A flight sent in its packets, from a packet number on. -/
def State.emitFlight (s : State) (n k pn : Nat) (b : List Byte) : State :=
  s.emitPayload b.length (.flight n b (flightBytes n k pn b))

/-- A session refused (R336). -/
def State.emitRefusal (s : State) (n pn : Nat) (st : Status) : State :=
  s.emitPayload (refusalBody st).length (.udpRefusal n st (refusalBytes n pn st))

/-- A HELLO_1 answered: the same again with the same HELLO_2 (R334). -/
def State.hello1 (s : State) (h : Hello1) : State :=
  if helloDiscarded h then s
  else match s.helloRefusal h with
    | some st => (s.takePayload (helloBytes h).length).emitRefusal h.session 0 st
    | none =>
      let s := s.takePayload (helloBytes h).length
      let n := h.session
      let x := s.session n
      let again : Option Hand := match x.pend with
        | some p => if p.hello1 = (helloBytes h) then some p else none
        | none => none
      match again with
      | some p =>
        (s.setSession n { x with pend := some { p with sent := p.sent + flightPackets p.hello2 } }).emitFlight n 0 p.sent
          p.hello2
      | none =>
        let (d, s) := s.takeDraw
        let b2 := hello2Body (helloBytes h) (hello2Head n d h)
        let secret := match s.ticketOf h.ticket with
          | some t => if n = 0 then List.replicate 32 0 else t.secret
          | none => List.replicate 32 0
        let ikm := Config.x25519 h.x25519 d ++ Config.mlkem h.mlkem d ++ secret
        let p : Hand :=
          { hello1 := (helloBytes h), hello2 := b2, protect := h.protect, mss := h.mss, w := h.w, ticket := h.ticket
            keys := helloKeys (helloBytes h) b2 ikm, sent := flightPackets b2 }
        (s.setSession n { s.session n with pend := some p }).emitFlight n 0 0 b2

def execHello1 (h : Hello1) (s : State) : Host.Outcome State Fault Refusal := .next (s.hello1 h)

/-- The owner keys checked against the fuses (R413). -/
def Sec.ownerOk (x : Sec) : Bool :=
  x.fuses.ownerEd != [] && x.fuses.ownerMl != [] && Config.sha384 x.ownerKeyEd == x.fuses.ownerEd &&
    Config.sha384 x.ownerKeyMl == x.fuses.ownerMl

/-- Whether HELLO_3 proves the host (R334 to R336). -/
def State.hello3Ok (s : State) (n : Nat) (p : Hand) (finished edSig mlSig : List Byte) : Bool :=
  let m := Config.sha384 (p.hello1 ++ p.hello2.take 1160) ++ finished
  finished == Config.hmac p.keys.finished (Config.sha384 (p.hello1 ++ p.hello2) ++ [1]) &&
    (n != 0 || (s.sec.ownerOk && Config.edVerify s.sec.ownerKeyEd m edSig && Config.mlVerify s.sec.ownerKeyMl m mlSig))

/-- The body of HELLO_3 (R335). -/
def hello3Bytes (n : Nat) (finished edSig mlSig : List Byte) : List Byte :=
  [3, 0] ++ toBytes 2 n ++ toBytes 4 0 ++ finished ++ (if n = 0 then edSig ++ mlSig ++ toBytes 3 0 else [])

/-- A session as it opens: W credits in each direction (R331, R406). -/
def State.newSession (s : State) (p : Hand) : Session :=
  { st := .isOpen, part := match s.ticketOf p.ticket with | some t => t.part | none => 0
    ticket := p.ticket, protect := p.protect, mss := p.mss, w := p.w, keys := p.keys, txPn := p.sent + 1
    limit := p.w, rxLimit := p.w, rtoUs := s.rtoMin }

/-- The device-wide events held for session 0 sent (R355, R444). -/
def State.flushWide (s : State) : State :=
  if s.sessionOpen 0 then
    let es := s.heldWide
    es.foldl (fun s e => s.send 0 (.event e)) { s with heldWide := [] }
  else s

/-- The first session 0 whose owner signatures verify deploys a provisioned device (R419). -/
def State.deploy (s : State) : State :=
  if s.sec.fuses.lifecycle = 1 then { s with sec := { s.sec with fuses := { s.sec.fuses with lcDepl := true } } } else s

/-- HELLO_3: HELLO_4 opens the session, a previous one on the number having ended; or the refusal leaves no state. -/
def State.hello3 (s : State) (n : Nat) (finished edSig mlSig : List Byte) : State :=
  match (s.session n).pend with
  | none => s
  | some p =>
    let s := (s.setSession n { s.session n with pend := none }).takePayload (hello3Bytes n finished edSig mlSig).length
    if !s.hello3Ok n p finished edSig mlSig then s.emitRefusal n (p.sent % 2 ^ 32) St.authFail
    else
      let s := s.endSession n
      let h3 := hello3Bytes n finished edSig mlSig
      let fin := Config.hmac p.keys.finished (Config.sha384 (p.hello1 ++ p.hello2 ++ h3) ++ [2])
      let s := s.setSession n (s.newSession p)
      let s := if n = 0 then s.deploy else s
      (s.emitFlight n 1 p.sent ([4, 0] ++ toBytes 2 n ++ toBytes 4 0 ++ fin)).flushWide

def execHello3 (session : Nat) (finished edSig mlSig : List Byte) (s : State) : Host.Outcome State Fault Refusal :=
  onSession session s fun s => s.hello3 session finished edSig mlSig

/-- HELLO_TIMEOUT: an unfinished handshake is dropped (R334). -/
def execHelloTimeout (session : Nat) (s : State) : Host.Outcome State Fault Refusal :=
  onSession session s fun s => s.setSession session { s.session session with pend := none }

/-- KEY_UPDATE (R338). -/
def execKeyUpdate (session : Nat) (s : State) : Host.Outcome State Fault Refusal :=
  onSession session s fun s =>
    if s.sessionOpen session then s.setSession session (s.session session).update else s

/-- OLD_KEY_EXPIRY: three retransmission timeouts after an update the old keys go (R338). -/
def execOldKeyExpiry (session : Nat) (s : State) : Host.Outcome State Fault Refusal :=
  onSession session s fun s => s.setSession session { s.session session with oldKeys := none }

/-! ### Loop-back and configuration (R361, R362) -/

/-- Whether the port's loop-back is denied: the device holds a context and is neither in MANUFACTURE nor in RETURNED. -/
def State.ethLoopDenied (s : State) : Bool :=
  (s.ctxs.any fun e => decide (e.2.st ≠ .free)) && !(s.sec.fuses.lifecycle == 0 || s.sec.fuses.lifecycle == 3)

/-- A loop-back started by an image of ETH.LOOP_CTL. -/
def State.startEthLoop (s : State) (v : W64) : Except Status State :=
  if s.regFld .eth 0 0x10 4 1 = 1 then .error St.opState
  else if s.ethLoopDenied then .error St.bistDenied
  else if fld v 31 16 = 0 ∨ 60000 < fld v 31 16 then .error St.descriptorInvalid
  else .ok (((s.plainWrite .eth 0 0x10 v).setFld .eth 0 0x10 4 1 1).setFld .eth 0 0x10 5 2 0)

def execEthLoopbackStart (r : MReq) (s : State) : Host.Outcome State Fault Refusal :=
  manage loopRule r s fun s =>
    if r.num Key.interface = 0 then s.loopback r 0 (s.startEthLoop ((r.item? Key.loop).getD 0))
    else s.refuse r St.descriptorInvalid

/-- ETH_LOOPBACK_END with the errors of the run. -/
def State.endEthLoop (s : State) (errors : W32) : State :=
  if s.regFld .eth 0 0x10 4 1 = 0 then s
  else
    let s := (s.setFld .eth 0 0x10 4 1 0).setFld .eth 0 0x10 5 2 (1 + 2 * b2n (errors == 0))
    let s := s.setFld .eth 0 0x10 32 32 errors.toNat
    s.answerLoop 0 (s.reg .eth 0 0x10)

def execEthLoopbackEnd (errors : W32) (s : State) : Host.Outcome State Fault Refusal := .next (s.endEthLoop errors)

/-- Whether values of TAOSH.CC_CFG may stand (R362). -/
def ccCfgOk (v : W64) : Bool :=
  decide (50 ≤ fld v 6 0) && decide (fld v 6 0 ≤ 100) && decide (1 ≤ fld v 12 8) && decide (fld v 12 8 ≤ 16) &&
    fld v 31 16 != 0 && fld v 47 32 != 0 && fld v 63 48 != 0

def State.writeCcCfg (s : State) (v : W64) : State :=
  if ccCfgOk v then s.plainWrite .taosh 0 0 v else s.raiseFlag 0x09 .taosh 8 0 .audit 0x100 0 32

def execTaoshCcCfgWrite (path : RegPath) (v : W64) (s : State) : Host.Outcome State Fault Refusal :=
  regWriteBy path .taosh 0 s fun s => s.writeCcCfg v

end Sys2Proof.Machine
end

