-- ==== Sys2Proof/Machine/HostPort.lean ====
section
/-! DEFINITION. What the host does over Taosh: queues (R339), command descriptors (R340 to R342), result buffers
(R346 to R350), reads and writes of context memory (R349, R353), and host windows (R352 to R354). -/

namespace Sys2Proof.Machine

/-- Whether a data session may name what belongs to a partition (R358). -/
def State.sessionMay (s : State) (n p : Nat) : Bool := n != 0 && (s.session n).part == p

/-- What a message on an open session does; one on a session that is not open has no effect. -/
def onOpen (n : Nat) (s : State) (f : State → State) : Host.Outcome State Fault Refusal :=
  if 1024 ≤ n then .fault .noSuchUnit else if s.sessionOpen n then .next (f s) else .next s

/-! ### Queues (R339) -/

def State.queueCreate (s : State) (r : MReq) : State :=
  let c := r.num Key.context
  match mfree s.queues 4096 0 with
  | none => s.refuse r St.queueFull
  | some q =>
    let x : CmdQueue := { ctx := c, part := (s.ctx c).part, session := some r.session, depth := r.num Key.depth }
    { s with queues := mput s.queues q x }.reply r St.ok [(Key.queue, wn q)]

def execQueueCreate (r : MReq) (s : State) : Host.Outcome State Fault Refusal :=
  manage { all := true, keys := [(Key.context, true), (Key.depth, true)] } r s fun s => s.queueCreate r

/-- QUEUE_DESTROY requires an empty queue (R359). -/
def State.queueDestroy (s : State) (r : MReq) : State :=
  let q := r.num Key.queue
  let x := mget ({} : CmdQueue) s.queues q
  if x.takes.isEmpty && x.records.isEmpty then { s with queues := mdel s.queues q }.done r else s.refuse r St.opState

def execQueueDestroy (r : MReq) (s : State) : Host.Outcome State Fault Refusal :=
  manage { all := true, keys := [(Key.queue, true)] } r s fun s => s.queueDestroy r

/-- The held records of a queue and the held events of its context sent on the session it is now bound to (R339, R355). -/
def State.sendHeld (s : State) (q : Nat) : State :=
  let x := mget ({} : CmdQueue) s.queues q
  match x.session with
  | none => s
  | some n =>
    let s := { s with queues := mput s.queues q { x with records := [] } }
    let s := (x.records.foldl (fun s r => s.send n (.complete [r])) s).sweepQueue q
    match (if x.ctx = noContext then none else s.eventSession x.ctx) with
    | none => s
    | some m =>
      let y := s.ctx x.ctx
      let s := y.events.foldl (fun s e => s.send m (.event e)) (s.setCtx x.ctx { y with events := [], heldLongs := [] })
      y.heldLongs.foldl (fun s l => s.send m (.manage 0 l.1 l.2.1 [] l.2.2)) s

def State.queueBind (s : State) (r : MReq) : State :=
  let q := r.num Key.queue
  let n := r.num Key.session
  let x := mget ({} : CmdQueue) s.queues q
  if s.sessionOpen n && s.sessionMay n x.part then
    ({ s with queues := mput s.queues q { x with session := some n } }.sendHeld q).done r
  else s.refuse r St.descriptorInvalid

def execQueueBind (r : MReq) (s : State) : Host.Outcome State Fault Refusal :=
  manage { all := true, keys := [(Key.queue, true), (Key.session, true)] } r s fun s => s.queueBind r

/-! ### Command descriptors (R340 to R342) -/

/-- The fields of a command descriptor (R341). -/
structure CmdDesc where
  op      : Nat
  waitPrev : Bool
  win     : Bool
  fenceEn : Bool
  nd      : Nat
  forme   : Nat
  entry   : W64
  list    : W64
  window  : W64
  granule : Nat
  buf     : Nat
  gen     : Nat
  arg     : W64
  user    : W64
  rsvOk   : Bool
  deriving DecidableEq, Repr

def cmdDesc (w : List W64) : CmdDesc :=
  let d (i : Nat) : W64 := nth 0 w i
  { op := fld (d 0) 7 0, waitPrev := flag (d 0) 8, win := flag (d 0) 9, fenceEn := flag (d 0) 10, nd := fld (d 0) 16 12
    forme := fld (d 0) 41 32, entry := d 1, list := d 2, window := d 3, granule := fld (d 4) 31 0, buf := fld (d 4) 47 32
    gen := fld (d 5) 31 0, arg := d 6, user := d 7
    rsvOk := fld (d 0) 11 11 == 0 && fld (d 0) 31 17 == 0 && fld (d 0) 63 42 == 0 && fld (d 4) 63 48 == 0 &&
      fld (d 5) 63 32 == 0 }

/-- The fields that a MARKER does not use are zero (R341). -/
def CmdDesc.markerOk (d : CmdDesc) : Bool :=
  !d.win && d.nd == 0 && d.forme == 0 && d.entry == 0 && d.list == 0 && d.window == 0 && d.granule == 0 && d.arg == 0

/-- Whether a descriptor's fence may be accepted for a context (R341). -/
def State.fenceOk (s : State) (c : Nat) (d : CmdDesc) : Bool :=
  !d.fenceEn || match mfind? s.buffers d.buf with
    | some b => b.ctx == c && decide (b.accepted ≤ d.gen)
    | none => false

/-- What the device reads of a take at acceptance: its tensor descriptors and its window record; none where R341 refuses
the descriptor. -/
def State.readTake (s : State) (c : Nat) (d : CmdDesc) : Option (List Desc × Option (List W64)) :=
  if d.op = 2 then (if d.markerOk then some ([], none) else none)
  else if d.op ≠ 1 ∨ 16 < d.nd ∨ d.entry.toNat % 64 ≠ 0 ∨ d.list.toNat % 64 ≠ 0 then none
  else if !(mhas s.formes d.forme && (s.forme d.forme).ctx == c) then none
  else match s.ctxRead c d.list (64 * d.nd) with
    | none => none
    | some bs =>
      let ds := (List.range d.nd).map fun i => descOf (slice bs (64 * i) 64)
      if d.granule = 0 && ds.any fun x => !(tdOf x).role then none
      else if d.win then (s.ctxRead c d.window 64).map fun w => (ds, some (toWords 8 w))
      else some (ds, none)

/-- The refusal of a descriptor (R340), or what was read for it. -/
def State.checkDesc (s : State) (n q : Nat) (w : List W64) : Except Status (List Desc × Option (List W64)) :=
  let d := cmdDesc w
  let x := mget ({} : CmdQueue) s.queues q
  if !(mhas s.queues q && s.sessionMay n x.part) then .error St.descriptorInvalid
  else if x.depth ≤ x.takes.length then .error St.queueFull
  else if !d.rsvOk || w.length != 8 || decide ((s.ctx x.ctx).st ≠ .active) || !s.fenceOk x.ctx d then
    .error St.descriptorInvalid
  else match s.readTake x.ctx d with
    | none => .error St.descriptorInvalid
    | some a => .ok a

/-- A take accepted: its place, its generation; a sliding-window take with a bad window completes at once (R132). -/
def State.acceptTake (s : State) (q : Nat) (w : List W64) (ds : List Desc) (win : Option (List W64)) : State :=
  let d := cmdDesc w
  let x := mget ({} : CmdQueue) s.queues q
  let k := s.nextTake
  let t : Take :=
    { queue := q, seq := x.next, ctx := x.ctx, marker := d.op == 2, waitPrev := d.waitPrev, forme := d.forme
      entry := d.entry, descs := ds, window := win, granule := d.granule
      fence := if d.fenceEn then some (d.buf, d.gen) else none, arg := d.arg, user := d.user, order := k }
  let b := mget ({} : Buffer) s.buffers d.buf
  let s := { s with
    nextTake := k + 1
    takes := mput s.takes k t
    queues := mput s.queues q { x with takes := x.takes ++ [k], next := (x.next + 1) % 2 ^ 32 }
    buffers := if d.fenceEn then mput s.buffers d.buf { b with accepted := d.gen + 1 } else s.buffers }
  match win with
  | some wr => if windowOk wr ds then s else s.endTake k St.formeSplitInvalid
  | none => s

/-- The record of a refused descriptor (R340, R344): on the queue's session, or on the one that sent a SUBMIT for a queue
that is not its own. -/
def State.refuseDesc (s : State) (n q : Nat) (w : List W64) (st : Status) : State :=
  let (cyc, s) := s.freshWord
  let x := mget ({} : CmdQueue) s.queues q
  let r : Completion :=
    { status := st, ctx := x.ctx, queue := q, device := 0, user := nth 0 w 7, seq := 0xFFFFFFFF, endCycle := cyc }
  if mhas s.queues q && s.sessionMay n x.part then s.postRecord q r else s.send n (.complete [r])

/-- The descriptors of a SUBMIT in order; the first refusal ends the message (R340). -/
def State.submitAll (s : State) (n q : Nat) : List (List W64) → State
  | [] => s
  | w :: ws => match s.checkDesc n q w with
    | .ok (ds, win) => (s.acceptTake q w ds win).submitAll n q ws
    | .error st => (w :: ws).foldl (fun s w => s.refuseDesc n q w st) s

/-- A SUBMIT message: a head whose zero bytes are not zero refuses every descriptor. -/
def State.submit (s : State) (n q : Nat) (headZero : Bool) (descs : List (List W64)) : State :=
  if headZero then s.submitAll n q descs
  else descs.foldl (fun s w => s.refuseDesc n q w St.descriptorInvalid) s

def execSubmit (session queue : Nat) (headZero : Bool) (descs : List (List W64)) (s : State) :
    Host.Outcome State Fault Refusal :=
  onOpen session s fun s => s.submit session queue headZero descs

/-! ### Result buffers (R346 to R350) -/

/-- Whether a range maps plain local memory with RD and WR, none of it placed (R346). -/
def State.plainRange (s : State) (c va n : Nat) : Bool :=
  (List.range ((va + n - 1) / 0x10000 - va / 0x10000 + 1)).all fun i =>
    match s.pageAt c ((va / 0x10000 + i) * 0x10000) with
    | some (p, _) => p.rd && p.wr && (match p.tgt with | .frame _ => true | _ => false)
    | none => false

def State.bufRegister (s : State) (r : MReq) : State :=
  let c := r.num Key.context
  let va := r.num Key.vaddr
  let n := r.num Key.length
  let wake := wn (r.num Key.wake)
  let ok := va % 64 == 0 && decide (va < 2 ^ 48) && decide (64 ≤ n) && decide (n ≤ 0x4000000) && n % 64 == 0 &&
    !mhas s.buffers (r.num Key.buf) && s.plainRange c va n &&
    (wake == 0 || (wake.toNat % 8 == 0 && (s.wordAt none c wake).isSome))
  if !ok then s.refuse r St.descriptorInvalid
  else
    let b : Buffer := { ctx := c, base := va, len := n, wake := wake }
    { s with buffers := mput s.buffers (r.num Key.buf) b }.done r

def execBufRegister (r : MReq) (s : State) : Host.Outcome State Fault Refusal :=
  manage { all := true, keys := [(Key.buf, true), (Key.context, true), (Key.vaddr, true), (Key.length, true),
    (Key.wake, false)] } r s fun s => s.bufRegister r

/-- Whether a session's request may name a buffer. -/
def State.bufferMay (s : State) (n b : Nat) : Bool :=
  match mfind? s.buffers b with
  | some x => s.sessionMay n (s.ctx x.ctx).part
  | none => false

def State.bufUnregister (s : State) (r : MReq) : State :=
  let b := r.num Key.buf
  match mfind? s.buffers b with
  | none => s.refuse r St.descriptorInvalid
  | some x =>
    if r.session != 0 && !s.bufferMay r.session b then s.refuse r St.descriptorInvalid
    else if x.sealed then s.refuse r St.opState
    else { s with buffers := mdel s.buffers b }.done r

def execBufUnregister (r : MReq) (s : State) : Host.Outcome State Fault Refusal :=
  manage { all := true, keys := [(Key.buf, true)] } r s fun s => s.bufUnregister r

/-- Bytes of a context's memory as they stand, read from outside any cabinet (R237, R349); none where a page is absent,
remote, in a host window, not readable or holds an uncorrectable sector. -/
def State.hostRead (s : State) (c : Nat) (va : W64) (n : Nat) : Option (List Byte) :=
  (allSome ((List.range n).map fun i => match s.resolve c .rd (va + wn i) with
    | .ok l => match l.key? with
      | some k => if s.isBad k 1 then none else some k
      | none => none
    | .error _ => none)).map fun ks => ks.map s.homeByte

/-- A READ response (R349). -/
def State.readResp (s : State) (n : Nat) (id : W32) (st : Status) (gen : Nat) (bs : List Byte) : State :=
  s.send n (.readResp id st gen bs)

/-- READ_BUF, evaluated once (R349). -/
def State.readBuf (s : State) (n : Nat) (id : W32) (b genReq off len : Nat) : State :=
  let x := mget ({} : Buffer) s.buffers b
  if !s.bufferMay n b || len == 0 || decide (0x1000000 < len) || decide (x.len < off + len) then
    s.readResp n id St.descriptorInvalid 0 []
  else if x.gen < genReq then s.readResp n id St.notReady x.gen []
  else if !x.sealed then s.readResp n id St.bufferReleased x.gen []
  else match s.hostRead x.ctx (wn (x.base + off)) len with
    | some bs => s.readResp n id St.ok x.gen bs
    | none => s.readResp n id St.descriptorInvalid x.gen []

def execReadBuf (session : Nat) (reqId : W32) (buf genReq offset length : Nat) (s : State) :
    Host.Outcome State Fault Refusal :=
  onOpen session s fun s => s.readBuf session reqId buf genReq offset length

/-- A READ_MEM or WRITE_MEM taken up: behind those of its session that wait (R351). -/
def State.hostAccess (s : State) (a : HostAcc) : State := { s with hostq := s.hostq ++ [a] }.settle

/-- READ_MEM (R349). -/
def State.readMem (s : State) (n : Nat) (id : W32) (c va len : Nat) : State :=
  if decide (4096 ≤ c) || decide ((s.ctx c).st ≠ .active) || !s.sessionMay n (s.ctx c).part || len == 0 ||
      decide (0x1000000 < len) || decide (2 ^ 64 ≤ va) then s.readResp n id St.descriptorInvalid 0 []
  else s.hostAccess { session := n, reqId := id, ctx := c, va := wn va, len := len }

def execReadMem (session : Nat) (reqId : W32) (ctx vaddr length : Nat) (s : State) : Host.Outcome State Fault Refusal :=
  onOpen session s fun s => s.readMem session reqId ctx vaddr length

/-- The WAKE word of a buffer raised by 1 with a memory-side add (R350). -/
def State.wakeWord (s : State) (b : Buffer) : State :=
  if b.wake = 0 then s
  else match s.resolve b.ctx .wr b.wake with
    | .ok l => match l.key? with
      | some k => s.add64 k 1
      | none => s
    | .error _ => s

/-- RELEASE (R350): the buffer is unsealed, its WAKE word rises, stalled writes go on. -/
def State.releaseBuf (s : State) (n : Nat) (id : W32) (b gen : Nat) : State :=
  let x := mget ({} : Buffer) s.buffers b
  if !s.bufferMay n b then s.readResp n id St.descriptorInvalid 0 []
  else if !x.sealed then s.readResp n id St.bufferReleased x.gen []
  else if x.gen ≠ gen then s.readResp n id St.opState x.gen []
  else
    let s := { s with buffers := mput s.buffers b { x with sealed := false } }
    ((s.wakeWord x).settle).readResp n id St.ok x.gen []

def execRelease (session : Nat) (reqId : W32) (buf gen : Nat) (s : State) : Host.Outcome State Fault Refusal :=
  onOpen session s fun s => s.releaseBuf session reqId buf gen

/-! ### WRITE_MEM (R353) -/

/-- WRITE_MEM: acknowledged once visible; a failed check writes nothing (R353). -/
def State.writeMem (s : State) (n : Nat) (id : W32) (c addr : Nat) (data : List Byte) : State :=
  let len := data.length
  if decide (4096 ≤ c) || decide ((s.ctx c).st ≠ .active) || !s.sessionMay n (s.ctx c).part || len == 0 ||
      decide (0x1000000 < len) || decide (2 ^ 64 ≤ addr) then s.send n (.writeAck id St.descriptorInvalid)
  else s.hostAccess { session := n, reqId := id, ctx := c, va := wn addr, len := len, data := some data }

def execWriteMem (session : Nat) (reqId : W32) (ctx addr : Nat) (data : List Byte) (s : State) :
    Host.Outcome State Fault Refusal :=
  onOpen session s fun s => s.writeMem session reqId ctx addr data

/-! ### Host windows (R352 to R354) -/

def State.hostwinMap (s : State) (r : MReq) : State :=
  let c := r.num Key.context
  let va := r.num Key.vaddr
  let n := r.num Key.length
  let conf := (s.part (s.ctx c).part).conf
  let k := va / 0x200000
  if va % 0x200000 ≠ 0 || n == 0 || n % 0x200000 != 0 || decide (serviceBase < va + n) ||
      (span k (n / 0x200000)).any ((s.ctx c).touched true) then s.refuse r St.descriptorInvalid
  else if conf && r.session == 0 then s.refuse r St.confidentialRequired
  else match mfree s.hostwins (2 ^ 32) 0 with
    | none => s.refuse r St.queueFull
    | some w =>
      let h : HostWin := { ctx := c, va := va, len := n, addr := r.num Key.hostAddr, session := r.session, bounce := conf }
      let x := (List.range (n / 0x200000)).foldl (fun (x : Ctx) i =>
        x.putEntry true (k + i) { rd := true, wr := true, tgt := .host w (i * 0x200000) }) (s.ctx c)
      { s.setCtx c x with hostwins := mput s.hostwins w h }.done r

def execHostwinMap (r : MReq) (s : State) : Host.Outcome State Fault Refusal :=
  manage { all := true, keys := [(Key.context, true), (Key.vaddr, true), (Key.length, true), (Key.hostAddr, true)] } r s
    fun s => s.hostwinMap r

/-- The host request that an answer of a session names, of a kind: 3 a PULL, 4 a write. -/
def State.hostRequest (s : State) (n : Nat) (id : W32) (kind : Nat) : Option Request :=
  match s.request? id.toNat with
  | some r => if r.kind = kind && r.session == some n && r.failed.isNone then some r else none
  | none => none

/-- WRITE_ACK: the write to a host window completes, or fails with a nonzero status [log 39]. -/
def State.writeAckIn (s : State) (n : Nat) (id : W32) (st : Status) : State :=
  match s.hostRequest n id 4 with
  | none => s
  | some r => if st = 0 then s.endWrite id.toNat r else s.endFail id.toNat r St.pullFailed

def execWriteAck (session : Nat) (reqId : W32) (status : Status) (s : State) : Host.Outcome State Fault Refusal :=
  onOpen session s fun s => s.writeAckIn session reqId status

/-- Bytes put in their place in a string. -/
def overlay (bs : List Byte) (at_ : Nat) (new : List Byte) : List Byte :=
  bs.take at_ ++ new.take (bs.length - at_) ++ bs.drop (at_ + new.length)

/-- Plain blocks of a window from byte `base` on with every write to it that is outstanding in its place, oldest first: such a
write may share a block with one whose blocks have not been sealed yet [log 108]. -/
def State.withWrites (s : State) (w base : Nat) (bs : List Byte) : List Byte :=
  s.requests.foldl (fun bs e => match e.2.bounce, e.2.merge with
    | some (v, off), some d =>
      if v ≠ w ∨ base + bs.length ≤ off then bs
      else if base ≤ off then overlay bs (off - base) d else overlay bs 0 (d.drop (base - off))
    | _, _ => bs) bs

/-- The records that a PULL of a bounce window brought: unsealed, they end a read, and let a write go on with the blocks that
it leaves in part; a block that fails its tag ends the access (R357). -/
def State.bounceIn (s : State) (id : W32) (r : Request) (w off : Nat) (data : List Byte) : State :=
  let h := mget ({} : HostWin) s.hostwins w
  let (b, n) := blockSpan off r.len
  if data.length ≠ recordSize * n then s.endFail id.toNat r St.pullFailed
  else match openBlocks (s.session h.session).keys h.session b n data, r.merge with
    | none, _ => s.endFail id.toNat r St.pullFailed
    | some bs, none => s.endRead id.toNat r (slice bs (off % blockSize) r.len)
    | some bs, some _ =>
      ({ s with requests := mput s.requests id.toNat { r with kind := 4 } }).sendBlocks id h b n
        (s.withWrites w (blockSize * b) bs)

/-- PULL_RESP (R354): data of the right length lands; anything else ends the access with PULL_FAILED. -/
def State.pullRespIn (s : State) (n : Nat) (id : W32) (st : Status) (data : List Byte) : State :=
  match s.hostRequest n id 3 with
  | none => s
  | some r =>
    if st ≠ 0 then s.endFail id.toNat r St.pullFailed
    else match r.bounce with
      | some (w, off) => s.bounceIn id r w off data
      | none => if data.length = r.len then s.endRead id.toNat r data else s.endFail id.toNat r St.pullFailed

def execPullResp (session : Nat) (reqId : W32) (status : Status) (data : List Byte) (s : State) :
    Host.Outcome State Fault Refusal :=
  onOpen session s fun s => s.pullRespIn session reqId status data

end Sys2Proof.Machine
end

