-- ==== Sys2Proof/Machine/Scrub.lean ====
section
/-! DEFINITION. The partition layout and what clears a partition (R38, R39, R296, R406, R430 to R433), and self-test
(R451 to R454). -/

namespace Sys2Proof.Machine

/-! ### The layout that is or will be -/

/-- The layout that a partition reset under way brings a partition. -/
def State.pendingConf (s : State) (p : Nat) : Option Part :=
  s.longops.findSome? fun e => if e.2.st = .done then none else match e.2.kind with
    | .scrub q next _ => if q = p then next else none
    | _ => none

/-- The configuration that a partition has, or will have once its reset completes. -/
def State.confOf (s : State) (p : Nat) : Part := (s.pendingConf p).getD (s.part p)

/-- Whether a configuration is that of a partition that exists. -/
def Part.present (x : Part) : Bool := x.chases != 0 || x.groups != 0

/-- Chases and groups that the other partitions have or will have. -/
def State.otherChases (s : State) (p : Nat) : BitVec 16 :=
  ((upTo 8).filter (· != p)).foldl (fun w q => w ||| (s.confOf q).chases) 0
def State.otherGroups (s : State) (p : Nat) : BitVec 32 :=
  ((upTo 8).filter (· != p)).foldl (fun w q => w ||| (s.confOf q).groups) 0

/-- Chases in service (R470). -/
def State.unfencedMask (s : State) : BitVec 16 := BitVec.ofNat 16 (s.regFld .mgmt 0 0x10 16 16)

/-- Whether a configuration is the whole-device partition (R38). -/
def State.isWhole (s : State) (x : Part) : Bool := x.chases == s.unfencedMask && x.groups == BitVec.allOnes 32

/-! ### A partition emptied of what runs in it -/

/-- The data sessions of a partition end, with the handshakes for one (R430, R431 step 1). -/
def State.closeSessions (s : State) (p : Nat) : State :=
  let s := s.sessions.foldl (fun s e =>
    if e.1 != 0 && decide (e.2.st = .isOpen) && e.2.part == p then s.endSession e.1 else s) s
  let ofPart (x : Session) : Bool := match x.pend with
    | some h => match s.ticketOf h.ticket with | some t => t.part == p | none => false
    | none => false
  { s with sessions := mmap (fun n x => if n != 0 && ofPart x then { x with pend := none } else x) s.sessions }

/-- Model loads of a partition end as cancelled ones (R318). -/
def State.endLoads (s : State) (p : Nat) : State :=
  s.longops.foldl (fun s e => if e.2.st = .done then s else match e.2.kind with
    | .modelLoad i _ => if (mget ({} : Image) s.images i).part = p then s.dropLoad e.1 i St.cancelled else s
    | _ => s) s

/-- Step 1 of R431. -/
def State.beginScrub (s : State) (p : Nat) : State :=
  let s := s.setPart p { s.part p with st := 2 }
  let s := (s.closeSessions p).endLoads p
  s.ctxs.foldl (fun s e =>
    if e.2.part = p && decide (e.2.st = .active) then s.teardown e.1 St.contextTornDown else s) s

/-- A chase's SRAM zeroized: presses with their slots, compositors, synchronisation, cabinet without write-back
(R239, R431 step 3). -/
def State.zeroChase (s : State) (c : Nat) : State :=
  let s := (span (8 * c) 8).foldl (fun s n => (s.zeroPress n).setPress n {}) s
  let s := (span (4 * c) 4).foldl (fun s n => s.setComp n {}) s
  s.setChase c {}

/-- Steps 2 and 3 of R431, once: new keys, then the chases' own memory. Chases that another partition has or will have
are its own scrub's. -/
def State.keyScrub (s : State) (h : Nat) : State :=
  let o := s.longop h
  match o.kind with
  | .scrub p next false =>
    let x := s.part p
    let cs := (x.chases ||| (next.getD x).chases) &&& ~~~ s.otherChases p
    let s := s.setPart p { x with keyEpoch := x.keyEpoch + 1 }
    let s := ((upTo 16).filter fun c => cs.getLsbD c).foldl (fun s c => s.zeroChase c) s
    s.setLongop h { o with kind := .scrub p next true }
  | _ => s

/-! ### Steps 4 to 6 of R431 -/

/-- The memory that a scrub of a partition writes with zeros: the windows of the groups in `gs`, the whole range in the
whole-device layout, and the partition's frames. -/
def State.scrubRanges (s : State) (p : Nat) (gs : BitVec 32) : List (Nat × Nat) :=
  (if s.wholeLayout then [(0, usableHbm)]
   else ((upTo 32).filter fun g => gs.getLsbD g).map fun g => (g * s.windowSize, s.windowSize)) ++
    (s.frames.filter fun e => e.2.2 == p).map fun e => (e.1, e.2.1)

/-- A range written with zeros under fresh check bits and tags. -/
def State.zeroFill (s : State) (a n : Nat) : State :=
  ({ s with mem := wipe s.mem a n }).clearBad a n

/-- The scopes of the counts of a partition (R399, R407): codes 0x07 to 0x0B. -/
def voidOf (p : Nat) (v : Nat × Nat) : Bool :=
  (v.1 == 0x07 && v.2 / 16 == p) || (decide (0x08 ≤ v.1) && decide (v.1 ≤ 0x0B) && v.2 == p)

/-- The firmware's entries of a partition cleared (step 5). -/
def State.clearTables (s : State) (p : Nat) : State :=
  { s with
    frames := s.frames.filter fun e => e.2.2 != p
    poolFrames := s.poolFrames.filter fun e => e.2 != p
    kstreams := s.kstreams.filter fun e => e.2.part != p
    folios := s.folios.filter fun e => e.2.part != p
    galley := s.galley.filter fun e => e.2.part != p
    gsets := s.gsets.filter fun e => e.2.part != p
    gslots := s.gslots.filter fun e => e.2.part != p
    placed := s.placed.filter fun e => e.2.part != p
    images := s.images.filter fun e => e.2.part != p
    queues := s.queues.filter fun e => e.2.part != p
    takes := s.takes.filter fun e => (mget ({} : CmdQueue) s.queues e.2.queue).part != p
    updTable := s.updTable.filter fun e => (s.ctx e.2.owner).part != p
    voids := s.voids.filter fun v => !voidOf p v }

/-- The owners of groups written: `p` for its own, none for those that it leaves and nobody has. -/
def State.ownGroups (s : State) (p : Nat) (old new : BitVec 32) : State :=
  let other := s.otherGroups p
  (upTo 32).foldl (fun s g =>
    let put (v : Nat) : State := s.setFld .hbm 0 (8 + 8 * (g / 16)) (4 * (g % 16)) 4 v
    if new.getLsbD g then put p
    else if old.getLsbD g && !other.getLsbD g then put 0xF
    else s) s

/-- The registers of a partition after a scrub: of a reset the new configuration with its share, otherwise the old one
with every unit free (R406, R473). `st` is the state it comes to. -/
def State.loadPart (s : State) (p : Nat) (next : Option Part) (st : Nat) : State :=
  let x := s.part p
  match next with
  | some n =>
    let s := (s.ownGroups p x.groups n.groups).setFld .hbm 0 (regOff p) 8 7 n.share
    s.setPart p { n with st := if n.present then st else 0, keyEpoch := x.keyEpoch, free := n.total }
  | none => s.setPart p { x with st := if x.present then st else 0, free := x.total, tsets := [], jobs := [] }

/-- Whether contexts of a partition still tear down. -/
def State.draining (s : State) (p : Nat) : Bool := s.liveCtxs p != 0

/-- SEC.LIFECYCLE after a transition whose scrubs have ended (R419, R420): one bit of LC_RETURNS, or LC_DECOM, after
which nothing answers. -/
def State.blow (s : State) (typ : Nat) : State :=
  let f := s.sec.fuses
  let f := if typ = 4 then { f with lcDecom := true } else { f with returns := f.returns + 1 }
  let s := { s with sec := { s.sec with fuses := f, transition := none } }
  let s := s.setFld .mgmt 0 0x10 32 8 f.lifecycle
  if typ = 4 then (upTo 1024).foldl (fun s n => (s.endSession n).setSession n {}) s else s

/-- One scrub of a transition has ended (R419). -/
def State.stepTransition (s : State) (h : Nat) : State :=
  match s.sec.transition with
  | some (typ, hs) =>
    if hs.contains h then
      let rest := hs.filter (· != h)
      if rest.isEmpty then s.blow typ else { s with sec := { s.sec with transition := some (typ, rest) } }
    else s
  | none => s

/-- The end of a scrub: zero-fill, cleared tables, the partition ACTIVE, the final record (R431). -/
def State.endScrub (s : State) (h : Nat) : State :=
  match (s.longop h).kind with
  | .scrub p next _ =>
    if s.draining p then s
    else
      let s := s.keyScrub h
      let gs := ((s.part p).groups ||| (next.getD (s.part p)).groups) &&& ~~~ s.otherGroups p
      let s := (s.scrubRanges p gs).foldl (fun s r => s.zeroFill r.1 r.2) s
      let s := (s.clearTables p).loadPart p next 1
      (s.endLong h St.ok []).stepTransition h
  | _ => s

/-- A scrub cancelled: the partition is QUARANTINED and SCRUB_CANCELLED is reported (R433). -/
def State.cancelScrub (s : State) (h : Nat) : State :=
  match (s.longop h).kind with
  | .scrub p next _ =>
    if s.draining p then s
    else
      let s := (s.keyScrub h).loadPart p next 3
      let s := s.setPart p { s.part p with st := 3 }
      let s := s.wideEvent St.scrubCancelled (wn p) 1
      let s := match s.sec.transition with
        | some (_, hs) => if hs.contains h then { s with sec := { s.sec with transition := none } } else s
        | none => s
      s.endLong h St.cancelled []
  | _ => s

/-! ### SCRUB (R430) -/

/-- Whether a self-test of a partition runs. -/
def State.bistOn (s : State) (p : Nat) : Bool :=
  s.longops.any fun e => decide (e.2.st ≠ .done) && match e.2.kind with
    | .bist b => b.parts.contains p
    | _ => false

def State.scrub (s : State) (r : MReq) : State :=
  let p := r.num Key.part
  if (s.part p).st = 0 then s.refuse r St.descriptorInvalid
  else if (s.part p).st = 2 || s.bistOn p then s.refuse r St.opState
  else s.startLong r (.scrub p none false) none fun _ s => (s.beginScrub p).settle

def execScrub (r : MReq) (s : State) : Host.Outcome State Fault Refusal :=
  manage { keys := [(Key.part, true)] } r s fun s => s.scrub r

/-! ### PARTITION_RESET (R39, R476) -/

/-- The keys of one partition's items. -/
def resetKeys : List (Nat × Bool) :=
  [(Key.chases, true), (Key.groups, true), (Key.share, true), (Key.sessions, true), (Key.ctxQuota, true),
    (Key.conf, false), (Key.spread, false), (Key.swapArea, false), (Key.proofPages, false), (Key.frames, false),
    (Key.heap, false)] ++ (span Key.folioPool 10).map (fun k => (k, false)) ++
    (span Key.galleyPool 8).map fun k => (k, false)

/-- The items of a request cut at its PART items: what stands before the first, and each partition with its items. -/
def resetGroups : List (Nat × W64) → List (Nat × W64) × List (Nat × List (Nat × W64))
  | [] => ([], [])
  | e :: es =>
    let (pre, gs) := resetGroups es
    if e.1 = Key.part then ([], (e.2.toNat, pre) :: gs) else (e :: pre, gs)

/-- Whether the items of one partition obey R475. -/
def resetItemsOk (g : Nat × List (Nat × W64)) : Bool :=
  decide (g.1 < 8) && g.2.all (fun e => itemOk e && resetKeys.any fun k => k.1 == e.1) &&
    resetKeys.all (fun k => !k.2 || g.2.any fun e => e.1 == k.1) && noRepeat g.2

/-- Place of a pool's key in the POOL group, divided by 8 (R473). -/
def poolOf (k : Nat) : Nat := if k < Key.galleyPool then k - Key.folioPool else k - Key.galleyPool + 10

/-- The configuration that one partition's items describe (R473, R476); CHASES and GROUPS of zero leave it ABSENT. -/
def State.resetConf (s : State) (es : List (Nat × W64)) : Part :=
  let n (k : Nat) : Nat := match es.find? fun e => e.1 == k with | some e => e.2.toNat | none => 0
  let pools := es.foldl (fun m e =>
    if Key.folioPool ≤ e.1 ∧ e.1 ≤ Key.heap then mset 0 m (poolOf e.1) e.2.toNat else m) ([] : Map Nat)
  let x : Part :=
    { st := 2, chases := BitVec.ofNat 16 (n Key.chases), groups := BitVec.ofNat 32 (n Key.groups)
      conf := n Key.conf == 1, share := n Key.share, quota := n Key.ctxQuota
      sessFirst := n Key.sessions % 1024, sessLast := n Key.sessions / 0x10000
      total := pools, free := pools }
  if x.present then { x with whole := s.isWhole x } else {}

/-- Whether two partitions share a chase, a group or a session number. -/
def Part.overlap (x y : Part) : Bool :=
  x.present && y.present &&
    (x.chases &&& y.chases != 0 || x.groups &&& y.groups != 0 ||
      (decide (x.sessFirst ≤ y.sessLast) && decide (y.sessFirst ≤ x.sessLast)))

/-- Whether a configuration may stand by itself: chases in service, groups, a session range. -/
def State.confOk (s : State) (x : Part) : Bool :=
  !x.present || (x.chases != 0 && x.groups != 0 && x.chases &&& ~~~ s.unfencedMask == 0 &&
    decide (1 ≤ x.sessFirst) && decide (x.sessFirst ≤ x.sessLast))

/-- Whether the eight configurations agree with each other: nothing shared, shares and quotas within the device's. -/
def confsAgree (fs : List Part) (shares : List Nat) : Bool :=
  (upTo 8).all (fun i => (upTo 8).all fun j => i == j || !(nth {} fs i).overlap (nth {} fs j)) &&
    decide (sumL shares ≤ 64) && decide (sumL (fs.map fun x => if x.present then x.quota else 0) ≤ 4096)

/-- The maps computed anew at a reset of the partitions in `ps` (R296): the windows of the groups they have or get, and
the spread region once no context maps a frame of it. -/
def State.remap (s : State) (groups : BitVec 32) : State :=
  let dead : List Nat := (upTo 512).filter fun pc => s.pcState pc == 2
  let mine (pc : Nat) : Bool := groups.getLsbD (pc / 16)
  let window : List Nat := s.mapsOut.window.filter (fun pc => !mine pc) ++ dead.filter mine
  let spread : List Nat :=
    if s.frames.any fun e => decide (s.spreadBase ≤ e.1) then s.mapsOut.spread else dead
  { s with mapsOut := { s.mapsOut with window := window, spread := spread } }

/-- HBM.LAYOUT of the eight configurations and a spread size (R274). -/
def State.setLayout (s : State) (fs : List Part) (spread : Nat) : State :=
  (s.setFld .hbm 0 0 0 1 (b2n (fs.any fun x => x.whole))).setFld .hbm 0 0 8 8 spread

/-- The state with the layout that a reset brings, for the sizes of its memory. -/
def State.withConfs (s : State) (fs : List Part) (ps : List Nat) (spread : Nat) : State :=
  let gs := ps.foldl (fun w p => w ||| (s.part p).groups ||| (nth {} fs p).groups) (0 : BitVec 32)
  let s := (s.setLayout fs spread).remap gs
  (upTo 8).foldl (fun s p => s.setPart p { s.part p with groups := (nth {} fs p).groups }) s

/-- Why a reset is refused. `gs` are its partitions, `fs` the eight configurations after it. -/
def State.resetRefusal (s : State) (gs : List (Nat × List (Nat × W64))) (fs : List Part) (spread : Nat) :
    Option Status :=
  let ps : List Nat := gs.map fun g => g.1
  let shares : List Nat := (upTo 8).map fun p =>
    if ps.contains p then (nth {} fs p).share else s.regFld .hbm 0 (regOff p) 8 7
  let kept (p : Nat) : Bool := !ps.contains p && (nth {} fs p).present
  let new := s.withConfs fs ps spread
  if !fs.all s.confOk || !confsAgree fs shares then some St.descriptorInvalid
  else if ps.any fun p => (s.part p).st == 2 || s.liveCtxs p != 0 || s.bistOn p then some St.opState
  else if spread != s.regFld .hbm 0 0 8 8 && (upTo 8).any kept then some St.opState
  else if ps.any fun p => decide (new.partBytes p < poolBytes (nth {} fs p).total) then some St.descriptorInvalid
  else if 256 < s.liveLongs + ps.length then some St.queueFull
  else none

/-- One partition of a reset accepted: SCRUBBING, its sessions closed, its scrub started and answered (R360). A partition
that comes to be gets its first key set (R428). -/
def State.resetPart (s : State) (r : MReq) (p : Nat) (next : Part) : State :=
  let x := s.part p
  if !x.present && !next.present then s
  else s.startLong r (.scrub p (some next) false) none fun _ s =>
    let s := if x.present then s else s.setPart p { x with keyEpoch := x.keyEpoch + 1 }
    s.beginScrub p

/-- The layout of a reset kept in module flash, from which step 14 of R435 loads it. -/
def State.storeLayout (s : State) (ps : List Nat) (fs : List Part) (spread : Nat) : State :=
  { s with flash := { s.flash with
      spread := spread
      parts := ps.foldl (fun m p => mset {} m p (nth {} fs p)) s.flash.parts } }

def State.partitionReset (s : State) (r : MReq) : State :=
  let (pre, gs) := resetGroups r.items
  let ps : List Nat := gs.map fun g => g.1
  let spreads := r.items.filter fun e => e.1 == Key.spread
  let spread := match spreads with | e :: _ => e.2.toNat | [] => s.regFld .hbm 0 0 8 8
  if !pre.isEmpty || gs.isEmpty || !gs.all resetItemsOk || (dedup ps).length != ps.length ||
      decide (1 < spreads.length) then s.refuse r St.descriptorInvalid
  else
    let fs : List Part := (upTo 8).map fun p => match gs.find? fun g => g.1 == p with
      | some g => s.resetConf g.2
      | none => s.confOf p
    match s.resetRefusal gs fs spread with
    | some st => s.refuse r st
    | none =>
      let all := ps.foldl (fun w p => w ||| (s.part p).groups ||| (nth {} fs p).groups) (0 : BitVec 32)
      let idle := ps.all fun p => !(s.part p).present && !(nth {} fs p).present
      let s := ((s.setLayout fs spread).remap all).storeLayout ps fs spread
      let s := ps.foldl (fun s p => s.resetPart r p (nth {} fs p)) s
      (if idle then s.done r else s).settle

def execPartitionReset (r : MReq) (s : State) : Host.Outcome State Fault Refusal :=
  manage { plain := false } r s fun s => s.partitionReset r

/-! ### Self-test (R451 to R454) -/

/-- Chases that a BIST names: those of a partition, or those of its bitmap. -/
def State.bistChases (s : State) (r : MReq) : List Nat :=
  let m : Nat := if r.has Key.part then (s.part (r.num Key.part)).chases.toNat else r.num Key.chases
  (upTo 16).filter m.testBit
/-- Partitions with memory under a test. -/
def State.bistParts (s : State) (r : MReq) : List Nat :=
  if r.has Key.part then [r.num Key.part]
  else (upTo 8).filter fun p => (s.part p).st != 0 &&
    ((s.bistChases r).any (fun c => (s.part p).chases.getLsbD c) ||
      (upTo 512).any fun pc => (r.num Key.stackMask).testBit (pc / 64) && (s.partsOn pc).contains p)

/-- HBM stacks under a test: those of its bitmap, or those of a partition's groups. -/
def State.bistStacks (s : State) (r : MReq) : List Nat :=
  (upTo 8).filter fun k =>
    if r.has Key.part then (span (4 * k) 4).any fun g => (s.part (r.num Key.part)).groups.getLsbD g
    else (r.num Key.stackMask).testBit k

/-- The self-tests that have not ended. -/
def State.bistRuns (s : State) : List BistRun :=
  s.longops.filterMap fun e => match e.2.kind with
    | .bist b => if e.2.st = .done then none else some b
    | _ => none

/-- Whether a further unit that draws `watts` may be tested (R453): the first always, any other while the power that the
module measures leaves room below the power cap. No command brings that power, so it is a free value [log 93]. -/
def State.bistPower (s : State) (watts : Nat) : Bool × State :=
  if s.bistRuns.all fun b => b.onChases.isEmpty && b.onStacks.isEmpty then (true, s)
  else
    let (w, s) := s.freshWord
    (decide (w.toNat % 65536 + watts < s.regFld .pwr 0 0 0 12), s)

def State.setBist (s : State) (h : Nat) (b : BistRun) : State := s.setLongop h { s.longop h with kind := .bist b }

/-- Chases of a self-test started, at most four over the device (R453). -/
def startChaseTests (h : Nat) : Nat → State → State
  | 0, s => s
  | fuel + 1, s => match (s.longop h).kind with
    | .bist b => match b.chases with
      | [] => s
      | c :: cs =>
        if 4 ≤ sumL (s.bistRuns.map fun b => b.onChases.length) then s
        else
          let (ok, s) := s.bistPower 35
          if ok then startChaseTests h fuel (s.setBist h { b with chases := cs, onChases := b.onChases ++ [c] }) else s
    | _ => s

/-- Whether an address lies in the group windows of a partition, which of a whole-device layout are all of the usable
range. -/
def State.ownWindow (s : State) (p pa : Nat) : Bool :=
  match s.groupAt pa with
  | some g => (s.part p).groups.getLsbD g
  | none => s.wholeLayout && decide (pa < usableHbm)

/-- A stack of a self-test started, one over the device (R453). The test writes the memory that it covers: every stack
named, of a partition its group windows (R451, R452) [log 90]. -/
def State.startStackTest (s : State) (h : Nat) : State :=
  match (s.longop h).kind with
  | .bist b => match b.stackNos with
    | [] => s
    | k :: ks =>
      if s.bistRuns.any fun b => !b.onStacks.isEmpty then s
      else
        let (ok, s) := s.bistPower 45
        if ok then (s.setBist h { b with stackNos := ks, onStacks := [k] }).overwritten fun pc pa =>
          pc / 64 == k && (b.part.all fun p => s.ownWindow p pa) else s
  | _ => s

/-- The self-tests that run start what they may. -/
def State.pumpBists (s : State) : State :=
  s.longops.foldl (fun s e => match e.2.kind with
    | .bist _ => if (s.longop e.1).st = .running then (startChaseTests e.1 16 s).startStackTest e.1 else s
    | _ => s) s

/-- Whether the life-cycle state permits a test (R452). -/
def State.bistAllowed (s : State) (r : MReq) : Bool :=
  let lc := s.sec.fuses.lifecycle
  if lc = 0 ∨ lc = 3 then !s.ctxs.any fun e => decide (e.2.st ≠ .free)
  else if lc = 2 then
    r.has Key.part && r.num Key.algo == 0 && r.num Key.apply == 0 && s.liveCtxs (r.num Key.part) == 0
  else false

def State.bist (s : State) (r : MReq) : State :=
  let bits := r.has Key.chases || r.has Key.stackMask
  if r.has Key.part == bits || (r.has Key.part && (s.part (r.num Key.part)).st == 0) then
    s.refuse r St.descriptorInvalid
  else if !s.bistAllowed r then s.refuse r St.bistDenied
  else
    let ps := s.bistParts r
    if ps.any fun p => (s.part p).st == 2 || s.bistOn p then s.refuse r St.opState
    else
      s.startLong r (.bist
        { parts := ps, part := (r.item? Key.part).map (·.toNat), chases := s.bistChases r, stackNos := s.bistStacks r
          apply := r.num Key.apply == 1 }) none fun _ s =>
          (ps.foldl (fun s p => s.setPart p { s.part p with st := 3 }) s).pumpBists

def execBist (r : MReq) (s : State) : Host.Outcome State Fault Refusal :=
  manage { service := true, keys := [(Key.part, false), (Key.chases, false), (Key.stackMask, false), (Key.algo, true),
    (Key.apply, false)] } r s fun s => s.bist r

/-- A chase marked fenced for later starts, with the alternate of step 17 that applies the mark (R451, R438). -/
def State.fenceLater (s : State) (c : Nat) : State :=
  let l := s.ledger
  { s with ledger := { l with fenced := l.fenced ||| (1#16 <<< c), alt := l.alt ||| 0x10000, seq := l.seq + 1 } }

/-- The end of the tests of a self-test that are under way, with the defects that they found, as location kinds 2 or 3 with
their numbers (R451); the next chases and stacks follow (R453), and after the last the operation ends. What the last element
left in SRAM is zero. -/
def State.endBist (s : State) (h : Nat) (defects : List (Nat × Nat)) : State :=
  match (s.longop h).kind with
  | .bist b =>
    let s := b.onChases.foldl (fun s c => s.zeroChase c) s
    let s := defects.foldl (fun s d =>
      let s := s.rasError 2 St.bistFail { cause := 0x0D, locKind := d.1, loc := d.2 }
      if !b.apply then s else if d.1 = 3 then s.retirePc d.2 else s.fenceLater d.2) s
    let n := b.found + defects.length
    let s := s.setBist h { b with onChases := [], onStacks := [], found := n }
    let s := if b.chases.isEmpty && b.stackNos.isEmpty then s.endLong h St.ok [(Key.value, wn n)] else s
    s.pumpBists.settle
  | _ => s

end Sys2Proof.Machine
end

