-- ==== Sys2Proof/Machine/Firmware.lean ====
section
/-! DEFINITION. Images, slots, tokens and life cycle (R411 to R424), and the colophon (R425, R426). -/

namespace Sys2Proof.Machine

/-- A byte string of exactly `n` bytes: cut, or filled with zeros. -/
def fit (n : Nat) (bs : List Byte) : List Byte := (bs ++ List.replicate n 0).take n

/-! ### Verification and selection (R414, R415) -/

/-- The manifest's and the token's kind. -/
def kindManifest : Nat := 14
def kindToken : Nat := 15

/-- Whether both signatures and the body digest of an image check, and its head is as expected. -/
def imageSound (kind : Nat) (i : ImageFacts) : Bool :=
  i.magic == 0x5746485A && i.kind == kind && i.rsvZero && Config.sha384 i.body == i.digest &&
    Config.edVerify i.edPub (i.header.take 128) i.edSig && Config.mlVerify i.mlPub (i.header.take 128) i.mlSig

/-- Whether the signer of an image is the vendor, or the owner. -/
def Sec.byVendor (x : Sec) (i : ImageFacts) : Bool :=
  Config.sha384 i.edPub == x.fuses.vendorEd && Config.sha384 i.mlPub == x.fuses.vendorMl
def Sec.byOwner (x : Sec) (i : ImageFacts) : Bool :=
  Config.sha384 i.edPub == x.fuses.ownerEd && Config.sha384 i.mlPub == x.fuses.ownerMl

/-- SVN_MIN of a kind (R417). -/
def Sec.svnMin (x : Sec) (k : Nat) : Nat := mget 0 x.fuses.svnMin k

/-- Whether an image verifies (R414); a token may be the owner's where its type permits it (R422). -/
def Sec.verifies (x : Sec) (kind : Nat) (i : ImageFacts) : Bool :=
  imageSound kind i &&
    (if kind = kindToken then
      x.byVendor i || (nth 0 i.body 0 == 4 && x.fuses.lifecycle == 2 && x.byOwner i)
    else x.byVendor i && decide (x.svnMin kind ≤ i.svn))

/-- The image of a slot, if the slot holds one whose security version still verifies. -/
def Sec.good (x : Sec) (k slot : Nat) : Option FwImage :=
  match mfind? x.slots (4 * k + slot) with
  | some i => if x.svnMin k ≤ i.svn then some i else none
  | none => none

/-- The slot marked active, and the slot of its kind that is not (R415, R416). -/
def Sec.activeSlot (x : Sec) (k : Nat) : Nat := mget 0 x.active k
def Sec.otherSlot (x : Sec) (k : Nat) : Nat := if x.activeSlot k = 0 then 1 else 0

/-- The slots of a kind in the order in which a start tries them (R415), or the golden slot alone. -/
def Sec.order (x : Sec) (k : Nat) (golden : Bool) : List Nat :=
  if golden then [2] else dedup ([x.activeSlot k] ++ (if x.activeSlot k = 2 then [0, 1] else [x.otherSlot k]) ++ [2])

/-- The first slot of a kind that verifies, with its image. -/
def Sec.select (x : Sec) (k : Nat) (golden : Bool) : Option (Nat × FwImage) :=
  (x.order k golden).findSome? fun n => (x.good k n).map fun i => (n, i)

/-- The step of R435 that starts a kind. -/
def stepOfKind (k : Nat) : Nat := if k = 1 then 6 else if k = 3 then 7 else if k = 2 then 9 else 10

/-- Whether the next start takes the golden slot of a kind: a service start, or an alternate mark (R438, R441). -/
def State.golden (s : State) (k : Nat) : Bool :=
  decide (3 ≤ s.ledger.fails) || s.ledger.alt.getLsbD (stepOfKind k - 1)

/-- The 56 bytes of a combination: stepping, then the versions of the boot ROM (log 31) and of kinds 1 to 5 (R423). -/
def comboBytes (stepping : Nat) (versions : List W64) : List Byte :=
  toBytes 2 stepping ++ toBytes 6 0 ++ toBytes 8 0 ++ versions.flatMap fun v => toBytes 8 v.toNat

/-- The combination digest of the images that the next start will select (R422, R423). -/
def State.nextCombo (s : State) : List Byte :=
  Config.sha384 (comboBytes s.sec.fuses.stepping ((span 1 5).map fun k =>
    match s.sec.select k (s.golden k) with | some (_, i) => i.version | none => 0))

/-! ### FW_STAGE (R416) -/

/-- A rejected image reported and recorded in the boot ledger (R414). -/
def State.signatureFail (s : State) : State :=
  let s := s.rasError 2 St.signatureFail { cause := 0x0A }
  { s with ledger := { s.ledger with
      errlog := (s.ring.take 1 ++ s.ledger.errlog).take 128, errHead := (s.ledger.errHead + 1) % 128 } }

def setSlot (x : Sec) (k slot : Nat) (i : Option FwImage) : Sec :=
  { x with slots := match i with | some f => mput x.slots (4 * k + slot) f | none => mdel x.slots (4 * k + slot) }

/-- Whether the golden slot may be written or activated (R416). -/
def Sec.goldenOpen (x : Sec) : Bool := x.fuses.lifecycle == 0 || x.fuses.lifecycle == 3

/-- FW_STAGE: `slot` 2 names G, any other the slot that is not active. The slot stands empty while it is written. -/
def State.fwStage (s : State) (r : MReq) (slot : Nat) (img : ImageFacts) : State :=
  let k := r.num Key.kind
  if k ≠ kindToken && slot == 2 && !s.sec.goldenOpen then s.refuse r St.lifecycleDenied
  else
    let n := if slot = 2 then 2 else s.sec.otherSlot k
    s.startLong r (.fwStage k n img) none fun _ s =>
      if k = kindToken then { s with sec := { s.sec with token := none } }
      else { s with sec := setSlot s.sec k n none }

def execFwStage (r : MReq) (slot : Nat) (img : ImageFacts) (s : State) : Host.Outcome State Fault Refusal :=
  manage { service := true, restricted := true, keys := [(Key.kind, true)] } r s fun s => s.fwStage r slot img

/-- The end of a staging: the image verified and kept, or SIGNATURE_FAIL and the slot empty. -/
def State.endStage (s : State) (h k n : Nat) (img : ImageFacts) : State :=
  if s.sec.verifies k img then
    let f : FwImage := { kind := k, svn := img.svn, version := img.version, header := img.header, body := img.body }
    let s := if k = kindToken then { s with sec := { s.sec with token := some img } }
      else { s with sec := setSlot s.sec k n (some f) }
    s.endLong h St.ok []
  else s.signatureFail.endLong h St.signatureFail []

/-! ### Tokens (R419, R422) -/

/-- Fields of a token's body. -/
def tokType (i : ImageFacts) : Nat := (nth 0 i.body 0).toNat
def tokNum (i : ImageFacts) (o n : Nat) : Nat := ofBytes (slice i.body o n)

/-- The checks of R422. -/
def State.tokenOk (s : State) (i : ImageFacts) : Bool :=
  let x := s.sec
  let t := tokType i
  x.verifies kindToken i && slice i.body 8 16 == fit 16 x.fuses.serial && tokNum i 1 7 == 0 && tokNum i 25 3 == 0 &&
    tokNum i 80 48 == 0 && decide (1 ≤ t) && decide (t ≤ 5) &&
    (t == 1 || tokNum i 24 1 == x.fuses.returns) &&
    (!(t == 1 || t == 5) || tokNum i 28 4 == (x.startCount + 1) % 2 ^ 32) &&
    (t != 1 || slice i.body 32 48 == s.nextCombo)

/-- Whether the life-cycle state permits what a token type asks (R419). -/
def State.tokenAllowed (s : State) (t : Nat) : Bool :=
  let f := s.sec.fuses
  if t = 2 then f.lifecycle == 2 && decide (f.returns < 32)
  else if t = 3 then
    f.lifecycle == 3 && decide (f.returns < 32) && loadableKinds.all fun k => (s.sec.good k 2).isSome
  else if t = 4 then f.lifecycle != 4
  else true

/-- The scrub of one partition for a transition; one that is under way counts. -/
def State.transitScrub (s : State) (r : MReq) (p : Nat) : State × List Nat :=
  match s.longops.find? fun e => decide (e.2.st ≠ .done) && match e.2.kind with
      | .scrub q _ _ => q == p
      | _ => false with
  | some (h, _) => (s, [h])
  | none => match s.newHandle with
    | some h => (s.startLong r (.scrub p none false) none fun _ s => s.beginScrub p, [h])
    | none => (s, [])

/-- A transition's effect before its fuse is blown (R419): every partition's contexts torn down, sessions closed, scrubbed.
Where no partition exists the fuse is blown at once. -/
def State.transit (s : State) (r : MReq) (t : Nat) : State :=
  let ps := (upTo 8).filter fun p => (s.part p).st != 0
  if s.sec.transition.isSome || ps.any s.bistOn then s.refuse r St.opState
  else if 256 < s.liveLongs + ps.length then s.refuse r St.queueFull
  else
    let s := { s with sec := { s.sec with token := none } }
    let (s, hs) := ps.foldl (fun (a : State × List Nat) p =>
      let (s, h) := a.1.transitScrub r p
      (s, a.2 ++ h)) (s, [])
    if hs.isEmpty then (s.answerNow r St.ok).blow t
    else { s with sec := { s.sec with transition := some (t, hs) } }.settle

/-- FW_ACTIVATE of the token in the buffer. -/
def State.applyToken (s : State) (r : MReq) (i : ImageFacts) : State :=
  let t := tokType i
  let used : Sec := { s.sec with token := none }
  if !s.tokenOk i then ({ s with sec := used }).refuse r St.overrideInvalid
  else if !s.tokenAllowed t then s.refuse r St.lifecycleDenied
  else if t = 1 then ({ s with sec := { used with nextOverride := some (slice i.body 32 48) } }).done r
  else if t = 5 then ({ s with sec := { used with nextDebug := true } }).done r
  else s.transit r t

/-- FW_ACTIVATE of a token, whatever its type. -/
def State.activateToken (s : State) (r : MReq) : State :=
  match s.sec.token with
  | some i => s.applyToken r i
  | none => s.refuse r St.overrideInvalid

def activateRule : OpRule :=
  { service := true, restricted := true, keys := [(Key.kind, true), (Key.svnCommit, false)] }

/-- A token row: FW_ACTIVATE of kind 0xF with a token of the row's type in the buffer, or with none. -/
def tokenRow (t : Nat) (r : MReq) (s : State) : Host.Outcome State Fault Refusal :=
  match s.sec.token with
  | some i =>
    if tokType i = t then
      manage activateRule r s fun s =>
        if r.num Key.kind = kindToken then s.applyToken r i else s.refuse r St.descriptorInvalid
    else .fault .rowMismatch
  | none => manage activateRule r s fun s => s.refuse r St.overrideInvalid

def execTokenOverride (r : MReq) (s : State) : Host.Outcome State Fault Refusal := tokenRow 1 r s
def execTokenReturn (r : MReq) (s : State) : Host.Outcome State Fault Refusal := tokenRow 2 r s
def execTokenRedeploy (r : MReq) (s : State) : Host.Outcome State Fault Refusal := tokenRow 3 r s
def execTokenDecommission (r : MReq) (s : State) : Host.Outcome State Fault Refusal := tokenRow 4 r s
def execTokenDebug (r : MReq) (s : State) : Host.Outcome State Fault Refusal := tokenRow 5 r s

/-! ### FW_ACTIVATE and the SVN commit (R416, R417) -/

/-- SVN_MIN of a kind raised to the SVN that runs. -/
def State.svnCommit (s : State) (r : MReq) : State :=
  let k := r.num Key.kind
  match mfind? s.sec.running k, mfind? s.sec.slots (4 * k + 2) with
  | some (_, i), some g =>
    if s.sec.fuses.lifecycle ≠ 2 then s.refuse r St.lifecycleDenied
    else if g.svn < i.svn then s.refuse r St.opState
    else
      let f := s.sec.fuses
      ({ s with sec := { s.sec with fuses := { f with svnMin := mset 0 f.svnMin k (max (s.sec.svnMin k) i.svn) } } }).done r
  | _, _ => s.refuse r (if s.sec.fuses.lifecycle ≠ 2 then St.lifecycleDenied else St.opState)

/-- SVN_COMMIT: an FW_ACTIVATE that carries the item with value 1, for a loadable kind. -/
def execSvnCommit (r : MReq) (s : State) : Host.Outcome State Fault Refusal :=
  manage activateRule r s fun s =>
    if r.num Key.svnCommit = 1 && r.num Key.kind != kindToken then s.svnCommit r else s.refuse r St.descriptorInvalid

/-- A staged slot marked active for the next start; `slot` 2 names G. -/
def State.activateSlot (s : State) (r : MReq) (slot : Nat) : State :=
  let k := r.num Key.kind
  let n := if slot = 2 then 2 else s.sec.otherSlot k
  if n = 2 && !s.sec.goldenOpen then s.refuse r St.lifecycleDenied
  else if !mhas s.sec.slots (4 * k + n) then s.refuse r St.opState
  else ({ s with sec := { s.sec with active := mset 0 s.sec.active k n } }).done r

def execFwActivate (r : MReq) (slot : Nat) (s : State) : Host.Outcome State Fault Refusal :=
  manage activateRule r s fun s =>
    if r.num Key.kind = kindToken then
      (if r.num Key.svnCommit = 1 then s.refuse r St.descriptorInvalid else s.activateToken r)
    else if r.num Key.svnCommit = 1 then s.svnCommit r
    else s.activateSlot r slot

/-! ### PROVISION (R419) -/

/-- Bits of a digest burnt over what the fuses hold: a blown bit stays blown (R411). -/
def burn (old new : List Byte) : List Byte := (upTo 48).map fun i => nth 0 old i ||| nth 0 new i

/-- Vendor equipment writes the owner's digests and blows LC_PROV; the keys stand in the owner key record. -/
def State.provision (s : State) (ownerEd ownerMl : List Byte) : State :=
  let x := s.sec
  if x.fuses.lifecycle ≠ 0 then s
  else
    let f := { x.fuses with
      ownerEd := burn x.fuses.ownerEd (Config.sha384 ownerEd), ownerMl := burn x.fuses.ownerMl (Config.sha384 ownerMl)
      lcProv := true }
    ({ s with sec := { x with fuses := f, ownerKeyEd := ownerEd, ownerKeyMl := ownerMl } }).setFld .mgmt 0 0x10 32 8
      f.lifecycle

def execProvision (ownerEd ownerMl : List Byte) (s : State) : Host.Outcome State Fault Refusal :=
  .next (s.provision ownerEd ownerMl)

/-! ### COLOPHON (R425, R426) -/

/-- A thermometer count as a number (R411). -/
def thermometer (n : Nat) : Nat := 2 ^ n - 1

/-- The fuse map but for UDS, its fields in the order of the table (log 13). -/
def fuseMap (f : Fuses) : List Byte :=
  fit 16 f.serial ++ toBytes 2 f.stepping ++ fit 48 f.vendorEd ++ fit 48 f.vendorMl ++ fit 48 f.ownerEd ++
    fit 48 f.ownerMl ++ toBytes 1 (b2n f.lcProv + 2 * b2n f.lcDepl + 4 * b2n f.lcDecom) ++
    toBytes 4 (thermometer f.returns) ++ loadableKinds.flatMap fun k => toBytes 8 (thermometer (mget 0 f.svnMin k))

/-- The entry of a partition (R426). -/
def partEntry (x : Part) : List Byte :=
  if x.st = 0 then List.replicate 32 0
  else
    toBytes 2 x.chases.toNat ++ toBytes 1 x.st ++ toBytes 1 (b2n x.conf + 2 * b2n x.whole) ++
      toBytes 4 x.groups.toNat ++ toBytes 1 x.share ++ toBytes 1 0 ++ toBytes 2 x.sessFirst ++ toBytes 2 x.sessLast ++
      toBytes 2 x.quota ++ toBytes 8 x.keyEpoch.toNat ++ toBytes 8 0

/-- The digest of a running image, zero where none of the kind runs. -/
def State.runDigest (s : State) (k : Nat) : List Byte :=
  match mfind? s.sec.running k with
  | some (_, i) => fit 48 (Config.sha384 (i.header ++ i.body))
  | none => List.replicate 48 0

def State.runSvn (s : State) (k : Nat) : Nat := match mfind? s.sec.running k with | some (_, i) => i.svn | none => 0

/-- Bytes 0 to 895 of the colophon (R425). -/
def State.colophonHead (s : State) (nonce : List Byte) : List Byte :=
  let x := s.sec
  let mode := s.regFld .sec 0 0x08 0 2
  toBytes 4 0x4F43485A ++ toBytes 2 1 ++ toBytes 2 (mode + 4 * b2n s.serviceMode + 8 * b2n x.debug) ++
    fit 16 x.fuses.serial ++ toBytes 2 (if s.idValid then s.myId else 0xFFFF) ++ toBytes 1 x.fuses.lifecycle ++
    toBytes 1 x.fuses.returns ++ toBytes 4 x.startCount ++ fit 32 nonce ++ fit 48 (Config.sha384 Config.identityKeys) ++
    fit 48 (Config.sha384 (fit 48 x.fuses.ownerEd ++ fit 48 x.fuses.ownerMl)) ++
    fit 48 (Config.romDigest x.fuses.stepping) ++ (span 1 5).flatMap s.runDigest ++ s.runDigest kindManifest ++
    fit 48 s.ledger.digest ++ fit 48 (Config.sha384 (fuseMap x.fuses)) ++ toBytes 8 (s.regFld .sec 0 0x08 2 2) ++
    (span 1 5).flatMap (fun k => toBytes 1 (s.runSvn k)) ++ toBytes 1 (s.runSvn kindManifest) ++ toBytes 2 0 ++
    (upTo 8).flatMap (fun p => partEntry (s.part p)) ++ toBytes 8 (s.reg .hbm 0 0).toNat ++ List.replicate 24 0

/-- The colophon, 4,272 bytes. -/
def State.colophon (s : State) (nonce : List Byte) : List Byte :=
  let h := s.colophonHead nonce
  h ++ fit 64 (Config.edSign h) ++ fit 3309 (Config.mlSign h) ++ List.replicate 3 0

def execColophon (r : MReq) (nonce : List Byte) (s : State) : Host.Outcome State Fault Refusal :=
  manage { service := true, restricted := true, plain := false } r s fun s =>
    if nonce.length = 32 then s.send r.session (.manage r.reqId St.ok [] (s.colophon nonce) false)
    else s.refuse r St.descriptorInvalid

end Sys2Proof.Machine
end

