-- ==== Sys2Proof/Machine/Quoin.lean ====
section
/-! DEFINITION. Quoin: the link layer (R366 to R368), packets received (R370 to R374), the target's and the requester's
side of remote memory (R375, R376), retraining and loss (R395, R396), registers and loop-backs (R364, R397, R398). -/

namespace Sys2Proof.Machine

/-! ### The link layer (R366 to R368, R395) -/

/-- The replay buffer without the flits that ACK covers (R367). -/
def Link.acked (x : Link) (ack : Nat) : Link :=
  if x.replay.any fun e => e.1 == ack then { x with replay := (x.replay.dropWhile fun e => e.1 != ack).drop 1 } else x

/-- Packets that wait at a link sent, as far as they now can be. -/
def State.drainWaiting (s : State) (l : Nat) : State :=
  let w := (s.link l).waiting
  w.foldl (fun s p => s.sendOn l p) (s.setLink l { s.link l with waiting := [] })

/-- The flits of the replay buffer sent again (R367): of a packet those that are not acknowledged. -/
def State.replay (s : State) (l : Nat) : State :=
  ((s.link l).replay.foldl (fun (a : State × Nat) e => match e.2.2 with
    | [] => (a.1, a.2 + 1)
    | p :: _ => (a.1.launch l p ((e.1 + 4096 - a.2) % 4096) (pktFlits p - (a.2 + 1)), 0)) (s, 0)).1

/-- A link in service retrains (R395): counted, reported, its counts and its replay buffer kept. -/
def State.retrain (s : State) (l : Nat) : State :=
  if s.linkState l ≠ LinkSt.up then s
  else
    let s := (s.setLinkState l LinkSt.retrain).bump .quoin 0 (0x200 + 8 * l) 16 16 1
    let s := s.setLink l { s.link l with naks := 0, failedRetrains := 0 }
    s.rasError 1 St.linkRetrained { cause := 0x05, locKind := 4, loc := l }

/-- A replay counted (LINK_STATUS.REPLAYS), a CORRECTED error (R445). -/
def State.countReplay (s : State) (l : Nat) : State :=
  (s.bump .quoin 0 (0x200 + 8 * l) 32 16 1).rasError 0 0 { cause := 0x05, locKind := 4, loc := l }

/-- A NAK received: the flits after ACK are sent again; RETRY_LIMIT NAKs without progress start a retrain (R367, R395). -/
def State.nakIn (s : State) (l ack : Nat) : State :=
  if s.linkState l ≠ LinkSt.up then s
  else
    let x := s.link l
    let y := x.acked ack
    let n := if y.replay.length < x.replay.length then 0 else x.naks + 1
    let s := (s.setLink l { y with naks := n }).countReplay l
    if s.regFld .quoin 0 8 16 8 ≤ n then s.retrain l else (s.replay l).drainWaiting l

def execNak (link ack : Nat) (s : State) : Host.Outcome State Fault Refusal :=
  if 32 ≤ link then .fault .noSuchUnit else .next (s.nakIn link ack)

/-- A NAK sent with the last good sequence number. -/
def State.sendNak (s : State) (l : Nat) : State :=
  let x := s.link l
  ((s.setLink l { x with dropping := true, cvc := (x.cvc + 1) % 8 }).countReplay l).emit
    (.nakFlit l x.ack (flitBytes (x.flitHead 0 2 0 false 0) []))

/-- The packet types (R370). -/
def typeOk (t : Nat) : Bool := (decide (1 ≤ t) && decide (t ≤ 6)) || t == 0x10 || t == 0x11

/-- Flits leave the receive buffer (R368). The IDLE flits that follow at once carry the new count (R366) [log 15]. -/
def Link.free (x : Link) (vc n : Nat) : Link :=
  let m := (mget 0 x.freed vc + n) % 65536
  { x with inBuf := mset 0 x.inBuf vc (mget 0 x.inBuf vc - n), freed := mset 0 x.freed vc m
           creditTx := mset 0 x.creditTx vc m }

/-- A DATA flit taken into the receive buffer with the packets that end in it (R368, R371). -/
def Link.take (x : Link) (vc : Nat) (ps : List Packet) : Link :=
  let n := mget 0 x.open_ vc + 1
  let good := ps.filter fun p => typeOk p.typ && p.rsvZero
  let x := { x with
    expect := (x.expect + 1) % 4096, dropping := false
    inBuf := mset 0 x.inBuf vc (mget 0 x.inBuf vc + 1), open_ := mset 0 x.open_ vc (if ps.isEmpty then n else 0) }
  if ps.isEmpty then x
  else if good.isEmpty then
    x.free vc n
  else
    { x with arrived := x.arrived ++ good.dropLast.map (fun p => (p, 0)) ++ (good.getLast?.toList.map fun p => (p, n)) }

/-- A flit received with a good CRC: ACK, credits, and by its kind (R366). -/
def State.goodFlit (s : State) (l : Nat) (f : Flit) : State :=
  let x := (s.link l).acked f.ack
  let s := (s.setLink l { x with creditRx := mset 0 x.creditRx f.cvc f.credits }).drainWaiting l
  if f.kind = 2 then s.nakIn l f.ack
  else if f.kind ≠ 1 then s
  else
    let x := s.link l
    if f.seq = x.expect then s.setLink l (x.take f.vc f.packets)
    else if x.dropping || decide ((x.expect + 4096 - f.seq) % 4096 ≤ 1024) then s
    else s.sendNak l

/-- EN as a write leaves it: 0 drains a link to OFF once its replay buffer is empty, 1 trains an OFF link (R397). -/
def State.applyEn (s : State) (l : Nat) : State :=
  let en := s.regFld .quoin 0 (0x100 + 8 * l) 0 1
  let st := s.linkState l
  if en = 0 then
    (if (s.link l).replay.isEmpty && st != LinkSt.failed && st != LinkSt.loop then s.setLinkState l LinkSt.off else s)
  else if st = LinkSt.off then s.setLinkState l LinkSt.training
  else s

/-- FLIT_RECEIVE: a flit on a link that is not in service carries nothing; one whose CRC fails is discarded with a NAK. -/
def State.flitIn (s : State) (l : Nat) (f : Flit) (crcGood : Bool) : State :=
  if s.linkState l ≠ LinkSt.up then s
  else if crcGood then
    let s := s.goodFlit l f
    if s.regFld .quoin 0 (0x100 + 8 * l) 0 1 = 0 then s.applyEn l else s
  else s.sendNak l

def execFlitReceive (link : Nat) (f : Flit) (crcGood : Bool) (s : State) : Host.Outcome State Fault Refusal :=
  if 32 ≤ link then .fault .noSuchUnit else .next (s.flitIn link f crcGood)

def execFecLockLoss (link : Nat) (s : State) : Host.Outcome State Fault Refusal :=
  if 32 ≤ link then .fault .noSuchUnit else .next (s.retrain link)

/-- LINK_RETRAIN of a link that is not in service is refused. -/
def execLinkRetrain (r : MReq) (s : State) : Host.Outcome State Fault Refusal :=
  manage { keys := [(Key.link, true)] } r s fun s =>
    let l := r.num Key.link
    if s.linkState l = LinkSt.up then (s.retrain l).done r else s.refuse r St.opState

/-! ### Packets received (R370 to R374) -/

/-- A packet leaves the receive buffer of a link, and its flits are freed (R368). -/
def Link.deliver (x : Link) (p : Packet) : Link :=
  match x.arrived.find? fun e => e.1 == p with
  | none => x
  | some e =>
    let vc := pktVc p
    { x with arrived := x.arrived.erase e }.free vc e.2

/-- The local link on which the peer's link `m` ends, for links to the peer of link `l`. -/
def State.linkOfPeer (s : State) (l m : Nat) : Nat :=
  let peer (k : Nat) : Nat := s.regFld .quoin 0 (0x300 + 8 * k) 0 16
  ((upTo 32).find? fun k => peer k == peer l && s.regFld .quoin 0 (0x300 + 8 * k) 16 5 == m).getD m

/-- Whether a reissued packet has been taken already from the link of its first send (R374). -/
def State.taken? (s : State) (l : Nat) (p : Packet) : Bool :=
  p.reissue && match (s.link (s.linkOfPeer l p.origLink)).pseqRx with
    | some q => decide ((q + 65536 - p.pseq) % 65536 < 32768)
    | none => false

/-- The last PSEQ taken recorded (R371). -/
def State.noteSeq (s : State) (l : Nat) (p : Packet) : State :=
  let k := if p.reissue then s.linkOfPeer l p.origLink else l
  s.setLink k { s.link k with pseqRx := some p.pseq }

/-- A packet for another device sent on, or dropped; a request that is dropped is answered (R372). -/
def State.forward (s : State) (p : Packet) : State :=
  match s.route p false with
  | some (l, p) => s.sendOn l { p with reissue := false, origLink := 0 }
  | none =>
    if p.typ = 1 ∨ p.typ = 3 ∨ p.typ = 5 then s.respond (p.typ + 1) p.src p.tag St.remoteUnreachable [] else s

/-- A packet received on a link: discarded, forwarded, or delivered to `f` (R370 to R374, R393). -/
def State.packetIn (s : State) (l : Nat) (p : Packet) (f : State → State) : State :=
  let s := s.setLink l ((s.link l).deliver p)
  if !p.rsvZero then s
  else if p.ossel && !s.linkOssel l then s.bump .quoin 0 (0x200 + 8 * l) 48 16 1
  else if s.taken? l p then s
  else
    let s := s.noteSeq l p
    if p.dest = s.myId then f s else s.forward p

/-- A packet row: the packet's type is the row's, and the link is in service. `busy` tells whether the target must still
wait with it, in which case it stays where it is. -/
def onPacket (l : Nat) (p : Packet) (typ : Nat) (s : State) (busy : Bool) (f : State → State) :
    Host.Outcome State Fault Refusal :=
  if 32 ≤ l then .fault .noSuchUnit
  else if p.typ ≠ typ then .fault .rowMismatch
  else if s.linkState l ≠ LinkSt.up ∨ (busy = true ∧ p.dest = s.myId) then .next s
  else .next (s.packetIn l p f)

/-! ### The target's side (R376) -/

/-- The place of a physical address: the placed page whose frame holds it, also while it moves, or memory. -/
def State.locOf (s : State) (pa : Nat) : Loc :=
  match s.placed.find? fun e =>
      decide (e.2.stands = .t2p) && decide (e.2.frame ≤ pa) && decide (pa < e.2.frame + 0x200000) with
  | some e => .page e.1 (pa - e.2.frame)
  | none => .mem pa

/-- Whether a page of a context under a job tag maps a range of local memory, for `wr` with writes permitted (R34, R35). Tag
zero binds no job, and a context in TEARDOWN is bound under none any more: the manual does not say whether its pages, which
stay mapped until step 8 of R315, still count (DESIGN CHOICE, log 91). -/
def State.mappedFor (s : State) (job : W32) (a n : Nat) (wr : Bool) : Bool :=
  let covers (size : Nat) (p : Page) : Bool := (!wr || p.wr) && match p.tgt with
    | .frame b => decide (b ≤ a) && decide (a + n ≤ b + size)
    | .placed e =>
      let x := s.entry e
      decide (x.stands = .t2p) && decide (x.frame ≤ a) && decide (a + n ≤ x.frame + size)
    | _ => false
  job != 0 && s.ctxs.any fun c => decide (c.2.st = .active) && c.2.jobTag == job &&
    (c.2.large.any (fun e => covers 0x200000 e.2) || c.2.pages.any fun e => covers 0x10000 e.2)

/-- The bytes of an exportable image that a read of an origin names by their offset, as the image was loaded (R265)
[log 87]. -/
def State.exported (s : State) (off n : Nat) : Option (List Byte) :=
  s.images.findSome? fun i =>
    if i.2.exportable && !s.loading i.1 && decide (off + n ≤ i.2.raw.length) then some (slice i.2.raw off n) else none

/-- Checks 1 and 2 of R376: whether the target may perform a request. -/
def State.mayServe (s : State) (p : Packet) : Bool :=
  let a := p.addr.toNat % 2 ^ 48
  decide (a < usableHbm) && (s.hbmMap a).isSome &&
    (if p.origin then p.typ == 1 && (s.exported a p.len).isSome else s.mappedFor p.jobTag a p.len false)

/-- Whether a request must wait: its page moves or is poisoned, for a write a sealed buffer holds it, or a pseudo-channel that
it reads or writes is in a retraining window (R252, R292, R348). An atomic waits for a window in the queue there. -/
def State.serveWaits (s : State) (p : Packet) : Bool :=
  let a := p.addr.toNat % 2 ^ 48
  let n := if p.typ = 1 then p.len else p.data.length
  s.mayServe p && !p.origin && ((List.range n).any (fun i => s.stalls (s.locOf (a + i)) (p.typ != 1)) ||
    (p.typ != 5 && s.windowHolds none (s.locOf a) n))

/-- Units of a range that an access from outside any cabinet moves (R279). -/
def State.unitsRead (s : State) (k n : Nat) : State :=
  (List.range ((k % 512 + n + 511) / 512)).foldl (fun s i => s.lineRead (k / 512 * 512 + 512 * i)) s

/-- RD_REQ performed. -/
def State.serveRead (s : State) (p : Packet) : State :=
  let a := p.addr.toNat % 2 ^ 48
  let k := s.keyOf a
  if !s.mayServe p then s.respond 2 p.src p.tag St.remoteDenied []
  else if p.origin then s.respond 2 p.src p.tag St.ok ((s.exported a p.len).getD [])
  else if s.isBad k p.len then s.respond 2 p.src p.tag (s.badStatus k) []
  else (s.unitsRead k p.len).respond 2 p.src p.tag St.ok ((span k p.len).map s.homeByte)

def execRdReq (link : Nat) (p : Packet) (s : State) : Host.Outcome State Fault Refusal :=
  onPacket link p 1 s (s.serveWaits p) fun s => s.serveRead p

/-- A write or atomic performed at its pseudo-channel, and acknowledged once visible. -/
def State.serveAt (s : State) (p : Packet) (body : AtomBody) : State :=
  let a := p.addr.toNat % 2 ^ 48
  match s.hbmMap a with
  | some (pc, _) => s.memoryAtomic pc { src := .remote p.src p.tag, pa := s.keyOf a, body := body, ecc := .good }
  | none => s

def State.serveWrite (s : State) (p : Packet) : State :=
  if !s.mayServe p then s.respond 4 p.src p.tag St.remoteDenied [] else s.serveAt p (.write p.data)

def execWr (link : Nat) (p : Packet) (s : State) : Host.Outcome State Fault Refusal :=
  onPacket link p 3 s (s.serveWaits p) fun s => s.serveWrite p

/-- The operands of an ATOM packet. -/
def atomOperands (p : Packet) : List W64 :=
  let n := atomBytes p.fmt.toNat
  (List.range (p.data.length / n)).map fun i => wn (ofBytes (slice p.data (i * n) n))

/-- ATOM: denied, refused under R283 or R284, or performed (R376). A page that does not permit writes refuses it with the
status of R34 [log 91]. -/
def State.serveAtom (s : State) (p : Packet) : State :=
  let a := p.addr.toNat % 2 ^ 48
  let ops := atomOperands p
  if !s.mayServe p then s.respond 6 p.src p.tag St.remoteDenied []
  else if !s.mappedFor p.jobTag a p.data.length true then s.respond 6 p.src p.tag St.pageAccess []
  else match atomRefusal p.op.toNat p.fmt.toNat a ops.length with
    | some st => s.respond 6 p.src p.tag st []
    | none =>
      if p.data.length % atomBytes p.fmt.toNat ≠ 0 then s.respond 6 p.src p.tag St.atomicAlign []
      else s.serveAt p (.atomic p.op p.fmt ops)

def execAtom (link : Nat) (p : Packet) (s : State) : Host.Outcome State Fault Refusal :=
  onPacket link p 5 s (s.serveWaits p) fun s => s.serveAtom p

/-! ### The requester's side (R375) -/

/-- The outstanding request that a response names, of a kind. -/
def State.quoinRequest (s : State) (tag : W32) (kind : Nat) : Option Request :=
  match s.request? tag.toNat with
  | some r => if r.kind = kind && r.held.isNone && r.failed.isNone then some r else none
  | none => none

/-- RD_RESP: the data lands, or the read fails; a response without a request, or of another length, is discarded. -/
def State.readAnswer (s : State) (p : Packet) : State :=
  match s.quoinRequest p.tag 0 with
  | none => s
  | some r =>
    if p.status ≠ 0 then s.endFail p.tag.toNat r (St.passOn St.remoteUnreachable p.status)
    else if p.data.length = r.len then s.endRead p.tag.toNat r p.data
    else s

def execRdResp (link : Nat) (p : Packet) (s : State) : Host.Outcome State Fault Refusal :=
  onPacket link p 2 s false fun s => s.readAnswer p

/-- WR_ACK and ATOM_ACK. -/
def State.writeAnswer (s : State) (p : Packet) (kind : Nat) : State :=
  match s.quoinRequest p.tag kind with
  | none => s
  | some r => if p.status ≠ 0 then s.endFail p.tag.toNat r (St.passOn St.remoteUnreachable p.status)
    else s.endWrite p.tag.toNat r

def execWrAck (link : Nat) (p : Packet) (s : State) : Host.Outcome State Fault Refusal :=
  onPacket link p 4 s false fun s => s.writeAnswer p 1

def execAtomAck (link : Nat) (p : Packet) (s : State) : Host.Outcome State Fault Refusal :=
  onPacket link p 6 s false fun s => s.writeAnswer p 2

/-- REQUEST_TIMEOUT of an outstanding Quoin request; any other tag has ended already. -/
def State.timeout (s : State) (tag : W32) : State :=
  match s.request? tag.toNat with
  | some r => if r.kind < 3 && r.held.isNone then s.endFail tag.toNat r St.remoteUnreachable else s
  | none => s

def execRequestTimeout (tag : W32) (s : State) : Host.Outcome State Fault Refusal := .next (s.timeout tag)

/-! ### The end of a training (R365, R374, R395, R396) -/

/-- The identifier that the link's neighbour must have (R365). -/
def State.neighborId (s : State) (l : Nat) : Nat :=
  let d := s.linkDim l
  let k := s.extent d
  let c := coord s.myId d
  let t := if s.linkDir l = 0 then (c + 1) % k else (c + k - 1) % k
  s.myId - c * 16 ^ d + t * 16 ^ d

/-- Packets of a link that has failed sent again on another link of its bundle (R374), and those that wait routed anew. -/
def State.reissue (s : State) (l : Nat) : State :=
  let x := s.link l
  let s := s.setLink l { x with waiting := [] }
  let again (p : Packet) : Packet := if p.reissue then p else { p with reissue := true, origLink := l }
  let send (s : State) (p : Packet) : State := match s.bundle (s.linkDim l) (s.linkDir l) with
    | [] => s
    | l0 :: ls =>
      s.sendOn (ls.foldl (fun a k => if (s.link a).held (pktVc p) < (s.link k).held (pktVc p) then k else a) l0) p
  let s := (x.replay.flatMap fun e => e.2.2).foldl (fun s p => send s (again p)) s
  x.waiting.foldl (fun s p => send s p) s

/-- A link recorded in the ledger: 1 reduced rate, 2 failed (R396). -/
def State.recordLink (s : State) (l v : Nat) : State :=
  { s with ledger := { s.ledger with links := mset 0 s.ledger.links l v, seq := s.ledger.seq + 1 } }

/-- A training that failed: three in a row bring the reduced rate, a failure at reduced rate ends the link (R396). -/
def State.trainFail (s : State) (l : Nat) : State :=
  let x := s.link l
  let s := s.setLink l { x with failedRetrains := x.failedRetrains + 1 }
  if s.regFld .quoin 0 (0x200 + 8 * l) 3 1 = 1 then ((s.setLinkState l LinkSt.failed).recordLink l 2).reissue l
  else if 3 ≤ x.failedRetrains + 1 then s.setFld .quoin 0 (0x200 + 8 * l) 3 1 1
  else s

/-- A training that succeeded. A retrained link keeps its counts and sends again what is not acknowledged; a link that
enters service checks its neighbour and begins from the receive depth (R365, R395, R403). -/
def State.trainGood (s : State) (l peerId peerLink peerDim : Nat) (peerDir : Bool) : State :=
  let s := if s.regFld .quoin 0 (0x200 + 8 * l) 3 1 = 1 then s.recordLink l 1 else s
  if s.linkState l = LinkSt.retrain then
    let s := (s.setLinkState l LinkSt.up).setLink l { s.link l with failedRetrains := 0 }
    (s.replay l).drainWaiting l
  else if !s.idValid then s.setLinkState l LinkSt.down
  else
    let s := s.setReg .quoin 0 (0x300 + 8 * l) (wn (peerId + (peerLink <<< 16) + (1 <<< 21)))
    let ok := peerId == s.neighborId l && peerDim == s.linkDim l && b2n peerDir != s.linkDir l
    let s := s.setFld .quoin 0 (0x200 + 8 * l) 4 1 (b2n !ok)
    if ok then
      { (s.setLinkState l LinkSt.up).setLink l {} with
        voids := s.voids.filter fun v => !((v.1 == 0x01 || v.1 == 0x02) && v.2 / 8 == l) }
    else s.setLinkState l LinkSt.down

def State.trained (s : State) (l : Nat) (good : Bool) (peerId peerLink peerDim : Nat) (peerDir : Bool) : State :=
  if s.linkState l ≠ LinkSt.retrain ∧ s.linkState l ≠ LinkSt.training then s
  else if good then s.trainGood l peerId peerLink peerDim peerDir
  else s.trainFail l

def execRetrainComplete (link : Nat) (good : Bool) (peerId peerLink peerDim : Nat) (peerDir : Bool) (s : State) :
    Host.Outcome State Fault Refusal :=
  if 32 ≤ link then .fault .noSuchUnit else .next (s.trained link good peerId peerLink peerDim peerDir).settle

/-! ### Registers (R364, R398) -/

/-- QUOIN.STATUS.CFG_REJECT set. -/
def State.quoinReject (s : State) : State := s.raiseFlag 0x0A .quoin 0x18 0 .quoin 0x18 32 32

/-- A configuration word stored in flash. -/
def State.storeQuoin (s : State) (k o : Nat) : State :=
  { s with flash := { s.flash with quoin := mput s.flash.quoin k (s.reg .quoin 0 o) } }

/-- A write of QUOIN.TOPO (R364). -/
def State.writeTopo (s : State) (v : W64) : State :=
  if s.idValid then s.quoinReject else (s.plainWrite .quoin 0 0 v).storeQuoin 0 0

def execQuoinTopoWrite (path : RegPath) (v : W64) (s : State) : Host.Outcome State Fault Refusal :=
  regWriteBy path .quoin 0 s fun s => s.writeTopo v

/-- A write of QUOIN.LINK_CFG[l] (R364): DIM, DIR and EN only while the identifier is not valid, and not to a dimension of
extent 1; OSSEL at any time. -/
def State.writeLinkCfg (s : State) (l : Nat) (v : W64) : State :=
  let o := 0x100 + 8 * l
  if s.idValid || s.extent (fld v 2 1) == 1 then (s.setFld .quoin 0 o 4 1 (fld v 4 4)).quoinReject
  else ((s.plainWrite .quoin 0 o v).storeQuoin (l + 1) o).applyEn l

def execQuoinLinkCfgWrite (path : RegPath) (link : Nat) (v : W64) (s : State) : Host.Outcome State Fault Refusal :=
  if 32 ≤ link then .fault .noSuchUnit
  else regWriteBy path .quoin (0x100 + 8 * link) s fun s => s.writeLinkCfg link v

/-- A write of QUOIN.CFG (R398). -/
def State.writeQuoinCfg (s : State) (v : W64) : State :=
  if fld v 15 0 = 0 ∨ fld v 23 16 = 0 then s.quoinReject else s.plainWrite .quoin 0 8 v

def execQuoinCfgWrite (path : RegPath) (v : W64) (s : State) : Host.Outcome State Fault Refusal :=
  regWriteBy path .quoin 8 s fun s => s.writeQuoinCfg v

/-- A write of QUOIN.UPD_SEED: zero loads 1. -/
def State.writeUpdSeed (s : State) (v : W64) : State := s.plainWrite .quoin 0 0x10 (if v = 0 then 1 else v)

/-! ### Loop-backs (R397, R455) -/

/-- A loop-back started by an image of QUOIN.LOOP_CTL. -/
def State.startQuoinLoop (s : State) (v : W64) : Except Status State :=
  if s.regFld .quoin 0 0x400 8 1 = 1 then .error St.opState
  else if s.linkState (fld v 4 0) ≠ LinkSt.off then .error St.bistDenied
  else if fld v 31 16 = 0 ∨ 60000 < fld v 31 16 then .error St.descriptorInvalid
  else
    let s := ((s.plainWrite .quoin 0 0x400 v).setFld .quoin 0 0x400 8 1 1).setFld .quoin 0 0x400 9 2 0
    .ok (s.setLinkState (fld v 4 0) LinkSt.loop)

def execQuoinLoopbackStart (r : MReq) (s : State) : Host.Outcome State Fault Refusal :=
  manage loopRule r s fun s =>
    if r.num Key.interface = 1 then s.loopback r 1 (s.startQuoinLoop ((r.item? Key.loop).getD 0))
    else s.refuse r St.descriptorInvalid

/-- QUOIN_LOOPBACK_END with the errors of the run. -/
def State.endQuoinLoop (s : State) (errors : W32) : State :=
  if s.regFld .quoin 0 0x400 8 1 = 0 then s
  else
    let s := (s.setFld .quoin 0 0x400 8 1 0).setFld .quoin 0 0x400 9 2 (1 + 2 * b2n (errors == 0))
    let s := s.setFld .quoin 0 0x400 32 32 errors.toNat
    (s.setLinkState (s.regFld .quoin 0 0x400 0 5) LinkSt.off).answerLoop 1 (s.reg .quoin 0 0x400)

def execQuoinLoopbackEnd (errors : W32) (s : State) : Host.Outcome State Fault Refusal := .next (s.endQuoinLoop errors)

end Sys2Proof.Machine
end

