-- ==== Sys2Proof/Machine/Collective.lean ====
section
/-! DEFINITION. The service window's commands (R377 to R379), collectives (R380 to R384), parameter update (R385 to R391)
and the Ossel format (R392 to R394). Members exchange contributions directly [log 40]. -/

namespace Sys2Proof.Machine

/-! ### The interface's own accesses -/

/-- The keys of a range of local memory that the interface reads or writes through a context's tables, or the fault of its
first byte that fails; a page of another place is no local memory. -/
def ioKeys (s : State) (c : Nat) (k : Kind) (va : W64) : Nat → Except (Status × W64) (List Nat)
  | 0 => .ok []
  | n + 1 => match s.resolve c k va with
    | .error st => .error (st, va)
    | .ok l => match l.key? with
      | none => .error (St.pageAccess, va)
      | some a => match ioKeys s c k (va + 1) n with
        | .error e => .error e
        | .ok as => .ok (a :: as)

/-- Bytes read by the interface. -/
def State.ioRead (s : State) (c : Nat) (va : W64) (n : Nat) : Except (Status × W64) (List Byte) :=
  match ioKeys s c .rd va n with
  | .ok ks => .ok (ks.map s.homeByte)
  | .error e => .error e

/-- Bytes written by the interface, or the access fault (R34) as one found after issue by the doorbell's press (R98). -/
def State.ioWrite (s : State) (n c : Nat) (pc va : W64) (bs : List Byte) : State :=
  match ioKeys s c .wr va bs.length with
  | .ok ks => s.hostWrite (ks.zip bs)
  | .error e => s.late n c e.1 5 pc e.2

/-- One word of the result record (R379). -/
def State.resultWord (s : State) (n c : Nat) (pc result : W64) (i : Nat) (v : W64) : State :=
  s.ioWrite n c pc (result + wn (8 * i)) (toBytes 8 v.toNat)

/-- The add of 1 to DONE (R379). -/
def State.doneWord (s : State) (n c : Nat) (pc done : W64) : State :=
  match ioKeys s c .wr done 8 with
  | .ok (k :: _) => s.add64 k 1
  | .ok [] => s
  | .error e => s.late n c e.1 5 pc e.2

/-- The end of a command: status and VALUE, then the add (R379). -/
def State.endCommand (s : State) (n c : Nat) (pc result done : W64) (st : Status) (value : Nat) : State :=
  (s.resultWord n c pc result 1 (wn (st.toNat + (value <<< 32)))).doneWord n c pc done

/-! ### Doorbells (R377, R378) -/

/-- RESULT and DONE of a command. -/
def svcWord (cmd : List W64) (i : Nat) : W64 := nth 0 cmd i

/-- A command refused: ACCEPTED = 0, the status, the add (R379). -/
def State.refuseCmd (s : State) (d : Doorbell) (cmd : List W64) (st : Status) : State :=
  (s.resultWord d.press d.ctx d.pc (svcWord cmd 1) 0 0).endCommand d.press d.ctx d.pc (svcWord cmd 1) (svcWord cmd 2) st 0

/-- A command accepted and ended at once (R379). -/
def State.doneCmd (s : State) (d : Doorbell) (cmd : List W64) : State :=
  (s.resultWord d.press d.ctx d.pc (svcWord cmd 1) 0 0x10000).endCommand d.press d.ctx d.pc (svcWord cmd 1)
    (svcWord cmd 2) St.ok 0

/-- Whether the words that every command has are well formed (R377, R378). -/
def cmdOk (d : Doorbell) (cmd : List W64) : Bool :=
  d.addr.toNat % 64 == 0 && decide (1 ≤ (svcWord cmd 0).toNat) && decide ((svcWord cmd 0).toNat ≤ 4) &&
    (svcWord cmd 1).toNat % 8 == 0 && (svcWord cmd 2).toNat % 8 == 0

/-- The first doorbell of a list that satisfies `f`, with its place. -/
def firstBell (f : Doorbell → Bool) : List Doorbell → Nat → Option (Nat × Doorbell)
  | [], _ => none
  | d :: ds, i => if f d then some (i, d) else firstBell f ds (i + 1)

/-- DOORBELL: the interface reads the command of the context's oldest doorbell; a malformed one is refused, and one that
cannot be read is a fault found after issue. -/
def State.readBell (s : State) (i : Nat) (d : Doorbell) : State :=
  match s.ioRead d.ctx d.addr 64 with
  | .error e => { s with doorbells := s.doorbells.eraseIdx i }.late d.press d.ctx e.1 5 d.pc e.2
  | .ok bs =>
    let cmd := toWords 8 bs
    if cmdOk d cmd then { s with doorbells := s.doorbells.set i { d with cmd := some cmd } }
    else { s with doorbells := s.doorbells.eraseIdx i }.refuseCmd d cmd St.descriptorInvalid

def execDoorbell (ctx : Nat) (s : State) : Host.Outcome State Fault Refusal :=
  match firstBell (fun d => d.ctx == ctx && d.cmd.isNone) s.doorbells 0 with
  | some (i, d) => .next (s.readBell i d).settle
  | none => .fault .noSuchUnit

/-- A command row: the context's oldest command that was read, which must be the row's. -/
def onCommand (ctx op : Nat) (s : State) (f : State → Doorbell → List W64 → State) : Host.Outcome State Fault Refusal :=
  match firstBell (fun d => d.ctx == ctx && d.cmd.isSome) s.doorbells 0 with
  | some (i, d) => match d.cmd with
    | some cmd =>
      if (svcWord cmd 0).toNat = op then .next (f { s with doorbells := s.doorbells.eraseIdx i } d cmd).settle
      else .fault .rowMismatch
    | none => .fault .noSuchUnit
  | none => .fault .noSuchUnit

/-! ### The update table (R385, R386) -/

def State.updEntry (s : State) (i : Nat) : UpdEntry := mget {} s.updTable i
def State.setUpdEntry (s : State) (i : Nat) (e : UpdEntry) : State := { s with updTable := mset {} s.updTable i e }

/-- INDEX of a table command. -/
def updIndex (cmd : List W64) : Nat := fld (svcWord cmd 3) 14 0

/-- Whether an entry is another context's (R386). -/
def State.updForeign (s : State) (i c : Nat) : Bool := (s.updEntry i).valid && (s.updEntry i).owner != c

/-- Whether a running update collective names an entry (R386). -/
def State.updNamed (s : State) (i : Nat) : Bool := s.colls.any fun e => e.2.upd && e.2.items.any fun t => t.1 == i

/-- The entry of an image, and whether the image may be written (R385, R386). -/
def updImage (cmd : List W64) (c : Nat) : UpdEntry :=
  let w := svcWord cmd 4
  { valid := flag w 0, freeze := flag w 1, sr := flag w 2, curve := flag w 3, wfmt := fld w 7 4, group := fld w 15 8
    owner := c, w := svcWord cmd 5, elems := fld (svcWord cmd 6) 39 0 }
def updImageOk (cmd : List W64) : Bool :=
  let w := svcWord cmd 4
  fld w 63 28 == 0 && fld (svcWord cmd 5) 63 48 == 0 && fld (svcWord cmd 6) 63 40 == 0 && svcWord cmd 7 == 0 &&
    (fld w 7 4 == Fmt.fp32 || fld w 7 4 == Fmt.bf16) && fld (svcWord cmd 6) 39 0 != 0 &&
    decide (fld (svcWord cmd 6) 39 0 ≤ 2 ^ 32) && (svcWord cmd 5).toNat % 64 == 0

def State.updSet (s : State) (d : Doorbell) (cmd : List W64) : State :=
  let i := updIndex cmd
  if fld (svcWord cmd 3) 63 15 ≠ 0 then s.refuseCmd d cmd St.descriptorInvalid
  else if s.updForeign i d.ctx || !updImageOk cmd then s.refuseCmd d cmd St.updateTableInvalid
  else if s.updNamed i then s.refuseCmd d cmd St.opState
  else (s.setUpdEntry i (updImage cmd d.ctx)).doneCmd d cmd

def execUpdSet (ctx : Nat) (s : State) : Host.Outcome State Fault Refusal := onCommand ctx 2 s fun s d cmd => s.updSet d cmd

def State.updFreeze (s : State) (d : Doorbell) (cmd : List W64) : State :=
  let i := updIndex cmd
  if flag (svcWord cmd 3) 15 || fld (svcWord cmd 3) 63 17 != 0 then s.refuseCmd d cmd St.descriptorInvalid
  else if s.updForeign i d.ctx then s.refuseCmd d cmd St.updateTableInvalid
  else (s.setUpdEntry i { s.updEntry i with freeze := flag (svcWord cmd 3) 16 }).doneCmd d cmd

def execUpdFreeze (ctx : Nat) (s : State) : Host.Outcome State Fault Refusal :=
  onCommand ctx 3 s fun s d cmd => s.updFreeze d cmd

def State.updClear (s : State) (d : Doorbell) (cmd : List W64) : State :=
  let i := updIndex cmd
  if fld (svcWord cmd 3) 63 15 ≠ 0 then s.refuseCmd d cmd St.descriptorInvalid
  else if s.updForeign i d.ctx then s.refuseCmd d cmd St.updateTableInvalid
  else if s.updNamed i then s.refuseCmd d cmd St.opState
  else (s.setUpdEntry i {}).doneCmd d cmd

def execUpdClear (ctx : Nat) (s : State) : Host.Outcome State Fault Refusal :=
  onCommand ctx 4 s fun s d cmd => s.updClear d cmd

/-! ### Groups and shards (R381, R382, R388) -/

/-- The devices of a forme's member presses at every depth (R381). -/
def State.formeDevices (s : State) : Nat → Nat → List Nat
  | 0, _ => []
  | fuel + 1, h => (s.forme h).members.flatMap fun m =>
    if m.isForme then s.formeDevices fuel m.index else [m.device]

/-- The group of a forme: distinct devices, rising. -/
def State.collGroup (s : State) (h : Nat) : List Nat := sortBy (fun a b => decide (a ≤ b)) (dedup (s.formeDevices 5 h))

/-- P, the rank of a device, and this device's rank. -/
def Collective.size (c : Collective) : Nat := c.group.length
def Collective.rankOf (c : Collective) (dev : Nat) : Nat := c.group.idxOf dev

/-- First element and number of elements of a shard (R382, R388). -/
def Collective.shard (c : Collective) (r : Nat) : Nat × Nat :=
  if c.upd then
    (sumL ((c.items.takeWhile fun t => t.2.1 != r).map fun t => t.2.2),
      sumL ((c.items.filter fun t => t.2.1 == r).map fun t => t.2.2))
  else
    let p := c.size
    (r * c.elems / p, (r + 1) * c.elems / p - r * c.elems / p)

/-- Bytes of `n` packed elements of the collective's format. -/
def Collective.bytesOf (c : Collective) (n : Nat) : Nat := ceilDiv (n * fmtWidth c.fmt) 8

/-- Elements of packed bytes, and packed bytes of elements over what stood there. -/
def unpackAt (w : Nat) (bs : List Byte) (n : Nat) : List Nat :=
  let v := ofBytes bs
  (List.range n).map fun i => (v >>> (w * i)) % 2 ^ w
def packOver (w : Nat) (old : List Byte) (es : List Nat) : List Byte :=
  let v := es.foldr (fun e a => a * 2 ^ w + e) 0
  let bits := w * es.length
  toBytes old.length (v + (ofBytes old >>> bits) * 2 ^ bits)

/-- Whether a collective reduces, and whether it then gathers. -/
def Collective.reduces (c : Collective) : Bool := c.kind == 0 || c.kind == 2

/-! ### Sending (R384, R392, R393) -/

/-- Chunks of the whole buffer: the second phase of an ALL_REDUCE counts on from them [log 40]. -/
def Collective.chunks (c : Collective) : Nat := ceilDiv (c.bytesOf c.elems) 0x10000

/-- A packet of a collective to a member. -/
def State.collPacket (s : State) (c : Collective) (dev typ chunk : Nat) (st : Status) (data : List Byte) : Packet :=
  { basePacket s c.ctx dev 0 data.length with
    typ := typ, addr := wn (c.collId.toNat + (chunk <<< 32)), jobTag := c.job, status := st, data := data }

/-- Bytes from offset `off` of the member's source sent to a member, `phase` chunks on. -/
def State.sendPart (s : State) (c : Collective) (dev phase off : Nat) (data : List Byte) : State :=
  (pieces 4096 off 65536 data.length).foldl (fun s q =>
    let p := s.collPacket c dev 0x10 (phase + q.1 / 0x10000) St.ok (slice data (q.1 - off) q.2)
    (s.inject { p with tag := BitVec.ofNat 32 (q.1 % 0x10000) }).1) s

/-- The record of one block of 4,096 elements, of which `es` gives those of a shard as place and value (R392, R393). Where
a value is not finite the entries are unstated. -/
def osselRecord (block k : Nat) (es : List (Nat × Num)) : List Byte :=
  let big (a b : Nat × Num) : Bool := match a.2.abs.cmp b.2.abs with
    | some .gt => true
    | some .eq => decide (a.1 ≤ b.1)
    | _ => false
  let kept := (sortBy big es).take k
  let top : Num := match kept with | e :: _ => e.2.abs | [] => .fin false 0 0
  let scale := (roundNear Fmt.fp32 (top.div (ofInt 127)).1).1
  let code (v : Num) : Nat :=
    if scale.isZero then 0
    else match (v.div scale).1 with
      | .fin n m e => (toInt Fmt.int8 0 (ofInt (max (-127) (min 127 (roundInt .nearest n m e))))).1
      | _ => Config.unstated 40 (toFloat Fmt.fp32 0 0 v).1 (toFloat Fmt.fp32 0 0 scale).1 % 256
  let body := kept.flatMap fun e => toBytes 2 e.1 ++ toBytes 1 (code e.2)
  let rec0 := toBytes 4 block ++ toBytes 2 kept.length ++ toBytes 2 0 ++ toBytes 4 (toFloat Fmt.fp32 0 0 scale).1 ++
    toBytes 4 0 ++ body
  rec0 ++ List.replicate (ceilDiv rec0.length 16 * 16 - rec0.length) 0

/-- A shard of this member's contributions sent in the Ossel format, block by block. -/
def State.sendOssel (s : State) (c : Collective) (dev first n : Nat) (es : List Nat) : State :=
  (span (first / 4096) (ceilDiv (first + n) 4096 - first / 4096)).foldl (fun s b =>
    let lo := max first (4096 * b)
    let hi := min (first + n) (4096 * b + 4096)
    let vs := (span lo (hi - lo)).map fun i => (i - 4096 * b, decodeNum c.fmt (nth 0 es (i - first)))
    let p := s.collPacket c dev 0x10 (4096 * b * (fmtWidth c.fmt / 8) / 0x10000) St.ok (osselRecord b (4 * c.osselK) vs)
    (s.inject { p with ossel := true }).1) s

/-- What a member must match (R384): its parameters in a form of the model's own [log 40]. -/
def Collective.terms (c : Collective) : List Byte :=
  toBytes 1 c.kind ++ toBytes 1 c.rop ++ toBytes 1 (b2n c.upd + 2 * b2n c.ossel) ++ toBytes 1 c.fmt ++
    toBytes 8 c.elems ++ toBytes 2 c.root ++ toBytes 2 c.items.length ++ toBytes 4 c.listCrc.toNat

/-- A control message to every other member. -/
def State.tellAll (s : State) (c : Collective) (st : Status) (data : List Byte) : State :=
  (c.group.filter (· != s.myId)).foldl (fun s d => (s.inject (s.collPacket c d 0x11 0 st data)).1) s

/-! ### The end of a collective -/

/-- A collective ends: the result record, DONE, the final record; an update collective's carries VALUE (R379, R391). -/
def State.endColl (s : State) (h : Nat) (c : Collective) (st : Status) : State :=
  let s := { s with colls := mdel s.colls h }
  let s := s.endCommand c.press c.ctx c.pc c.result c.done st c.stepped
  s.endLong h st (if c.upd then [(Key.value, wn c.stepped)] else [])

/-- COLLECTIVE_MISMATCH, handled as R98 states (R384). -/
def State.mismatch (s : State) (h : Nat) (c : Collective) : State :=
  (s.endColl h c St.collectiveMismatch).late c.press c.ctx St.collectiveMismatch 5 c.pc 0

/-- A collective cancelled: CANCELLED here, COLLECTIVE_MISMATCH at the others (R318). -/
def State.cancelColl (s : State) (h : Nat) (c : Collective) : State :=
  (s.tellAll c St.cancelled []).endColl h c St.cancelled

/-! ### Reduction (R383) -/

/-- One element reduced over the contributions, in an order that is free (R71, R383). -/
def Collective.combine (c : Collective) (free : Nat) (vs : List Nat) : Nat :=
  match vs with
  | [] => 0
  | [v] => v
  | v :: rest =>
    if c.fmt = Fmt.int32 then
      rest.foldl (fun a b =>
        if c.rop = 0 then (a + b) % 2 ^ 32
        else if (decide (sext 32 b < sext 32 a)) = (c.rop == 1) then b else a) v
    else
      let f (a b : Num) : Num × Flags :=
        if c.rop = 0 then a.add b else if a.isNan || b.isNan then (.nan, 0)
        else (if c.rop = 1 then a.min b else a.max b, 0)
      (toFmt c.fmt 0 0 (freeFold f c.fmt free vs.length (vs.map (decodeNum c.fmt))).1).1

/-- The value of one element that a member contributed: from its bytes, or from its Ossel records rounded into FMT. -/
def Collective.contribution (c : Collective) (q i : Nat) : Option Nat :=
  match mfind? c.sparse (q * 2 ^ 50 + i) with
  | some v => some (if c.fmt = Fmt.fp32 then v else (toFmt c.fmt 0 0 (decodeNum Fmt.fp32 v)).1)
  | none =>
    let n := fmtWidth c.fmt / 8
    (allSome ((List.range n).map fun b => mfind? c.got (q * 2 ^ 50 + i * n + b))).map ofBytes

/-- The contributions to elements `first ..` of all the other members; none where one is missing. -/
def Collective.gathered (c : Collective) (r first n : Nat) : Option (List (List Nat)) :=
  allSome ((List.range n).map fun i =>
    allSome ((((upTo c.size).filter (· != r))).map fun q => c.contribution q (first + i)))

/-- Bytes `0 .. n-1` of a stream of a member, once all have come. -/
def Collective.stream (c : Collective) (key off n : Nat) : Option (List Byte) :=
  allSome ((List.range n).map fun i => mfind? c.got (key * 2 ^ 50 + off + i))

/-- The elements `first ..` reduced: own contributions from the source, the others' received. -/
def State.reduceShard (s : State) (c : Collective) (r first n : Nat) : Option (Except (Status × W64) (List Nat × State)) :=
  match c.gathered r first n with
  | none => none
  | some os =>
    let b := fmtWidth c.fmt / 8
    match s.ioRead c.ctx (c.src + wn (first * b)) (n * b) with
    | .error e => some (.error e)
    | .ok bs =>
      let own := unpackAt (8 * b) bs n
      let es := (List.range n).map fun i => c.combine (s.free + i * 2 * c.size) (nth 0 own i :: nth [] os i)
      some (.ok (es, { s with free := s.free + n * 2 * c.size }))

/-- Elements written to the destination from an element on. -/
def State.writeDst (s : State) (c : Collective) (first : Nat) (es : List Nat) : State :=
  let w := fmtWidth c.fmt
  let va := c.dst + wn (first * w / 8)
  match s.ioRead c.ctx va (c.bytesOf es.length) with
  | .error _ => s.ioWrite c.press c.ctx c.pc va (packOver w (List.replicate (c.bytesOf es.length) 0) es)
  | .ok old => s.ioWrite c.press c.ctx c.pc va (packOver w old es)

/-! ### The update engine (R389 to R391) -/

/-- Curve of a group as its points; none where it is not valid (R389). -/
def State.curvePoints (s : State) (c : Nat) (base : W64) (g : Nat) : Option (List (Nat × Nat)) :=
  match s.ioRead c (base + wn (1024 * g)) 1024 with
  | .error _ => none
  | .ok bs =>
    let n := ofBytes (slice bs 0 8) % 128
    let ps := (List.range n).map fun i => (ofBytes (slice bs (8 * i + 8) 4), ofBytes (slice bs (8 * i + 12) 4))
    let fin (v : Nat) : Bool := match decodeNum Fmt.fp32 v with | .fin _ _ _ => true | _ => false
    let rising := (List.range (n - 1)).all fun i => decide ((nth (0, 0) ps i).1 < (nth (0, 0) ps (i + 1)).1)
    if 1 ≤ n && decide (n ≤ 64) && rising && ps.all fun p => fin p.2 then some ps else none

/-- The step size at a step count (R389). -/
def curveEta (ps : List (Nat × Nat)) (step : Nat) : Num :=
  let n := ps.length
  let eta (i : Nat) : Num := decodeNum Fmt.fp32 (nth (0, 0) ps i).2
  let at_ (i : Nat) : Nat := (nth (0, 0) ps i).1
  let rn (v : Num) : Num := (roundNear Fmt.fp32 v).1
  if step ≤ at_ 0 then eta 0
  else if at_ (n - 1) ≤ step then eta (n - 1)
  else
    let k := (ps.takeWhile fun p => decide (p.1 ≤ step)).length - 1
    let f := rn ((rn (ofInt (step - at_ k : Nat))).div (rn (ofInt (at_ (k + 1) - at_ k : Nat)))).1
    rn ((eta k).add (rn ((rn ((eta (k + 1)).sub (eta k)).1).mul f).1)).1

/-- The step size of an entry (R389). -/
def State.etaOf (s : State) (c : Collective) (e : UpdEntry) : Num :=
  if e.curve then match s.curvePoints c.ctx c.curve e.group with
    | some ps => curveEta ps c.step
    | none => decodeNum Fmt.fp32 c.eta.toNat
  else decodeNum Fmt.fp32 c.eta.toNat

/-- `n` draws of the update engine's generator, in a free order (R57, R390). -/
def State.updDraws (s : State) (n : Nat) : List Nat × State :=
  let (l, e) := srDraws n (s.reg .quoin 0 0x10)
  (shuffle s.free n l, { s.setReg .quoin 0 0x10 e with free := s.free + n })

/-- One tensor stepped: w − η·g formed exactly and rounded once, or skipped where it is frozen (R390). -/
def State.stepTensor (s : State) (c : Collective) (idx : Nat) (gs : List Nat) : State :=
  let e := s.updEntry idx
  if e.freeze then s.bump .quoin 0 0x28 32 32 1
  else
    let b := fmtWidth e.wfmt / 8
    match s.ioRead e.owner e.w (gs.length * b) with
    | .error x => s.late c.press c.ctx x.1 5 c.pc x.2
    | .ok bs =>
      let ws := unpackAt (8 * b) bs gs.length
      let sr := e.sr && e.wfmt == Fmt.bf16
      let eta := s.etaOf c e
      let (rs, s) := if sr then s.updDraws gs.length else ([], s)
      let nc : BitVec 4 := if sr then 2 else 0
      let out := (List.range gs.length).flatMap fun i =>
        let v := ((decodeNum e.wfmt (nth 0 ws i)).sub (eta.mul (decodeNum c.fmt (nth 0 gs i))).1).1
        toBytes b (toFmt e.wfmt nc (nth 0 rs i) v).1
      (s.ioWrite c.press e.owner c.pc e.w out).bump .quoin 0 0x28 0 32 1

/-- The tensors of this device that are not yet stepped, in list order, with the element where each begins. -/
def Collective.ownTensors (c : Collective) (r : Nat) : List (Nat × Nat × Nat) :=
  let all := c.items.foldl (fun (a : List (Nat × Nat × Nat) × Nat) t =>
    (if t.2.1 = r then a.1 ++ [(t.1, a.2, t.2.2)] else a.1, a.2 + t.2.2)) ([], 0)
  all.1.drop c.stepped

/-- The engine steps its tensors in list order as far as their gradients are reduced (R390, R391). -/
def stepTensors (h r : Nat) : List (Nat × Nat × Nat) → State → State
  | [], s => match mfind? s.colls h with
    | some c => s.endColl h c St.ok
    | none => s
  | (idx, first, n) :: ts, s => match mfind? s.colls h with
    | none => s
    | some c => match s.reduceShard c r first n with
      | none => s
      | some (.error e) => s.late c.press c.ctx e.1 5 c.pc e.2
      | some (.ok (gs, s)) =>
        let s := s.stepTensor c idx gs
        stepTensors h r ts { s with colls := mput s.colls h { c with stepped := c.stepped + 1 } }

/-! ### The course of a collective (R384) -/

/-- Whether the link that leads to a device has OSSEL = 1; on any other a contribution is sent dense (R393). -/
def State.ossels (s : State) (dev : Nat) : Bool :=
  match s.route (basePacket s 0 dev 0 0) true with
  | some (l, _) => s.linkOssel l
  | none => false

/-- This member's contributions sent to the others, once all have met. -/
def State.sendMine (s : State) (c : Collective) : State :=
  let r := c.rankOf s.myId
  let others := (upTo c.size).filter (· != r)
  let dev (q : Nat) : Nat := nth 0 c.group q
  let fail (e : Status × W64) : State := s.late c.press c.ctx e.1 5 c.pc e.2
  if c.reduces then
    let b := fmtWidth c.fmt / 8
    match s.ioRead c.ctx c.src (c.elems * b) with
    | .error e => fail e
    | .ok bs => others.foldl (fun s q =>
        let (first, n) := c.shard q
        let part := slice bs (first * b) (n * b)
        if c.ossel && s.ossels (dev q) then s.sendOssel c (dev q) first n (unpackAt (8 * b) part n)
        else s.sendPart c (dev q) 0 (first * b) part) s
  else
    let n := if c.kind = 1 then (c.shard r).2 else if r = c.root then c.elems else 0
    match s.ioRead c.ctx c.src (c.bytesOf n) with
    | .error e => fail e
    | .ok bs => others.foldl (fun s q => s.sendPart c (dev q) 0 0 bs) s

/-- A gathered buffer: each member's elements in rank order, this member's own from `own`. -/
def Collective.assemble (c : Collective) (r : Nat) (own : List Nat) (key : Nat → Nat) (off : Nat → Nat) :
    Option (List Nat) :=
  (allSome ((upTo c.size).map fun q =>
    let n := (c.shard q).2
    if q = r then some own else (c.stream (key q) (off q) (c.bytesOf n)).map fun bs => unpackAt (fmtWidth c.fmt) bs n)).map
    fun l => l.flatMap id

/-- What has come of a collective taken as far as it goes. -/
def State.moveColl (s : State) (h : Nat) (c : Collective) : State :=
  let r := c.rankOf s.myId
  let (first, n) := c.shard r
  let w := fmtWidth c.fmt
  let fail (e : Status × W64) : State := s.late c.press c.ctx e.1 5 c.pc e.2
  let finish (s : State) : State := match mfind? s.colls h with | some c => s.endColl h c St.ok | none => s
  let gather (s : State) (c : Collective) (own : List Nat) (key off : Nat → Nat) : State :=
    match c.assemble r own key off with
    | none => s
    | some es => finish (s.writeDst c 0 es)
  if c.upd then stepTensors h r (c.ownTensors r) s
  else if c.kind = 0 then match s.reduceShard c r first n with
    | none => s
    | some (.error e) => fail e
    | some (.ok (es, s)) => finish (s.writeDst c 0 es)
  else if c.kind = 2 then
    let b := w / 8
    let off (q : Nat) : Nat := (c.shard q).1 * b
    let key (q : Nat) : Nat := c.size + q
    match c.reduced with
    | some es => gather s c es key off
    | none => match s.reduceShard c r first n with
      | none => s
      | some (.error e) => fail e
      | some (.ok (es, s)) =>
        let c := { c with reduced := some es }
        let bs := es.flatMap fun e => toBytes b e
        let s := ((upTo c.size).filter (· != r)).foldl (fun s q => s.sendPart c (nth 0 c.group q) c.chunks (first * b) bs)
          { s with colls := mput s.colls h c }
        gather s c es key off
  else if c.kind = 1 then match s.ioRead c.ctx c.src (c.bytesOf n) with
    | .error e => fail e
    | .ok bs => gather s c (unpackAt w bs n) (fun q => q) (fun _ => 0)
  else if r = c.root then match s.ioRead c.ctx c.src (c.bytesOf c.elems) with
    | .error e => fail e
    | .ok bs => finish (s.writeDst c 0 (unpackAt w bs c.elems))
  else match c.stream c.root 0 (c.bytesOf c.elems) with
    | none => s
    | some bs => finish (s.writeDst c 0 (unpackAt w bs c.elems))

/-- A collective looked at again: matching, the sending of contributions, the work (R384). A suspended one stands
still. -/
def State.advanceColl (s : State) (h : Nat) : State :=
  match mfind? s.colls h with
  | none => s
  | some c =>
    if (s.longop h).st ≠ .running ∨ (s.ctx c.ctx).st ≠ .active then s
    else if c.sent then s.moveColl h c
    else if (c.group.filter (· != s.myId)).any fun d => !c.met.contains d then s
    else if c.differs then s.mismatch h c
    else
      let c := { c with sent := true }
      let s := { s with colls := mput s.colls h c }.sendMine c
      match mfind? s.colls h with
      | some c => s.moveColl h c
      | none => s

/-! ### COLL and COLL_CTL -/

/-- The active collective of a packet (R384). -/
def State.collOf (s : State) (p : Packet) : Option (Nat × Collective) :=
  s.colls.find? fun e => e.2.job == p.jobTag && e.2.collId == p.addr.setWidth 32 && e.2.group.contains p.src

/-- A matching, refusal or cancel message: kept until this device's own command comes, or taken (R384, R388). -/
def State.control (s : State) (p : Packet) : State :=
  match s.collOf p with
  | none => { s with collEarly := s.collEarly ++ [p] }
  | some (h, c) =>
    if p.status ≠ 0 then s.mismatch h c
    else
      let c := { c with met := if c.met.contains p.src then c.met else c.met ++ [p.src]
                        differs := c.differs || p.data != c.terms }
      { s with colls := mput s.colls h c }.advanceColl h

def execCollCtl (link : Nat) (p : Packet) (s : State) : Host.Outcome State Fault Refusal :=
  onPacket link p 0x11 s false fun s => (s.control p).settle

/-- A record of the Ossel format expanded to FP32 (R392): every element of its block that lies in this member's shard. -/
def Collective.expand (c : Collective) (r q : Nat) (bs : List Byte) : Map Nat :=
  let block := ofBytes (slice bs 0 4)
  let k := ofBytes (slice bs 4 2)
  let scale := decodeNum Fmt.fp32 (ofBytes (slice bs 8 4))
  let (first, n) := c.shard r
  let lo := max first (4096 * block)
  let hi := min (first + n) (4096 * block + 4096)
  let entry (j : Nat) : Nat × Num :=
    let o := 16 + 3 * j
    (ofBytes (slice bs o 2) % 4096,
      (roundNear Fmt.fp32 ((ofInt (sext 8 (ofBytes (slice bs (o + 2) 1)))).mul scale).1).1)
  let es := (List.range k).map entry
  (span lo (hi - lo)).foldl (fun m i =>
    let v := (es.filter fun e => e.1 + 4096 * block == i).foldl (fun a e => (roundNear Fmt.fp32 (a.add e.2).1).1)
      (.fin false 0 0 : Num)
    mput m (q * 2 ^ 50 + i) (toFloat Fmt.fp32 0 0 v).1) c.sparse

/-- A part of a chunk taken in (R384): its place is its chunk and, in TAG, its offset there [log 40]. -/
def Collective.takePart (c : Collective) (me : Nat) (p : Packet) : Collective :=
  let q := c.rankOf p.src
  let n := (p.addr >>> 32).toNat
  if p.ossel then { c with sparse := c.expand (c.rankOf me) q p.data }
  else
    let second := c.kind == 2 && decide (c.chunks ≤ n)
    let key := if second then c.size + q else q
    let off := (if second then n - c.chunks else n) * 0x10000 + p.tag.toNat
    { c with got := (List.range p.data.length).foldl (fun m i => mput m (key * 2 ^ 50 + off + i) (nth 0 p.data i)) c.got }

/-- COLL: a part for a collective that is not active is discarded. -/
def State.collPart (s : State) (p : Packet) : State :=
  match s.collOf p with
  | none => s
  | some (h, c) => { s with colls := mput s.colls h (c.takePart s.myId p) }.advanceColl h

def execColl (link : Nat) (p : Packet) (s : State) : Host.Outcome State Fault Refusal :=
  onPacket link p 0x10 s false fun s => (s.collPart p).settle

/-- COLLECTIVE_CHUNK_TIMEOUT: after matching, a member that waits for a chunk ends with REMOTE_UNREACHABLE (R384). -/
def State.chunkTimeout (s : State) (h : Nat) (c : Collective) : State :=
  if c.sent && decide ((s.longop h).st = .running) then s.endColl h c St.remoteUnreachable else s

def execCollectiveChunkTimeout (handle : Nat) (s : State) : Host.Outcome State Fault Refusal :=
  match mfind? s.colls handle with
  | some c => .next (s.chunkTimeout handle c).settle
  | none => .fault .noSuchUnit

/-! ### COLLECTIVE (R380, R381, R388, R394) -/

/-- The collective that a command describes. -/
def newColl (s : State) (d : Doorbell) (cmd : List W64) : Collective :=
  let w := svcWord cmd 3
  let x := svcWord cmd 6
  { ctx := d.ctx, press := d.press, pc := d.pc, job := (s.ctx d.ctx).jobTag, collId := (w >>> 32).setWidth 32
    kind := fld w 12 10, rop := fld w 14 13, upd := flag w 15, fmt := fld w 19 16, ossel := flag w 20
    osselK := fld x 63 56, src := svcWord cmd 4, dst := svcWord cmd 5, elems := fld x 39 0, root := fld x 55 40
    result := svcWord cmd 1, done := svcWord cmd 2, group := s.collGroup (fld w 9 0) }

/-- Whether the command is well formed (R380). -/
def collWellFormed (c : Collective) (cmd : List W64) : Bool :=
  fld (svcWord cmd 3) 31 21 == 0 && decide (c.kind ≤ 3) && (!c.upd || (c.kind == 0 && c.dst == 0)) &&
    (c.upd || svcWord cmd 7 == 0) && (!c.ossel || c.osselK != 0) && (c.kind != 3 || decide (c.root < max 1 c.size))

/-- FMT and ROP under R383 and R388. -/
def collFormatOk (c : Collective) : Bool :=
  let float := c.fmt == Fmt.fp32 || c.fmt == Fmt.bf16
  if !c.reduces then true
  else if c.upd then c.rop == 0 && float
  else if c.rop = 0 then float || c.fmt == Fmt.fp16 || c.fmt == Fmt.int32
  else if c.rop = 3 then false
  else float || c.fmt == Fmt.int32

/-- OSSEL under R394: every link in service has it. -/
def State.osselOk (s : State) (c : Collective) : Bool :=
  !c.ossel || (c.reduces && c.rop == 0 && (c.fmt == Fmt.fp32 || c.fmt == Fmt.bf16) &&
    (upTo 32).all fun l => !s.inService l || s.linkOssel l)

/-- The update record and list read into a collective: a fault, a refusal, or the collective (R387, R388). -/
def State.readUpdate (s : State) (c : Collective) (urec : W64) : Except (Status × W64) (Except Status Collective) :=
  match s.ioRead c.ctx urec 64 with
  | .error e => .error e
  | .ok bs =>
    let ws := toWords 8 bs
    let w1 := nth 0 ws 1
    let n := fld w1 14 0
    if fld w1 31 15 ≠ 0 || n == 0 || (ws.drop 4).any (· != 0) then .ok (.error St.descriptorInvalid)
    else match s.ioRead c.ctx (nth 0 ws 0) (8 * n) with
      | .error e => .error e
      | .ok lb =>
        let items := (toWords n lb).map fun w => (fld w 14 0, fld w 31 16, fld w 63 32 + 1)
        let clean := (toWords n lb).all fun w => !flag w 15
        let ranks : List Nat := items.map fun t => t.2.1
        let rising := (List.range (n - 1)).all fun i => decide (nth 0 ranks i ≤ nth 0 ranks (i + 1))
        let c' := { c with
          items := items, listCrc := (w1 >>> 32).setWidth 32, eta := (nth 0 ws 2).setWidth 32
          step := fld (nth 0 ws 2) 63 32, curve := nth 0 ws 3 }
        let mine := items.filter fun t => t.2.1 == c.rankOf s.myId
        let good (t : Nat × Nat × Nat) : Bool :=
          let e := s.updEntry t.1
          e.valid && e.owner == c.ctx && e.elems == t.2.2 &&
            (!e.curve || (s.curvePoints c.ctx c'.curve e.group).isSome)
        if clean && rising && decide (crc32c lb = c'.listCrc) && sumL (items.map fun t => t.2.2) == c.elems &&
            mine.all good then .ok (.ok c')
        else .ok (.error St.updateTableInvalid)

/-- The refusal of a collective before its update record is looked at (R381). -/
def State.collRefusal (s : State) (c : Collective) (cmd : List W64) : Option Status :=
  let h := fld (svcWord cmd 3) 9 0
  if !collWellFormed c cmd then some St.descriptorInvalid
  else if !mhas s.formes h || (s.forme h).ctx != c.ctx || !c.group.contains s.myId then some St.formeInvalid
  else if s.colls.any fun e => e.2.job == c.job && e.2.collId == c.collId then some St.opState
  else if s.newHandle.isNone then some St.queueFull
  else if !collFormatOk c then some St.collectiveFormat
  else if !s.osselOk c then some St.osselDisabled
  else none

/-- A collective accepted: its handle in the result record, its match sent, early messages taken (R379, R384). -/
def State.acceptColl (s : State) (c : Collective) : State :=
  match s.newHandle with
  | none => s
  | some h =>
    let s := { s with
      longops := mput s.longops h { kind := .collective c.ctx c.collId, session := noSession, ctx := some c.ctx }
      colls := mput s.colls h c }
    let s := s.resultWord c.press c.ctx c.pc c.result 0 (wn (h + 0x10000))
    let s := s.tellAll c St.ok c.terms
    let mine (p : Packet) : Bool := p.jobTag == c.job && p.addr.setWidth 32 == c.collId && c.group.contains p.src
    let early := s.collEarly.filter mine
    let s := { s with collEarly := s.collEarly.filter fun p => !mine p }
    (early.foldl (fun s p => s.control p) s).advanceColl h

/-- COLLECTIVE: refused into its result record, or accepted. A refused update tells the other members (R388). -/
def State.collective (s : State) (d : Doorbell) (cmd : List W64) : State :=
  let c := newColl s d cmd
  match s.collRefusal c cmd with
  | some st => s.refuseCmd d cmd st
  | none =>
    if !c.upd then s.acceptColl c
    else match s.readUpdate c (svcWord cmd 7) with
      | .error e => s.late d.press d.ctx e.1 5 d.pc e.2
      | .ok (.error st) => (s.tellAll c st []).refuseCmd d cmd st
      | .ok (.ok c) => s.acceptColl c

def execCollective (ctx : Nat) (s : State) : Host.Outcome State Fault Refusal :=
  onCommand ctx 1 s fun s d cmd => s.collective d cmd

end Sys2Proof.Machine
end

