-- ==== Sys2Proof/Machine/Longop.lean ====
section
/-! DEFINITION. Commands on long operations and their stop points (R318 to R320), and the end of a context's teardown
(steps 7 and 8 of R315). -/

namespace Sys2Proof.Machine

/-! ### SUSPEND, RESUME, CANCEL (R319, R320) -/

def longopRule : OpRule :=
  { all := true, service := true, restricted := true, keys := [(Key.handle, true), (Key.action, true)] }

/-- Whether a session's request names a long operation that it commands (R318). -/
def State.commands (s : State) (r : MReq) : Bool :=
  mhas s.longops (r.num Key.handle) && decide (s.longSession (r.num Key.handle) = some r.session)

/-- SUSPEND: RUNNING moves to SUSPENDING. -/
def State.longSuspend (s : State) (r : MReq) : State :=
  let h := r.num Key.handle
  let o := s.longop h
  if !s.commands r then s.refuse r St.descriptorInvalid
  else if o.st ≠ .running then s.refuse r St.opState
  else (s.setLongop h { o with st := .suspending }).done r

/-- RESUME: SUSPENDED moves to RUNNING. -/
def State.longResume (s : State) (r : MReq) : State :=
  let h := r.num Key.handle
  let o := s.longop h
  if !s.commands r then s.refuse r St.descriptorInvalid
  else if o.st ≠ .suspended then s.refuse r St.opState
  else (((s.setLongop h { o with st := .running }).done r).advanceColl h).pumpBists.settle

/-- The take that a CANCEL names by its number: the oldest unfinished take with those low 16 bits whose queue is bound to
the session (R320) [log 30]. -/
def State.cancelled (s : State) (r : MReq) : Option (Nat × Take) :=
  s.takes.find? fun e => decide (e.2.st ≠ .done) && e.2.seq % 65536 == r.num Key.handle &&
    decide ((mget ({} : CmdQueue) s.queues e.2.queue).session = some r.session)

/-- CANCEL of a take (R320). -/
def State.cancelTake (s : State) (r : MReq) : State :=
  match s.cancelled r with
  | none => s.refuse r St.descriptorInvalid
  | some (k, t) => if t.st = .queued then (s.endTake k St.cancelled).done r else s.refuse r St.opState

/-- CANCEL: RUNNING, SUSPENDING or SUSPENDED moves to CANCELLING. -/
def State.longCancel (s : State) (r : MReq) : State :=
  let h := r.num Key.handle
  let o := s.longop h
  if !s.commands r then s.cancelTake r
  else if o.st = .running ∨ o.st = .suspending ∨ o.st = .suspended then
    (s.setLongop h { o with st := .cancelling }).done r
  else s.refuse r St.opState

/-- A LONGOP request with the action of its row: 0 SUSPEND, 1 RESUME, 2 CANCEL. -/
def onLongop (action : Nat) (r : MReq) (s : State) (f : State → State) : Host.Outcome State Fault Refusal :=
  manage longopRule r s fun s => if r.num Key.action = action then f s else s.refuse r St.descriptorInvalid

def execLongopSuspend (r : MReq) (s : State) : Host.Outcome State Fault Refusal :=
  onLongop 0 r s fun s => s.longSuspend r
def execLongopResume (r : MReq) (s : State) : Host.Outcome State Fault Refusal :=
  onLongop 1 r s fun s => s.longResume r
def execLongopCancel (r : MReq) (s : State) : Host.Outcome State Fault Refusal :=
  onLongop 2 r s fun s => s.longCancel r

/-! ### Stop points (R318) -/

/-- The work of a running operation to its end; a collective ends through its packets. -/
def State.finishLong (s : State) (h : Nat) (defects : List (Nat × Nat)) : State :=
  match (s.longop h).kind with
  | .modelLoad i tier => s.endLoad h i tier
  | .migrate c va pages _ => s.endMigrate h c va pages
  | .collective _ _ => s
  | .scrub _ _ _ => s.endScrub h
  | .bist _ => s.endBist h defects
  | .fwStage k n img => s.endStage h k n img

/-- The stop point of an operation that suspends: SUSPENDED, with its record. A scrub has no 2 MiB boundary before its
contexts have torn down, and stops past steps 2 and 3 of R431. -/
def State.suspendLong (s : State) (h : Nat) : State :=
  let stop (s : State) : State :=
    (s.setLongop h { s.longop h with st := .suspended }).postLong h St.suspended [] false
  match (s.longop h).kind with
  | .scrub p _ _ => if s.draining p then s else stop (s.keyScrub h)
  | _ => stop s

/-- The cancel effect of R318, and the final record. -/
def State.cancelLong (s : State) (h : Nat) : State :=
  match (s.longop h).kind with
  | .modelLoad i _ => s.dropLoad h i St.cancelled
  | .collective _ _ => match mfind? s.colls h with
    | some c => s.cancelColl h c
    | none => s.endLong h St.cancelled []
  | .scrub _ _ _ => s.cancelScrub h
  | .migrate _ _ _ _ => s.endLong h St.cancelled []
  | .bist _ => (s.endLong h St.cancelled []).pumpBists
  | .fwStage _ _ _ => s.endLong h St.cancelled []

def State.stopLong (s : State) (h : Nat) (defects : List (Nat × Nat)) : State :=
  match (s.longop h).st with
  | .running => s.finishLong h defects
  | .suspending => s.suspendLong h
  | .cancelling => s.cancelLong h
  | .suspended => s
  | .done => s

def execLongopStop (handle : Nat) (defects : List (Nat × Nat)) (s : State) : Host.Outcome State Fault Refusal :=
  if mhas s.longops handle then .next (s.stopLong handle defects).settle else .fault .noSuchUnit

/-! ### TEARDOWN_COMPLETE (steps 7 and 8 of R315) -/

/-- Whether remote and host operations of a context are outstanding (step 7), or one of its regions has still to end. -/
def State.outstanding (s : State) (c : Nat) : Bool :=
  s.regionsLeft c || (s.ctx c).remoteOut != 0 || s.requests.any fun e => e.2.ctx == c && !e.2.cause.own

/-- Every page of a context unmapped, and the requests to unmap that wait answered (R36). -/
def State.unmapAll (s : State) (c : Nat) : State :=
  let x := s.ctx c
  let s := x.pages.foldl (fun s e => s.dropPage c false e.1) s
  let s := x.large.foldl (fun s e => s.dropPage c true e.1) s
  let s := s.unmaps.foldl (fun s e =>
    if e.2.ctx = c then s.send e.2.session (.manage e.2.reqId St.ok [] [] false) else s) s
  { s with unmaps := s.unmaps.filter fun e => e.2.ctx != c }

/-- The long operations of a context cancelled (R319). -/
def State.cancelOwned (s : State) (c : Nat) : State :=
  s.longops.foldl (fun s e =>
    if e.2.ctx = some c && decide ((s.longop e.1).st ≠ .done) then s.cancelLong e.1 else s) s

/-- Streaming jobs of a context ended. -/
def State.endJobs (s : State) (c : Nat) : State :=
  let p := (s.ctx c).part
  (s.part p).jobs.foldl (fun s e => if e.2.ctx = c then s.endJob p e.1 e.2 else s) s

/-- What else names a context is dropped: formes, buffers, host windows, update-table entries, doorbells, and queues, of which one
with records to deliver belongs to no context any more (R298). -/
def State.dropOwned (s : State) (c : Nat) : State :=
  { s with
    formes := s.formes.filter fun e => e.2.ctx != c
    buffers := s.buffers.filter fun e => e.2.ctx != c
    hostwins := s.hostwins.filter fun e => e.2.ctx != c
    updTable := s.updTable.filter fun e => e.2.owner != c || !e.2.valid
    doorbells := s.doorbells.filter fun d => d.ctx != c
    queues := (s.queues.filter fun e => e.2.ctx != c || !(e.2.takes.isEmpty && e.2.records.isEmpty)).map fun e =>
      if e.2.ctx = c then (e.1, { e.2 with ctx := noContext }) else e }

/-- Step 8 of R315: the context is FREE. -/
def State.freeContext (s : State) (c : Nat) : State :=
  let st := (s.ctx c).endStatus
  let s := ((((s.cancelOwned c).endJobs c).unmapAll c).dropOwned c).setCtx c {}
  (s.bump .sched 0 0x408 0 32 1).setFld .sched 0 0x408 32 16 st.toNat

def State.teardownEnd (s : State) (c : Nat) : State :=
  if (s.ctx c).st = .teardown && !s.outstanding c then (s.freeContext c).settle else s

def execTeardownComplete (ctx : Nat) (s : State) : Host.Outcome State Fault Refusal :=
  if 4096 ≤ ctx then .fault .noSuchUnit else .next (s.teardownEnd ctx)

end Sys2Proof.Machine
end

