-- ==== Sys2Proof/Machine/Audit.lean ====
section
/-! DEFINITION. The conserved quantities, their audits, and damage to counting state (R399 to R410). -/

namespace Sys2Proof.Machine

/-! ### The quantities (R399) -/

/-- Quoin credits of a link and channel, sending and receiving side. -/
def State.quoinSend (s : State) (l vc : Nat) : Nat × Nat × Nat :=
  let x := s.link l
  (vcDepth vc, x.held vc, (mget 0 x.sent vc + 65536 - mget 0 x.creditRx vc) % 65536)
def State.quoinRecv (s : State) (l vc : Nat) : Nat × Nat × Nat :=
  let x := s.link l
  (vcDepth vc, mget 0 x.inBuf vc, (mget 0 x.freed vc + 65536 - mget 0 x.creditTx vc) % 65536)

/-- Taosh credits of a session, sending and receiving side; zeros where it is not open (R406). -/
def State.taoshSend (s : State) (n : Nat) : Nat × Nat × Nat :=
  let x := s.session n
  if s.sessionOpen n then (x.w, x.limit - x.txNew, x.txNew + x.w - x.limit) else (0, 0, 0)
def State.taoshRecv (s : State) (n : Nat) : Nat × Nat × Nat :=
  let x := s.session n
  if s.sessionOpen n then (x.w, x.rxSegs - x.rxDone, x.rxDone + x.w - x.rxLimit) else (0, 0, 0)

/-- Open regions of a partition's contexts. -/
def State.regionsOf (s : State) (p : Nat) : List Region :=
  s.chases.flatMap fun e => (e.2.regions.map (·.2)).filter fun r => (s.ctx r.ctx).part == p

/-- Folios of a partition that the table allocates. -/
def State.allocated (s : State) (p : Nat) : List Folio :=
  (s.folios.map (·.2)).filter fun x => x.part == p && (x.refs != 0 || x.frozen)

/-- Code 0x07: the folios of a size code; what open regions have set aside of the smallest counts as allocated. -/
def State.folioCount (s : State) (p code : Nat) : Nat × Nat × Nat :=
  let aside := if code = 0 then sumL ((s.regionsOf p).map (·.kFolios)) else 0
  (s.poolTotal p (Pool.folio code), s.poolFree p (Pool.folio code),
    ((s.allocated p).filter fun x => x.code == code).length + aside)

/-- Code 0x08. -/
def State.folioRefs (s : State) (p : Nat) : Nat × Nat × Nat :=
  let fs := s.allocated p
  let roots := (s.kstreams.filter fun e => e.2.part == p).length
  let snaps := sumL ((s.regionsOf p).map fun r => (r.kBound.filter fun b => b.snap.isSome).length)
  (roots + snaps + sumL (fs.map fun x => x.kids.length), sumL (fs.map (·.refs)),
    (fs.filter fun x => x.refs == 0).length)

/-- Code 0x09. -/
def State.galleySets (s : State) (p : Nat) : Nat × Nat × Nat :=
  (sumL ((upTo 8).map fun k => s.poolTotal p (Pool.galley k)), sumL ((upTo 8).map fun k => s.poolFree p (Pool.galley k)),
    (s.gsets.filter fun e => e.2.part == p).length)

/-- Code 0x0A. A stream whose RELEASE is accepted and not yet executed still holds its set. -/
def State.galleyShares (s : State) (p : Nat) : Nat × Nat × Nat :=
  ((s.galley.filter fun e => e.2.part == p && e.2.cur.isSome).length,
    sumL ((s.gsets.filter fun e => e.2.part == p).map (·.2.share)), 0)

/-- The galley commands that are accepted and not completed, on presses and in save slots. -/
def State.galleyCmds (s : State) : List GalleyCmd :=
  s.presses.flatMap fun e =>
    let slots := (match e.2.slotA with | some x => [x.st] | none => []) ++
      (match e.2.slotB with | some x => [x.st] | none => [])
    (e.2.cur :: slots).flatMap fun p => (p.ctq ++ p.ctRun).filterMap fun o => match o with
      | .galley c => some c
      | _ => none

/-- Code 0x0B. -/
def State.galleyRefs (s : State) (p : Nat) : Nat × Nat × Nat :=
  let mine := s.galley.filter fun e => e.2.part == p
  let held := (s.galleyCmds.flatMap (·.holds)).filter fun h => mhas mine h
  ((mine.filter fun e => e.2.isOpen).length + held.length, sumL (mine.map (·.2.refs)), 0)

/-- A, B and C of a quantity in a scope; none where INDEX lies outside the quantity's range. -/
def State.quantity (s : State) (q i : Nat) : Option (Nat × Nat × Nat) :=
  match q with
  | 0x01 => if i < 256 then some (s.quoinSend (i / 8) (i % 8)) else none
  | 0x02 => if i < 256 then some (s.quoinRecv (i / 8) (i % 8)) else none
  | 0x03 => if i < 1024 then some (s.taoshSend i) else none
  | 0x04 => if i < 1024 then some (s.taoshRecv i) else none
  | 0x05 => if i = 0 then some (32768, 32768 - s.nocHeld, s.nocHeld) else none
  | 0x06 => if i = 0 then some (16384, s.tokensFree, s.tokensHeld) else none
  | 0x07 => if i < 128 ∧ i % 16 < 10 then some (s.folioCount (i / 16) (i % 16)) else none
  | 0x08 => if i < 8 then some (s.folioRefs i) else none
  | 0x09 => if i < 8 then some (s.galleySets i) else none
  | 0x0A => if i < 8 then some (s.galleyShares i) else none
  | 0x0B => if i < 8 then some (s.galleyRefs i) else none
  | 0x0C => if i = 0 then some (s.atomics.toNat, s.atomicsEnd.toNat, (s.atomics - s.atomicsEnd).toNat) else none
  | 0x0D => if i ≤ 0x0D then some ((mget 0 s.sets i).toNat, (mget 0 s.incs i).toNat, 0) else none
  | _ => none

/-- PASS: the "always" identity, or B + C ≤ A for codes 0x02 and 0x04 (R410). -/
def identity (q a b c : Nat) : Bool :=
  if q = 0x02 ∨ q = 0x04 then decide (b + c ≤ a)
  else if q = 0x08 then b == a && c == 0
  else if q = 0x0A ∨ q = 0x0B ∨ q = 0x0D then b == a
  else if q = 0x0C then decide ((b + c) % 2 ^ 64 = a)
  else b + c == a

/-! ### Runs (R410) -/

/-- Whether a WALK of a code recounts, and does not run as a SNAP. -/
def walks (q : Nat) : Bool := decide (0x07 ≤ q) && decide (q ≤ 0x0B)
/-- The partition of a scope of a code that walks. -/
def scopePart (q i : Nat) : Nat := if q = 0x07 then i / 16 else i

/-- The flags of AUDIT.CTL and its three values, at the end of a run. -/
def State.loadAudit (s : State) (r : AuditRun) (refused : Bool) : State :=
  let s := ((s.setReg .audit 0 0x08 r.a).setReg .audit 0 0x10 r.b).setReg .audit 0 0x18 r.c
  let w := s.reg .audit 0 0
  { s.setReg .audit 0 0 (putFld w 25 5 (2 + 4 * b2n r.pass + 8 * b2n r.isVoid + 16 * b2n refused)) with audit := none }

/-- A run started for QTY, INDEX and MODE: refused at once, or under way with its values taken. -/
def State.startAudit (s : State) : State :=
  let q := s.regFld .audit 0 0 0 8
  let i := s.regFld .audit 0 0 8 16
  let held := walks q && s.regFld .audit 0 0 24 1 == 1 && s.liveCtxs (scopePart q i) != 0
  match s.quantity q i with
  | none => s.loadAudit {} true
  | some (a, b, c) =>
    if held then s.loadAudit {} true
    else
      let r : AuditRun :=
        { a := wn a, b := wn b, c := wn c, pass := identity q a b c, isVoid := s.voids.contains (q, i) }
      { s.setFld .audit 0 0 26 1 0 with audit := some r }

/-- A write of AUDIT.CTL: its fields, then a run where START is written and none is under way (R410). -/
def State.writeAudit (s : State) (v : W64) : State :=
  let busy := s.audit.isSome
  let s := s.plainWrite .audit 0 0 v
  if flag v 25 && !busy then s.startAudit else s

/-- Whether a write of AUDIT.CTL recounts: MODE is WALK and the code walks. The code is the one that stays after R8. -/
def State.isWalk (s : State) (v : W64) : Bool :=
  flag v 24 && walks ((s.plainWrite .audit 0 0 v).regFld .audit 0 0 0 8)

/-- An audit's write of AUDIT.CTL of the row's kind. -/
def onAudit (walk : Bool) (path : RegPath) (v : W64) (s : State) : Host.Outcome State Fault Refusal :=
  if s.isWalk v = walk then regWriteBy path .audit 0 s fun s => s.writeAudit v else .fault .rowMismatch

def execAuditSnap (path : RegPath) (v : W64) (s : State) : Host.Outcome State Fault Refusal := onAudit false path v s
def execAuditWalk (path : RegPath) (v : W64) (s : State) : Host.Outcome State Fault Refusal := onAudit true path v s

/-- AUDIT_DONE of the run under way. -/
def State.auditDone (s : State) : State :=
  match s.audit with
  | some r => s.loadAudit r false
  | none => s

def execAuditDone (s : State) : Host.Outcome State Fault Refusal := .next s.auditDone

/-! ### Damaged counting state (R407) -/

/-- What is frozen: folio, set or entry `u` of a quantity. -/
def State.freezeCount (s : State) (q u : Nat) : State :=
  if q = 0x07 ∨ q = 0x08 then s.setFolio u { s.folio u with frozen := true }
  else if q = 0x0B then s.setGentry u { s.gentry u with frozen := true }
  else s.setGset u { s.gset u with frozen := true }

/-- An uncorrectable error in counting state, which no row of the table brings: event and record, LOST, VOID, and the
recovery of the scope. -/
def State.countLost (s : State) (q i u : Nat) : State :=
  let s := s.rasError 3 St.countStateLost { cause := 0x09, loc := q + i * 256 }
  let s := { s.bump .audit 0 0x20 0 32 1 with voids := (q, i) :: s.voids.filter (· != (q, i)) }
  if q = 0x01 ∨ q = 0x02 then
    let l := i / 8
    ((s.setLinkState l LinkSt.failed).reissue l).setLinkState l LinkSt.training
  else if q = 0x03 ∨ q = 0x04 then s.endSession i
  else if walks q then s.freezeCount q u
  else s

end Sys2Proof.Machine
end

