-- ==== Sys2Proof/Machine/Boot.lean ====
section
/-! DEFINITION. The end of a run of the device (R437, R442, R448), the 24 start steps guided by the boot ledger (R435 to
R441, R443, R444), and the commands on the ledger (R442, R449, R456). -/

namespace Sys2Proof.Machine

/-! ### The ledger -/

/-- The persistent section or a record of the ledger written: the copy with the next SEQ (R443). -/
def State.writeLedger (s : State) (f : Ledger → Ledger) : State :=
  { s with ledger := { f s.ledger with seq := s.ledger.seq + 1 } }

/-- The start record of the start under way, and the ledger with it changed. -/
def State.startRec (s : State) : StartRec := s.ledger.starts.headD {}
def Ledger.modRec (l : Ledger) (f : StartRec → StartRec) : Ledger :=
  match l.starts with
  | r :: rs => { l with starts := f r :: rs }
  | [] => l

/-- The start step that runs: 0 before a start, 25 after it (BOOT.STATUS.STEP). -/
def State.bootStep (s : State) : Nat := s.regFld .boot 0 0 0 5
def State.setBootStep (s : State) (k : Nat) : State := s.setFld .boot 0 0 0 5 k
/-- Whether a start is under way, and whether its record is open. -/
def State.starting (s : State) : Bool := decide (1 ≤ s.bootStep) && decide (s.bootStep ≤ 24)
def State.recordOpen (s : State) : Bool := s.starting && decide (6 ≤ s.bootStep)

/-- A failed start counted (R440). -/
def Ledger.fail (l : Ledger) : Ledger := { l with fails := min (l.fails + 1) 255 }

/-! ### The effective limit (R459, R460) and ALERT_N (R484) -/

/-- The limits of the compute and I/O dies and of the conversion stage by step (R464). -/
def dieLimit (k : Nat) : Nat := nth 1000 [3900, 3100, 2000, 1000] k
def convLimit (k : Nat) : Nat := if k = 0 then 3900 else 2000

/-- The effective limit: the lowest in force (R459). -/
def State.effectiveW (s : State) : Nat :=
  let p := s.power
  let cap := s.regFld .pwr 0 0 0 12
  let thr := if p.byThrottle then s.regFld .pwr 0 0 16 12 else 3900
  let sag := if p.bySag then 1000 else 3900
  min (min cap thr) (min sag (min (min (dieLimit p.dieStep) (dieLimit p.ioStep)) (convLimit p.convStep)))

/-- HBM_SCALE in sixteenths (R460, R464). -/
def State.hbmScale (s : State) : Nat :=
  let w := max 4 (16 * s.effectiveW / 3900)
  min w (nth 4 [16, 8, 4] s.power.hbmStep)

/-- PWR.LIMIT as the sources stand. -/
def State.setLimit (s : State) : State :=
  let p := s.power
  let dies := b2n (p.dieStep != 0 || p.ioStep != 0 || p.convStep != 0)
  s.setReg .pwr 0 0x08 (wn (s.effectiveW + (b2n (decide (s.regFld .pwr 0 0 0 12 < 3900)) <<< 16) +
    (b2n p.byThrottle <<< 17) + (b2n p.bySag <<< 18) + (dies <<< 19) + (b2n (p.hbmStep != 0) <<< 20) +
    (s.hbmScale <<< 24)))

/-- ALERT_N (R484): a compute-die or conversion step of 2 or above. -/
def State.alertLow (s : State) : Bool :=
  s.pins.earlyFail || s.serviceMode || decide (2 ≤ s.power.dieStep) || decide (2 ≤ s.power.convStep) ||
    s.power.thermalHold || s.pins.fatal
def State.setAlert (s : State) : State := { s with pins := { s.pins with alertN := !s.alertLow } }

/-! ### The end of a run -/

/-- The key epochs as they stand, kept with the layout (R428). -/
def State.keptParts (s : State) : Map Part :=
  (upTo 8).foldl (fun m p => mset {} m p { mget ({} : Part) m p with keyEpoch := (s.part p).keyEpoch }) s.flash.parts

/-- The chases of suspect presses, where RAS.CFG.FENCE_ON_PROOF stands (R449). -/
def State.proofFence (s : State) : BitVec 16 :=
  if s.regFld .ras 0 0x40 8 1 = 1 then
    ((upTo 16).filter fun c => s.ledger.suspect.extractLsb' (8 * c) 8 != 0).foldl (fun w c => w ||| (1#16 <<< c)) 0
  else 0

/-- Marks that fence chases at later starts. -/
def Ledger.fence (l : Ledger) (cs : BitVec 16) : Ledger :=
  if cs = 0 then l else { l with fenced := l.fenced ||| cs, alt := l.alt ||| 0x10000 }

/-- What the security engine keeps from run to run. -/
def Sec.kept (x : Sec) : Sec := { x with running := [], transition := none, debug := false }

/-- The device at the end of a run: every context and every session is lost; fuses, flash, ledger, pins and the power
input stay (R448, R463, R483). -/
def State.endRun (s : State) : State :=
  let l := s.ledger.fence s.proofFence
  let t : State := {
    pending := s.pending, free := s.free, out := s.out, heldWide := s.heldWide, power := s.power, pins := s.pins
    sec := s.sec.kept, ledger := { l with early := [] }, flash := { s.flash with parts := s.keptParts } }
  let t := match s.flash.capW with | some w => t.setFld .pwr 0 0 0 12 w | none => t
  t.setLimit.setAlert

/-- A restart (R437, R442, R448): a start begins at step 1 with the next DEVICE_START. -/
def State.restart (s : State) : State := s.endRun

/-! ### What a step reports (R436, R444) -/

/-! RESULT codes of a step entry. -/

namespace StepRes
def passed : Nat := 1
def alternate : Nat := 2
def failed : Nat := 3
def skipped : Nat := 4
def findings : Nat := 5
end StepRes

/-- The entry of a step kept in the start record, or until step 5 opens it. -/
def State.noteStep (s : State) (k res : Nat) (st : Status) (ms : Nat) : State :=
  if k < 5 then { s with ledger := { s.ledger with early := mput s.ledger.early k (res, st, ms) } }
  else { s with ledger := s.ledger.modRec fun r => { r with steps := mput r.steps k (res, st, ms) } }

/-- The kind of the units of a step, as an error record tells it: pseudo-channels, chases, links, or the module. -/
def stepLoc (k : Nat) : Nat := if k = 13 then 3 else if k = 17 ∨ k = 18 then 2 else if k = 21 then 4 else 6

/-- BOOT_STEP_FAILED of a step, a DETECTED error with CAUSE 0x0B and the DETAIL of R444 (R445, R446). -/
def State.stepEvent (s : State) (k unit : Nat) (st : Status) : State :=
  s.rasErrorAs 2 St.bootStepFailed { cause := 0x0B, locKind := stepLoc k, loc := unit }
    (wn (k + ((unit % 65536) <<< 8) + (st.toNat <<< 48)))

/-- Whether the alternate of a step is in effect: its mark, or all of them in a service start (R438, R441). -/
def State.altOn (s : State) (k : Nat) : Bool := s.ledger.service || s.ledger.alt.getLsbD (k - 1)
/-- Steps that have an alternate to mark, and the optional steps (R435, R438). -/
def altSteps : List Nat := [5, 6, 7, 9, 10, 13, 17, 18, 19, 21]
def optSteps : List Nat := [19, 21]

/-- The marks that the failure of a step leaves (R438). -/
def State.markStep (s : State) (k : Nat) (units : List Nat) : State :=
  let s := if altSteps.contains k && k != 5 then
      { s with ledger := { s.ledger with alt := s.ledger.alt ||| (1#24 <<< (k - 1)) } } else s
  if k = 17 ∨ k = 18 then
    { s with ledger := { s.ledger with fenced := units.foldl (fun w c => w ||| (1#16 <<< c)) s.ledger.fenced } }
  else s

/-! ### What a step does when it passes -/

/-- Step 5: the ledger read, a start left open counted as failed, a start record opened (R438, R440, R443). -/
def State.openRecord (s : State) (fresh : Bool) : State :=
  let l := if fresh then { ({} : Ledger) with early := s.ledger.early } else s.ledger
  let l := match l.starts with
    | r :: rs => if r.outcome = 4 then { l with starts := { r with outcome := 1 } :: rs }.fail else l
    | [] => l
  let n := s.sec.startCount + 1
  let svc := decide (3 ≤ l.fails)
  let r : StartRec := { boot := n, outcome := 4, steps := l.early }
  let l := { l with service := svc, starts := (r :: l.starts).take 16, early := [] }
  let s := { s with ledger := l, sec := { s.sec with startCount := n }, pins := { s.pins with fatal := false } }
  ((s.writeLedger id).setFld .boot 0 0 6 1 (b2n svc)).setAlert

/-- The kinds that a step starts (R435). -/
def kindsOf (k : Nat) : List Nat := if k = 6 then [1] else if k = 7 then [3] else if k = 9 then [2] else if k = 10 then [4, 5, 14] else []

/-- Slots of a kind tried before one verifies that hold an image. -/
def Sec.rejects (x : Sec) (k : Nat) (golden : Bool) : List Nat :=
  ((x.order k golden).takeWhile fun n => (x.good k n).isNone).filter fun n => mhas x.slots (4 * k + n)

/-- A kind started from the first slot that verifies, with SIGNATURE_FAIL for each that does not (R414, R415). -/
def State.startKind (s : State) (k : Nat) (golden : Bool) : State :=
  let s := (s.sec.rejects k golden).foldl (fun s _ => s.signatureFail) s
  match s.sec.select k golden with
  | none => s
  | some (n, i) =>
    let s := { s with sec := { s.sec with running := mput s.sec.running k (n, i) } }
    let bit := if k = kindManifest then 5 else k - 1
    s.setFld .sec 0 0x08 (8 + bit) 1 (b2n (n != s.sec.activeSlot k))

/-- Whether a kind other than the manifest finds no slot that verifies (R415, R423). -/
def State.imageMissing (s : State) (k : Nat) (golden : Bool) : Bool :=
  k != kindManifest && (s.sec.select k golden).isNone

/-- The running combination (R423). -/
def State.running (s : State) : List Byte :=
  comboBytes s.sec.fuses.stepping ((span 1 5).map fun k => match mfind? s.sec.running k with
    | some (_, i) => i.version
    | none => 0)

/-- Whether the running manifest lists a combination. -/
def State.listed (s : State) (combo : List Byte) : Bool :=
  match mfind? s.sec.running kindManifest with
  | none => false
  | some (_, i) => (List.range (ofBytes (i.body.take 4))).any fun j => slice i.body (16 + 64 * j) 56 == combo

/-- The combination checked: restricted mode with UNTESTED_COMBINATION, or the override of a token (R423). -/
def State.checkCombo (s : State) : State :=
  if s.listed s.running then s
  else if s.sec.nextOverride = some (Config.sha384 s.running) then s.setFld .sec 0 0x08 1 1 1
  else (s.setFld .sec 0 0x08 0 1 1).wideEvent St.untestedCombination 0 1

/-- DEBUG of SEC.MODE and the tokens used up (R421, R422). -/
def State.useTokens (s : State) : State :=
  let lc := s.sec.fuses.lifecycle
  let open_ := lc == 3 && s.sec.nextDebug
  let level := if lc = 0 then 2 else if lc = 3 then (if open_ then 2 else 1) else 0
  { s.setFld .sec 0 0x08 2 2 level with
    sec := { s.sec with nextOverride := none, nextDebug := false, debug := open_ } }

/-- Steps 6, 7, 9 and 10. -/
def State.startImages (s : State) (k : Nat) : State :=
  let s := (kindsOf k).foldl (fun s i => s.startKind i (s.altOn k)) s
  if k = 10 then s.checkCombo.useTokens else s

/-- Step 12: the retired pseudo-channels out of service. -/
def State.applyRetired (s : State) : State :=
  let s := s.ledger.retired.foldl (fun s pc => s.setPcState pc 2) s
  s.setFld .hbm 0 0 32 10 (512 - s.ledger.retired.length)

/-- A pseudo-channel found bad during a start: retired with nothing on it yet (R294). -/
def State.findPc (s : State) (pc : Nat) : State := if pc < 512 then s.retirePc pc else s

/-- Failing lanes, by pseudo-channel, switched to the spares that their channels have left; with them the pseudo-channels that
find none (R291). -/
def State.trainLanes (s : State) (lanes : List (Nat × Nat)) : List Nat × State :=
  lanes.foldl (fun (a : List Nat × State) l =>
    if a.2.spareFree (channelOf l.1) then (a.1, a.2.switchLane l.1 l.2) else (a.1 ++ [l.1], a.2)) ([], s)

/-- Step 13: the rate of every stack, and the spare map; at 8 Gb/s a pseudo-channel that fails is retired (R291). -/
def State.trainHbm (s : State) (units : List Nat) (lanes : List (Nat × Nat)) : State :=
  let slow := s.altOn 13
  let s := s.setFld .hbm 0 0 16 1 (b2n slow)
  let (short, s) := s.trainLanes lanes
  let s := if slow then (units ++ short).foldl (fun s pc => s.findPc pc) s else s
  s.writeLedger fun l => { l with hbmRate := slow }

/-- The configuration of a partition as flash holds it, with every unit of its pools free. -/
def bootPart (x : Part) : Part :=
  if x.present then { x with st := 1, free := x.total, autoswap := false, tsets := [], jobs := [], deadHeap := [] }
  else { ({} : Part) with keyEpoch := x.keyEpoch }

/-- Step 14: identifier, layout, topology, port and cap from flash; the maps without what is retired (R296). -/
def State.loadFlash (s : State) : State :=
  let f := s.flash
  let s := match f.deviceId with | some d => s.setReg .mgmt 0 0 (wn (d + 65536)) | none => s
  let s := (upTo 8).foldl (fun s p => s.setPart p (bootPart (mget {} f.parts p))) s
  let ps : List Part := (upTo 8).map s.part
  let s := (s.setFld .hbm 0 0 0 1 (b2n (ps.all (fun x => !x.present) || ps.any fun x => x.whole))).setFld .hbm 0 0 8 8 f.spread
  let s := (upTo 8).foldl (fun s p =>
    if (s.part p).present then
      (s.ownGroups p 0 (s.part p).groups).setFld .hbm 0 (regOff p) 8 7 (s.part p).share else s) s
  let s := f.quoin.foldl (fun s e => s.setReg .quoin 0 (if e.1 = 0 then 0 else 0x100 + 8 * (e.1 - 1)) e.2) s
  let s := match f.portCfg with | some w => s.setReg .eth 0 0 w | none => s
  let s := match f.capW with | some w => s.setFld .pwr 0 0 0 12 w | none => s
  { s.setLimit with mapsOut := { window := s.ledger.retired, range := s.ledger.retired, spread := s.ledger.retired } }

/-- Step 15: a new key set for every partition (R428). -/
def State.newKeys (s : State) : State :=
  (upTo 8).foldl (fun s p =>
    if (s.part p).present then s.setPart p { s.part p with keyEpoch := (s.part p).keyEpoch + 1 } else s) s

/-- Step 16: memory zero-filled; a pseudo-channel that fails is retired (R436). -/
def State.zeroHbm (s : State) (units : List Nat) : State :=
  units.foldl (fun s pc => s.findPc pc) { s with mem := [], bad := [], tagBad := [] }

/-- Chases fenced in this start: those marked, where the alternate of step 17 or 18 is in effect. -/
def State.fencedNow (s : State) : BitVec 16 := if s.altOn 17 || s.altOn 18 then s.ledger.fenced else 0

/-- Step 17: the chases that come into service; a fenced one leaves its partition (R438, R470). -/
def State.startChases (s : State) : State :=
  let f := s.fencedNow
  let s := s.setFld .mgmt 0 0x10 16 16 (~~~f).toNat
  (upTo 8).foldl (fun s p =>
    let x := s.part p
    if !x.present then s
    else if x.chases &&& ~~~f = 0 then
      ({ s.setPart p { ({} : Part) with keyEpoch := x.keyEpoch } with mapsOut := s.mapsOut }).ownGroups p x.groups 0
    else s.setPart p { x with chases := x.chases &&& ~~~f }) s

/-- One link at step 21: left out of service, or trained, at reduced rate where the ledger says so (R396, R438). -/
def State.startLink (s : State) (units : List Nat) (l : Nat) : State :=
  let was := mget 0 s.ledger.links l
  let en := s.regFld .quoin 0 (0x100 + 8 * l) 0 1
  if en = 0 then s.setLinkState l LinkSt.off
  else if was = 2 then s.setLinkState l LinkSt.failed
  else if units.contains l then
    { s.setLinkState l LinkSt.failed with ledger := { s.ledger with links := mset 0 s.ledger.links l (was + 1) } }
  else (s.setFld .quoin 0 (0x200 + 8 * l) 3 1 was).setLinkState l (if s.idValid then LinkSt.training else LinkSt.down)

/-- Step 21. -/
def State.startLinks (s : State) (units : List Nat) : State :=
  ((upTo 32).foldl (fun s l => s.startLink units l) s).writeLedger id

/-- Step 22: the port comes up in its mode, or is recorded without link (R324, R436). -/
def State.startPort (s : State) (down : Bool) : State :=
  let s := s.setFld .eth 0 8 1 2 (s.regFld .eth 0 0 48 2)
  s.setFld .eth 0 8 0 1 (b2n !down)

/-! ### The bytes of the ledger (R443, R444, R446) -/

/-- An error record, 64 bytes. -/
def ErrRec.bytes (r : ErrRec) : List Byte :=
  let w0 := r.cls + (r.cause <<< 8) + (r.status.toNat <<< 16) + (r.ctx.getD 0 <<< 32) + (b2n r.ctx.isNone <<< 44) +
    ((r.unit % 256) <<< 48) + ((r.unitIdx % 256) <<< 56)
  toBytes 8 w0 ++ toBytes 8 (r.locKind + ((r.loc % 65536) <<< 8)) ++ toBytes 8 (r.addr % 2 ^ 48) ++
    toBytes 8 r.cycle.toNat ++ toBytes 8 (r.domain + (r.count.toNat <<< 32)) ++ toBytes 8 (r.boot % 2 ^ 32) ++
    List.replicate 16 0

/-- A start record, 256 bytes. -/
def StartRec.bytes (r : StartRec) : List Byte :=
  let entry (k : Nat) : List Byte :=
    let (res, st, ms) := mget (0, 0, 0) r.steps k
    toBytes 8 (res + (st.toNat <<< 16) + ((ms % 2 ^ 32) <<< 32))
  toBytes 8 (r.boot % 2 ^ 32 + (r.outcome <<< 32) + (r.failedStep <<< 40) + (r.status.toNat <<< 48)) ++
    toBytes 8 (r.ms % 2 ^ 32) ++ (span 1 24).flatMap entry ++ List.replicate 48 0

/-- The entries of a ring of `n` slots of `w` bytes, newest first in the list, with the next slot at `head`. -/
def ringBytes (n w head : Nat) (rs : List (List Byte)) : List Byte :=
  (upTo n).flatMap fun i => nth (List.replicate w 0) rs ((head + n - 1 - i) % n)

/-- SPARES of a pseudo-channel: four failed lanes with bit 7 set, four spares. -/
def spareBytes (l : List (Nat × Nat)) : List Byte :=
  fit 4 (l.map fun e => BitVec.ofNat 8 (e.1 % 128 + 128)) ++ fit 4 (l.map fun e => BitVec.ofNat 8 e.2)

/-- Bytes 64 to 32,767 of a copy. START_HEAD is BOOT_COUNT modulo 16 [log 41]. -/
def State.ledgerTail (s : State) : List Byte :=
  let l := s.ledger
  let retired : List Byte := toBytes 64 (l.retired.foldl (fun w pc => w ||| (1 <<< pc)) 0)
  (upTo 512).flatMap (fun pc => spareBytes (mget [] l.spares pc)) ++ retired ++
    (upTo 32).map (fun k => BitVec.ofNat 8 (mget 0 l.links k)) ++ toBytes 16 l.suspect.toNat ++ List.replicate 3920 0 ++
    ringBytes 16 256 (s.sec.startCount % 16) (l.starts.map (·.bytes)) ++
    ringBytes 128 64 l.errHead (l.errlog.map (·.bytes)) ++ List.replicate 12288 0

/-- The current copy of the ledger, 32 KiB. -/
def State.ledgerBytes (s : State) : List Byte :=
  let l := s.ledger
  let head := toBytes 4 0x4C42485A ++ toBytes 2 1 ++ toBytes 2 0 ++ toBytes 8 l.seq ++ toBytes 4 s.sec.startCount ++
    toBytes 1 l.fails ++ toBytes 1 (b2n l.service) ++ toBytes 2 0 ++ toBytes 4 l.skip.toNat ++ toBytes 4 l.alt.toNat ++
    toBytes 2 l.fenced.toNat ++ toBytes 1 (b2n l.hbmRate) ++ toBytes 1 0 ++ toBytes 2 (s.sec.startCount % 16) ++
    toBytes 2 l.errHead ++ List.replicate 20 0
  let tail := s.ledgerTail
  head ++ toBytes 4 (crc32c (tail ++ head)).toNat ++ tail

/-- Step 24: the record closed as READY or SERVICE, FAILS back to 0 after a start that is no service start, the ledger
written and its digest taken (R440, R441, R443). -/
def State.closeRecord (s : State) (ms : Nat) : State :=
  let svc := s.ledger.service
  let s := s.writeLedger fun l => { l.modRec fun r => { r with outcome := if svc then 3 else 0, ms := ms } with
    fails := if svc then l.fails else 0 }
  let s := { s with ledger := { s.ledger with digest := Config.sha384 s.ledgerBytes } }
  ((s.setFld .boot 0 0 5 1 1).setFld .boot 0 0 32 32 ms).setAlert

/-! ### One step, and a start (R435, R436, R439) -/

/-- The effect of a step that passes; `units` are its findings, `lanes` those of step 13. -/
def State.stepPasses (s : State) (k : Nat) (units : List Nat) (lanes : List (Nat × Nat)) : State :=
  match k with
  | 1 => { s with power := { s.power with inputOff := false }, pins := { s.pins with powerGood := true } }
  | 3 => (s.setFld .mgmt 0 0x10 32 8 s.sec.fuses.lifecycle).setFld .mgmt 0 0x10 0 16 s.sec.fuses.stepping
  | 5 => s.openRecord false
  | 6 => s.startImages 6
  | 7 => s.startImages 7
  | 9 => s.startImages 9
  | 10 => s.startImages 10
  | 12 => s.applyRetired
  | 13 => s.trainHbm units lanes
  | 14 => s.loadFlash
  | 15 => s.newKeys
  | 16 => s.zeroHbm units
  | 17 => s.startChases
  | 21 => s.startLinks units
  | 22 => s.startPort !units.isEmpty
  | _ => s

/-- RESULT of a step that passes. -/
def State.resultOf (s : State) (k : Nat) (units : List Nat) : Nat :=
  if (k == 16 || k == 21 || k == 22) && !units.isEmpty then StepRes.findings
  else if k != 5 && altSteps.contains k && s.altOn k then StepRes.alternate
  else StepRes.passed

/-- A step that fails (R437, R438, R440, R441). Steps 1 to 4: ALERT_N, and nothing more. Step 5: a new ledger. An optional
step, or any step of a service start: recorded and passed over. Any other: the start ends FAILED, and the device
restarts. -/
def State.stepFails (s : State) (k : Nat) (st : Status) (ms : Nat) (units : List Nat) (mark : Bool := true) : State :=
  if k < 5 then { s with pins := { s.pins with earlyFail := true } }.setAlert
  else
    let s := if k = 21 then s.startLinks units else s
    let s := s.noteStep k StepRes.failed st ms
    let s := (if mark then s.markStep k units else s).stepEvent k (units.headD 0) st
    if optSteps.contains k || s.ledger.service then (s.writeLedger id).setBootStep (k + 1)
    else (s.writeLedger fun l => (l.modRec fun r => { r with outcome := 1, failedStep := k, status := st, ms := ms }).fail).restart

/-- Whether a step is skipped: an optional step with its skip mark, or step 19 by its alternate (R438, R439). -/
def State.skips (s : State) (k : Nat) : Bool :=
  optSteps.contains k && (s.ledger.skip.getLsbD (k - 1) || (k == 19 && s.altOn 19))

/-- Whether a step fails: as its report says, and HBM training also where a channel has no spare left for a failing lane; at
8 Gb/s pseudo-channels that fail training are retired instead (R291). -/
def State.reallyFails (s : State) (k : Nat) (r : StepReport) : Bool :=
  if k = 13 then
    (if s.altOn 13 then r.failed && r.units.isEmpty else r.failed || !(s.trainLanes r.lanes).1.isEmpty)
  else r.failed

/-- The step that runs, ended as its report says; a step without report passes at a time that is free, and a code that no
device reports is BOOT_STEP_FAILED [log 82]. -/
def State.runStep (s : State) (rs : List StepReport) : State :=
  let k := s.bootStep
  let (w, s) := s.freshWord
  let r := (rs.find? fun r => r.step == k).getD
    { step := k, failed := false, status := 0, endMs := w.toNat % 2 ^ 32, units := [] }
  let r := { r with status := St.passOn St.bootStepFailed r.status }
  let next (s : State) : State := s.setBootStep (k + 1)
  if s.skips k then next (s.noteStep k StepRes.skipped 0 r.endMs)
  else if k = 5 && r.failed then next ((s.openRecord true).noteStep 5 StepRes.passed 0 r.endMs)
  else if s.reallyFails k r then s.stepFails k r.status r.endMs r.units
  else if (kindsOf k).any fun i => s.imageMissing i (s.altOn k) then
    ((kindsOf k).foldl (fun s i => (s.sec.rejects i (s.altOn k)).foldl (fun s _ => s.signatureFail) s) s).stepFails k
      St.signatureFail r.endMs r.units false
  else
    let res := s.resultOf k r.units
    let s := (s.stepPasses k r.units r.lanes).noteStep k res r.status r.endMs
    next (if k = 24 then s.closeRecord r.endMs else s)

/-- Whether a start waits: step 2 for RESET_N, and after a thermal shutdown for the dies to cool (R465, R483); in the shed
stage for the input (R463); after a failure in steps 1 to 4 for a reset (R437). -/
def State.startHeld (s : State) : Bool :=
  s.pins.earlyFail || s.power.shed || (decide (2 ≤ s.bootStep) && (!s.pins.resetN || s.power.thermalHold))

/-- The start goes on, up to and including a step. -/
def runStart (rs : List StepReport) (upto : Nat) : Nat → State → State
  | 0, s => s
  | fuel + 1, s =>
    if s.starting && decide (s.bootStep ≤ upto) && !s.startHeld then runStart rs upto fuel (s.runStep rs) else s

/-- DEVICE_START: a start begins, or goes on where it stands, to the step named. A start that has ended stays. -/
def State.deviceStart (s : State) (rs : List StepReport) (upto : Nat) : State :=
  runStart rs upto 24 (if s.bootStep = 0 then s.setBootStep 1 else s)

def execDeviceStart (steps : List StepReport) (upto : Nat) (s : State) : Host.Outcome State Fault Refusal :=
  .next (s.deviceStart steps upto)

/-- STEP_TIMEOUT: the step that runs overruns four times its bound. Its END_MS is free, and the STATUS of an overrun is
BOOT_STEP_FAILED [log 42]. -/
def State.stepTimeout (s : State) (k : Nat) : State :=
  if s.starting && s.bootStep == k && !s.startHeld then
    let (w, s) := s.freshWord
    let r : StepReport :=
      { step := k, failed := true, status := St.bootStepFailed, endMs := w.toNat % 2 ^ 32, units := [] }
    s.runStep [r]
  else s

def execStepTimeout (step : Nat) (s : State) : Host.Outcome State Fault Refusal := .next (s.stepTimeout step)

/-! ### Writes of the BOOT block (R442, R449, R456) -/

/-- Bits of a set of steps. -/
def stepMask (ks : List Nat) : BitVec 24 := ks.foldl (fun w k => w ||| (1#24 <<< (k - 1))) 0

/-- BOOT.SKIP: ones of required steps are ignored, bit for bit. -/
def State.writeSkip (s : State) (v : W64) : State :=
  s.writeLedger fun l => { l with skip := v.setWidth 24 &&& stepMask optSteps }
/-- BOOT.ALT and FENCED: ones of steps without an alternate are ignored. -/
def State.writeAlt (s : State) (v : W64) : State :=
  s.writeLedger fun l => { l with alt := v.setWidth 24 &&& stepMask altSteps, fenced := v.extractLsb' 32 16 }

def execBootSkipWrite (path : RegPath) (v : W64) (s : State) : Host.Outcome State Fault Refusal :=
  regWriteBy path .boot 0x08 s fun s => s.writeSkip v
def execBootAltWrite (path : RegPath) (v : W64) (s : State) : Host.Outcome State Fault Refusal :=
  regWriteBy path .boot 0x10 s fun s => s.writeAlt v

def State.clearFails (s : State) : State := s.writeLedger fun l => { l with fails := 0 }

def execClearFails (path : RegPath) (s : State) : Host.Outcome State Fault Refusal :=
  regWriteBy path .boot 0x18 s fun s => s.clearFails
def execRestart (path : RegPath) (s : State) : Host.Outcome State Fault Refusal :=
  regWriteBy path .boot 0x18 s fun s => s.restart

/-- A write of BOOT.LEDGER_CTL: CLEAR_FAILS, then RESTART. -/
def State.writeLedgerCtl (s : State) (v : W64) : State :=
  let s := if flag v 0 then s.clearFails else s
  if flag v 1 then s.restart else s

/-- A write of BOOT.SUSPECT[k]: zeros clear, ones set (R456's table: RW). -/
def State.writeSuspect (s : State) (k : Nat) (v : W64) : State :=
  let m : BitVec 128 := (BitVec.allOnes 64).setWidth 128 <<< (64 * k)
  s.writeLedger fun l => { l with suspect := (l.suspect &&& ~~~m) ||| (v.setWidth 128 <<< (64 * k)) }

def execSuspectClear (path : RegPath) (k : Nat) (v : W64) (s : State) : Host.Outcome State Fault Refusal :=
  if 2 ≤ k then .fault .noSuchUnit
  else regWriteBy path .boot (0x20 + 8 * k) s fun s => s.writeSuspect k v

/-! ### FATAL_ERROR (R448) -/

/-- Every session gone, so that what is reported next is held for session 0 of the next start. -/
def State.dropSessions (s : State) : State := { s with sessions := [] }

/-- A FATAL error: recorded in the ring and in ERRLOG; within a start the start ends FAILED (R440); the device restarts. -/
def State.fatal (s : State) (cause : Nat) (st : Status) (locKind loc : Nat) : State :=
  let s := s.dropSessions.rasError 4 st { cause := cause, locKind := locKind, loc := loc }
  let s := s.writeLedger fun l =>
    if s.recordOpen then (l.modRec fun r => { r with outcome := 1, failedStep := s.bootStep, status := st }).fail else l
  { s with pins := { s.pins with fatal := true } }.restart

/-- FATAL_ERROR; a code of a unit that no device has (R11) is no error of this one. -/
def execFatalError (cause : Nat) (status : Status) (locKind loc : Nat) (s : State) : Host.Outcome State Fault Refusal :=
  if St.reportable status then .next (s.fatal cause status locKind loc) else .fault .noSuchUnit

/-! ### LEDGER_READ (R443, R447) -/

/-- The response: the current copy of the ledger, then the records of the ring, oldest first. -/
def State.ledgerRead (s : State) (r : MReq) : State :=
  s.send r.session (.manage r.reqId St.ok [] (s.ledgerBytes ++ s.ring.reverse.flatMap (·.bytes)) false)

def execLedgerRead (r : MReq) (s : State) : Host.Outcome State Fault Refusal :=
  manage { service := true, restricted := true } r s fun s => s.ledgerRead r

end Sys2Proof.Machine
end

