-- ==== Sys2Proof/Machine/Power.lean ====
section
/-! DEFINITION. The power input, its disturbances and the shed stage (R457 to R463), thermal steps (R464, R465), the
sideband pins (R482 to R484), the I3C target (R485 to R488) and JTAG (R421, R489). -/

namespace Sys2Proof.Machine

/-! ### Input (R457 to R463) -/

/-- PWR.INPUT.VIN, in units of 10 mV. -/
def State.setVin (s : State) (cv : Nat) : State := s.setFld .pwr 0 0x28 0 16 (min cv 65535)

/-- The sag response: 1,000 W in force, SAG set, INPUT_SAG reported (R459, R462). -/
def State.sagResponse (s : State) : State :=
  let s := { s with power := { s.power with bySag := true } }
  let s := s.raiseFlag 0x0D .pwr 0x10 1 .pwr 0x18 32 32
  (s.wideEvent St.inputSag 0 (BitVec.ofNat 32 (s.regFld .pwr 0 0x18 32 32))).setLimit

/-- INPUT_SAG: an input that is not below 46 V is no sag. -/
def State.inputSag (s : State) (cv : Nat) : State :=
  let s := s.setVin cv
  if cv < 4600 then { s with power := { s.power with sagging := true } }.sagResponse else s

/-- SURGE: above 90 V the input switch opens; as a sag. -/
def State.surge (s : State) (cv : Nat) : State :=
  let s := s.setVin cv
  if 9000 < cv then { s with power := { s.power with sagging := true } }.sagResponse else s

/-- OVERVOLT: the input rose above 72 V. -/
def State.overvolt (s : State) (cv : Nat) : State :=
  let s := s.setVin cv
  if 7200 < cv then s.raiseFlag 0x0D .pwr 0x10 3 .pwr 0x30 0 32 else s

/-- CURRENT_CLAMP of more than 50 µs (R458). -/
def State.currentClamp (s : State) : State := s.sagResponse

/-- SAG_RELEASE: 1 ms within 48 V to 90 V (R459). -/
def State.sagRelease (s : State) (cv : Nat) : State :=
  let s := s.setVin cv
  if 4800 ≤ cv ∧ cv ≤ 9000 then { s with power := { s.power with bySag := false, sagging := false } }.setLimit else s

/-- A start that is under way ends INTERRUPTED (R440). -/
def State.interrupt (s : State) : State :=
  if s.recordOpen then s.writeLedger fun l => l.modRec fun r => { r with outcome := 2 } else s

/-- Steps 1 and 2 of the shed stage, for an input dropout or a thermal shutdown: a FATAL record, INTERRUPTED within a
start, every context lost (R463, R465). -/
def State.shedRecord (s : State) (st : Status) : State :=
  let s := s.dropSessions.rasError 4 st { cause := 0x0C, locKind := 6 }
  let s := { s with pins := { s.pins with fatal := true } }
  (s.writeLedger id).interrupt.endRun

/-- DROPOUT: a sag or an open switch of 200 µs enters the shed stage. -/
def State.dropout (s : State) : State :=
  if s.power.sagging && !s.power.shed then
    let s := s.shedRecord St.inputSag
    { s with power := { s.power with shed := true } }
  else s

/-- INPUT_RESTORE above 48 V in the shed stage: the device restarts (R463). -/
def State.inputRestore (s : State) (cv : Nat) : State :=
  if s.power.shed && decide (4800 < cv) then
    { s with power := { s.power with shed := false, sagging := false } }.restart.setVin cv
  else s.setVin cv

/-- BULK_UNDERVOLTAGE: the rails go off, POWER_GOOD deasserts, and the next power-up is a fresh start (R463). -/
def State.bulkUnder (s : State) : State :=
  let s := s.interrupt
  let s := { s with
    power := { s.power with shed := false, inputOff := true, sagging := false, bySag := false }
    pins := { s.pins with powerGood := false, earlyFail := false } }
  s.endRun

def execInputSag (centivolts : Nat) (s : State) : Host.Outcome State Fault Refusal := .next (s.inputSag centivolts)
def execSurge (centivolts : Nat) (s : State) : Host.Outcome State Fault Refusal := .next (s.surge centivolts)
def execOvervolt (centivolts : Nat) (s : State) : Host.Outcome State Fault Refusal := .next (s.overvolt centivolts)
def execCurrentClamp (s : State) : Host.Outcome State Fault Refusal := .next s.currentClamp
def execSagRelease (centivolts : Nat) (s : State) : Host.Outcome State Fault Refusal := .next (s.sagRelease centivolts)
def execDropout (s : State) : Host.Outcome State Fault Refusal := .next s.dropout
def execInputRestore (centivolts : Nat) (s : State) : Host.Outcome State Fault Refusal :=
  .next (s.inputRestore centivolts)
def execBulkUndervoltage (s : State) : Host.Outcome State Fault Refusal := .next s.bulkUnder

/-! ### THROTTLE_IN and the cap (R459, R461) -/

def State.throttleOn (s : State) : State :=
  { s with power := { s.power with throttle := true, byThrottle := true } }.setLimit
/-- Deassertion alone releases nothing: the limit stays for 100 µs. -/
def State.throttleOff (s : State) : State := { s with power := { s.power with throttle := false } }
def State.throttleRelease (s : State) : State :=
  if s.power.throttle then s else { s with power := { s.power with byThrottle := false } }.setLimit

def execThrottleInAssert (s : State) : Host.Outcome State Fault Refusal := .next s.throttleOn
def execThrottleInDeassert (s : State) : Host.Outcome State Fault Refusal := .next s.throttleOff
def execThrottleRelease (s : State) : Host.Outcome State Fault Refusal := .next s.throttleRelease

/-- Whether a cap is within 1,000 W to 3,900 W. -/
def capOk (w : Nat) : Bool := decide (1000 ≤ w) && decide (w ≤ 3900)

/-- A write of PWR.CAP: ignored as a whole with CFG_REJECT, or in force, and CAP_W kept in flash. -/
def State.writeCap (s : State) (v : W64) : State :=
  if capOk (fld v 11 0) && capOk (fld v 27 16) then
    { s.plainWrite .pwr 0 0 v with flash := { s.flash with capW := some (fld v 11 0) } }.setLimit
  else s.raiseFlag 0x0D .pwr 0x10 4 .pwr 0x30 32 32

def execPwrCapWrite (path : RegPath) (v : W64) (s : State) : Host.Outcome State Fault Refusal :=
  regWriteBy path .pwr 0 s fun s => s.writeCap v

/-! ### Thermal steps (R464, R465) -/

/-- The kinds of sensor: chases, HBM stacks, I/O die, conversion stage, coolant. -/
inductive Sensor where
  | compute | hbm | io | conv | coolant
  deriving DecidableEq, Repr

def sensorOf (k : Nat) : Sensor :=
  if k < 16 then .compute else if k < 24 then .hbm else if k = 24 then .io else if k = 25 then .conv else .coolant

/-- Entry temperatures of the steps of a kind, in 1/16 °C: step 1 first, then shutdown last. -/
def entries (k : Sensor) : List Int :=
  match k with
  | .compute => [95 * 16, 100 * 16, 105 * 16, 115 * 16]
  | .io => [95 * 16, 100 * 16, 105 * 16, 115 * 16]
  | .hbm => [90 * 16, 95 * 16, 105 * 16]
  | .conv => [110 * 16, 125 * 16]
  | .coolant => []

/-- Steps of a kind without shutdown. -/
def topStep (k : Sensor) : Nat := (entries k).length - 1

/-- How many entry temperatures, lowered by `d`, a temperature has reached. -/
def reached (k : Sensor) (d t : Int) : Nat := ((entries k).filter fun e => decide (e - d ≤ t)).length

/-- A step after a sample: the one reached, or the one in force, which falls as far as 10 ms below its release temperature
allow. -/
def nextStep (cur now below : Nat) (held : Bool) : Nat := max now (if held then min cur below else cur)

/-- The temperature of a sensor in a sample. -/
def tempOf (ts : List (BitVec 16)) (k : Nat) : Int := sext 16 (nth (0 : BitVec 16) ts k).toNat

def sensorsOf (k : Sensor) : List Nat := (upTo 28).filter fun i => decide (sensorOf i = k)

/-- The step of a kind after a sample, shutdown left aside. -/
def kindStep (k : Sensor) (cur : Nat) (ts : List (BitVec 16)) (held : Bool) : Nat :=
  let top (d : Int) : Nat := min (topStep k) (((sensorsOf k).map fun i => reached k d (tempOf ts i)).foldl max 0)
  nextStep cur (top 0) (top (5 * 16)) held

/-- Whether a sensor is at shutdown. -/
def atShutdown (ts : List (BitVec 16)) (i : Nat) : Bool :=
  let k := sensorOf i
  k != .coolant && topStep k < reached k 0 (tempOf ts i)

/-- PWR.TEMP of one sensor after a sample. -/
def State.setTemp (s : State) (ts : List (BitVec 16)) (held : Bool) (i : Nat) : State :=
  let o := 0x40 + 8 * i
  let k := sensorOf i
  let t := tempOf ts i
  let was := s.regFld .pwr 0 o 32 3
  let below := min (topStep k) (reached k (5 * 16) t)
  let step := if atShutdown ts i then 4
    else nextStep (min was (topStep k)) (min (topStep k) (reached k 0 t)) below held
  let hot := if sext 16 (s.regFld .pwr 0 o 16 16) < t then t else sext 16 (s.regFld .pwr 0 o 16 16)
  ((s.setFld .pwr 0 o 0 16 (w64 t).toNat).setFld .pwr 0 o 16 16 (w64 hot).toNat).setFld .pwr 0 o 32 3 step

/-- A thermal step above 0 entered: THERMAL set, THERMAL_THROTTLE reported with the hottest step's first sensor. -/
def State.enterStep (s : State) (k : Sensor) (cur next : Nat) (ts : List (BitVec 16)) : State :=
  if next ≤ cur then s
  else
    let i := (((sensorsOf k).filter fun i => decide (next ≤ reached k 0 (tempOf ts i))).headD 0)
    let s := s.raiseFlag 0x0D .pwr 0x10 2 .pwr 0x20 0 32
    s.wideEvent St.thermalThrottle (wn (i + next * 256)) (BitVec.ofNat 32 (s.regFld .pwr 0 0x20 0 32))

/-- Whether every die sensor reads below 70 °C (R465): the chases and the I/O die [log 43]. -/
def cool (ts : List (BitVec 16)) : Bool := ((upTo 16) ++ [24]).all fun i => decide (tempOf ts i < 70 * 16)

/-- THERMAL_SAMPLE. -/
def State.thermalSample (s : State) (ts : List (BitVec 16)) (held : Bool) : State :=
  let p := s.power
  let step (k : Sensor) (cur : Nat) : Nat := kindStep k cur ts held
  let s := (upTo 28).foldl (fun s i => s.setTemp ts held i) s
  let s := s.enterStep .compute p.dieStep (step .compute p.dieStep) ts
  let s := s.enterStep .hbm p.hbmStep (step .hbm p.hbmStep) ts
  let s := s.enterStep .io p.ioStep (step .io p.ioStep) ts
  let s := s.enterStep .conv p.convStep (step .conv p.convStep) ts
  let s := { s with power := { p with
    dieStep := step .compute p.dieStep, hbmStep := step .hbm p.hbmStep, ioStep := step .io p.ioStep
    convStep := step .conv p.convStep, thermalHold := p.thermalHold && !cool ts } }
  if (upTo 28).any (atShutdown ts) && !p.thermalHold then
    let s := s.shedRecord St.thermalShutdown
    ({ s with power := { s.power with thermalHold := true } }.setLimit).setAlert
  else s.setLimit.setAlert

def execThermalSample (temps : List (BitVec 16)) (held10ms : Bool) (s : State) : Host.Outcome State Fault Refusal :=
  .next (s.thermalSample temps held10ms)

/-! ### RESET_N (R483) -/

/-- RESET_N low: step 1 of the shed stage without an error record, INTERRUPTED within a start, held in reset. -/
def State.resetAssert (s : State) : State :=
  let s := s.interrupt
  { s with pins := { s.pins with resetN := false } }.endRun

/-- RESET_N high: a start begins at step 2, where the rails are up. -/
def State.resetRelease (s : State) (rs : List StepReport) (upto : Nat) : State :=
  if s.pins.resetN then s
  else
    let s := { s with pins := { s.pins with resetN := true, earlyFail := false } }.setAlert
    if s.power.inputOff then s else runStart rs upto 24 (s.setBootStep 2)

def execResetNAssert (s : State) : Host.Outcome State Fault Refusal := .next s.resetAssert
def execResetNDeassert (steps : List StepReport) (upto : Nat) (s : State) : Host.Outcome State Fault Refusal :=
  .next (s.resetRelease steps upto)

/-! ### The I3C target (R485 to R488) -/

/-- Whether the target answers: from the end of step 5 (R488). -/
def State.i3cOn (s : State) : Bool := decide (6 ≤ s.bootStep)

/-- Whether step 19 has passed in this start (R488). -/
def State.sidebandUp (s : State) : Bool :=
  decide (20 ≤ s.bootStep) &&
    (let r := (mget (0, 0, 0) s.startRec.steps 19).1
     r == StepRes.passed || r == StepRes.alternate || r == StepRes.findings)

/-- The reads that R487 permits, as R488 serves them. -/
def State.i3cReads (s : State) (b : Block) (o : Nat) : Bool :=
  if s.sec.fuses.lifecycle = 4 then b = .sec && o == 0
  else match b with
    | .mgmt => o == 0x10
    | .sec => o == 0
    | .boot => o == 0 || o == 0x18
    | .pwr => s.sidebandUp && (o == 0 || o == 0x08 || o == 0x10 || o == 0x28 ||
        (decide (0x40 ≤ o) && decide (o < 0x120) && o % 8 == 0))
    | .ras => s.sidebandUp && decide (o < 0x28) && o % 8 == 0
    | _ => false

/-- A read at the pointer, which advances by 8 (R486); a misaligned one is recorded (R4). -/
def State.i3cRead (s : State) : State :=
  if !s.i3cOn then s
  else
    let a := s.pins.i3cPtr
    let s := { s with pins := { s.pins with i3cPtr := a + 8 } }
    if a.toNat % 8 ≠ 0 then (s.accessError a.toNat).emit (.i3cData (BitVec.allOnes 64))
    else match blockOf a.toNat with
    | some (b, i, o) =>
      if s.i3cReads b o then
        let (v, s) := s.readAt b i o
        s.emit (.i3cData v)
      else s.emit (.i3cData (BitVec.allOnes 64))
    | none => s.emit (.i3cData (BitVec.allOnes 64))

/-- A write at an address that R487 permits; a misaligned one is recorded (R4). -/
def State.i3cWrite (s : State) (a v : W64) : State :=
  if a.toNat % 8 ≠ 0 then s.accessError a.toNat
  else match blockOf a.toNat with
  | some (b, _, o) =>
    if !s.pathWrites .i3c b o then s
    else if b = .boot then s.writeLedgerCtl v
    else s.writeCap v
  | none => s

/-- A private write: 8 bytes set the pointer, 16 also write the register; any other length is ignored (R486). -/
def State.i3cTransfer (s : State) (bs : List Byte) : State :=
  if !s.i3cOn then s
  else if bs.length = 8 ∨ bs.length = 16 then
    let a := wn (ofBytes (bs.take 8))
    let s := { s with pins := { s.pins with i3cPtr := a } }
    if bs.length = 16 then s.i3cWrite a (wn (ofBytes (bs.drop 8))) else s
  else s

def execI3cPointerWrite (bytes : List Byte) (s : State) : Host.Outcome State Fault Refusal := .next (s.i3cTransfer bytes)
def execI3cRegisterWrite (bytes : List Byte) (s : State) : Host.Outcome State Fault Refusal := .next (s.i3cTransfer bytes)
def execI3cRead (s : State) : Host.Outcome State Fault Refusal := .next s.i3cRead

/-- SETDASA or ENTDAA (R485). -/
def State.i3cDynamic (s : State) (a : BitVec 7) : State :=
  if s.i3cOn then { s with pins := { s.pins with i3cDyn := some a } } else s

def execI3cDynamicAddress (addr : BitVec 7) (s : State) : Host.Outcome State Fault Refusal := .next (s.i3cDynamic addr)

/-! ### JTAG (R421, R489) -/

/-- Whether an instruction takes effect: its level in the life-cycle state, and RESET_N low for one that drives pins. -/
def State.jtagOk (s : State) (i : JtagOp) : Bool :=
  let lc := s.sec.fuses.lifecycle
  match i with
  | .bypass => false
  | .idcode => true
  | .samplePreload => true
  | .extest => !s.pins.resetN
  | .otherDrive => !s.pins.resetN
  | .scanChains => lc == 0 || lc == 3
  | .selfTest => lc == 0 || lc == 3
  | .fuseProgram => lc == 0
  | .debugAccess => lc == 0 || (lc == 3 && s.sec.debug)

def execJtagInstruction (ir : JtagOp) (s : State) : Host.Outcome State Fault Refusal :=
  .next { s with pins := { s.pins with jtag := some ir, bypass := !s.jtagOk ir } }

/-- TRST_N low: Test-Logic-Reset. -/
def execJtagTrst (s : State) : Host.Outcome State Fault Refusal :=
  .next { s with pins := { s.pins with jtag := none, bypass := true } }

end Sys2Proof.Machine
end

