-- ==== Sys2Proof/Machine/RegCmds.lean ====
section
/-! DEFINITION. Control-space commands (R4 to R8, R30, R467 to R472), and the management operations that read and write
registers (R474, R477). -/

namespace Sys2Proof.Machine

/-! ### A write to any register -/

/-- A write of a LOOP_CTL register: its fields, and a run where START is written and a run is permitted (R455). -/
def State.writeLoop (s : State) (b : Block) (o bit : Nat) (v : W64) (start : Except Status State) : State :=
  if flag v bit then
    match start with
    | .ok s => s
    | .error _ => s.plainWrite b 0 o (putFld v bit 1 0)
  else s.plainWrite b 0 o v

/-- A write of MGMT.DEVICE_ID: UNSET, or ID (R472). Whether the ID field of a write with UNSET = 1 counts as a write of ID is
not stated: it is ignored (DESIGN CHOICE, log 94). -/
def State.writeDeviceId (s : State) (v : W64) : State := if flag v 17 then s.unsetId else s.setId (fld v 15 0)

/-- A write of ETH.PORT_CFG, kept in module flash (step 14 of R435). A port that is down tries a new MODE first (R324). -/
def State.writePortCfg (s : State) (v : W64) : State :=
  let old := s.regFld .eth 0 0 48 2
  let s := s.plainWrite .eth 0 0 v
  let s := if s.regFld .eth 0 8 0 1 = 0 ∧ s.regFld .eth 0 0 48 2 ≠ old then s.setFld .eth 0 8 1 2 (s.regFld .eth 0 0 48 2) else s
  { s with flash := { s.flash with portCfg := some (s.reg .eth 0 0) } }

/-- A write of a register of the BOOT block. -/
def State.writeBoot (s : State) (o : Nat) (v : W64) : State :=
  if o = 0x08 then s.writeSkip v
  else if o = 0x10 then s.writeAlt v
  else if o = 0x18 then s.writeLedgerCtl v
  else if o = 0x20 ∨ o = 0x28 then s.writeSuspect ((o - 0x20) / 8) v
  else s

/-- A write of a register of the HBM block. -/
def State.writeHbm (s : State) (o : Nat) (v : W64) : State :=
  if o = 0x40 then s.writeLoop .hbm 0x40 11 v (s.startHbmLoop v)
  else if 0x100 ≤ o && decide (o < 0x180) && o % 16 == 0 then s.writeHbmReg ((o - 0x100) / 16) v
  else s.plainWrite .hbm 0 o v

/-- A write of a register of the QUOIN block. -/
def State.writeQuoin (s : State) (o : Nat) (v : W64) : State :=
  if o = 0 then s.writeTopo v
  else if o = 0x08 then s.writeQuoinCfg v
  else if o = 0x10 then s.writeUpdSeed v
  else if o = 0x400 then s.writeLoop .quoin 0x400 8 v (s.startQuoinLoop v)
  else if 0x100 ≤ o && decide (o < 0x200) && o % 8 == 0 then s.writeLinkCfg ((o - 0x100) / 8) v
  else s.plainWrite .quoin 0 o v

/-- An aligned write at an offset of a block (R5, R8, R468 to R470), with what the writes of single registers add. -/
def State.writeAt (s : State) (b : Block) (i o : Nat) (v : W64) : State :=
  if s.ignores b i then s
  else match b with
    | .mgmt => if o = 0 then s.writeDeviceId v else s.plainWrite .mgmt 0 o v
    | .boot => s.writeBoot o v
    | .hbm => s.writeHbm o v
    | .quoin => s.writeQuoin o v
    | .eth => if o = 0 then s.writePortCfg v
      else if o = 0x10 then s.writeLoop .eth 0x10 4 v (s.startEthLoop v) else s.plainWrite .eth 0 o v
    | .taosh => if o = 0 then s.writeCcCfg v else s.plainWrite .taosh 0 o v
    | .audit => if o = 0 then s.writeAudit v else s.plainWrite .audit 0 o v
    | .pwr => if o = 0 then s.writeCap v else s.plainWrite .pwr 0 o v
    | .place => if o < 0x200 && (o % 0x40 == 0 || o % 0x40 == 8) then s.placeCfg o v else s.plainWrite .place 0 o v
    | _ => s.plainWrite b i o v

/-- A control-space write by a path other than I3C, or by it where R487 permits. -/
def State.regWrite (s : State) (path : RegPath) (a : Nat) (v : W64) : State :=
  if a % 8 ≠ 0 then s.accessError a
  else match blockOf a with
    | some (b, i, o) => if s.pathWrites path b o then s.writeAt b i o v else s
    | none => if path = .i3c then s else s.accessError a

def execRegisterWrite (path : RegPath) (addr : Nat) (v : W64) (s : State) : Host.Outcome State Fault Refusal :=
  .next (s.regWrite path addr v)

/-! ### Reads (R4, R7, R30) -/

/-- A control-space read: the value, and the state with RC fields cleared; all ones where R4 or R30 says so. -/
def State.regRead (s : State) (a : Nat) : W64 × State :=
  match (if a % 8 = 0 then blockOf a else none) with
  | some (b, i, o) => s.readAt b i o
  | none => (BitVec.allOnes 64, s.accessError a)

/-- What an event of the same cycle leaves in the first RC field of a register (R7). -/
def State.countInRc (s : State) (b : Block) (i o k : Nat) : State :=
  let fs : List Field := (fieldsAt b o).getD []
  match fs.find? fun f => decide (f.acc = .rc) with
  | some f => s.setFld b i o f.lo f.w (k % 2 ^ f.w)
  | none => s

/-- READ_CLEAR by a path: the value held before the event, which then counts in the next value. -/
def State.readClear (s : State) (path : RegPath) (a : Nat) (event : Option Nat) : State :=
  match (if a % 8 = 0 then blockOf a else none) with
  | some (b, i, o) =>
    if path = .i3c && !s.i3cReads b o then s.emit (.regData (BitVec.allOnes 64))
    else
      let (v, s) := s.readAt b i o
      let s := match event with | some k => s.countInRc b i o k | none => s
      s.emit (.regData v)
  | none => (if path = .i3c && a % 8 == 0 then s else s.accessError a).emit (.regData (BitVec.allOnes 64))

def execReadClear (path : RegPath) (addr : Nat) (event : Option Nat) (s : State) :
    Host.Outcome State Fault Refusal := .next (s.readClear path addr event)

/-- An access that is not performed: recorded, and a read returns all ones (R4). -/
def State.notPerformed (s : State) (write : Bool) (a : Nat) : State :=
  let s := s.accessError a
  if write then s else s.emit (.regData (BitVec.allOnes 64))

/-- CONTROL_ACCESS_MISALIGNED: an aligned access of 8 bytes is another row's. -/
def execControlAccessMisaligned (write : Bool) (addr size : Nat) (s : State) : Host.Outcome State Fault Refusal :=
  if size = 8 ∧ addr % 8 = 0 then .fault .rowMismatch else .next (s.notPerformed write addr)

/-- Whether the physical map lists an address (R28's table, R467). -/
def inMap (a : Nat) : Bool :=
  decide (a < 0x9000000000) || (blockOf a).isSome ||
    (decide (0xE00000000000 ≤ a) && decide (a < 0xE01000000000) &&
      (let o := a % 0x100000000
       decide (o < 0x1000000) || (decide (0x10000000 ≤ o) && decide (o < 0x12000000)) ||
         (decide (0x20000000 ≤ o) && decide (o < 0x20800000))))

/-- UNMAPPED_ACCESS by the management controller (R30); an address that is mapped is another row's. -/
def execUnmappedAccess (write : Bool) (addr : Nat) (s : State) : Host.Outcome State Fault Refusal :=
  if inMap addr then .fault .rowMismatch else .next (s.notPerformed write addr)

/-! ### TELEMETRY (R474) -/

/-- The registers of TELEMETRY, in order. -/
def telemRegs : List (Block × Nat) :=
  [(.telem, 0x00), (.telem, 0x08), (.telem, 0x10), (.telem, 0x18), (.telem, 0x20), (.telem, 0x28), (.pwr, 0x28), (.pwr, 0x08)] ++
    (upTo 28).map (fun k => (Block.pwr, 0x40 + 8 * k)) ++ [(.eth, 0x08), (.boot, 0x00)] ++
    (upTo 5).map fun c => (Block.ras, 8 * c)

/-- ADDR and VALUE of registers read in turn. -/
def readPairs : List (Block × Nat) → State → List (Nat × W64) × State
  | [], s => ([], s)
  | (b, o) :: rest, s =>
    let (v, s) := s.readAt b 0 o
    let (l, s) := readPairs rest s
    ((Key.addr, wn (regAddr b 0 o)) :: (Key.value, v) :: l, s)

def State.telemetry (s : State) (r : MReq) : State :=
  let (l, s) := readPairs telemRegs s
  s.reply r St.ok l

def execTelemetry (r : MReq) (s : State) : Host.Outcome State Fault Refusal :=
  manage { service := true, restricted := true } r s fun s => s.telemetry r

/-! ### REG_READ and REG_WRITE (R477) -/

/-- Control space (R467). -/
def inControl (a : Nat) : Bool := decide (0xF00000000000 ≤ a) && decide (a < 0xF00010000000)

/-- Addresses read in order; false where one ends the request (R477). One that is misaligned is recorded as R4 says of every
such access [log 60]. -/
def readItems : List (Nat × W64) → State → Bool × List (Nat × W64) × State
  | [], s => (true, [], s)
  | e :: es, s =>
    let a := e.2.toNat
    if a % 8 ≠ 0 then (false, [], s.accessError a)
    else if !inControl a then (false, [], s)
    else
      let (v, s) := s.regRead a
      let (ok, l, s) := readItems es s
      (ok, (Key.addr, e.2) :: (Key.value, v) :: l, s)

def State.regReadOp (s : State) (r : MReq) : State :=
  if r.items.isEmpty || r.items.any (fun e => e.1 != Key.addr) then s.refuse r St.descriptorInvalid
  else
    let (ok, l, s) := readItems r.items s
    if ok then s.reply r St.ok l else s.refuse r St.descriptorInvalid

def execRegRead (r : MReq) (s : State) : Host.Outcome State Fault Refusal :=
  manage { service := true, restricted := true, plain := false } r s fun s => s.regReadOp r

/-- The pairs of a REG_WRITE; none where the items do not pair. -/
def writePairs : List (Nat × W64) → Option (List (Nat × W64))
  | [] => some []
  | [_] => none
  | a :: v :: rest =>
    if a.1 = Key.addr ∧ v.1 = Key.value then (writePairs rest).map ((a.2.toNat, v.2) :: ·) else none

/-- Pairs written in order; an address that is misaligned or outside control space ends the request, and so does a write
that restarts the device, which is answered first. -/
def writeItems (r : MReq) : List (Nat × W64) → State → State
  | [], s => s.done r
  | e :: es, s =>
    if e.1 % 8 ≠ 0 then (s.accessError e.1).refuse r St.descriptorInvalid
    else if !inControl e.1 then s.refuse r St.descriptorInvalid
    else if decide (e.1 = regAddr .boot 0 0x18) && flag e.2 1 then (s.answerNow r St.ok).regWrite .session0 e.1 e.2
    else writeItems r es (s.regWrite .session0 e.1 e.2)

/-- Whether an address lies in the BOOT block. -/
def inBoot (a : Nat) : Bool := match blockOf a with | some (.boot, _, _) => true | _ => false

def State.regWriteOp (s : State) (r : MReq) : State :=
  match writePairs r.items with
  | none => s.refuse r St.descriptorInvalid
  | some l =>
    if l.isEmpty then s.refuse r St.descriptorInvalid
    else if s.serviceMode && l.any (fun e => !inBoot e.1) then s.refuse r St.serviceMode
    else writeItems r l s

def execRegWrite (r : MReq) (s : State) : Host.Outcome State Fault Refusal :=
  manage { service := true, plain := false } r s fun s => s.regWriteOp r

end Sys2Proof.Machine
end

