-- ==== Sys2Proof/Machine/Deliver.lean ====
section
/-! DEFINITION. SEGMENT_RECEIVE: a received Taosh segment authenticated, checked and stored (R326 to R331, R338), and each
complete message unsealed (R356, R357), read by the layout of its class and processed in MSN order (R351). -/

namespace Sys2Proof.Machine

/-- A little-endian number of a byte string (R3). -/
def num (bs : List Byte) (off len : Nat) : Nat := ofBytes (slice bs off len)

/-! ### MANAGE (R358, R359, R475, R476) -/

/-- The items of a body: 16 bytes each, a key, four zero bytes and a value. -/
def itemsOf : Nat → List Byte → Option (List (Nat × W64))
  | 0, bs => if bs.isEmpty then some [] else none
  | fuel + 1, bs =>
    if bs.isEmpty then some []
    else if bs.length < 16 || num bs 4 4 != 0 then none
    else (itemsOf fuel (bs.drop 16)).map ((num bs 0 4, wn (num bs 8 8)) :: ·)

/-- The bytes of a FW_STAGE body up to the end of its KIND item: its items (R476). -/
def stageSplit : Nat → List Byte → Nat
  | 0, _ => 0
  | fuel + 1, bs => if num bs 0 4 = Key.kind then 16 else 16 + stageSplit fuel (bs.drop 16)

/-- The header of an image read from its bytes (R414); the body must have the header's length. -/
def imageOf (bs : List Byte) : ImageFacts :=
  let h := bs.take 6144
  let b := bs.drop 6144
  { magic := BitVec.ofNat 32 (num h 0 4), kind := num h 4 1, svn := num h 6 2, version := wn (num h 8 8)
    digest := slice h 32 48, body := b, edPub := slice h 128 32, mlPub := slice h 160 1952
    edSig := slice h 2112 64, mlSig := slice h 2176 3309, header := h
    rsvZero := num h 5 1 == 0 && num h 24 8 == 0 && num h 80 48 == 0 && num h 5485 659 == 0 && decide (num h 6 2 ≤ 64) &&
      h.length == 6144 && num h 16 8 == b.length }

/-- The operation that a code names, with its ACTION or INTERFACE item; none for an undefined code. -/
def manageOp (op : Nat) (r : MReq) (body : List Byte) (s : State) : Option (Host.Outcome State Fault Refusal) :=
  let a := r.num Key.action
  let i := r.num Key.interface
  match op with
  | 0x01 => some (execDeviceIdSet r s)
  | 0x02 => some (execPartitionReset r s)
  | 0x03 => some (execTicketIssue r s)
  | 0x04 => some (execTicketRevoke r s)
  | 0x05 => some (execColophon r body s)
  | 0x06 => some (execFwStage r 0 (imageOf (body.drop (stageSplit body.length body))) s)
  | 0x07 => some (execFwActivate r 0 s)
  | 0x08 => some (execScrub r s)
  | 0x09 => some (execBist r s)
  | 0x0A =>
    some (if i = 1 then execQuoinLoopbackStart r s else if i = 2 then execHbmLoopbackStart r s else execEthLoopbackStart r s)
  | 0x0B => some (execTelemetry r s)
  | 0x0C => some (execRegRead r s)
  | 0x0D => some (execRegWrite r s)
  | 0x0E => some (execLedgerRead r s)
  | 0x0F => some (execNetConfig r s)
  | 0x10 => some (execLinkRetrain r s)
  | 0x20 => some (execContextCreate r s)
  | 0x21 => some (execContextDestroy r s)
  | 0x22 => some (execFormeInstall r body s)
  | 0x23 => some (execFormeRelease r s)
  | 0x24 => some (execMap r s)
  | 0x25 => some (execUnmap r s)
  | 0x26 => some (execProtect r s)
  | 0x27 => some (execQueueCreate r s)
  | 0x28 => some (execQueueDestroy r s)
  | 0x29 => some (execQueueBind r s)
  | 0x2A => some (execBufRegister r s)
  | 0x2B => some (execBufUnregister r s)
  | 0x2C => some (execHostwinMap r s)
  | 0x2D => some (execModelLoad r 0 s)
  | 0x2E => some (execModelUnload r s)
  | 0x2F => if a = 0 then some (execStreamJobCreate r s) else if a = 1 then some (execStreamJobEnd r s) else none
  | 0x30 => some (execTableset r s)
  | 0x31 =>
    if a = 0 then some (execRuntimeSwapOut r s) else if a = 1 then some (execRuntimeSwapIn r s)
    else if a = 2 then some (execAutoswapDisable r s) else if a = 3 then some (execAutoswapEnable r s)
    else if a = 4 then some (execRuntimeReset r s) else if a = 5 then some (execRuntimeLoad r s) else none
  | 0x32 =>
    if a = 0 then some (execLongopSuspend r s) else if a = 1 then some (execLongopResume r s)
    else if a = 2 then some (execLongopCancel r s) else none
  | 0x33 => some (execEcho r body s)
  | 0x34 => some (execClose r s)
  | 0x35 =>
    if a = 0 then some (execPlaceRegister r s) else if a = 1 then some (execPlaceEnd r s)
    else if a = 2 then some (execPlacePin r s) else none
  | 0x36 => some (execMigrate r s)
  | _ => none

/-- Operations whose body is no item list: COLOPHON, FORME_INSTALL, ECHO. -/
def rawBody (op : Nat) : Bool := op == 0x05 || op == 0x22 || op == 0x33

/-- The item list of a request's body; none where it breaks the form. -/
def requestItems (op : Nat) (body : List Byte) : Option (List (Nat × W64)) :=
  if rawBody op then some []
  else
    let bs := if op = 0x06 then body.take (stageSplit body.length body) else body
    itemsOf bs.length bs

/-- A MANAGE request: its head, its body, its operation. -/
def State.manageMsg (s : State) (n : Nat) (m : List Byte) : State :=
  let op := num m 4 2
  let body := m.drop 16
  let r : MReq := { session := n, reqId := BitVec.ofNat 32 (num m 0 4), part := num m 6 1, items := [] }
  if m.length < 16 || num m 7 1 != 0 || num m 12 4 != 0 || num m 8 4 != body.length then s.refuse r St.descriptorInvalid
  else match requestItems op body with
    | none => s.refuse r St.descriptorInvalid
    | some is => match manageOp op { r with items := is } body s with
      | some (.next t) => t
      | some _ => s
      | none => s.refuse r St.descriptorInvalid

/-! ### SUBMIT, READ, WRITE and PULL (R340, R349, R353, R354) -/

/-- The descriptors of a SUBMIT body, 64 bytes each. -/
def descsOf : Nat → List Byte → List (List W64)
  | 0, _ => []
  | k + 1, bs => toWords 8 (bs.take 64) :: descsOf k (bs.drop 64)

/-- A SUBMIT: its head is in order where its zero bytes are zero and its count fits its length. -/
def State.submitMsg (s : State) (n : Nat) (m : List Byte) : State :=
  let k := (m.length - 8) / 64
  s.submit n (num m 0 2) (num m 4 4 == 0 && m.length == 8 + 64 * num m 2 2) (descsOf k (m.drop 8))

/-- A READ request. -/
def State.readMsg (s : State) (n : Nat) (m : List Byte) : State :=
  let id : W32 := BitVec.ofNat 32 (num m 0 4)
  let op := num m 4 2
  let unit := num m 6 2
  if m.length ≠ 32 || num m 12 4 != 0 then s.readResp n id St.descriptorInvalid 0 []
  else if op = 0 then s.readBuf n id unit (num m 8 4) (num m 16 8) (num m 24 8)
  else if op = 1 && decide (unit < 4096) && num m 8 4 == 0 then s.readMem n id unit (num m 16 8) (num m 24 8)
  else if op = 2 && num m 16 16 == 0 then s.releaseBuf n id unit (num m 8 4)
  else s.readResp n id St.descriptorInvalid 0 []

/-- A WRITE from the host: WRITE_MEM, or the ACK of a device write. A malformed ACK has no effect. -/
def State.writeMsg (s : State) (n : Nat) (m : List Byte) : State :=
  let id : W32 := BitVec.ofNat 32 (num m 0 4)
  let op := num m 4 2
  let data := m.drop 32
  let zeros := num m 10 6 == 0 && num m 28 4 == 0
  let sized := decide (32 ≤ m.length) && num m 24 4 == data.length
  if op = 2 then
    (if zeros && sized && data.isEmpty && num m 8 2 == 0 && num m 16 8 == 0 then
      s.writeAckIn n id (BitVec.ofNat 16 (num m 6 2))
    else s)
  else if op = 0 && zeros && sized && num m 6 2 == 0 then s.writeMem n id (num m 8 2) (num m 16 8) data
  else s.send n (.writeAck id St.descriptorInvalid)

/-- A PULL from the host: the response to a device request; anything else has no effect. -/
def State.pullMsg (s : State) (n : Nat) (m : List Byte) : State :=
  let data := m.drop 32
  if num m 4 2 = 1 then
    s.pullRespIn n (BitVec.ofNat 32 (num m 0 4)) (BitVec.ofNat 16 (num m 6 2))
      (if num m 24 4 = data.length then data else [])
  else s

/-! ### A message whole (R327, R351, R356, R357) -/

/-- A message refused with CONFIDENTIAL_REQUIRED in the form of its class (R356). -/
def State.confRefuse (s : State) (n cls : Nat) (m : List Byte) : State :=
  let id : W32 := BitVec.ofNat 32 (num m 0 4)
  match cls with
  | 1 => (descsOf ((m.length - 8) / 64) (m.drop 8)).foldl
      (fun s w => s.refuseDesc n (num m 0 2) w St.confidentialRequired) s
  | 3 => s.readResp n id St.confidentialRequired 0 []
  | 4 => if num m 4 2 = 2 then s else s.send n (.writeAck id St.confidentialRequired)
  | 7 => s.refuse { session := n, reqId := id, part := 0, items := [] } St.confidentialRequired
  | _ => s

/-- A plain message by its class; one of a class that only the device sends has no effect. -/
def State.plainMsg (s : State) (n cls : Nat) (m : List Byte) : State :=
  match cls with
  | 1 => s.submitMsg n m
  | 3 => s.readMsg n m
  | 4 => s.writeMsg n m
  | 5 => s.pullMsg n m
  | 7 => s.manageMsg n m
  | _ => s

/-- The plain body of a sealed record, under the host's record key (R356, R357). -/
def State.unseal (s : State) (n : Nat) (m : List Byte) : Option (List Byte) :=
  unsealRecord (s.session n).keys "taosh h2d record" n m

/-- A message delivered. -/
def State.message (s : State) (n cls : Nat) (isSealed : Bool) (m : List Byte) : State :=
  if isSealed then
    match s.unseal n m with
    | some b => (s.setSession n { s.session n with rxRseq := num m 0 8 + 1 }).plainMsg n cls b
    | none => s
  else if s.sealedSession n then s.confRefuse n cls m
  else s.plainMsg n cls m

/-! ### Segments (R326 to R331, R338) -/

/-- Whether a message class may stand in a segment that the rules let pass (R326, R327). -/
def segmentOk (g : Segment) : Bool :=
  g.version == 1 && decide (g.cls ≤ 8) && g.rsvZero && decide (g.session < 1024) && decide (g.payload.length ≤ 8192) &&
    decide (1 ≤ g.mlen) && decide (g.mlen ≤ 16842752) && decide (g.offset + g.payload.length ≤ g.mlen)

/-- The bytes of a message from its first one on, as far as they have arrived without a gap. -/
def joined (got : List (Nat × List Byte)) : List Byte :=
  (sortBy (fun (a b : Nat × List Byte) => decide (a.1 ≤ b.1)) got).foldl
    (fun acc e => if e.1 ≤ acc.length then acc ++ e.2.drop (acc.length - e.1) else acc) []

/-- Whether every byte of a message has arrived. -/
def RxMsg.whole (r : RxMsg) : Bool := decide (r.mlen ≤ (joined r.got).length)

/-- The complete messages that are next in MSN order processed, each before the next (R329, R351). Each segment of a
message processed raises the credit limit by one (R331). -/
def State.deliver (s : State) (n : Nat) : Nat → State
  | 0 => s
  | fuel + 1 =>
    let x := s.session n
    match mfind? x.rx x.rxMsn with
    | some r =>
      if r.whole then
        let y := { x with rx := mdel x.rx x.rxMsn, rxMsn := (x.rxMsn + 1) % 2 ^ 32, rxDone := x.rxDone + r.got.length }
        let s := (s.setSession n y).message n r.cls r.sealed ((joined r.got).take r.mlen)
        if s.sessionOpen n then s.deliver n fuel else s
      else s
    | none => s

/-- A tag failure (R328). -/
def State.authFail (s : State) (n : Nat) : State :=
  let x := s.session n
  let s := (s.bump .taosh 0 8 16 16 1).setSession n { x with authFails := x.authFails + 1 }
  if 2 ^ 20 ≤ x.authFails + 1 then s.endSession n else s

/-- An acknowledgement when ACK_EVERY segments wait for one (R330). -/
def State.ackDue (s : State) (n : Nat) : State :=
  if s.sessionOpen n && decide (s.ackEvery ≤ (s.session n).unacked) then s.sendAck n else s

/-- Whether a segment is held or its message has been delivered (R329); MSNs wrap. -/
def Session.holds (x : Session) (g : Segment) : Bool :=
  decide (2 ^ 31 ≤ (g.msn + 2 ^ 32 - x.rxMsn) % 2 ^ 32) ||
    match mfind? x.rx g.msn with | some r => r.got.any fun e => e.1 == g.offset | none => false

/-- What authentication of a packet records: its number, its mark, the segment that waits for an acknowledgement. The
phase of a packet that is not the old one's is an update that the host started (R338). -/
def Session.authentic (x : Session) (g : Segment) : Session :=
  { x.seePn g.pn (g.phase != x.phase && x.oldKeys.isNone) with rxCe := if g.ce then x.rxCe + 1 else x.rxCe, unacked := x.unacked + 1 }

/-- An authentic segment: discarded as a duplicate, discarded beyond the limit, or stored and its messages delivered. -/
def State.takeSegment (s : State) (g : Segment) : State :=
  let n := g.session
  let s := s.takePayload g.payload.length
  let x := (s.session n).authentic g
  if x.holds g then (s.setSession n x).ackDue n
  else if x.rxLimit ≤ x.rxSegs then ((s.bump .taosh 0 8 32 16 1).setSession n x).ackDue n
  else
    let r := match mfind? x.rx g.msn with
      | some r => r
      | none => { cls := g.cls, mlen := g.mlen, sealed := g.sealed }
    let r := { r with got := r.got ++ [(g.offset, g.payload)] }
    let y := { x with rx := mput x.rx g.msn r, rxSegs := x.rxSegs + 1 }
    ((s.setSession n y).deliver n y.rx.length).ackDue n

/-- SEGMENT_RECEIVE. -/
def State.segmentReceive (s : State) (g : Segment) (authGood : Bool) : State :=
  if !segmentOk g || !s.sessionOpen g.session then s.otherDrop
  else if !authGood then s.authFail g.session
  else s.takeSegment g

/-- A packet of class ACK or HELLO is another row's. -/
def execSegmentReceive (g : Segment) (authGood : Bool) (s : State) : Host.Outcome State Fault Refusal :=
  if g.cls = 0 ∨ g.cls = 8 then .fault .rowMismatch else .next (s.segmentReceive g authGood)

end Sys2Proof.Machine
end

