-- ==== Sys2Proof/Machine/Dispatch.lean ====
section
/-! DEFINITION. One arm per command: the meaning of each. -/

namespace Sys2Proof.Machine

def exec (i : Instr) (s : State) : Host.Outcome State Fault Refusal :=
  match i with
  | .registerWrite path addr v => Sys2Proof.Machine.execRegisterWrite path addr v s
  | .controlAccessMisaligned write addr size => Sys2Proof.Machine.execControlAccessMisaligned write addr size s
  | .unmappedAccess write addr => Sys2Proof.Machine.execUnmappedAccess write addr s
  | .readClear path addr event => Sys2Proof.Machine.execReadClear path addr event s
  | .formeInstall r body => Sys2Proof.Machine.execFormeInstall r body s
  | .formeRelease r => Sys2Proof.Machine.execFormeRelease r s
  | .imposerSplit queue => Sys2Proof.Machine.execImposerSplit queue s
  | .subtakeComplete press => Sys2Proof.Machine.execSubtakeComplete press s
  | .fencePublish queue seq => Sys2Proof.Machine.execFencePublish queue seq s
  | .deviceIdSet r => Sys2Proof.Machine.execDeviceIdSet r s
  | .mgmtUnset path => Sys2Proof.Machine.execMgmtUnset path s
  | .map r => Sys2Proof.Machine.execMap r s
  | .unmap r => Sys2Proof.Machine.execUnmap r s
  | .protect r => Sys2Proof.Machine.execProtect r s
  | .unmapComplete idx => Sys2Proof.Machine.execUnmapComplete idx s
  | .asyncFault press status slot pc va => Sys2Proof.Machine.execAsyncFault press status slot pc va s
  | .partitionReset r => Sys2Proof.Machine.execPartitionReset r s
  | .scalarNop l slot rest => Sys2Proof.Machine.execScalarNop l slot rest s
  | .alu l a => Sys2Proof.Machine.execAlu l a s
  | .addi l b => Sys2Proof.Machine.execAddi l b s
  | .andi l b => Sys2Proof.Machine.execAndi l b s
  | .ori l b => Sys2Proof.Machine.execOri l b s
  | .xori l b => Sys2Proof.Machine.execXori l b s
  | .slli l b => Sys2Proof.Machine.execSlli l b s
  | .srli l b => Sys2Proof.Machine.execSrli l b s
  | .srai l b => Sys2Proof.Machine.execSrai l b s
  | .slti l b => Sys2Proof.Machine.execSlti l b s
  | .lis l b => Sys2Proof.Machine.execLis l b s
  | .lb l b => Sys2Proof.Machine.execLb l b s
  | .lh l b => Sys2Proof.Machine.execLh l b s
  | .lw l b => Sys2Proof.Machine.execLw l b s
  | .ld l b => Sys2Proof.Machine.execLd l b s
  | .lbu l b => Sys2Proof.Machine.execLbu l b s
  | .lhu l b => Sys2Proof.Machine.execLhu l b s
  | .lwu l b => Sys2Proof.Machine.execLwu l b s
  | .sb l c => Sys2Proof.Machine.execSb l c s
  | .sh l c => Sys2Proof.Machine.execSh l c s
  | .sw l c => Sys2Proof.Machine.execSw l c s
  | .sd l c => Sys2Proof.Machine.execSd l c s
  | .ldc l b => Sys2Proof.Machine.execLdc l b s
  | .stc l c => Sys2Proof.Machine.execStc l c s
  | .cmp l a => Sys2Proof.Machine.execCmp l a s
  | .plog l a => Sys2Proof.Machine.execPlog l a s
  | .pget l a => Sys2Proof.Machine.execPget l a s
  | .pset l a => Sys2Proof.Machine.execPset l a s
  | .fadd l a => Sys2Proof.Machine.execFadd l a s
  | .fsub l a => Sys2Proof.Machine.execFsub l a s
  | .fmul l a => Sys2Proof.Machine.execFmul l a s
  | .fdiv l a => Sys2Proof.Machine.execFdiv l a s
  | .fsqrt l a => Sys2Proof.Machine.execFsqrt l a s
  | .fmin l a => Sys2Proof.Machine.execFmin l a s
  | .fmax l a => Sys2Proof.Machine.execFmax l a s
  | .fcmp l a => Sys2Proof.Machine.execFcmp l a s
  | .fcvt l hi a => Sys2Proof.Machine.execFcvt l hi a s
  | .bnz l b => Sys2Proof.Machine.execBnz l b s
  | .bz l b => Sys2Proof.Machine.execBz l b s
  | .jal l b => Sys2Proof.Machine.execJal l b s
  | .jalr l b => Sys2Proof.Machine.execJalr l b s
  | .rdcsr l b => Sys2Proof.Machine.execRdcsr l b s
  | .wrcsr l b => Sys2Proof.Machine.execWrcsr l b s
  | .tset l b => Sys2Proof.Machine.execTset l b s
  | .tget l b => Sys2Proof.Machine.execTget l b s
  | .tmNop l f => Sys2Proof.Machine.execTmNop l f s
  | .copy l f => Sys2Proof.Machine.execCopy l f s
  | .dload l f => Sys2Proof.Machine.execDload l f s
  | .dstore l f => Sys2Proof.Machine.execDstore l f s
  | .prefetch l f => Sys2Proof.Machine.execPrefetch l f s
  | .fill l f => Sys2Proof.Machine.execFill l f s
  | .slugPack l f => Sys2Proof.Machine.execSlugPack l f s
  | .slugUnpack l f => Sys2Proof.Machine.execSlugUnpack l f s
  | .tmEngineStart o => Sys2Proof.Machine.execTmEngineStart o s
  | .plNop l f => Sys2Proof.Machine.execPlNop l f s
  | .wload l f => Sys2Proof.Machine.execWload l f s
  | .mm l f => Sys2Proof.Machine.execMm l f s
  | .drain l f => Sys2Proof.Machine.execDrain l f s
  | .tzero l f => Sys2Proof.Machine.execTzero l f s
  | .tfree l f => Sys2Proof.Machine.execTfree l f s
  | .tload l f => Sys2Proof.Machine.execTload l f s
  | .platenStart press corrupt => Sys2Proof.Machine.execPlatenStart press corrupt s
  | .elementWiseArithmetic l f => Sys2Proof.Machine.execElementWiseArithmetic l f s
  | .transcendental l f => Sys2Proof.Machine.execTranscendental l f s
  | .conversion l f => Sys2Proof.Machine.execConversion l f s
  | .comparison l f => Sys2Proof.Machine.execComparison l f s
  | .reduction l f => Sys2Proof.Machine.execReduction l f s
  | .scan l f => Sys2Proof.Machine.execScan l f s
  | .segmentedScan l f => Sys2Proof.Machine.execSegmentedScan l f s
  | .permutationGather l f => Sys2Proof.Machine.execPermutationGather l f s
  | .rollerStart press => Sys2Proof.Machine.execRollerStart press s
  | .operationComplete press e idx => Sys2Proof.Machine.execOperationComplete press e idx s
  | .ctNop l f => Sys2Proof.Machine.execCtNop l f s
  | .br l f => Sys2Proof.Machine.execBr l f s
  | .brx l f => Sys2Proof.Machine.execBrx l f s
  | .call l f => Sys2Proof.Machine.execCall l f s
  | .dbnz l f => Sys2Proof.Machine.execDbnz l f s
  | .fence l f => Sys2Proof.Machine.execFence l f s
  | .cbarinit l f => Sys2Proof.Machine.execCbarinit l f s
  | .cbar l f => Sys2Proof.Machine.execCbar l f s
  | .wcinit l f => Sys2Proof.Machine.execWcinit l f s
  | .wcfa l f => Sys2Proof.Machine.execWcfa l f s
  | .fbar l f => Sys2Proof.Machine.execFbar l f s
  | .rsignal l f => Sys2Proof.Machine.execRsignal l f s
  | .rwait l f => Sys2Proof.Machine.execRwait l f s
  | .popen l f => Sys2Proof.Machine.execPopen l f s
  | .pcommit l f => Sys2Proof.Machine.execPcommit l f s
  | .preject l f => Sys2Proof.Machine.execPreject l f s
  | .endTake l f => Sys2Proof.Machine.execEndTake l f s
  | .proofCommitEngine chase region => Sys2Proof.Machine.execProofCommitEngine chase region s
  | .proofRejectEngine chase region => Sys2Proof.Machine.execProofRejectEngine chase region s
  | .kernOpen l f => Sys2Proof.Machine.execKernOpen l f s
  | .kernAppend l f => Sys2Proof.Machine.execKernAppend l f s
  | .kernAttend l f => Sys2Proof.Machine.execKernAttend l f s
  | .kernFork l f => Sys2Proof.Machine.execKernFork l f s
  | .kernTruncate l f => Sys2Proof.Machine.execKernTruncate l f s
  | .kernRelease l f => Sys2Proof.Machine.execKernRelease l f s
  | .kernExecute press idx => Sys2Proof.Machine.execKernExecute press idx s
  | .attendExecute press o => Sys2Proof.Machine.execAttendExecute press o s
  | .galleyCreate l f => Sys2Proof.Machine.execGalleyCreate l f s
  | .galleyStick l f => Sys2Proof.Machine.execGalleyStick l f s
  | .galleyFork l f => Sys2Proof.Machine.execGalleyFork l f s
  | .galleyReset l f => Sys2Proof.Machine.execGalleyReset l f s
  | .galleyLoad l f => Sys2Proof.Machine.execGalleyLoad l f s
  | .galleyStore l f => Sys2Proof.Machine.execGalleyStore l f s
  | .galleySwapOut l f => Sys2Proof.Machine.execGalleySwapOut l f s
  | .galleySwapIn l f => Sys2Proof.Machine.execGalleySwapIn l f s
  | .galleyRelease l f => Sys2Proof.Machine.execGalleyRelease l f s
  | .galleyQuery l f => Sys2Proof.Machine.execGalleyQuery l f s
  | .galleyExecute press idx => Sys2Proof.Machine.execGalleyExecute press idx s
  | .stickExecute press o => Sys2Proof.Machine.execStickExecute press o s
  | .swapOutEnd stream => Sys2Proof.Machine.execSwapOutEnd stream s
  | .swapInEnd stream slotGood => Sys2Proof.Machine.execSwapInEnd stream slotGood s
  | .runtimeSwapOut r => Sys2Proof.Machine.execRuntimeSwapOut r s
  | .runtimeSwapIn r => Sys2Proof.Machine.execRuntimeSwapIn r s
  | .autoswapDisable r => Sys2Proof.Machine.execAutoswapDisable r s
  | .autoswapEnable r => Sys2Proof.Machine.execAutoswapEnable r s
  | .runtimeReset r => Sys2Proof.Machine.execRuntimeReset r s
  | .runtimeLoad r => Sys2Proof.Machine.execRuntimeLoad r s
  | .poisonRepair entry good => Sys2Proof.Machine.execPoisonRepair entry good s
  | .placementEpoch part => Sys2Proof.Machine.execPlacementEpoch part s
  | .pageMoveComplete entry used good => Sys2Proof.Machine.execPageMoveComplete entry used good s
  | .placeRegister r => Sys2Proof.Machine.execPlaceRegister r s
  | .placeEnd r => Sys2Proof.Machine.execPlaceEnd r s
  | .placePin r => Sys2Proof.Machine.execPlacePin r s
  | .migrate r => Sys2Proof.Machine.execMigrate r s
  | .streamJobCreate r => Sys2Proof.Machine.execStreamJobCreate r s
  | .streamJobEnd r => Sys2Proof.Machine.execStreamJobEnd r s
  | .modelLoad r entry => Sys2Proof.Machine.execModelLoad r entry s
  | .modelUnload r => Sys2Proof.Machine.execModelUnload r s
  | .tableset r => Sys2Proof.Machine.execTableset r s
  | .memoryAtomic src pa body ecc => Sys2Proof.Machine.execMemoryAtomic src pa body ecc s
  | .regulatorAdmit part src q cycles served => Sys2Proof.Machine.execRegulatorAdmit part src q cycles served s
  | .hbmPatrol pc addr ecc => Sys2Proof.Machine.execHbmPatrol pc addr ecc s
  | .hbmRetrainWindow stack k => Sys2Proof.Machine.execHbmRetrainWindow stack k s
  | .hbmRegWrite path p v => Sys2Proof.Machine.execHbmRegWrite path p v s
  | .hbmLoopbackStart r => Sys2Proof.Machine.execHbmLoopbackStart r s
  | .hbmLoopbackEnd pass signature => Sys2Proof.Machine.execHbmLoopbackEnd pass signature s
  | .contextCreate r => Sys2Proof.Machine.execContextCreate r s
  | .contextDestroy r => Sys2Proof.Machine.execContextDestroy r s
  | .teardownComplete ctx => Sys2Proof.Machine.execTeardownComplete ctx s
  | .preemptSave press cycles => Sys2Proof.Machine.execPreemptSave press cycles s
  | .pressDispatch press => Sys2Proof.Machine.execPressDispatch press s
  | .longopSuspend r => Sys2Proof.Machine.execLongopSuspend r s
  | .longopResume r => Sys2Proof.Machine.execLongopResume r s
  | .longopCancel r => Sys2Proof.Machine.execLongopCancel r s
  | .longopStop handle defects => Sys2Proof.Machine.execLongopStop handle defects s
  | .portLinkChange up => Sys2Proof.Machine.execPortLinkChange up s
  | .portFallback => Sys2Proof.Machine.execPortFallback s
  | .neighborRequest q => Sys2Proof.Machine.execNeighborRequest q s
  | .packetDiscard why => Sys2Proof.Machine.execPacketDiscard why s
  | .ack session pn a => Sys2Proof.Machine.execAck session pn a s
  | .submit session queue headZero descs => Sys2Proof.Machine.execSubmit session queue headZero descs s
  | .readBuf session reqId buf genReq offset length => Sys2Proof.Machine.execReadBuf session reqId buf genReq offset length s
  | .readMem session reqId ctx vaddr length => Sys2Proof.Machine.execReadMem session reqId ctx vaddr length s
  | .release session reqId buf gen => Sys2Proof.Machine.execRelease session reqId buf gen s
  | .writeMem session reqId ctx addr data => Sys2Proof.Machine.execWriteMem session reqId ctx addr data s
  | .writeAck session reqId status => Sys2Proof.Machine.execWriteAck session reqId status s
  | .pullResp session reqId status data => Sys2Proof.Machine.execPullResp session reqId status data s
  | .hello1 h => Sys2Proof.Machine.execHello1 h s
  | .hello3 session finished edSig mlSig => Sys2Proof.Machine.execHello3 session finished edSig mlSig s
  | .helloTimeout session => Sys2Proof.Machine.execHelloTimeout session s
  | .retransmitTimeout session => Sys2Proof.Machine.execRetransmitTimeout session s
  | .sessionFail session => Sys2Proof.Machine.execSessionFail session s
  | .ackTimer session => Sys2Proof.Machine.execAckTimer session s
  | .cwndUpdate session acked marked => Sys2Proof.Machine.execCwndUpdate session acked marked s
  | .segmentSend session => Sys2Proof.Machine.execSegmentSend session s
  | .keyUpdate session => Sys2Proof.Machine.execKeyUpdate session s
  | .ticketIssue r => Sys2Proof.Machine.execTicketIssue r s
  | .ticketRevoke r => Sys2Proof.Machine.execTicketRevoke r s
  | .colophon r nonce => Sys2Proof.Machine.execColophon r nonce s
  | .fwStage r slot img => Sys2Proof.Machine.execFwStage r slot img s
  | .fwActivate r slot => Sys2Proof.Machine.execFwActivate r slot s
  | .svnCommit r => Sys2Proof.Machine.execSvnCommit r s
  | .tokenOverride r => Sys2Proof.Machine.execTokenOverride r s
  | .tokenReturn r => Sys2Proof.Machine.execTokenReturn r s
  | .tokenRedeploy r => Sys2Proof.Machine.execTokenRedeploy r s
  | .tokenDecommission r => Sys2Proof.Machine.execTokenDecommission r s
  | .tokenDebug r => Sys2Proof.Machine.execTokenDebug r s
  | .provision ownerEd ownerMl => Sys2Proof.Machine.execProvision ownerEd ownerMl s
  | .scrub r => Sys2Proof.Machine.execScrub r s
  | .bist r => Sys2Proof.Machine.execBist r s
  | .telemetry r => Sys2Proof.Machine.execTelemetry r s
  | .regRead r => Sys2Proof.Machine.execRegRead r s
  | .regWrite r => Sys2Proof.Machine.execRegWrite r s
  | .ledgerRead r => Sys2Proof.Machine.execLedgerRead r s
  | .netConfig r => Sys2Proof.Machine.execNetConfig r s
  | .linkRetrain r => Sys2Proof.Machine.execLinkRetrain r s
  | .queueCreate r => Sys2Proof.Machine.execQueueCreate r s
  | .queueDestroy r => Sys2Proof.Machine.execQueueDestroy r s
  | .queueBind r => Sys2Proof.Machine.execQueueBind r s
  | .bufRegister r => Sys2Proof.Machine.execBufRegister r s
  | .bufUnregister r => Sys2Proof.Machine.execBufUnregister r s
  | .hostwinMap r => Sys2Proof.Machine.execHostwinMap r s
  | .echo r body => Sys2Proof.Machine.execEcho r body s
  | .close r => Sys2Proof.Machine.execClose r s
  | .ethLoopbackStart r => Sys2Proof.Machine.execEthLoopbackStart r s
  | .ethLoopbackEnd errors => Sys2Proof.Machine.execEthLoopbackEnd errors s
  | .taoshCcCfgWrite path v => Sys2Proof.Machine.execTaoshCcCfgWrite path v s
  | .flitReceive link f crcGood => Sys2Proof.Machine.execFlitReceive link f crcGood s
  | .nak link ack => Sys2Proof.Machine.execNak link ack s
  | .rdReq link p => Sys2Proof.Machine.execRdReq link p s
  | .rdResp link p => Sys2Proof.Machine.execRdResp link p s
  | .wr link p => Sys2Proof.Machine.execWr link p s
  | .wrAck link p => Sys2Proof.Machine.execWrAck link p s
  | .atom link p => Sys2Proof.Machine.execAtom link p s
  | .atomAck link p => Sys2Proof.Machine.execAtomAck link p s
  | .coll link p => Sys2Proof.Machine.execColl link p s
  | .collCtl link p => Sys2Proof.Machine.execCollCtl link p s
  | .requestTimeout tag => Sys2Proof.Machine.execRequestTimeout tag s
  | .collectiveChunkTimeout handle => Sys2Proof.Machine.execCollectiveChunkTimeout handle s
  | .fecLockLoss link => Sys2Proof.Machine.execFecLockLoss link s
  | .retrainComplete link good peerId peerLink peerDim peerDir => Sys2Proof.Machine.execRetrainComplete link good peerId peerLink peerDim peerDir s
  | .quoinTopoWrite path v => Sys2Proof.Machine.execQuoinTopoWrite path v s
  | .quoinLinkCfgWrite path link v => Sys2Proof.Machine.execQuoinLinkCfgWrite path link v s
  | .quoinCfgWrite path v => Sys2Proof.Machine.execQuoinCfgWrite path v s
  | .quoinLoopbackStart r => Sys2Proof.Machine.execQuoinLoopbackStart r s
  | .quoinLoopbackEnd errors => Sys2Proof.Machine.execQuoinLoopbackEnd errors s
  | .doorbell ctx => Sys2Proof.Machine.execDoorbell ctx s
  | .collective ctx => Sys2Proof.Machine.execCollective ctx s
  | .updSet ctx => Sys2Proof.Machine.execUpdSet ctx s
  | .updFreeze ctx => Sys2Proof.Machine.execUpdFreeze ctx s
  | .updClear ctx => Sys2Proof.Machine.execUpdClear ctx s
  | .auditSnap path v => Sys2Proof.Machine.execAuditSnap path v s
  | .auditWalk path v => Sys2Proof.Machine.execAuditWalk path v s
  | .auditDone => Sys2Proof.Machine.execAuditDone s
  | .deviceStart steps upto => Sys2Proof.Machine.execDeviceStart steps upto s
  | .stepTimeout step => Sys2Proof.Machine.execStepTimeout step s
  | .bootSkipWrite path v => Sys2Proof.Machine.execBootSkipWrite path v s
  | .bootAltWrite path v => Sys2Proof.Machine.execBootAltWrite path v s
  | .clearFails path => Sys2Proof.Machine.execClearFails path s
  | .restart path => Sys2Proof.Machine.execRestart path s
  | .suspectClear path k v => Sys2Proof.Machine.execSuspectClear path k v s
  | .fatalError cause status locKind loc => Sys2Proof.Machine.execFatalError cause status locKind loc s
  | .inputSag centivolts => Sys2Proof.Machine.execInputSag centivolts s
  | .surge centivolts => Sys2Proof.Machine.execSurge centivolts s
  | .overvolt centivolts => Sys2Proof.Machine.execOvervolt centivolts s
  | .currentClamp => Sys2Proof.Machine.execCurrentClamp s
  | .sagRelease centivolts => Sys2Proof.Machine.execSagRelease centivolts s
  | .dropout => Sys2Proof.Machine.execDropout s
  | .inputRestore centivolts => Sys2Proof.Machine.execInputRestore centivolts s
  | .bulkUndervoltage => Sys2Proof.Machine.execBulkUndervoltage s
  | .throttleInAssert => Sys2Proof.Machine.execThrottleInAssert s
  | .throttleInDeassert => Sys2Proof.Machine.execThrottleInDeassert s
  | .throttleRelease => Sys2Proof.Machine.execThrottleRelease s
  | .thermalSample temps held10ms => Sys2Proof.Machine.execThermalSample temps held10ms s
  | .pwrCapWrite path v => Sys2Proof.Machine.execPwrCapWrite path v s
  | .placeCfgWrite path addr v => Sys2Proof.Machine.execPlaceCfgWrite path addr v s
  | .resetNAssert => Sys2Proof.Machine.execResetNAssert s
  | .resetNDeassert steps upto => Sys2Proof.Machine.execResetNDeassert steps upto s
  | .i3cPointerWrite bytes => Sys2Proof.Machine.execI3cPointerWrite bytes s
  | .i3cRegisterWrite bytes => Sys2Proof.Machine.execI3cRegisterWrite bytes s
  | .i3cRead => Sys2Proof.Machine.execI3cRead s
  | .i3cDynamicAddress addr => Sys2Proof.Machine.execI3cDynamicAddress addr s
  | .jtagInstruction ir => Sys2Proof.Machine.execJtagInstruction ir s
  | .jtagTrst => Sys2Proof.Machine.execJtagTrst s
  | .segmentReceive g authGood => Sys2Proof.Machine.execSegmentReceive g authGood s
  | .retrainingWindowEnd pc failed => Sys2Proof.Machine.execRetrainingWindowEnd pc failed s
  | .oldKeyExpiry session => Sys2Proof.Machine.execOldKeyExpiry session s

end Sys2Proof.Machine
end

