-- ==== Sys2Proof/Safety.lean ====
section
/-! DEFINITION. The terms in which the statements speak: the invariant of every state, a Line that may issue, what a Line
of one slot changes, a device in which nothing waits, a request that its channel admits, and what a command leaves. -/

namespace Sys2Proof.Machine

/-- The invariant: memory has its one canonical form, addresses rising and no zero byte listed. -/
def State.Inv (s : State) : Prop := Memory.wf s.mem = true

/-- A Line of the one slot operation `i` may issue on press `n` and takes effect (steps 1 to 3 of R78): the press runs a
context, nothing of another Line is gathered, nothing that the Line waits for is pending, the pointer lists that it reads
are at hand (R119), no check of step 2 fails, and its guard holds. -/
structure Goes (s : State) (n : Nat) (l : Line) (i : Instr) : Prop where
  press : n < 128
  core : l.core = .press n
  last : l.more = false
  running : (s.press n).st = .running
  bound : (s.press n).run ≠ none
  alone : (s.press n).gathered = []
  ready : s.lineReady n l (lineSlots l [i]) = true
  listed : s.listsWait (s.lc n l) (lineSlots l [i]) = false
  passes : s.lineFault (s.lc n l) (lineSlots l [i]) = none
  guard : (s.lc n l).guard = true

/-- As `Goes`, while the press has no region open. -/
structure OneSlot (s : State) (n : Nat) (l : Line) (i : Instr) : Prop extends Goes s n l i where
  outside : s.openRegion n = none

/-- Nothing of the state changes but one press's state of its context, which becomes `p`. -/
def OnlyPress (s t : State) (n : Nat) (p : PressCtx) : Prop :=
  t.press n = { s.press n with cur := p } ∧ (∀ m, m ≠ n → t.press m = s.press m) ∧ { t with presses := s.presses } = s

/-- A value of a scalar register as the press sees it. -/
def State.x (s : State) (n : Nat) (r : BitVec 6) : W64 := (s.pc n).getX r.toNat

/-- The command gives a next state in which only the state of press `n`'s context differs: `f` of what it was, the Line
retired and the program counter at `next`. -/
def Does (s : State) (n : Nat) (i : Instr) (f : PressCtx → PressCtx) (next : W64) : Prop :=
  ∃ t, exec i s = .next t ∧ OnlyPress s t n ((f (s.pc n)).retire next)

/-- The address of the Line that follows the one at a press's program counter. -/
def State.nextLine (s : State) (n : Nat) : W64 := (s.pc n).pc + 64

/-- Numeric conditions recorded for the Line that a press issues (R68). -/
def PressCtx.withFlags (p : PressCtx) (fl : Flags) : PressCtx := if fl = 0 then p else p.record p.retired.toNat fl

/-- As `Does`, with numeric conditions recorded: the audit totals of the press unit may rise too (R68, R408). -/
def DoesFlagged (s : State) (n : Nat) (i : Instr) (f : PressCtx → PressCtx) (fl : Flags) : Prop :=
  ∃ t, exec i s = .next t ∧ t.press n = { s.press n with cur := ((f (s.pc n)).withFlags fl).retire (s.nextLine n) } ∧
    (∀ m, m ≠ n → t.press m = s.press m) ∧ { t with presses := s.presses, sets := s.sets, incs := s.incs } = s

/-- A press that does not wait, or waits for the end of its sub-take or of a region alone. -/
def Hold.quiet : Hold → Prop
  | .none => True
  | .ending => True
  | .commit _ => True
  | .reject _ => True
  | .fence => False
  | .cbar _ => False
  | .cbarWait _ => False
  | .fbar _ _ => False
  | .fbarWait _ _ => False
  | .rwait _ => False

/-- Nothing on the device waits for anything: no access of a press, of a context saved on one, of a compositor or of the host
stalls, every running tensor move has taken effect, no press waits for what another command may bring about, no request is
outstanding, no job streams, no area of a page is to be asked for and no model load reads. -/
structure Quiet (s : State) : Prop where
  presses : ∀ e ∈ s.presses, e.2.cur.away = false ∧ e.2.cur.hold.quiet ∧ e.2.cur.watch = none ∧
    ∀ x ∈ e.2.slotA.toList ++ e.2.slotB.toList, x.st.away = false
  comps : ∀ e ∈ s.comps, e.2.stall = []
  hosts : s.hostq = []
  requests : s.requests = []
  jobs : ∀ e ∈ s.parts, e.2.jobs = []
  areas : ∀ e ∈ s.placed, e.2.asked = true ∨ (e.2.poison = false ∧ e.2.move ≠ some .fetch)
  loads : ∀ e ∈ s.longops, ∀ i t, e.2.kind ≠ .modelLoad i t

/-- A request of the management channel that its session may make and whose items are in order (R358, R359, R475). -/
structure Admitted (s : State) (o : OpRule) (r : MReq) : Prop where
  session : r.session < 1024
  isOpen : s.sessionOpen r.session = true
  passes : s.gate o r = none

/-- A final response with items is put last on the send queue of a request's session. -/
def Answers (s t : State) (r : MReq) (st : Status) (items : List (Nat × W64)) : Prop :=
  (t.session r.session).queue = (s.session r.session).queue ++ [.manage r.reqId st items [] false]

end Sys2Proof.Machine
end

