-- ==== Sys2Proof/Certificates/Slice0/Obligations.lean ====
section
/-! DEFINITION. The statements for the provers. Each formalises rules of the manual about the commands and the state of the
device; what a statement takes from a reading or a choice of the model is said in its docstring. -/

open Sys2Proof Sys2Proof.Machine

/-! ### The step and the state after reset -/

/-- A step takes the command at the front of the queue and runs it on the state with the queue's rest; on an empty queue
the block idles (log 1). -/
def Obligations.StepRunsFront : Prop :=
  ∀ (s : State), (s.pending = [] → step s = .next s) ∧
    ∀ c rest, s.pending = c :: rest → step s = exec c { s with pending := rest }

/-! ### Scalar slots (R79 to R84) -/

/-- R80: the integer operations write x[RD] with the value of their table row; x0 discards. Nothing else changes but the
program counter and RETIRED. -/
def Claims.IntegerResults : Prop :=
  ∀ (s : State) (n : Nat) (l : Line),
    (∀ a v, OneSlot s n l (.alu l a) → aluOp a.sub.toNat (s.x n a.rs1) (s.x n a.rs2) = some v →
      Does s n (.alu l a) (·.setX a.rd.toNat v) (s.nextLine n)) ∧
    ∀ b : FormB, let x := s.x n b.rs1; let i : W64 := b.imm.signExtend 64
      (OneSlot s n l (.addi l b) → Does s n (.addi l b) (·.setX b.rd.toNat (x + i)) (s.nextLine n)) ∧
      (OneSlot s n l (.andi l b) → Does s n (.andi l b) (·.setX b.rd.toNat (x &&& i)) (s.nextLine n)) ∧
      (OneSlot s n l (.ori l b) → Does s n (.ori l b) (·.setX b.rd.toNat (x ||| i)) (s.nextLine n)) ∧
      (OneSlot s n l (.xori l b) → Does s n (.xori l b) (·.setX b.rd.toNat (x ^^^ i)) (s.nextLine n)) ∧
      (OneSlot s n l (.slli l b) →
        Does s n (.slli l b) (·.setX b.rd.toNat (x <<< (b.imm.toNat % 64))) (s.nextLine n)) ∧
      (OneSlot s n l (.srli l b) →
        Does s n (.srli l b) (·.setX b.rd.toNat (x >>> (b.imm.toNat % 64))) (s.nextLine n)) ∧
      (OneSlot s n l (.srai l b) →
        Does s n (.srai l b) (·.setX b.rd.toNat (x.sshiftRight (b.imm.toNat % 64))) (s.nextLine n)) ∧
      (OneSlot s n l (.slti l b) →
        Does s n (.slti l b) (·.setX b.rd.toNat (if x.slt i then 1 else 0)) (s.nextLine n)) ∧
      (OneSlot s n l (.lis l b) →
        let w := immWidth l.split
        let part : Nat := (l.imm.toNat >>> (w * (b.imm.toNat % 4))) % 2 ^ w
        Does s n (.lis l b) (·.setX b.rd.toNat (if b.imm.getLsbD 2 then BitVec.ofNat 64 part
          else (BitVec.ofNat w part).signExtend 64)) (s.nextLine n))

/-- R79: the scalar slot's NOP, and the NOPs of the tensor-move, platen and control slots, only advance the program
counter (R88, R89, R91). -/
def Claims.NopsAdvance : Prop :=
  ∀ (s : State) (n : Nat) (l : Line),
    (∀ sl r, OneSlot s n l (.scalarNop l sl r) → Does s n (.scalarNop l sl r) id (s.nextLine n)) ∧
    (∀ f, OneSlot s n l (.tmNop l f) → Does s n (.tmNop l f) id (s.nextLine n)) ∧
    (∀ f, OneSlot s n l (.plNop l f) → Does s n (.plNop l f) id (s.nextLine n)) ∧
    (∀ f, OneSlot s n l (.ctNop l f) → Does s n (.ctNop l f) id (s.nextLine n))

/-- R79: CMP sets every bit of p[RD] to the comparison; PLOG combines two predicates bit by bit; PGET and PSET move the
word of a predicate that x[RS2] names; p0 discards. -/
def Claims.PredicateResults : Prop :=
  ∀ (s : State) (n : Nat) (l : Line) (a : FormA),
    let u := s.x n a.rs1
    let v := s.x n a.rs2
    let p (r : BitVec 6) : Pred := (s.pc n).getP r.toNat
    (OneSlot s n l (.cmp l a) →
      let c : Bool := match a.sub.toNat with
        | 0 => u == v | 1 => u != v | 2 => u.slt v | 3 => !u.slt v | 4 => u.ult v | _ => !u.ult v
      Does s n (.cmp l a) (·.setP a.rd.toNat (if c then BitVec.allOnes 16384 else 0)) (s.nextLine n)) ∧
    (OneSlot s n l (.plog l a) →
      let w := match a.sub.toNat with
        | 0 => p a.rs1 &&& p a.rs2 | 1 => p a.rs1 ||| p a.rs2 | 2 => p a.rs1 ^^^ p a.rs2 | _ => p a.rs1 &&& ~~~p a.rs2
      Does s n (.plog l a) (·.setP a.rd.toNat w) (s.nextLine n)) ∧
    (OneSlot s n l (.pget l a) →
      Does s n (.pget l a) (·.setX a.rd.toNat ((p a.rs1).extractLsb' (64 * (v.toNat % 256)) 64)) (s.nextLine n)) ∧
    (OneSlot s n l (.pset l a) → ∃ w : Pred,
      (∀ i < 16384, w.getLsbD i = if i / 64 = v.toNat % 256 then u.getLsbD (i % 64) else (p a.rd).getLsbD i) ∧
      Does s n (.pset l a) (·.setP a.rd.toNat w) (s.nextLine n))

/-- The operands of a scalar floating-point operation and its rounded result with the conditions it raises (R81): W is
SUB[4], NC is SUB[3:0]. -/
def fpResult (s : State) (n : Nat) (a : FormA) (two : Bool) (f : Machine.Num → Machine.Num → Machine.Num × Flags) : W64 × Flags :=
  let fmt := if a.sub.getLsbD 4 then Fmt.fp32 else Fmt.fp64
  let u := decodeNum fmt ((s.x n a.rs1).toNat % 2 ^ fmtWidth fmt)
  let v := decodeNum fmt ((s.x n a.rs2).toNat % 2 ^ fmtWidth fmt)
  let e := f u v
  let r := toFloat fmt (a.sub.extractLsb' 0 4) 0 e.1
  (BitVec.ofNat 64 r.1, e.2 ||| r.2 ||| sawNan (if two then [u, v] else [u]))

/-- R79, R81, R64, R65: the scalar floating-point operations write the exact result rounded once under NC, zero-extended,
and raise the conditions of the Line; FCMP writes a predicate; FCVT under stochastic rounding takes one draw (R57). -/
def Obligations.FloatResults : Prop :=
  ∀ (s : State) (n : Nat) (l : Line) (a : FormA),
    let go (i : Instr) (two : Bool) (f : Machine.Num → Machine.Num → Machine.Num × Flags) : Prop :=
      OneSlot s n l i →
        DoesFlagged s n i (·.setX a.rd.toNat (fpResult s n a two f).1) (fpResult s n a two f).2
    go (.fadd l a) true Machine.Num.add ∧ go (.fsub l a) true Machine.Num.sub ∧ go (.fmul l a) true Machine.Num.mul ∧
    go (.fdiv l a) true Machine.Num.div ∧ go (.fsqrt l a) false (fun u _ => u.sqrt) ∧
    go (.fmin l a) true (fun u v => (u.min v, 0)) ∧ go (.fmax l a) true (fun u v => (u.max v, 0)) ∧
    (OneSlot s n l (.fcmp l a) →
      let fmt := if a.sub.getLsbD 4 then Fmt.fp32 else Fmt.fp64
      let u := decodeNum fmt ((s.x n a.rs1).toNat % 2 ^ fmtWidth fmt)
      let v := decodeNum fmt ((s.x n a.rs2).toNat % 2 ^ fmtWidth fmt)
      DoesFlagged s n (.fcmp l a) (·.setP a.rd.toNat
        (if condNum (a.sub.toNat % 8) u v then BitVec.allOnes 16384 else 0)) (sawNan [u, v])) ∧
    ∀ hi, OneSlot s n l (.fcvt l hi a) →
      let src := a.rs2.toNat % 16
      let dst := 8 * (if hi then 1 else 0) + a.sub.toNat / 16
      let nc := a.sub.extractLsb' 0 4
      let v := decodeNum src ((s.x n a.rs1).toNat % 2 ^ fmtWidth src)
      (drawsFor dst nc = false →
        DoesFlagged s n (.fcvt l hi a) (·.setX a.rd.toNat (BitVec.ofNat 64 (toFmt dst nc 0 v).1))
          ((toFmt dst nc 0 v).2 ||| sawNan [v])) ∧
      (drawsFor dst nc = true → let e := srStep (s.pc n).srSeed
        let r := toFmt dst nc (e.toNat % 65536) v
        ∃ t, exec (.fcvt l hi a) s = .next t ∧ t.mem = s.mem ∧ t.free = s.free + 1 ∧
          (∀ m, m ≠ n → t.press m = s.press m) ∧
          t.pc n = ((({ s.pc n with srSeed := e } : PressCtx).setX a.rd.toNat (BitVec.ofNat 64 r.1)).withFlags
            (r.2 ||| sawNan [v])).retire (s.nextLine n))

/-- R79, R84: RDCSR reads a state register, as the table lists it, on a press and, for CYCLE, PRESS, DEVICE and CONTEXT, on a
compositor; an unlisted one reads zero. CYCLE is a free value (R12, log 3). WRCSR clears the bits of the W1C registers, loads
the seed, 1 for zero, and changes no other register. TSET and TGET move one 64-bit word of a tensor descriptor. Each of the
four completes on a press whenever its Line may issue, and moves on to the next Line. -/
def Obligations.StateRegisters : Prop :=
  ∀ (s : State) (n m : Nat) (l : Line) (b : FormB),
    let p := s.pc n
    let k := b.imm.toNat
    let x := s.x n b.rs1
    let reads (v : W64) : Prop := Does s n (.rdcsr l b) (·.setX b.rd.toNat v) (s.nextLine n)
    let writes (f : PressCtx → PressCtx) : Prop := Does s n (.wrcsr l b) f (s.nextLine n)
    (∀ i, i = .rdcsr l b ∨ i = .wrcsr l b ∨ i = .tset l b ∨ i = .tget l b → OneSlot s n l i →
      ∃ t, exec i s = .next t ∧ (t.pc n).pc = s.nextLine n ∧ t.mem = s.mem ∧ ∀ j, j ≠ n → t.press j = s.press j) ∧
    (OneSlot s n l (.rdcsr l b) →
      (k = 0x000 → ∃ t, exec (.rdcsr l b) s = .next t ∧ t.free = s.free + 1 ∧
        OnlyPress { s with free := s.free + 1 } t n ((p.setX b.rd.toNat (Config.freeWord s.free)).retire (s.nextLine n))) ∧
      (k = 0x001 → reads p.retired) ∧ (k = 0x002 → reads (BitVec.ofNat 64 n)) ∧
      (k = 0x003 → reads (BitVec.ofNat 64 (s.regFld .mgmt 0 0 0 16))) ∧
      (k = 0x004 → reads (BitVec.ofNat 64 (s.runCtx n))) ∧ (k = 0x010 → reads (p.numStatus.setWidth 64)) ∧
      (k = 0x011 → reads p.srSeed) ∧ (k = 0x012 → reads (if p.proofMis then 1 else 0)) ∧
      (k = 0x013 → reads (p.proofCnt.setWidth 64)) ∧ (k = 0x014 → reads p.proofLoc) ∧
      (k = 0x015 → reads (if p.rlRange then 1 else 0)) ∧ (k = 0x016 → reads (p.rlCount.setWidth 64)) ∧
      (0x018 ≤ k → k ≤ 0x01F → reads ((mget 0 p.numCount (k - 0x018)).setWidth 64)) ∧
      (5 ≤ k ∧ k ≤ 0x00F ∨ k = 0x017 ∨ 0x020 ≤ k → reads 0)) ∧
    (OneSlot s n l (.wrcsr l b) →
      (k = 0x010 → writes fun q => { q with numStatus := q.numStatus &&& ~~~x.setWidth 8 }) ∧
      (k = 0x011 → writes fun q => { q with srSeed := if x = 0 then 1 else x }) ∧
      (k = 0x012 → writes fun q => { q with proofMis := q.proofMis && !x.getLsbD 0 }) ∧
      (k = 0x015 → writes fun q => { q with rlRange := q.rlRange && !x.getLsbD 0 }) ∧
      (k ≠ 0x010 → k ≠ 0x011 → k ≠ 0x012 → k ≠ 0x015 → writes id)) ∧
    (OneSlot s n l (.tset l b) → ∃ d : Desc,
      (∀ i < 512, d.getLsbD i = if i / 64 = k % 8 then x.getLsbD (i % 64) else (p.getT (b.rd.toNat % 32)).getLsbD i) ∧
      Does s n (.tset l b) (·.setT (b.rd.toNat % 32) d) (s.nextLine n)) ∧
    (OneSlot s n l (.tget l b) →
      Does s n (.tget l b)
        (·.setX b.rd.toNat ((p.getT (b.rs1.toNat % 32)).extractLsb' (64 * (k % 8)) 64)) (s.nextLine n)) ∧
    (m < 64 → l.core = .comp m → l.unlisted = 0 → (s.comp m).fault.valid = false → (s.comp m).stall = [] → s.requests = [] →
      let y : Comp := { s.comp m with pc := (s.comp m).pc + 4 }
      let go (i : Instr) (z : Comp) : Prop :=
        ∃ t, exec i s = .next t ∧ t.comp m = z ∧ (∀ j, j ≠ m → t.comp j = s.comp j) ∧
          { t with comps := s.comps, free := s.free } = s
      (k = 0x000 → go (.rdcsr l b) (y.setX b.rd.toNat (Config.freeWord s.free))) ∧
      (k = 0x002 → go (.rdcsr l b) (y.setX b.rd.toNat (BitVec.ofNat 64 (128 + m)))) ∧
      (k = 0x003 → go (.rdcsr l b) (y.setX b.rd.toNat (BitVec.ofNat 64 (s.regFld .mgmt 0 0 0 16)))) ∧
      (k = 0x004 → go (.rdcsr l b) (y.setX b.rd.toNat (BitVec.ofNat 64 (s.comp m).ctx))) ∧
      go (.wrcsr l b) y)

/-- R79: LDC reads and STC writes 8 bytes of the press's case, least significant first, at x[RS1] + IMM13; STC changes no
other byte of memory. -/
def Claims.CaseAccess : Prop :=
  ∀ (s : State) (n : Nat) (l : Line),
    (∀ b : FormB, OneSlot s n l (.ldc l b) →
      let off := (s.x n b.rs1 + b.imm.signExtend 64).toNat
      Does s n (.ldc l b) (·.setX b.rd.toNat (BitVec.ofNat 64 (ofBytes (cells s.mem (caseBase n + off) 8))))
        (s.nextLine n)) ∧
    ∀ c : FormS, OneSlot s n l (.stc l c) →
      let off := (s.x n c.rs1 + c.imm.signExtend 64).toNat
      ∃ t, exec (.stc l c) s = .next t ∧
        OnlyPress { s with mem := t.mem } t n ((s.pc n).retire (s.nextLine n)) ∧
        (∀ i < 8, cell t.mem (caseBase n + off + i) = (s.x n c.rs2).extractLsb' (8 * i) 8) ∧
        ∀ a, a < caseBase n + off ∨ caseBase n + off + 8 ≤ a → cell t.mem a = cell s.mem a

/-- What a scalar load and store need of memory: the word lies in plain local memory at `pa`, not marked uncorrectable, the
access of a chase `c` (or of none) does not stall there, and no earlier scalar access of the press is outstanding. -/
structure PlainWord (s : State) (n : Nat) (c : Option Nat) (k : Kind) (va : W64) (pa size : Nat) : Prop where
  place : s.resolve (s.runCtx n) k va = .ok (.mem pa)
  inDevice : pa + size ≤ 2 ^ 48
  flows : s.waits c (.mem pa) size (decide (k = .wr)) = false
  good : s.isBad pa size = false
  idle : s.scalarBusy n (s.runCtx n) = false

/-- Bytes that a press writes belong to it alone: no other operation that runs writes them (R86), and they are no memory that
the output of a window take shares with what it reads (R135). -/
structure Unshared (s : State) (n : Nat) (runs : List (Nat × Nat)) : Prop where
  alone : overlaps runs (s.busySpans n (s.runCtx n)) = []
  apart : overlaps runs (s.sharedRuns n (s.runCtx n)) = []

/-- R79: a load writes x[RD] with the bytes at x[RS1] + IMM13, least significant first (R3), sign- or zero-extended; memory
and every other press stay as they are. -/
def Claims.LoadResults : Prop :=
  ∀ (s : State) (n : Nat) (l : Line) (b : FormB) (pa : Nat),
    let va := s.x n b.rs1 + b.imm.signExtend 64
    let go (i : Instr) (size : Nat) (signed : Bool) : Prop :=
      OneSlot s n l i → PlainWord s n (some (chaseOf n)) .rd va pa size →
        let v := ofBytes (cells s.mem pa size)
        let w : W64 := if signed then (BitVec.ofNat (8 * size) v).signExtend 64 else BitVec.ofNat 64 v
        ∃ t, exec i s = .next t ∧ t.pc n = ((s.pc n).setX b.rd.toNat w).retire (s.nextLine n) ∧ t.mem = s.mem ∧
          ∀ m, m ≠ n → t.press m = s.press m
    go (.lb l b) 1 true ∧ go (.lh l b) 2 true ∧ go (.lw l b) 4 true ∧ go (.ld l b) 8 true ∧ go (.lbu l b) 1 false ∧
    go (.lhu l b) 2 false ∧ go (.lwu l b) 4 false

/-- R79, R124: a store writes the low bytes of x[RS2], least significant first (R3), and no other byte of memory; while a
claim's drop latch is set it writes nothing. -/
def Claims.StoreResults : Prop :=
  ∀ (s : State) (n : Nat) (l : Line) (c : FormS) (pa : Nat), Quiet s →
    let va := s.x n c.rs1 + c.imm.signExtend 64
    let go (i : Instr) (size : Nat) : Prop :=
      OneSlot s n l i → PlainWord s n (some (chaseOf n)) .wr va pa size →
        overlaps [(pa, size)] (s.sharedRuns n (s.runCtx n)) = [] →
        ∃ t, exec i s = .next t ∧ t.pc n = (s.pc n).retire (s.nextLine n) ∧ (∀ m, m ≠ n → t.press m = s.press m) ∧
          ((s.pc n).dropLatch = true → t.mem = s.mem) ∧
          ((s.pc n).dropLatch = false →
            (∀ j < size, cell t.mem (pa + j) = (s.x n c.rs2).extractLsb' (8 * j) 8) ∧
            ∀ a, a < pa ∨ pa + size ≤ a → cell t.mem a = cell s.mem a)
    go (.sb l c) 1 ∧ go (.sh l c) 2 ∧ go (.sw l c) 4 ∧ go (.sd l c) 8

/-- R82, R83: the branches of a compositor. BNZ and BZ go to pc + 4 × IMM13 on their condition, JAL and JALR write the
address of the next instruction and jump; nothing else of the device changes. -/
def Claims.CompositorBranches : Prop :=
  ∀ (s : State) (m : Nat) (l : Line) (b : FormB), m < 64 → l.core = .comp m → l.unlisted = 0 →
    (s.comp m).fault.valid = false → (s.comp m).stall = [] → s.requests = [] →
    let x := s.comp m
    let near := x.pc + 4 * b.imm.signExtend 64
    let go (i : Instr) (y : Comp) : Prop :=
      ∃ t, exec i s = .next t ∧ t.comp m = y ∧ (∀ k, k ≠ m → t.comp k = s.comp k) ∧ { t with comps := s.comps } = s
    (b.rd = 0 → go (.bnz l b) { x with pc := if x.getX b.rs1.toNat ≠ 0 then near else x.pc + 4 }) ∧
    (b.rd = 0 → go (.bz l b) { x with pc := if x.getX b.rs1.toNat = 0 then near else x.pc + 4 }) ∧
    go (.jal l b) (({ x with pc := near } : Comp).setX b.rd.toNat (x.pc + 4)) ∧
    go (.jalr l b) (({ x with pc := (x.getX b.rs1.toNat + b.imm.signExtend 64) &&& ~~~3 } : Comp).setX b.rd.toNat (x.pc + 4))

/-! ### Engine queues (R76, R85, R87 to R89) -/

/-- The mark that an operation takes at issue and signals at its completion (R85). -/
def markField (en : Bool) (m : BitVec 4) : Option Nat := if en then some m.toNat else none

/-- R87, R88: COPY, PREFETCH, FILL, SLUG_PACK and SLUG_UNPACK enter the tensor-move queue with their descriptors and
offsets as they stand at issue (R76), and their mark's count rises. -/
def Claims.TensorMovesQueue : Prop :=
  ∀ (s : State) (n : Nat) (l : Line) (f : TmF),
    let go (i : Instr) (kind : TmKind) : Prop := OneSlot s n l i → ∃ op : TmOp,
      op.kind = kind ∧ op.td = (s.pc n).getT f.td.toNat ∧ op.ts = (s.pc n).getT f.ts.toNat ∧ op.nc = f.nc ∧
      op.offA = s.x n f.xa ∧ op.offB = s.x n f.xb ∧ op.mark = markField f.markEn f.mark ∧
      op.discard = (s.pc n).dropLatch ∧
      Does s n i (fun p => { p.take op.mark with tmq := p.tmq ++ [op] }) (s.nextLine n)
    go (.copy l f) .copy ∧ go (.prefetch l f) .prefetch ∧ go (.fill l f) .fill ∧ go (.slugPack l f) .slugPack ∧
    go (.slugUnpack l f) .slugUnpack

/-- R87, R88: DLOAD and DSTORE enter the tensor-move queue too, with the case offset x[XA] and the register that they name. -/
def Claims.DescriptorMoves : Prop :=
  ∀ (s : State) (n : Nat) (l : Line) (f : TmF),
    let go (i : Instr) (kind : TmKind) : Prop := OneSlot s n l i → ∃ op : TmOp,
      op.kind = kind ∧ op.treg = f.td.toNat ∧ op.ts = (s.pc n).getT f.ts.toNat ∧ op.offA = s.x n f.xa ∧
      op.mark = markField f.markEn f.mark ∧ op.done = false ∧ op.left = [] ∧
      Does s n i (fun p => { p.take op.mark with tmq := p.tmq ++ [op] }) (s.nextLine n)
    go (.dload l f) .dload ∧ go (.dstore l f) .dstore

/-- R87, R89, R102, R110: the platen operations enter the platen queue and take their mark; WLOAD becomes the record of the
resident window, TFREE and a DRAIN with REL unbind their handle in every platen taking part. Registers, predicates and
descriptors stay as they are. -/
def Claims.PlatenQueue : Prop :=
  ∀ (s : State) (n : Nat) (l : Line) (f : PlF),
    let go (i : Instr) (kind : PlKind) (frees : Bool) : Prop := OneSlot s n l i → ∃ t op,
      exec i s = .next t ∧ op.kind = kind ∧ op.plat = f.plat ∧ op.tile = f.tile.toNat ∧ op.nc = f.nc ∧ op.acc = f.acc ∧
      op.tr = f.tr ∧ op.chk = f.chk ∧ op.pass = f.pass.toNat ∧ op.tw = (s.pc n).getT f.tw.toNat ∧
      op.pm = (s.pc n).getP f.pm.toNat ∧ op.mark = markField f.markEn f.mark ∧
      (t.pc n).plq = (s.pc n).plq ++ [op] ∧ (t.pc n).marks = ((s.pc n).take op.mark).marks ∧
      (t.pc n).x = (s.pc n).x ∧ (t.pc n).t = (s.pc n).t ∧ (t.pc n).p = (s.pc n).p ∧ (t.pc n).pc = s.nextLine n ∧
      (t.pc n).retired = (s.pc n).retired + 1 ∧ OnlyPress s t n (t.pc n) ∧
      (frees = true → ∀ p ∈ platensOf f.plat, (t.pc n).bind? p f.tile.toNat = none) ∧
      (kind = .wload → (t.pc n).wrec = some op.wrec)
    go (.wload l f) .wload false ∧ go (.mm l f) .mm false ∧ go (.drain l f) .drain f.rel ∧ go (.tzero l f) .tzero false ∧
    go (.tfree l f) .tfree true ∧ go (.tload l f) .tload false

/-- R87, R140 to R143: the operations of the eight classes of the roller enter its queue as captured at issue. -/
def Claims.RollerQueue : Prop :=
  ∀ (s : State) (n : Nat) (l : Line) (f : RlF),
    let go (i : Instr) (cls : Nat) : Prop := OneSlot s n l i → ∃ op : RlOp,
      op.cls = cls ∧ op.fn = f.fn.toNat ∧ op.td = (s.pc n).getT f.td.toNat ∧ op.ta = (s.pc n).getT f.ta.toNat ∧
      op.tb = (s.pc n).getT f.tb.toNat ∧ op.nc = f.nc ∧ op.n = (s.x n f.xn).toNat ∧ op.pd = f.pd.toNat ∧
      op.bc = f.bc ∧ op.mark = markField f.markEn f.mark ∧
      op.mask = (if f.pmn then ~~~(s.pc n).getP f.pm.toNat else (s.pc n).getP f.pm.toNat) ∧
      Does s n i (fun p => { p.take op.mark with rlq := p.rlq ++ [op] }) (s.nextLine n)
    go (.elementWiseArithmetic l f) 1 ∧ go (.transcendental l f) 2 ∧ go (.conversion l f) 3 ∧ go (.comparison l f) 4 ∧
    go (.reduction l f) 5 ∧ go (.scan l f) 6 ∧ go (.segmentedScan l f) 7 ∧ go (.permutationGather l f) 8

/-! ### Control slot (R91 to R96, R123, R214, R226) -/

/-- The condition of a control slot (R91). -/
def condHolds (s : State) (n : Nat) (f : CtF) : Prop := ((s.pc n).getP f.cp.toNat).getLsbD 0 ≠ f.cpn

/-- R91: BR goes to pc + 64 × IMM14, BRX to x[XA], CALL also writes the address of the next Line, DBNZ counts down and goes
unless it reached zero; each only where its condition holds, and otherwise the next Line follows. -/
def Claims.Branches : Prop :=
  ∀ (s : State) (n : Nat) (l : Line) (f : CtF),
    let near := (s.pc n).pc + 64 * f.imm.signExtend 64
    let next := s.nextLine n
    let down := s.x n f.xa - 1
    (OneSlot s n l (.br l f) → (condHolds s n f → Does s n (.br l f) id near) ∧
      (¬condHolds s n f → Does s n (.br l f) id next)) ∧
    (OneSlot s n l (.brx l f) → (condHolds s n f → Does s n (.brx l f) id (s.x n f.xa)) ∧
      (¬condHolds s n f → Does s n (.brx l f) id next)) ∧
    (OneSlot s n l (.call l f) → (condHolds s n f → Does s n (.call l f) (·.setX f.xd.toNat next) near) ∧
      (¬condHolds s n f → Does s n (.call l f) id next)) ∧
    (OneSlot s n l (.dbnz l f) →
      (condHolds s n f → Does s n (.dbnz l f) (·.setX f.xa.toNat down) (if down = 0 then next else near)) ∧
      (¬condHolds s n f → Does s n (.dbnz l f) id next))

/-- Nothing of the press's earlier work is outstanding: every mark zero, every queue empty, no operation runs (R91). -/
def Settled (p : PressCtx) : Prop :=
  p.marks = [] ∧ p.tmq = [] ∧ p.tmRun = [] ∧ p.plq = [] ∧ p.plRun = [] ∧ p.rlq = [] ∧ p.rlRun = [] ∧ p.ctq = [] ∧
    p.ctRun = []

/-- R91, R93: a FENCE holds the press until its work has drained, and holds it not at all where it has (the reading of
log 16); END holds it until its sub-take completes and clears the drop latch. -/
def Claims.FenceAndEnd : Prop :=
  ∀ (s : State) (n : Nat) (l : Line) (f : CtF), condHolds s n f →
    (OneSlot s n l (.fence l f) → Quiet s →
      (Settled (s.pc n) → Does s n (.fence l f) id (s.nextLine n)) ∧
      (¬Settled (s.pc n) → Does s n (.fence l f) (fun p => { p with hold := .fence }) (s.nextLine n))) ∧
    (OneSlot s n l (.endTake l f) →
      Does s n (.endTake l f) (fun p => { p with hold := .ending, dropLatch := false }) (s.nextLine n))

/-- R92, R93: CBARINIT gives a barrier to the context with the count of x[XA]; CBAR of a press with nothing outstanding
arrives: short of the count it waits, and the last arrival resets the barrier and goes on. -/
def Claims.ChaseBarriers : Prop :=
  ∀ (s : State) (n : Nat) (l : Line) (f : CtF), condHolds s n f →
    let k := f.imm.toNat % 16
    let b := s.barrier (chaseOf n) k
    (OneSlot s n l (.cbarinit l f) → ∃ t, exec (.cbarinit l f) s = .next t ∧
      t.barrier (chaseOf n) k = { ctx := some (s.runCtx n), expect := (s.x n f.xa).toNat, arrived := [] } ∧
      (∀ j, j ≠ k → t.barrier (chaseOf n) j = s.barrier (chaseOf n) j) ∧
      OnlyPress { s with chases := t.chases } t n ((s.pc n).retire (s.nextLine n))) ∧
    (OneSlot s n l (.cbar l f) → Quiet s → Settled (s.pc n) → ∃ t, exec (.cbar l f) s = .next t ∧
      (b.arrived.length + 1 < b.expect →
        t.barrier (chaseOf n) k = { b with arrived := b.arrived ++ [n] } ∧ (t.pc n).hold = .cbarWait k) ∧
      (b.expect ≤ b.arrived.length + 1 → t.barrier (chaseOf n) k = { b with arrived := [] } ∧ (t.pc n).hold = .none) ∧
      (t.pc n).pc = s.nextLine n ∧ t.mem = s.mem)

/-- R92, R94, R123: WCINIT sets a work counter, as a plain counter to x[XA] or as a claim counter to its low 32 bits;
WCFA returns the old value and adds; a claim marks its values in the bitmap and, where one was marked before, returns bit
63 set, counts a duplicate and sets the drop latch. -/
def Claims.WorkCounters : Prop :=
  ∀ (s : State) (n : Nat) (l : Line) (f : CtF), condHolds s n f →
    let k := f.imm.toNat % 64
    let w := s.counter (chaseOf n) k
    let a := s.x n f.xa
    let v := w.value.toNat % 2 ^ 32
    let bs := claimBits v (s.x n f.xb).toNat
    (OneSlot s n l (.wcinit l f) → ∃ t, exec (.wcinit l f) s = .next t ∧
      (t.counter (chaseOf n) k).ctx = some (s.runCtx n) ∧ (t.counter (chaseOf n) k).claim = a.getLsbD 63 ∧
      (t.counter (chaseOf n) k).value = (if a.getLsbD 63 then BitVec.ofNat 64 (a.toNat % 2 ^ 32) else a) ∧
      OnlyPress { s with chases := t.chases } t n ((s.pc n).retire (s.nextLine n))) ∧
    (OneSlot s n l (.wcfa l f) → w.claim = false → ∃ t, exec (.wcfa l f) s = .next t ∧
      t.counter (chaseOf n) k = { w with value := w.value + s.x n f.xb } ∧
      OnlyPress { s with chases := t.chases } t n (((s.pc n).setX f.xd.toNat w.value).retire (s.nextLine n))) ∧
    (OneSlot s n l (.wcfa l f) → w.claim = true → ∃ t, exec (.wcfa l f) s = .next t ∧
      (t.counter (chaseOf n) k).value = BitVec.ofNat 64 ((v + (s.x n f.xb).toNat) % 2 ^ 32) ∧
      (t.counter (chaseOf n) k).bitmap = w.bitmap ||| bs ∧
      (t.counter (chaseOf n) k).dups = (if w.bitmap &&& bs = 0 then w.dups else w.dups + 1) ∧
      (t.pc n).dropLatch = decide (w.bitmap &&& bs ≠ 0) ∧
      (f.xd ≠ 0 → (t.pc n).getX f.xd.toNat = BitVec.ofNat 64 (v + if w.bitmap &&& bs = 0 then 0 else 2 ^ 63)))

/-- Every press of a forme is one of this device. -/
def FormeHere (s : State) (h : Nat) : Prop := ∀ p ∈ s.formePresses 6 h, p / 128 = s.myId

/-- R95, R96: FBAR of a press with nothing outstanding waits for the participants of its take, and the last of them gives
x[XD] the value 0; RWAIT writes 0 where its word has reached the threshold and otherwise waits. -/
def Claims.FormeBarrierAndWait : Prop :=
  ∀ (s : State) (n : Nat) (l : Line) (f : CtF), condHolds s n f → Quiet s →
    (OneSlot s n l (.fbar l f) → Settled (s.pc n) → ∀ k, s.takeOf (s.pc n) = some k →
      let h := (s.x n f.xa).toNat % 1024
      let b := mget ({} : FBarrier) s.fbars (k * 1024 + h)
      b.remote = false → (mget ({} : Forme) s.formes h).lost = false → ∃ t, exec (.fbar l f) s = .next t ∧
        ((∀ m ∈ b.expect, m ∈ b.arrived ∨ m = n) →
          (t.pc n).hold = .none ∧ (f.xd ≠ 0 → (t.pc n).getX f.xd.toNat = 0)) ∧
        (¬(∀ m ∈ b.expect, m ∈ b.arrived ∨ m = n) → FormeHere s h → (t.pc n).hold = .fbarWait h f.xd.toNat) ∧
        (t.pc n).pc = s.nextLine n ∧ t.mem = s.mem) ∧
    (OneSlot s n l (.rwait l f) → ∀ w, s.wordAt (some n) (s.runCtx n) (s.x n f.xa) = some w →
      s.badWord n (s.runCtx n) (s.x n f.xa) = none →
      (mget ({} : Forme) s.formes (f.imm.toNat % 1024)).lost = false → ∃ t, exec (.rwait l f) s = .next t ∧
        ((s.x n f.xb).toNat ≤ w.toNat → (t.pc n).hold = .none ∧ (f.xd ≠ 0 → (t.pc n).getX f.xd.toNat = 0)) ∧
        (w.toNat < (s.x n f.xb).toNat → FormeHere s (f.imm.toNat % 1024) → (t.pc n).hold = .rwait f.xd.toNat) ∧
        (t.pc n).pc = s.nextLine n ∧ t.mem = s.mem)

/-- R91, R96, R286: RSIGNAL adds x[XB] to the word at x[XA] with one memory-side add; no other byte of memory changes, and
the mark has been taken and signalled. -/
def Claims.SignalAdds : Prop :=
  ∀ (s : State) (n : Nat) (l : Line) (f : CtF) (pa : Nat), condHolds s n f → Quiet s →
    OneSlot s n l (.rsignal l f) → PlainWord s n none .wr (s.x n f.xa) pa 8 → (s.pc n).dropLatch = false →
    ∃ t, exec (.rsignal l f) s = .next t ∧
      (∀ j < 8, cell t.mem (pa + j) =
        (BitVec.ofNat 64 (ofBytes (cells s.mem pa 8)) + s.x n f.xb).extractLsb' (8 * j) 8) ∧
      (∀ a, a < pa ∨ pa + 8 ≤ a → cell t.mem a = cell s.mem a) ∧ t.atomics = s.atomics + 1 ∧
      t.atomicsEnd = s.atomicsEnd + 1 ∧ (∀ k, mget 0 (t.pc n).marks k = mget 0 (s.pc n).marks k) ∧
      (t.pc n).pc = s.nextLine n

/-- R214: POPEN of a press without a region takes the lowest free region of the chase with its root folios and shadow
pages, or answers all ones and counts the refusal; of a press with one it nests. -/
def Claims.RegionOpens : Prop :=
  ∀ (s : State) (n : Nat) (l : Line) (f : CtF), condHolds s n f → Goes s n l (.popen l f) →
    let ch := chaseOf n
    let p := (s.ctx (s.runCtx n)).part
    let b := s.x n f.xb
    ((s.pc n).region = none →
      ((∃ r, mfree (s.chase ch).regions 64 0 = some r ∧ fld b 11 8 ≤ s.poolRoom p (Pool.folio 0) ∧
        fld b 27 16 ≤ s.poolRoom p Pool.proof) → ∃ r t, exec (.popen l f) s = .next t ∧
          mfree (s.chase ch).regions 64 0 = some r ∧ (t.pc n).region = some r ∧
          (f.xd ≠ 0 → (t.pc n).getX f.xd.toNat = BitVec.ofNat 64 r) ∧ (t.region ch r).press = n ∧
          (t.region ch r).ctx = s.runCtx n ∧ (t.region ch r).branch = (s.x n f.xa).setWidth 32 ∧
          (t.region ch r).frames = 1 ∧ (t.region ch r).pages = fld b 27 16 ∧ (t.pc n).pc = s.nextLine n) ∧
      ((∀ r, mfree (s.chase ch).regions 64 0 = some r → ¬(fld b 11 8 ≤ s.poolRoom p (Pool.folio 0) ∧
        fld b 27 16 ≤ s.poolRoom p Pool.proof)) → ∃ t, exec (.popen l f) s = .next t ∧ (t.pc n).region = none ∧
          (f.xd ≠ 0 → (t.pc n).getX f.xd.toNat = BitVec.allOnes 64) ∧ (t.pc n).pc = s.nextLine n)) ∧
    (∀ r, (s.pc n).region = some r → (s.region ch r).st ≠ .issuing → ∃ t, exec (.popen l f) s = .next t ∧
      (t.region ch r).frames = (s.region ch r).frames + 1 ∧ (t.pc n).region = some r ∧
      (f.xd ≠ 0 → (t.pc n).getX f.xd.toNat = BitVec.ofNat 64 r))

/-- R226, R227, R229: PCOMMIT and PREJECT mark the region that x[XA] names and hold the press until the region has ended;
memory stays as it is. -/
def Claims.RegionEndsRequested : Prop :=
  ∀ (s : State) (n : Nat) (l : Line) (f : CtF), condHolds s n f →
    let r := (s.x n f.xa).toNat
    let go (i : Instr) (st : RegSt) (h : Hold) : Prop := Goes s n l i → s.openRegion n = some r →
      ∃ t, exec i s = .next t ∧ (t.region (chaseOf n) r).st = st ∧ (t.pc n).hold = h ∧ (t.pc n).pc = s.nextLine n ∧
        t.mem = s.mem ∧ (t.region (chaseOf n) r).shadow = (s.region (chaseOf n) r).shadow
    go (.pcommit l f) .committing (.commit r) ∧ go (.preject l f) .rejecting (.reject r)

/-- A command in the shared control queue: it stands last, its mark is taken, the Line has retired, memory and the other
presses are as before (R85, R87, R165, R196). -/
def ControlQueued (s t : State) (n : Nat) (op : CtOp) (mark : Option Nat) : Prop :=
  (t.pc n).ctq = (s.pc n).ctq ++ [op] ∧ (t.pc n).marks = ((s.pc n).take mark).marks ∧ (t.pc n).pc = s.nextLine n ∧
    (t.pc n).retired = (s.pc n).retired + 1 ∧ (t.pc n).x = (s.pc n).x ∧ t.nextCmd = s.nextCmd + 1 ∧ t.mem = s.mem ∧
    ∀ m, m ≠ n → t.press m = s.press m

/-- R164, R165, R168, R174 to R176: the kern commands are accepted at issue in order. OPEN takes the lowest free handle
with a root or answers all ones; APPEND raises the length by the positions it reserved; FORK copies a stream up to its
position; TRUNCATE sets the length; RELEASE frees the handle; ATTEND changes no stream. Outside a region. -/
def Claims.KernCommandsAccepted : Prop :=
  ∀ (s : State) (n : Nat) (l : Line) (f : CtF), condHolds s n f →
    let ws := s.caseWords n (s.x n f.xa)
    let h := cmdStream ws
    let mark := markField f.markEn f.mark
    let p := (s.ctx (s.runCtx n)).part
    let go (i : Instr) (op : Nat) (P : State → KernCmd → Prop) : Prop := OneSlot s n l i → cmdOp ws = op →
      (op ≠ 1 → (s.kstream h).bound = none) → ∃ t c, exec i s = .next t ∧ ControlQueued s t n (.kern c) mark ∧ c.op = op ∧
        c.seq = s.nextCmd ∧ c.words = ws ∧ P t c
    go (.kernOpen l f) 1 (fun t c =>
      (∀ k, s.freeKern = some k → s.newFolio p 0 ≠ none →
        c.new = some k ∧ c.value = BitVec.ofNat 32 k ∧ (t.kstream k).len = 0 ∧ (t.kstream k).ctx = s.runCtx n) ∧
      (s.freeKern = none ∨ s.newFolio p 0 = none → c.value = BitVec.allOnes 32 ∧ t.kstreams = s.kstreams)) ∧
    go (.kernAppend l f) 2 (fun t c =>
      (t.kstream h).len = (s.kstream h).len + c.slots.length ∧ c.value = BitVec.ofNat 32 c.slots.length) ∧
    go (.kernAttend l f) 3 (fun t _ => t.kstreams = s.kstreams) ∧
    go (.kernFork l f) 4 (fun t c => ∀ k, s.freeKern = some k → s.newFolio (s.kstream h).part 0 ≠ none →
      c.new = some k ∧ (t.kstream k).len = fld (cmdWord ws 1) 20 0) ∧
    go (.kernTruncate l f) 5 (fun t _ => (t.kstream h).len = fld (cmdWord ws 1) 20 0) ∧
    go (.kernRelease l f) 6 (fun t _ => mfind? t.kstreams h = none)

/-- R195 to R199, R208, R209: the galley commands are accepted at issue in order and hold a reference to their stream
until they complete, a FORK to its source; RESET and LOAD raise the generation of acceptance, RELEASE closes the stream,
CREATE and FORK take the lowest free handle with two sets or are refused. Outside a region. -/
def Claims.GalleyCommandsAccepted : Prop :=
  ∀ (s : State) (n : Nat) (l : Line) (f : CtF), condHolds s n f →
    let ws := s.caseWords n (s.x n f.xa)
    let h := cmdStream ws
    let e := s.gentry h
    let mark := markField f.markEn f.mark
    let go (i : Instr) (op : Nat) (P : State → GalleyCmd → Prop) : Prop := OneSlot s n l i → cmdOp ws = op →
      (op ≠ 1 → e.bound = none) → ∃ t c, exec i s = .next t ∧ ControlQueued s t n (.galley c) mark ∧ c.op = op ∧
        c.seq = s.nextCmd ∧ c.words = ws ∧ P t c
    go (.galleyCreate l f) 1 (fun t c => ∀ k, s.freeGalley = some k →
      (c.refused = false → c.new = k ∧ c.stream = k ∧ (t.gentry k).cur ≠ none ∧ (t.gentry k).spare ≠ none) ∧
      (c.refused = true → t.galley = s.galley)) ∧
    go (.galleyStick l f) 2 (fun t _ => (t.gentry h).refs = e.refs + 1) ∧
    go (.galleyFork l f) 3 (fun t c => (t.gentry h).refs = e.refs + 1 ∧
      (c.refused = true → t.gsets = s.gsets) ∧ ∀ k, s.freeGalley = some k → c.refused = false → c.new = k ∧
        (t.gentry k).isOpen = true ∧ (t.gentry k).refs = 1 ∧ (t.gentry k).cur = none ∧ (t.gentry k).extra.length = 2) ∧
    go (.galleyReset l f) 4 (fun t _ => (t.gentry h).refs = e.refs + 1 ∧ (t.gentry h).agen = e.agen + 1) ∧
    go (.galleyLoad l f) 5 (fun t _ => (t.gentry h).refs = e.refs + 1 ∧ (t.gentry h).agen = e.agen + 1) ∧
    go (.galleyStore l f) 6 (fun t _ => (t.gentry h).refs = e.refs + 1) ∧
    go (.galleySwapOut l f) 7 (fun t _ => (t.gentry h).refs = e.refs + 1) ∧
    go (.galleySwapIn l f) 8 (fun t _ => (t.gentry h).refs = e.refs + 1) ∧
    go (.galleyRelease l f) 9 (fun t _ => (t.gentry h).isOpen = false ∧ (t.gentry h).refs = e.refs) ∧
    go (.galleyQuery l f) 10 (fun t _ => (t.gentry h).refs = e.refs + 1)
/-! ### The engines of a press at work (R85, R86, R492) -/

/-- A context runs on press `n`, which exists. -/
def Running (s : State) (n : Nat) : Prop := n < 128 ∧ (s.press n).run ≠ none

/-- A tensor of one dimension of plain elements of whole bytes, in the case. -/
structure CaseRow (t : TD) : Prop where
  space : t.space = 1
  plain : t.mx = false
  noList : t.plist = false
  bytes : fmtWidth t.fmt % 8 = 0
  row : t.e1 = 1 ∧ t.e2 = 1 ∧ t.e3 = 1

/-- Bytes of a `CaseRow`. -/
def rowLen (t : TD) : Nat := t.e0 * (fmtWidth t.fmt / 8)

/-- Only press `n`'s context differs, the conditions `fl` of a Line recorded in it and in the audit totals (R68). -/
def Recorded (s t : State) (n line : Nat) (fl : Flags) (p : PressCtx) : Prop :=
  if fl = 0 then OnlyPress s t n p
  else OnlyPress (s.tallies 1 (newConditions (s.pc n) line fl)) t n (p.record line fl)

/-- R86, R88, R307, R492, R495: the oldest queued tensor move starts. A FILL of a row in the case repeats the low bits of the
shared immediate in every element; a COPY of a row to one of the same format moves its bytes, read before any is written, and
records NAN_SEEN where an element read is NaN (the model's choice, log entry 18); either takes a draw for each element that it
writes under stochastic rounding, and, stopped after some 4 KiB pieces, has written the bytes before that point. DLOAD loads
its descriptor register from 64 bytes of the case, DSTORE writes one there. No other byte of memory changes. -/
def Obligations.TensorMoveRuns : Prop :=
  ∀ (s : State) (n : Nat) (op : TmOp) (rest : List TmOp) (stop : Option Nat), Quiet s → Running s n →
    (s.pc n).tmq = op :: rest → (s.pc n).tmRun = [] → op.done = false → op.left = [] →
    Unshared s n (s.tmSpans n (s.runCtx n) op) →
    let d := tdOf op.td
    let a := tdOf op.ts
    let dst := caseBase n + d.base.toNat
    let w := fmtWidth d.fmt / 8
    let upto := match stop with | none => rowLen d | some k => min (rowLen d) (4096 * k)
    let nan := sawNan (d.coords.map fun k =>
      s.elemNum (op.env n (s.runCtx n)) a op.tsList { k with i0 := k.i0 + op.offA.toNat })
    let ran (left : List (W64 × List Byte)) : TmOp := { op with cut := stop, asked := true, done := true, left := left }
    let go (fl : Flags) (P : State → Prop) : Prop := ∃ t ls, exec (.tmEngineStart ⟨n, stop⟩) s = .next t ∧
      (upto = rowLen d → ls = []) ∧
      Recorded { s with mem := t.mem, free := t.free } t n op.line fl
        { s.pc n with
          tmq := rest, tmRun := [ran ls]
          srSeed := if drawsFor d.fmt op.nc then (srDraws d.e0 (s.pc n).srSeed).2 else (s.pc n).srSeed } ∧
      (∀ x, x < dst ∨ dst + upto ≤ x → cell t.mem x = cell s.mem x) ∧ P t
    (op.kind = .fill → CaseRow d → go 0 fun t =>
      ∀ i < d.e0, ∀ j < w, i * w + j < upto → cell t.mem (dst + (i * w + j)) = op.imm.extractLsb' (8 * j) 8) ∧
    (op.kind = .copy → CaseRow d → CaseRow a → a.fmt = d.fmt → op.offB = 0 → go nan fun t =>
      ∀ i < upto, cell t.mem (dst + i) = cell s.mem (caseBase n + (a.base + wn (op.offA.toNat * w + i)).toNat)) ∧
    (op.kind = .dload → ∃ t, exec (.tmEngineStart ⟨n, stop⟩) s = .next t ∧
      OnlyPress s t n (({ s.pc n with tmq := rest, tmRun := [ran []] } : PressCtx).setT op.treg
        (BitVec.ofNat 512 (ofBytes (cells s.mem (caseBase n + op.offA.toNat) 64))))) ∧
    (op.kind = .dstore → ∃ t, exec (.tmEngineStart ⟨n, stop⟩) s = .next t ∧
      OnlyPress { s with mem := t.mem } t n { s.pc n with tmq := rest, tmRun := [ran []] } ∧
      (∀ j < 64, cell t.mem (caseBase n + op.offA.toNat + j) = op.ts.extractLsb' (8 * j) 8) ∧
      ∀ x, x < caseBase n + op.offA.toNat ∨ caseBase n + op.offA.toNat + 64 ≤ x → cell t.mem x = cell s.mem x)

/-- R86, R102, R105, R108, R111: the oldest queued platen operation starts. One that names no platen only signals; WLOAD
reads its window from the case into the weights, forms the sums of its checksum sorts (R125), and records NAN_SEEN where a part that the sorts take is NaN (the
model's choice, log entry 78); TZERO makes the rows of its mask zero and touches nothing outside the
tympans of its press; TFREE changes no memory. Without an error injected from outside. -/
def Obligations.PlatenRuns : Prop :=
  ∀ (s : State) (n : Nat) (op : PlOp) (rest : List PlOp), Running s n → (s.pc n).plq = op :: rest →
    let started : PressCtx := { s.pc n with plq := rest, plRun := (s.pc n).plRun ++ [op] }
    let one (p : Nat) : Prop := ∃ k < 16, nth [] op.tiles p = [k]
    (op.plat = 0 → op.kind ≠ .wload → ∀ bad, ∃ t, exec (.platenStart n bad) s = .next t ∧
      OnlyPress s t n (PressCtx.signal { s.pc n with plq := rest } op.mark)) ∧
    (op.kind = .wload → (tdOf op.tw).e0 ≤ 64 → op.plat = 0 ∨ op.fresh = [] → op.mayStart (s.pc n).plRun = true →
      ∃ t ws sc u v, exec (.platenStart n []) s = .next t ∧
        (let p : PressCtx := { started with wNow := some op.wrec, weights := ws, wscales := sc, wSum := u, wAbs := v }
         Recorded { s with free := t.free } t n op.line (flagIf ((List.range (tdOf op.tw).e1).any fun i => (List.range (tdOf op.tw).e0).any fun j =>
           (weightFactor op.wrec (p.weight op.wrec i j).1 (p.weight op.wrec i j).2).v.isNan) Fl.nanSeen) p) ∧
        ∀ i < (tdOf op.tw).e1, ∀ j < (tdOf op.tw).e0, mget 0 ws (64 * i + j) =
          s.elemBits { press := n, ctx := s.runCtx n } (tdOf op.tw) [] ⟨j, i, 0, 0⟩) ∧
    (op.kind = .tzero → op.plat ≠ 0 → (∀ p ∈ platensOf op.plat, one p) → op.mayStart (s.pc n).plRun = true →
      ∃ t, exec (.platenStart n []) s = .next t ∧ (t.pc n).plq = rest ∧ (t.pc n).plRun = started.plRun ∧
        (t.pc n).x = (s.pc n).x ∧ (∀ m, m ≠ n → t.press m = s.press m) ∧
        (∀ p ∈ platensOf op.plat, ∀ m < 64, rowBit op.pm p m = true → ∀ j < 64, t.tileWord n p (op.tileOf p 0) m j = 0) ∧
        ∀ x, x < tympBase n 0 ∨ tympBase n 0 + 0x100000 ≤ x → cell t.mem x = cell s.mem x) ∧
    (op.kind = .tfree → op.plat ≠ 0 → (∀ p < 4, ∀ k, nth false (nth [] op.fresh p) k = false) →
      op.mayStart (s.pc n).plRun = true → ∃ t, exec (.platenStart n []) s = .next t ∧ OnlyPress s t n started)

/-- R104, R106, R107, R60: an MM of INT8 operands with an INT8 window, on one platen and without ACC, writes in the tile,
for each fed row and each column of the window, the exact sum of the products, fitted to INT32. -/
def Obligations.PlatenIntegerProducts : Prop :=
  ∀ (s : State) (n p tile : Nat) (op : PlOp) (rest : List PlOp), Running s n → (s.pc n).plq = op :: rest →
    op.kind = .mm → op.tr = false → op.acc = false → op.chk = false → op.pass = 0 → p < 4 → tile < 16 →
    platensOf op.plat = [p] → nth [] op.tiles p = [tile] → op.mayStart (s.pc n).plRun = true →
    let t := tdOf (nth 0 op.ta p)
    let w := op.wrec
    t.fmt = Fmt.int8 → t.mx = false → t.space = 1 → w.fmt = Fmt.int8 → w.mx = false → w.nExt ≤ 64 → t.e1 ≤ 64 →
    (∀ m < t.e1, ∀ i < w.kExt, (t.place [] ⟨i, m, 0, 0⟩).1.toNat < caseSize) →
    let a (m i : Nat) : Int := sext 8 (s.elemBits { press := n, ctx := s.runCtx n } t [] ⟨i, m, 0, 0⟩)
    let b (i j : Nat) : Int := sext 8 (mget 0 (s.pc n).weights (64 * i + j))
    ∃ u, exec (.platenStart n []) s = .next u ∧ (u.pc n).plq = rest ∧
      ∀ m < t.e1, rowBit op.pm p m = true → ∀ j < w.nExt, u.tileWord n p tile m j =
        (fitInt Fmt.int32 (intSat op.nc) (((List.range w.kExt).map fun i => a m i * b i j).foldl (· + ·) 0)).1

/-- R86, R143, R144, R146, R151: the oldest queued roller operation starts. A comparison writes its predicate, zero in
every bit that is not active; an addition of INT32 rows in the case that do not overlap writes each active element the
sum converted to the destination's format, and no other byte. -/
def Obligations.RollerRuns : Prop :=
  ∀ (s : State) (n : Nat) (op : RlOp) (rest : List RlOp), Running s n → (s.pc n).rlq = op :: rest → (s.pc n).rlRun = [] →
    let e : Env := { press := n, ctx := s.runCtx n }
    let d := tdOf op.td
    let a := tdOf op.ta
    let b := tdOf op.tb
    let dst := caseBase n + d.base.toNat
    let apart (x y : TD) : Prop := x.base.toNat + rowLen x ≤ y.base.toNat ∨ y.base.toNat + rowLen y ≤ x.base.toNat
    (op.cls = 4 → ∃ t p, exec (.rollerStart n) s = .next t ∧ (t.pc n).rlq = rest ∧ (t.pc n).rlRun = [op] ∧
      t.mem = s.mem ∧ (t.pc n).p = ((s.pc n).setP op.pd p).p ∧
      ∀ i < 16384, p.getLsbD i = (op.active i &&
        condNum (op.fn % 8) (s.rlElem e op.compute a i).1 (s.rlSecond e op op.compute i).1)) ∧
    (op.cls = 1 → op.fn = 0 → op.bc = false → CaseRow d → CaseRow a → CaseRow b →
      a.fmt = Fmt.int32 → b.fmt = Fmt.int32 → d.fmt = Fmt.int32 → op.n ≤ d.e0 → op.n ≤ a.e0 → op.n ≤ b.e0 →
      apart d a → apart d b → d.base.toNat + rowLen d ≤ 2 ^ 32 → a.base.toNat + rowLen a ≤ 2 ^ 32 →
      b.base.toNat + rowLen b ≤ 2 ^ 32 → overlaps [(dst, rowLen d)] (s.busySpans n (s.runCtx n)) = [] →
      ∃ t, exec (.rollerStart n) s = .next t ∧ (t.pc n).rlq = rest ∧ (t.pc n).rlRun = [op] ∧
        (∀ m, m ≠ n → t.press m = s.press m) ∧
        (∀ x, x < dst ∨ dst + rowLen d ≤ x → cell t.mem x = cell s.mem x) ∧
        ∀ i < op.n, ofBytes (cells t.mem (dst + 4 * i) 4) =
          if op.active i then (fitInt Fmt.int32 (intSat op.nc)
            (sext 32 (ofBytes (cells s.mem (caseBase n + a.base.toNat + 4 * i) 4)) +
             sext 32 (ofBytes (cells s.mem (caseBase n + b.base.toNat + 4 * i) 4)))).1
          else ofBytes (cells s.mem (dst + 4 * i) 4))

/-- R85, R195, R307: an operation whose effect is visible completes: it leaves its engine and its mark's count falls by one. A
tensor move that had stopped makes its last writes first; shown on one run of bytes in the case. A kern command leaves the
folios that something still refers to; a galley command waits for its writes, of which none is outstanding here, and drops its
reference to its stream, a FORK that to its source. -/
def Obligations.OperationsComplete : Prop :=
  ∀ (s : State) (n idx : Nat), Quiet s → Running s n →
    let x := s.pc n
    let go (e : Engine) (p : PressCtx) : Prop :=
      ∃ t, exec (.operationComplete n e idx) s = .next t ∧ OnlyPress s t n p
    let off (m : Option Nat) : PressCtx := PressCtx.signal { x with ctRun := x.ctRun.eraseIdx idx } m
    (∀ o, x.tmRun[idx]? = some o →
      (o.left = [] → go .tm (PressCtx.signal { x with tmRun := x.tmRun.eraseIdx idx } o.mark)) ∧
      ∀ a bs, o.left = [(a, bs)] → (tdOf o.td).space = 1 → (∀ j q, x.tmRun[j]? = some q → q.line = o.line → j = idx) →
        ∃ t, exec (.operationComplete n .tm idx) s = .next t ∧
          OnlyPress { s with mem := t.mem } t n (PressCtx.signal { x with tmRun := x.tmRun.eraseIdx idx } o.mark) ∧
          (∀ j < bs.length, cell t.mem (caseBase n + a.toNat + j) = nth 0 bs j) ∧
          ∀ y, y < caseBase n + a.toNat ∨ caseBase n + a.toNat + bs.length ≤ y → cell t.mem y = cell s.mem y) ∧
    (∀ o, x.plRun[idx]? = some o → go .platen (PressCtx.signal { x with plRun := x.plRun.eraseIdx idx } o.mark)) ∧
    (∀ o, x.rlRun[idx]? = some o → go .roller (PressCtx.signal { x with rlRun := x.rlRun.eraseIdx idx } o.mark)) ∧
    (∀ c, x.ctRun[idx]? = some (.kern c) → c.rows = [] → ∃ t, exec (.operationComplete n .control idx) s = .next t ∧
      OnlyPress { s with folios := t.folios } t n (off c.mark) ∧
      ∀ e ∈ s.folios, e.2.refs ≠ 0 ∨ e.2.frozen = true → e ∈ t.folios) ∧
    ∀ c, x.ctRun[idx]? = some (.galley c) → c.part = none → (∀ k ∈ c.streams, (s.gentry k).acts = []) →
      let h := if c.op = 1 then c.new else c.stream
      (c.op = 1 → c.refused = true → go .control (off c.mark)) ∧
      (c.op ≠ 1 ∨ c.refused = false → mhas s.galley h = true → 1 < (s.gentry h).refs →
        ∃ t, exec (.operationComplete n .control idx) s = .next t ∧ OnlyPress { s with galley := t.galley } t n (off c.mark) ∧
          t.gentry h = { s.gentry h with refs := (s.gentry h).refs - 1 } ∧ ∀ k, k ≠ h → t.gentry k = s.gentry k)

/-- A control operation has left the queue of press `n` and runs, and its result record stands in the case (R166, R196). -/
def ControlRan (s t : State) (n idx : Nat) (o : CtOp) (off : Nat) (record : W64) : Prop :=
  (t.pc n).ctq = (s.pc n).ctq.eraseIdx idx ∧ (t.pc n).ctRun = (s.pc n).ctRun ++ [o] ∧
    ∀ j < 8, cell t.mem (caseBase n + off + j) = record.extractLsb' (8 * j) 8

/-- R165, R166, R185, R186: a kern command other than ATTEND, with no earlier one of its stream waiting and none executing in
its chase, executes: it runs, its result record holds SUCCESS and VALUE, and no other byte of memory changes. ATTEND's record
holds the number of keys of the granules that it fetched, those with a key visible to some row (R181, R185); stopped after
some spans of 128 keys it has written nothing, and keeps its rows and the key at which it goes on. -/
def Obligations.KernExecutes : Prop :=
  ∀ (s : State) (n idx : Nat) (c : KernCmd), Running s n → (s.pc n).ctq[idx]? = some (.kern c) → s.kernMay n c = true →
    let off := cmdResult c.words
    (c.op ≠ 3 → ∃ t, exec (.kernExecute n idx) s = .next t ∧ ControlRan s t n idx (.kern c) off (c.value.setWidth 64 <<< 32) ∧
      (∀ m, m ≠ n → t.press m = s.press m) ∧
      ∀ x, x < caseBase n + off ∨ caseBase n + off + 8 ≤ x → cell t.mem x = cell s.mem x) ∧
    (c.op = 3 → (∃ t, exec (.attendExecute n ⟨idx, none⟩) s = .next t ∧
      ControlRan s t n idx (.kern { c with rows := [] }) off
        (BitVec.ofNat 64 ((sumL ((s.granules n c (attendOf c.words)).map List.length) % 2 ^ 32) * 2 ^ 32))) ∧
      ∀ j, ∃ t d, exec (.attendExecute n ⟨idx, some j⟩) s = .next t ∧ t.mem = s.mem ∧
        (t.pc n).ctq = (s.pc n).ctq.eraseIdx idx ∧ (t.pc n).ctRun = (s.pc n).ctRun ++ [.kern d] ∧
        d.rows.length = (attendOf c.words).rows ∧ d.next = (c.next / 128 + j) * 128 ∧ d.words = c.words ∧ d.seq = c.seq)

/-- R190, R197, R200, R204, R208: galley commands of a resident stream execute in their order: RESET leaves the stream in
the zero state with a new generation and zeroed accumulators; a SWAP_OUT that finds units in the partition's pool and a
free slot starts; QUERY writes the stream's entry to the case; CREATE's record names the handle. Outside a region, with
nothing else waiting on the stream. -/
def Claims.GalleyExecutes : Prop :=
  ∀ (s : State) (n idx : Nat) (c : GalleyCmd), Quiet s → Running s n → (s.pc n).ctq[idx]? = some (.galley c) →
    s.galleyMay n c = true → c.refused = false → mhas s.galley c.stream = true →
    let h := c.stream
    let e := s.gentry h
    e.res = .resident → e.bound = none →
    let off := cmdResult c.words
    let at_ := fld (cmdWord c.words 1) 23 0
    let go (v : Nat) (P : State → Prop) : Prop := ∃ t, exec (.galleyExecute n idx) s = .next t ∧
      ControlRan s t n idx (.galley c) off (BitVec.ofNat 64 (v * 2 ^ 32)) ∧ P t
    (c.op = 1 → c.new < 2 ^ 32 → go c.new fun t => ∀ k, k ≠ h → t.gentry k = s.gentry k) ∧
    (c.op = 4 → go 0 fun t => (t.gentry h).reset = true ∧ (t.gentry h).gen = e.gen + 1 ∧ (t.gentry h).steps = 0 ∧
      (t.gentry h).err = 0 ∧ (t.gentry h).comp = 0 ∧ (t.gentry h).cur = e.cur ∧ (t.gentry h).spare = e.spare) ∧
    (c.op = 7 → slotUnits e ≤ s.poolRoom e.part Pool.swap → ∀ k, mfree s.gslots (2 ^ 24) 0 = some k →
      go 1 fun t => (t.gentry h).res = .swappingOut ∧ (t.gentry h).slot = some k ∧
        t.poolFree e.part Pool.swap = s.poolFree e.part Pool.swap - slotUnits e) ∧
    (c.op = 10 → off + 8 ≤ at_ ∨ at_ + 64 ≤ off → go 64 fun t =>
      cells t.mem (caseBase n + at_) 64 = entryImage e)

/-- R197, R201, R203: a STICK whose generation is that of the stream runs: steps counted, the new state in what was the
spare set, which is current now, and the stream no longer reset. One whose generation is stale moves nothing and its record
holds GENERATION_STALE. One that stops at a slice leaves the stream as it was, its slices done in the spare set (R210).
Outside a region. -/
def Claims.StickExecutes : Prop :=
  ∀ (s : State) (n idx : Nat) (c : GalleyCmd), Quiet s → Running s n → (s.pc n).ctq[idx]? = some (.galley c) → c.op = 2 →
    s.galleyMay n c = true → c.part = none → mhas s.galley c.stream = true →
    let h := c.stream
    let e := s.gentry h
    e.res = .resident → e.bound = none →
    let off := cmdResult c.words
    (e.gen ≠ c.agen → ∀ stop, ∃ t, exec (.stickExecute n ⟨idx, stop⟩) s = .next t ∧
      ControlRan s t n idx (.galley c) off (St.generationStale.setWidth 64) ∧ (t.gentry h).steps = e.steps ∧
      (t.gentry h).cur = e.cur ∧ t.gsets = s.gsets) ∧
    (e.gen = c.agen → c.reads e = [] → c.writes e = [] →
      ((stickOf c.words e).emitY = true → (stickTd c.descs 3).space = 1) →
      ((stickOf c.words e).emitH = true → (stickTd c.descs 4).space = 1) → ∀ a b, e.cur = some a → e.spare = some b → a ≠ b →
      (∀ j, ∃ t d k, exec (.stickExecute n ⟨idx, some j⟩) s = .next t ∧ t.mem = s.mem ∧
        (t.pc n).ctRun = (s.pc n).ctRun ++ [.galley d] ∧ d.part = some k ∧ k ≤ j ∧ (t.gentry h).steps = e.steps ∧
        (t.gentry h).cur = some a ∧ (t.gentry h).gen = e.gen) ∧
      ∃ t, exec (.stickExecute n ⟨idx, none⟩) s = .next t ∧
        ControlRan s t n idx (.galley c) off (BitVec.ofNat 64 ((c.steps % 2 ^ 32) * 2 ^ 32)) ∧
        (t.gentry h).steps = e.steps + wn c.steps ∧ (t.gentry h).reset = false ∧ (t.gentry h).cur = some b ∧
        ((s.gset a).share ≤ 1 → (t.gentry h).spare = some a) ∧ (t.gentry h).gen = e.gen)

/-- R194, R204 to R206: the end of a swap-out leaves the state in its slot with the stream's generation and the stream
without sets; the end of a swap-in of a good slot takes two sets and makes the stream resident with the slot's state, and
the slot's units return to the pool. -/
def Claims.SwapsEnd : Prop :=
  ∀ (s : State) (h : Nat), mhas s.galley h = true →
    let e := s.gentry h
    (∀ a b k, e.res = .swappingOut → e.cur = some a → e.spare = some b → a ≠ b → e.slot = some k →
      (s.gset a).share ≤ 1 → (s.gset a).frozen = false → (s.gset b).frozen = false →
      ∃ t, exec (.swapOutEnd h) s = .next t ∧ (t.gentry h).res = .swapped ∧ (t.gentry h).cur = none ∧
        (t.gentry h).spare = none ∧ (mget ({} : GSlot) t.gslots k).vals = (s.gset a).vals ∧
        (mget ({} : GSlot) t.gslots k).gen = e.gen ∧ mfind? t.gsets a = none ∧ mfind? t.gsets b = none) ∧
    (∀ k, Quiet s → e.res = .swappingIn → e.slot = some k → s.twoSets e.part (setClass e) ≠ none →
      ∃ t a b, exec (.swapInEnd h true) s = .next t ∧ (t.gentry h).res = .resident ∧ (t.gentry h).cur = some a ∧
        (t.gentry h).spare = some b ∧ (t.gset a).vals = (mget ({} : GSlot) s.gslots k).vals ∧ mfind? t.gslots k = none)

/-- R227, R229: when everything issued in it has completed, the proof engine ends a region. A commit writes every shadow
sector to memory and nothing else; a reject writes none; either closes the region and lets the press go on. Without bound
streams and queued effects. -/
def Obligations.RegionEnds : Prop :=
  ∀ (s : State) (c r : Nat), Quiet s → mhas (s.chase c).regions r = true →
    let x := s.region c r
    let p := s.pc x.press
    (s.press x.press).run = some x.ctx → s.drained x.press = true →
    p.region = some r → x.kBound = [] → x.gBound = [] → c < 16 → (s.ctx x.ctx).st ≠ .teardown →
    let gone (t : State) : Prop := mhas (t.chase c).regions r = false ∧ (t.pc x.press).region = none
    (x.st = .committing ∨ x.st = .copying → x.queue = [] → s.windows = [] →
      (∀ e ∈ x.shadow, e.1 * 32 + 32 ≤ 2 ^ 48 ∧ e.2.length = 32) → x.shadow.Pairwise (fun a b => a.1 < b.1) →
      s.sealedKey = (fun _ => false) →
      ∃ t, exec (.proofCommitEngine c r) s = .next t ∧ gone t ∧
        ∀ a, cell t.mem a = match mfind? x.shadow (a / 32) with
          | some bs => nth 0 bs (a % 32)
          | none => cell s.mem a) ∧
    (x.st = .rejecting → ∃ t, exec (.proofRejectEngine c r) s = .next t ∧ gone t ∧ t.mem = s.mem)

/-! ### Requests of the management channel (R358, R359, R475) -/

/-- The command leaves the state `u` with one more message on the send queue of the request's session: its final response.
Everything else is as in `u`. -/
def Responds (i : Instr) (s u : State) (r : MReq) (st : Status) (items : List (Nat × W64)) : Prop :=
  ∃ t, exec i s = .next t ∧ Answers u t r st items ∧ { t.session r.session with queue := [] } = { u.session r.session with queue := [] } ∧
    (∀ m, m ≠ r.session → t.session m = u.session m) ∧ { t with sessions := u.sessions } = u

/-- An operation whose item list has the general form: who may use it, whether service and restricted mode allow it, and
its keys with those that are required. -/
def ruleOf (all service restricted : Bool) (keys : List (Nat × Bool)) : OpRule := { all, service, restricted, keys }

/-! ### Contexts, presses and takes (R17 to R25, R298 to R320, R341 to R347) -/

/-- R299, R300, R314, R315, R98: CONTEXT_CREATE makes the lowest FREE context ACTIVE with what the request names and answers
its number; CONTEXT_DESTROY starts its teardown with CONTEXT_TORN_DOWN; a fault found after issue latches its record and
starts the teardown with its status; the end of a teardown frees the record and counts it. -/
def Obligations.ContextsLiveAndEnd : Prop :=
  ∀ (s : State) (c : Nat),
    (∀ r, Admitted s (ruleOf true false false [(Key.part, true), (Key.cls, true), (Key.retainPriv, false),
        (Key.resvLo, false), (Key.resvHi, false), (Key.jobTag, false)]) r → s.createRefusal r = none → c < 4096 →
      (s.ctx c).st = .free → (∀ k < c, (s.ctx k).st ≠ .free) → ∃ x : Ctx,
        x.st = .active ∧ x.part = r.num Key.part ∧ x.critical = decide (r.num Key.cls = 1) ∧
        x.jobTag = BitVec.ofNat 32 (r.num Key.jobTag) ∧
        x.resv = BitVec.ofNat 128 (r.num Key.resvLo + 2 ^ 64 * r.num Key.resvHi) ∧ x.pages = [] ∧ x.large = [] ∧
        Responds (.contextCreate r) s { s with ctxs := mset {} s.ctxs c x } r St.ok [(Key.context, wn c)]) ∧
    (∀ r, Admitted s (ruleOf true false false [(Key.context, true)]) r → r.num Key.context = c →
      ∃ t, exec (.contextDestroy r) s = .next t ∧ (t.ctx c).st = .teardown ∧
        (t.ctx c).endStatus = St.contextTornDown ∧
        (t.session r.session).queue.getLast? = some (.manage r.reqId St.ok [] [] false)) ∧
    (∀ n st slot pc va, Quiet s → St.reportable st = true → Running s n → s.runCtx n = c → (s.ctx c).st = .active → (s.ctx c).faultPress = none →
      ∃ t, exec (.asyncFault n st slot pc va) s = .next t ∧ (t.ctx c).st = .teardown ∧ (t.ctx c).endStatus = st ∧
        (t.ctx c).faultPress = some n ∧
        (t.ctx c).fault = { valid := true, async := true, status := st, slot, pc := pc &&& 0xFFFFFFFFFFFF, va }) ∧
    (Quiet s → c < 4096 → (s.ctx c).st = .teardown → s.outstanding c = false → (∀ e ∈ s.longops, e.2.ctx ≠ some c) →
      ∃ t, exec (.teardownComplete c) s = .next t ∧ t.ctx c = {} ∧ (∀ e ∈ t.formes, e.2.ctx ≠ c) ∧
        (∀ e ∈ t.queues, e.2.ctx ≠ c) ∧ (∀ e ∈ t.buffers, e.2.ctx ≠ c) ∧ (∀ e ∈ t.hostwins, e.2.ctx ≠ c) ∧ (∀ e ∈ t.unmaps, e.2.ctx ≠ c) ∧
        t.regFld .sched 0 0x408 32 16 = (s.ctx c).endStatus.toNat)

/-- What the start of sub-take `k` sets on a press (R342). -/
def Started (t : State) (n k : Nat) (x : SubTake) : Prop :=
  (t.press n).st = .running ∧ (t.press n).run = some x.ctx ∧ (t.pc n).pc = x.entry ∧ (t.pc n).sub = some k ∧
    (t.pc n).getX 1 = x.arg ∧ (∀ i < x.descs.length, (t.pc n).getT i = nth 0 x.descs i) ∧
    (∀ w, x.window = some w → ∀ i < 8, (t.pc n).getX (56 + i) = nth 0 w i) ∧ (t.press n).gathered = [] ∧
    mfind? t.subs k = some { x with started := true }

/-- R303, R305 to R308, R312: an idle press takes the oldest sub-take of the context that reserves it, else resumes the
context saved on it, else takes the oldest best-effort sub-take. A pre-emption saves the best-effort context with its
case and tympans in slot B, its platen and roller operations finished, zeroizes them for the owner that has no parked state, starts the owner's sub-take and counts. -/
def Obligations.PressesScheduled : Prop :=
  ∀ (s : State) (n : Nat), Quiet s → n < 128 →
    (∀ o k x, (s.press n).st = .idle → s.reserver n = some o → (s.press n).run = some o →
      s.oldestSub n (fun y => decide (s.reserver n = some y.ctx)) = some (k, x) →
      ∃ t, exec (.pressDispatch n) s = .next t ∧ Started t n k x ∧ t.mem = s.mem) ∧
    (∀ k x, (s.press n).st = .idle → s.reserver n = none → (s.press n).run = none → (s.press n).slotB = none →
      s.oldestSub n (fun y => decide (s.reserver n = some y.ctx)) = none →
      s.oldestSub n (fun y => !(s.ctx y.ctx).critical) = some (k, x) →
      ∃ t, exec (.pressDispatch n) s = .next t ∧ Started t n k x ∧ t.mem = s.mem) ∧
    (∀ b, (s.press n).st = .idle → (s.press n).run = none → (s.press n).slotB = some b →
      s.oldestSub n (fun y => decide (s.reserver n = some y.ctx)) = none → s.retained n = false → b.st.watch = none →
      b.st.hold = .none → (∀ o ∈ b.st.tmRun, o.left = []) →
      ∃ t, exec (.pressDispatch n) s = .next t ∧ (t.press n).st = .running ∧ (t.press n).run = some b.ctx ∧
        t.pc n = b.st.applyLanding b.landing ∧ (t.press n).slotB = none) ∧
    (∀ cycles c o k x, (s.press n).run = some c → s.reserver n = some o → (s.press n).preempt = true →
      (s.pc n).hold = .none → (s.ctx c).critical = false → (s.press n).slotA = none →
      s.oldestSub n (fun y => y.ctx == o) = some (k, x) →
      ∃ t, exec (.preemptSave n cycles) s = .next t ∧ Started t n k x ∧
        (∃ b, (t.press n).slotB = some b ∧ b.ctx = c ∧ b.cells = s.caseImage n ∧ b.st.x = (s.pc n).x ∧
          b.st.pc = (s.pc n).pc ∧ b.st.plRun = [] ∧ b.st.rlRun = [] ∧
          ((s.pc n).plRun = [] → (s.pc n).rlRun = [] → (s.pc n).ctRun = [] → b.st = s.pc n)) ∧
        (∀ i < caseSize, cell t.mem (caseBase n + i) = 0) ∧ (∀ i < 0x100000, cell t.mem (tympBase n 0 + i) = 0) ∧
        (t.ctx c).preempts = (s.ctx c).preempts + 1 ∧
        t.regFld .sched 0 0x400 32 32 = max (s.regFld .sched 0 0x400 32 32) (min cycles 0xFFFFFFFF))

/-- R16, R17: FORME_INSTALL of a valid descriptor for a free handle installs its level, context and members;
FORME_RELEASE of a forme that nothing uses frees the handle; one in use answers FORME_BUSY. -/
def Claims.FormesInstalled : Prop :=
  ∀ (s : State) (r : MReq),
    (∀ body h f, Admitted s { all := true, plain := false } r → r.session = 0 ∨ (s.ctx f.ctx).part = (s.session r.session).part →
      s.checkForme body = some (h, f) →
      let w0 := nth 0 (toWords (body.length / 8) body) 0
      h = fld w0 61 52 ∧ f.level = fld w0 2 0 ∧ f.ctx = fld w0 35 24 ∧ f.members.length = fld w0 20 8 ∧
      (∀ i < f.members.length, nth {} f.members i = memberOf (nth 0 (toWords (body.length / 8) body) (8 + i))) ∧
      Responds (.formeInstall r body) s { s with formes := mput s.formes h f, free := s.free + 1 } r St.ok []) ∧
    (∀ h, Admitted s (ruleOf true false false [(Key.forme, true)]) r → r.num Key.forme = h → mhas s.formes h = true →
      r.session = 0 ∨ (s.ctx (s.forme h).ctx).part = (s.session r.session).part →
      (s.formeBusy h = false → Responds (.formeRelease r) s { s with formes := mdel s.formes h } r St.ok []) ∧
      (s.formeBusy h = true → Responds (.formeRelease r) s s r St.formeBusy []))

/-- R18 to R20, R341 to R343: the imposer of a queue takes its next take. A MARKER completes with SUCCESS. A take on a
level-3 forme whose tensors can be split becomes the one sub-take of its press, with the descriptors, argument and entry
of the take. Of a share among members every granule goes to exactly one, each member getting its proportion rounded down
or one more. -/
def Claims.TakesSplit : Prop :=
  (∀ (s : State) (q k : Nat) (t : Take), mhas s.queues q = true → s.nextTakeOf (mget {} s.queues q) = some k →
    mfind? s.takes k = some t →
    (t.marker = true → t.fence = none → ∃ u, exec (.imposerSplit q) s = .next u ∧
      ∃ t', mfind? u.takes k = some t' ∧ t'.st = .done ∧ t'.status = St.ok) ∧
    (∀ m, t.marker = false → mhas s.formes t.forme = true → (s.forme t.forme).level = 3 →
      (s.forme t.forme).members = [m] → m.isForme = false → m.device = s.myId →
      (∀ d ∈ t.descs, (tdOf d).role = true ∨ splitOk t.granule d = true) →
      splitGranules t.descs t.window t.granule ≠ 0 → ∃ u x, exec (.imposerSplit q) s = .next u ∧
        mfind? u.subs s.nextSub = some x ∧ x.take = k ∧ x.ctx = t.ctx ∧ x.press = m.index ∧ x.descs = t.descs ∧
        x.arg = t.arg ∧ x.entry = t.entry ∧ x.window = t.window ∧ x.started = false ∧
        mfind? u.takes k = some { t with st := .running, left := 1 })) ∧
  ∀ (g : Nat) (cs : List Nat), sumL cs ≠ 0 → (apportion g cs).length = cs.length ∧
    sumL ((apportion g cs).map (·.2)) = g ∧
    ∀ i < cs.length, let a := nth (0, 0) (apportion g cs) i
      a.1 = sumL (((apportion g cs).take i).map (·.2)) ∧
      (a.2 = g * nth 0 cs i / sumL cs ∨ a.2 = g * nth 0 cs i / sumL cs + 1)

/-- R24, R91, R305, R347: a sub-take at its END with nothing outstanding completes, the press of a best-effort context is
idle and zeroized, and the take counts one fewer. The fence of a completed take seals its buffer with the generation, and
the take is done. -/
def Obligations.TakesComplete : Prop :=
  ∀ (s : State),
    (∀ n k x t, Running s n → (s.pc n).sub = some k → (s.pc n).hold = .ending → s.drained n = true →
      mfind? s.subs k = some x → (s.ctx x.ctx).critical = false → mfind? s.takes x.take = some t → t.fence = none →
      ∃ u, exec (.subtakeComplete n) s = .next u ∧ (u.press n).st = .idle ∧ (u.press n).run = none ∧ u.pc n = {} ∧
        (∀ i < caseSize, cell u.mem (caseBase n + i) = 0) ∧ mfind? u.subs k = none ∧
        ∃ t', mfind? u.takes x.take = some t' ∧
          (2 ≤ t.left → t'.left = t.left - 1 ∧ t'.st = t.st) ∧
          (t.left = 1 → (s.pc n).dupSeen = false → t.ends = [] → t'.st = .done ∧ t'.status = St.ok) ∧
          (t.left = 1 → (s.pc n).dupSeen = true → t.ends = [] → t'.st = .done ∧ t'.status = St.claimDuplicate)) ∧
    ∀ q seq k t b g, s.takes.find? (fun e => e.2.queue == q && e.2.seq == seq && decide (e.2.st = .publishing)) = some (k, t) →
      mfind? s.takes k = some t → t.fence = some (b, g) → mhas s.buffers b = true →
      s.bufferWrites (mget {} s.buffers b) = false → s.requests = [] →
      ∃ u, exec (.fencePublish q seq) s = .next u ∧ (mget ({} : Buffer) u.buffers b).gen = g ∧
        (mget ({} : Buffer) u.buffers b).sealed = true ∧ ∃ t', mfind? u.takes k = some t' ∧ t'.st = .done

/-- R318 to R320, R360: LONGOP moves a long operation of its session from RUNNING to SUSPENDING, from SUSPENDED to RUNNING,
from RUNNING, SUSPENDING or SUSPENDED to CANCELLING, and answers SUCCESS; in any other state OP_STATE. At its stop point a
suspending operation is SUSPENDED and a cancelling one of a migration ends, each with its record. -/
def Obligations.LongOperationsCommanded : Prop :=
  ∀ (s : State) (r : MReq) (h : Nat),
    let o := s.longop h
    let put (st : LongSt) : State := { s with longops := mput s.longops h { o with st := st } }
    (Admitted s (ruleOf true true true [(Key.handle, true), (Key.action, true)]) r → r.num Key.handle = h →
      s.commands r = true →
      (r.num Key.action = 0 →
        (o.st = .running → Responds (.longopSuspend r) s (put .suspending) r St.ok []) ∧
        (o.st ≠ .running → Responds (.longopSuspend r) s s r St.opState [])) ∧
      (r.num Key.action = 1 →
        (o.st = .suspended → Quiet s → mfind? s.colls h = none → (∀ e ∈ s.longops, ∀ b, e.2.kind ≠ .bist b) →
          Responds (.longopResume r) s (put .running) r St.ok []) ∧
        (o.st ≠ .suspended → Responds (.longopResume r) s s r St.opState [])) ∧
      (r.num Key.action = 2 →
        (o.st = .running ∨ o.st = .suspending ∨ o.st = .suspended →
          Responds (.longopCancel r) s (put .cancelling) r St.ok []) ∧
        (o.st = .cancelling ∨ o.st = .done → Responds (.longopCancel r) s s r St.opState []))) ∧
    ∀ c va pages next, mhas s.longops h = true → o.kind = .migrate c va pages next → s.sessionOpen o.session = true →
      Quiet s → ∀ l,
      (o.st = .suspending → ∃ t, exec (.longopStop h l) s = .next t ∧ (t.longop h).st = .suspended ∧
        (t.session o.session).queue = (s.session o.session).queue ++ [.manage o.reqId St.suspended [(Key.handle, wn h)] [] false]) ∧
      (o.st = .cancelling → ∃ t, exec (.longopStop h l) s = .next t ∧ (t.longop h).st = .done ∧
        (t.session o.session).queue = (s.session o.session).queue ++ [.manage o.reqId St.cancelled [(Key.handle, wn h)] [] true])

/-! ### Control space (R4 to R8, R30, R467 to R477) -/

/-- Fields that lie apart within 64 bits. -/
def FieldsApart (fs : List Field) : Prop :=
  fs.Pairwise (fun f g => f.lo + f.w ≤ g.lo ∨ g.lo + g.w ≤ f.lo) ∧ ∀ f ∈ fs, 1 ≤ f.w ∧ f.lo + f.w ≤ 64

/-- Registers whose writes do nothing but change their fields. -/
def PlainReg (s : State) (b : Block) (i o : Nat) : Prop :=
  b = .ras ∨ b = .sched ∨ b = .sec ∨ (b = .chase ∧ s.unfenced i = true) ∨ (b = .pwr ∧ o ≠ 0) ∨ (b = .taosh ∧ o ≠ 0) ∨
    (b = .mgmt ∧ o ≠ 0)

/-- R5, R8, R469: a control-space write sets each RW and WO field to the bits written, clears a W1C field's bits and sets a
W1S field's bits where ones are written, and leaves RO and RC fields and every other register as they are; a PRESS block
ignores writes. -/
def Obligations.RegisterWrites : Prop :=
  ∀ (s : State) (path : RegPath) (a : Nat) (v : W64) (b : Block) (i o : Nat) (fs : List Field), a % 8 = 0 →
    blockOf a = some (b, i, o) → s.pathWrites path b o = true → fieldsAt b o = some fs → FieldsApart fs →
    (b = .press → exec (.registerWrite path a v) s = .next s) ∧
    (PlainReg s b i o → (∀ f ∈ fs, codeOk b o f (fld v (f.lo + f.w - 1) f.lo) = true) → ∃ t,
      exec (.registerWrite path a v) s = .next t ∧ { t with regs := s.regs } = s ∧
      (∀ b' i' o', regAddr b' i' o' ≠ regAddr b i o → t.reg b' i' o' = s.reg b' i' o') ∧
      ∀ f ∈ fs, let old := s.regFld b i o f.lo f.w; let x := fld v (f.lo + f.w - 1) f.lo
        t.regFld b i o f.lo f.w = match f.acc with
          | .rw => x | .wo => x | .ro => old | .rc => old
          | .w1c => old &&& (2 ^ f.w - 1 - x) | .w1s => old ||| x)

/-- R7: a read returns the value held before it and clears the RC fields of the register; an event of the same cycle counts
in the next value of the first of them. Other fields and registers stay. -/
def Claims.ReadsClear : Prop :=
  ∀ (s : State) (path : RegPath) (a : Nat) (b : Block) (i o : Nat) (fs : List Field) (v : W64) (event : Option Nat),
    a % 8 = 0 → blockOf a = some (b, i, o) → path ≠ .i3c → fieldsAt b o = some fs → FieldsApart fs →
    s.readReg b i o = (v, s) → ∃ t, exec (.readClear path a event) s = .next t ∧ t.out = .regData v :: s.out ∧
      { t with regs := s.regs, out := s.out } = s ∧
      (∀ b' i' o', regAddr b' i' o' ≠ regAddr b i o → t.reg b' i' o' = s.reg b' i' o') ∧
      (∀ f ∈ fs, f.acc ≠ .rc → t.regFld b i o f.lo f.w = s.regFld b i o f.lo f.w) ∧
      ∀ f, fs.find? (fun f => decide (f.acc = .rc)) = some f →
        t.regFld b i o f.lo f.w = (event.getD 0) % 2 ^ f.w ∧
        ∀ g ∈ fs, g ≠ f → g.acc = .rc → t.regFld b i o g.lo g.w = 0

/-- An access not performed: one CORRECTED error of the control-access unit, recorded with its address and counted. -/
def AccessError (s t : State) (a : Nat) : Prop :=
  (∃ r : ErrRec, t.ring = (r :: s.ring).take 4096 ∧ r.cls = 0 ∧ r.cause = 0x07 ∧ r.addr = a) ∧
    t.regFld .ras 0 0 0 32 = (s.regFld .ras 0 0 0 32 + 1) % 2 ^ 32 ∧
    (∀ b i o, regAddr b i o ≠ regAddr .ras 0 0 → regAddr b i o ≠ regAddr .ras 0 0x48 → t.reg b i o = s.reg b i o) ∧
    { t with regs := s.regs, ring := s.ring, free := s.free, out := s.out } = s

/-- R4, R30: a misaligned control-space access, one of another size than 8 bytes, and one that reaches no register are not
performed and are correctable errors; a read of that kind returns all ones. -/
def Claims.AccessesNotPerformed : Prop :=
  ∀ (s : State) (a : Nat) (write : Bool),
    let go (i : Instr) (w : Bool) : Prop := ∃ t, exec i s = .next t ∧ AccessError s t a ∧
      t.out = if w then s.out else .regData (BitVec.allOnes 64) :: s.out
    (∀ size, size ≠ 8 ∨ a % 8 ≠ 0 → go (.controlAccessMisaligned write a size) write) ∧
    (inMap a = false → go (.unmappedAccess write a) write) ∧
    ∀ path, path ≠ .i3c → a % 8 ≠ 0 ∨ blockOf a = none →
      (∀ v, go (.registerWrite path a v) true) ∧ ∀ event, go (.readClear path a event) false

/-- R474, R477: TELEMETRY answers its registers in order as pairs of ADDR and VALUE; REG_READ answers each address with its
value; REG_WRITE makes a write by session 0 and answers SUCCESS. -/
def Claims.RegisterRequests : Prop :=
  ∀ (s : State) (r : MReq),
    (Admitted s (ruleOf false true true []) r → ∃ t l, exec (.telemetry r) s = .next t ∧ Answers s t r St.ok l ∧
      l.length = 86 ∧ t.mem = s.mem ∧ ∀ k < 43, let e := nth (.mgmt, 0) telemRegs k
        nth (0, 0) l (2 * k) = (Key.addr, wn (regAddr e.1 0 e.2)) ∧ (nth (0, 0) l (2 * k + 1)).1 = Key.value) ∧
    (∀ a : W64, Admitted s { service := true, restricted := true, plain := false } r → r.items = [(Key.addr, a)] →
      a.toNat % 8 = 0 → inControl a.toNat = true →
      Responds (.regRead r) s (s.regRead a.toNat).2 r St.ok [(Key.addr, a), (Key.value, (s.regRead a.toNat).1)]) ∧
    (∀ (a v : W64) b i o, Admitted s { service := true, plain := false } r → r.items = [(Key.addr, a), (Key.value, v)] →
      a.toNat % 8 = 0 → inControl a.toNat = true → blockOf a.toNat = some (b, i, o) → PlainReg s b i o →
      s.serviceMode = false →
      Responds (.regWrite r) s (s.plainWrite b i o v) r St.ok [])

/-! ### Pages and the runtime (R33 to R36, R207, R209, R472) -/

/-- The entry of a page that a PTE item describes, without its target. -/
def PteOf (p : Page) (w : W64) : Prop := p.rd = flag w 2 ∧ p.wr = flag w 3 ∧ p.ex = flag w 4

/-- R33, R34, R36: MAP of unmapped pages of a peer gives each page its entry, the target advancing by a page each; MAP of
one page of own memory takes a frame for it. PROTECT that lowers no permission acts at once; one that lowers some, and
every UNMAP, waits, and ends when nothing holds it: the entries are gone, or have the new permissions, and the request is
answered then. Other pages stay. -/
def Obligations.PagesMapped : Prop :=
  ∀ (s : State) (r : MReq) (g : PageRange), pageRange r = some g →
    let c := r.num Key.context
    let w := (r.item? Key.pte).getD 0
    let keys := [(Key.context, true), (Key.vaddr, true), (Key.pageSize, true), (Key.pages, true)]
    let entry (t : State) (k : Nat) : Option Page := (t.ctx c).entryOf g.large k
    let others (t : State) : Prop := (∀ k, k ∉ g.nums → entry t k = entry s k) ∧
      (∀ k, (t.ctx c).entryOf (!g.large) k = (s.ctx c).entryOf (!g.large) k) ∧ ∀ d, d ≠ c → t.ctx d = s.ctx d
    let last (t : State) : Prop := Answers s t r St.ok []
    (Admitted s (ruleOf true false false (keys ++ [(Key.pte, true), (Key.image, false), (Key.imagePage, false)])) r →
      pteOk w = true → (∀ k ∈ g.nums, (s.ctx c).touched g.large k = false) → r.has Key.image = false →
      r.has Key.imagePage = false →
      (fld w 63 48 ≠ s.myId → (g.large = true → fld w 20 16 = 0) → ∃ t, exec (.map r) s = .next t ∧ last t ∧ others t ∧
        t.mem = s.mem ∧ ∀ i < g.count, ∃ p, entry t (g.first + i) = some p ∧ PteOf p w ∧
          p.tgt = .remote (fld w 63 48) (fld w 47 16 * 0x10000 + i * g.size)) ∧
      (∀ a, fld w 63 48 = s.myId → g.count = 1 → s.findFrame (s.ctx c).part (s.ctx c).priv g.size = some a →
        ∃ t p, exec (.map r) s = .next t ∧ last t ∧ others t ∧ entry t g.first = some p ∧ PteOf p w ∧
          p.tgt = .frame a ∧ p.own = true)) ∧
    (Admitted s (ruleOf true false false keys) r → s.rangeMapped c g = true →
      ∀ i, mfree s.unmaps 65536 0 = some i → ∃ t u, exec (.unmap r) s = .next t ∧ mfind? t.unmaps i = some u ∧
        u.ctx = c ∧ u.first = g.first ∧ u.pages = g.count ∧ u.large = g.large ∧ u.perm = none ∧
        { t with unmaps := s.unmaps } = s) ∧
    (Admitted s (ruleOf true false false (keys ++ [(Key.perm, true)])) r → s.rangeMapped c g = true →
      let perm := BitVec.ofNat 3 (r.num Key.perm)
      ((∀ k ∈ g.nums, ∀ p, entry s k = some p → p.lowered perm = false) → Quiet s →
        ∃ t, exec (.protect r) s = .next t ∧ last t ∧ others t ∧ ∀ k ∈ g.nums, ∀ p, entry s k = some p →
          entry t k = some { p with rd := perm.getLsbD 0, wr := perm.getLsbD 1, ex := perm.getLsbD 2 }) ∧
      (∀ k ∈ g.nums, ∀ p i, entry s k = some p → p.lowered perm = true → mfree s.unmaps 65536 0 = some i →
        ∃ t u, exec (.protect r) s = .next t ∧ mfind? t.unmaps i = some u ∧ u.perm = some perm ∧
          { t with unmaps := s.unmaps } = s)) ∧
    ∀ i u, Quiet s → mfind? s.unmaps i = some u → u.ctx = c → u.first = g.first → u.pages = g.count → u.large = g.large →
      s.unmapWaits u g = false → s.sessionOpen u.session = true → ∃ t, exec (.unmapComplete i) s = .next t ∧
        mfind? t.unmaps i = none ∧ others t ∧
        (t.session u.session).queue.getLast? = some (.manage u.reqId St.ok [] [] false) ∧
        (u.perm = none → ∀ k ∈ g.nums, entry t k = none) ∧
        ∀ b, u.perm = some b → ∀ k ∈ g.nums, ∀ p, entry s k = some p →
          entry t k = some { p with rd := b.getLsbD 0, wr := b.getLsbD 1, ex := b.getLsbD 2 }

/-- R204, R207, R209: GALLEY_SWAP on an open stream of its context: a swap-out or a swap-in begins, autoswap of the
partition is set, RESET and LOAD of a resident stream raise both generations and clear the accumulators. What is asked while
a command of the stream executes waits for its completion (R205). -/
def Claims.RuntimeGalleySwaps : Prop :=
  ∀ (s : State) (r : MReq) (h : Nat),
    Admitted s (ruleOf true false false [(Key.context, true), (Key.action, true), (Key.stream, false), (Key.vaddr, false)]) r →
    let e := s.gentry h
    let p := (s.ctx (r.num Key.context)).part
    let act (k : Nat) : Prop := r.num Key.action = k
    let fresh (t : State) : Prop := (t.gentry h).gen = e.gen + 1 ∧ (t.gentry h).agen = e.agen + 1 ∧
      (t.gentry h).steps = 0 ∧ (t.gentry h).err = 0 ∧ (t.gentry h).comp = 0
    (act 2 → Responds (.autoswapDisable r) s { s with parts := mset {} s.parts p { s.part p with autoswap := false } } r St.ok []) ∧
    (act 3 → Responds (.autoswapEnable r) s { s with parts := mset {} s.parts p { s.part p with autoswap := true } } r St.ok []) ∧
    (r.has Key.stream = true → r.num Key.stream = h → mhas s.galley h = true → e.isOpen = true →
      e.owner = r.num Key.context →
      (s.streamBusy h none = true → let later (a : GAct) : State := s.setGentry h { e with acts := e.acts ++ [a] }
        (act 0 → Responds (.runtimeSwapOut r) s (later .swapOut) r St.ok []) ∧
        (act 4 → Responds (.runtimeReset r) s (later .reset) r St.ok [])) ∧
      (act 1 → e.res = .swapped → ∃ t, exec (.runtimeSwapIn r) s = .next t ∧ Answers s t r St.ok [] ∧
        (t.gentry h).res = .swappingIn) ∧
      (s.streamBusy h none = false →
      (act 0 → e.res = .resident → slotUnits e ≤ s.poolRoom e.part Pool.swap → ∀ k, mfree s.gslots (2 ^ 24) 0 = some k →
        ∃ t, exec (.runtimeSwapOut r) s = .next t ∧ Answers s t r St.ok [] ∧ (t.gentry h).res = .swappingOut ∧
          (t.gentry h).slot = some k) ∧
      (act 4 → ∃ t, exec (.runtimeReset r) s = .next t ∧ Answers s t r St.ok [] ∧ fresh t ∧ (t.gentry h).reset = true) ∧
      (act 5 → r.has Key.vaddr = true → e.res = .resident → ∀ bs,
        s.ctxRead e.owner (wn (r.num Key.vaddr)) (elemsOf e * (fmtWidth (stateFmt e.sfmt) / 8)) = some bs →
        ∃ t, exec (.runtimeLoad r) s = .next t ∧ Answers s t r St.ok [] ∧ fresh t ∧ (t.gentry h).reset = false)))

/-- R27, R472: DEVICE_ID_SET on a device without an identifier sets it and keeps it in module flash; on one that has it
only MGMT.CFG_ERR.LOCKED is set. UNSET clears the identifier where no context lives and every link is down or off, and
sets LOCKED otherwise. -/
def Claims.DeviceIdentifier : Prop :=
  ∀ (s : State),
    (∀ r, Admitted s (ruleOf false false false [(Key.deviceId, true)]) r →
      (s.idValid = false → ∃ t, exec (.deviceIdSet r) s = .next t ∧ Answers s t r St.ok [] ∧
        t.reg .mgmt 0 0 = wn (r.num Key.deviceId % 65536 + 65536) ∧
        t.flash = { s.flash with deviceId := some (r.num Key.deviceId % 65536) }) ∧
      (s.idValid = true → ∃ t, exec (.deviceIdSet r) s = .next t ∧ t.reg .mgmt 0 0 = s.reg .mgmt 0 0 ∧
        t.flash = s.flash ∧ t.regFld .mgmt 0 0x08 1 1 = 1)) ∧
    ∀ path, path ≠ .i3c →
      let free : Prop := (∀ e ∈ s.ctxs, e.2.st = .free) ∧ ∀ l < 32, s.linkState l = LinkSt.down ∨ s.linkState l = LinkSt.off
      (free → ∃ t, exec (.mgmtUnset path) s = .next t ∧ t.reg .mgmt 0 0 = 0 ∧ t.flash = { s.flash with deviceId := none }) ∧
      (¬free → ∃ t, exec (.mgmtUnset path) s = .next t ∧ t.reg .mgmt 0 0 = s.reg .mgmt 0 0 ∧ t.flash = s.flash ∧
        t.regFld .mgmt 0 0x08 1 1 = 1)

/-! ### HBM (R272 to R297) -/

/-- R282, R283, R285, R286, R292: an accepted atomic of the device's own, at a pseudo-channel in service and outside the frames
of placed pages, writes each element by its operation and counts as accepted and performed; a write stores its bytes; no other byte of memory changes.
In a retraining window either is held, and proceeds when the window ends. -/
def Obligations.MemoryAtomics : Prop :=
  ∀ (s : State) (pa pc loc : Nat), s.hbmMap pa = some (pc, loc) → Quiet s →
    let put (body : AtomBody) : Instr := .memoryAtomic .internal pa body .good
    s.keyOf pa = pa → pa < 2 ^ 48 → s.stalls (.mem pa) true = false →
    (s.pcState pc = 1 → ∀ src body ecc, (∀ op fmt vs, body = .atomic op fmt vs →
      atomRefusal op.toNat fmt.toNat pa vs.length = none) → ∃ t, exec (.memoryAtomic src pa body ecc) s = .next t ∧ t.mem = s.mem ∧
      mget [] t.pcHeld pc = mget [] s.pcHeld pc ++ [{ src := src, pa := pa, body := body, ecc := ecc }]) ∧
    (s.pcState pc ≠ 1 → s.pcState pc ≠ 2 → ∀ op fmt vs, atomRefusal op.toNat fmt.toNat pa vs.length = none →
      let n := atomBytes fmt.toNat
      s.isBad pa (vs.length * n) = false →
      let old (i : Nat) : Nat := ofBytes (cells s.mem (pa + i * n) n)
      let v (i : Nat) : Nat := (nth 0 vs i).toNat
      ∃ t, exec (put (.atomic op fmt vs)) s = .next t ∧
        (∀ a, a < pa ∨ pa + n * vs.length ≤ a → cell t.mem a = cell s.mem a) ∧
        t.atomics = s.atomics + 1 ∧ t.atomicsEnd = s.atomicsEnd + 1 ∧
        ∀ i < vs.length, ofBytes (cells t.mem (pa + i * n) n) =
          if fmt.toNat = fmtInt64 then (old i + v i) % 2 ^ 64
          else if fmt.toNat = Fmt.int32 then match op.toNat with
            | 0 => (old i + v i) % 2 ^ 32
            | 1 => if sext 32 (v i) < sext 32 (old i) then v i % 2 ^ 32 else old i
            | _ => if sext 32 (v i) < sext 32 (old i) then old i else v i % 2 ^ 32
          else atomElem op.toNat fmt.toNat (old i) (v i) % 2 ^ (8 * n)) ∧
    (s.pcState pc ≠ 1 → s.pcState pc ≠ 2 → ∀ bs : List Byte, pa + bs.length ≤ 2 ^ 48 →
      ∃ t, exec (put (.write bs)) s = .next t ∧ (∀ i < bs.length, cell t.mem (pa + i) = nth 0 bs i) ∧
        ∀ a, a < pa ∨ pa + bs.length ≤ a → cell t.mem a = cell s.mem a)

/-- R240, R287, R292 to R294: a patrol that corrects counts a CORRECTED error and one of its lane, one that finds an
uncorrectable sector marks it and counts; at a line of a cabinet an error is corrected in place (log 92). A window opens while
fewer than MAXPAR of its stack are open; the end of a window that failed twice in a row retires the pseudo-channel, and any
other returns it to service. -/
def Claims.PatrolAndWindows : Prop :=
  ∀ (s : State) (pc : Nat), pc < 512 →
    let hbm (a : Nat) : Prop := ∀ c < 16, a < cabBase c ∨ cabBase c + 0x1000000 ≤ a
    (∀ a, exec (.hbmPatrol pc a .good) s = .next s) ∧
    (∀ a lane, hbm a → ∃ t, exec (.hbmPatrol pc a (.corrected lane)) s = .next t ∧ t.mem = s.mem ∧ t.bad = s.bad ∧
      (mget 0 (mget [] s.laneCes pc) lane = 0 → mget 0 (mget [] t.laneCes pc) lane = 1) ∧
      t.regFld .hbm 0 (pcOff pc) 16 32 = (s.regFld .hbm 0 (pcOff pc) 16 32 + 1) % 2 ^ 32 ∧
      t.regFld .ras 0 0 0 32 = (s.regFld .ras 0 0 0 32 + 1) % 2 ^ 32) ∧
    (∀ c i l lane, c < 16 → i < 0x10000 → s.cabLineAt c i = some l →
      ∃ t, exec (.hbmPatrol pc (cabBase c + 256 * i) (.corrected lane)) s = .next t ∧ t.mem = s.mem ∧ t.chases = s.chases ∧
        t.regFld .chase c 0xC08 0 32 = (s.regFld .chase c 0xC08 0 32 + 1) % 2 ^ 32) ∧
    (∀ a, hbm a → a < 2 ^ 48 → s.placedAt a = none → mget 0 s.pcUes pc + 1 < s.regFld .hbm 0 0x28 16 8 →
      ∃ t, exec (.hbmPatrol pc a .uncorrectable) s = .next t ∧ t.mem = s.mem ∧ a / 32 ∈ t.bad ∧
        1 ≤ mget 0 t.pcUes pc ∧ mget 0 t.pcUes pc ≤ mget 0 s.pcUes pc + 1 ∧
        t.regFld .hbm 0 (pcOff pc) 48 16 = (s.regFld .hbm 0 (pcOff pc) 48 16 + 1) % 2 ^ 16) ∧
    (s.pcState pc = 0 → ∃ t, exec (.hbmRetrainWindow (pc / 64) (pc % 64)) s = .next t ∧ t.mem = s.mem ∧
      (s.inWindows (pc / 64) < s.regFld .hbm 0 0x20 24 3 → t.pcState pc = 1 ∧ pc ∈ t.windows) ∧
      (s.regFld .hbm 0 0x20 24 3 ≤ s.inWindows (pc / 64) → t = s) ∧
      ∀ q < 512, q ≠ pc → t.pcState q = s.pcState q) ∧
    (s.pcState pc = 1 → mget [] s.pcHeld pc = [] → Quiet s →
      (∃ t, exec (.retrainingWindowEnd pc false) s = .next t ∧ t.pcState pc = 0 ∧ mget 0 t.pcFails pc = 0 ∧ t.mem = s.mem ∧
        pc ∉ t.windows) ∧
      (mget 0 s.pcFails pc = 0 → ∃ t, exec (.retrainingWindowEnd pc true) s = .next t ∧ t.pcState pc = 0 ∧
        mget 0 t.pcFails pc = 1 ∧ t.mem = s.mem) ∧
      (1 ≤ mget 0 s.pcFails pc → s.placed = [] → s.ctxs = [] → ∃ t, exec (.retrainingWindowEnd pc true) s = .next t ∧
        t.pcState pc = 2 ∧ pc ∈ t.ledger.retired))

/-- R281, R282: a request that its partition's tokens cover leaves its ingress, takes its charge, and joins the queue of its
pseudo-channel in its class; one that they do not cover leaves by borrowing, where BORROW is set and the queue holds no request
of the first two classes, or waits, each counted; while EN is 0 every request waits. Shown on an empty ingress. HBM.REG takes a
write only while the shares of all partitions sum to at most 64. -/
def Claims.Regulators : Prop :=
  ∀ (s : State) (p : Nat), p < 8 →
    (∀ src q cycles served, (s.part p).ingress = [] → src ≠ .scrub → src ≠ .management →
      let tok := min (s.regFld .hbm 0 (regOff p) 16 8 * 2048) ((s.part p).tokens +
        8 * s.regFld .hbm 0 (regOff p) 8 7 * cycles * s.regFld .pwr 0 0x08 24 5 / 16)
      let charge := s.chargeOf q
      let pc := s.reqPc q
      let waiting := serveSome served (mget [] s.pcQueues pc)
      let en := s.regFld .hbm 0 (regOff p) 0 1 = 1
      let borrow := s.regFld .hbm 0 (regOff p) 1 1 = 1 ∧ ∀ e ∈ waiting, e.2 = 3
      let go (tokens : Nat) (left : List HbmReq) (queue : List (Nat × Nat)) (P : State → Prop) : Prop :=
        ∃ t, exec (.regulatorAdmit p src q cycles served) s = .next t ∧ (t.part p).tokens = tokens ∧ (t.part p).ingress = left ∧
          mget [] t.pcQueues pc = queue ∧ t.mem = s.mem ∧ P t
      (¬en → go tok [q] waiting fun t => t.regs = s.regs) ∧
      (en → charge ≤ tok → go (tok - charge) [] (waiting ++ [(p, s.classOf p pc)]) fun t => t.regs = s.regs) ∧
      (en → tok < charge → borrow → go tok [] (waiting ++ [(p, 3)]) fun t =>
        t.regFld .hbm 0 (regOff p + 8) 32 32 = (s.regFld .hbm 0 (regOff p + 8) 32 32 + 1) % 2 ^ 32) ∧
      (en → tok < charge → ¬borrow → go tok [q] waiting fun t =>
        t.regFld .hbm 0 (regOff p + 8) 0 32 = (s.regFld .hbm 0 (regOff p + 8) 0 32 + 1) % 2 ^ 32)) ∧
    ∀ path v, path ≠ .i3c →
      let sum := sumL ((upTo 8).map fun q => if q = p then fld v 14 8 else s.regFld .hbm 0 (regOff q) 8 7)
      (sum ≤ 64 → ∃ t, exec (.hbmRegWrite path p v) s = .next t ∧ t.regFld .hbm 0 (regOff p) 8 7 = fld v 14 8 ∧
        t.regFld .hbm 0 (regOff p) 0 2 = fld v 1 0 ∧ t.regFld .hbm 0 (regOff p) 16 8 = fld v 23 16) ∧
      (64 < sum → ∃ t, exec (.hbmRegWrite path p v) s = .next t ∧ t.reg .hbm 0 (regOff p) = s.reg .hbm 0 (regOff p) ∧
        t.regFld .hbm 0 0x38 0 1 = 1)

/-- R281, R297, R455, R476: LOOPBACK of a channel whose partitions hold no live context takes it out of service and starts
the run, which at depth 3 quarantines those partitions; the end of the run sets DONE and PASS, returns the channel and answers the request with the final LOOP_CTL. -/
def Claims.HbmLoopbacks : Prop :=
  ∀ (s : State),
    (∀ r v, Admitted s { service := true, keys := [(Key.interface, true), (Key.loop, true)] } r →
      r.num Key.interface = 2 → r.item? Key.loop = some v → s.regFld .hbm 0 0x40 11 1 = 0 →
      s.hbmLoopDenied (fld v 8 0) (fld v 10 9) = false →
      ∃ t, exec (.hbmLoopbackStart r) s = .next t ∧ t.pcState (fld v 8 0) = 3 ∧ t.regFld .hbm 0 0x40 11 1 = 1 ∧
        (fld v 10 9 = 3 → ∀ p ∈ s.partsOn (fld v 8 0), (t.part p).st = 3) ∧
        mfind? t.loopReqs 2 = some (r.session, r.reqId) ∧ t.sessions = s.sessions) ∧
    ∀ pass sig n id, s.regFld .hbm 0 0x40 11 1 = 1 → mfind? s.loopReqs 2 = some (n, id) → s.sessionOpen n = true →
      ∃ t, exec (.hbmLoopbackEnd pass sig) s = .next t ∧
        t.regFld .hbm 0 0x40 11 1 = 0 ∧ (s.regFld .hbm 0 0x40 9 2 = 3 → t.regFld .hbm 0 0x40 32 32 = sig.toNat) ∧ t.regFld .hbm 0 0x40 12 2 = (if pass then 3 else 1) ∧
        t.pcState (s.regFld .hbm 0 0x40 0 9) = 0 ∧ mfind? t.loopReqs 2 = none ∧
        (t.session n).queue = (s.session n).queue ++ [.manage id St.ok [(Key.loop, t.reg .hbm 0 0x40)] [] false]

/-! ### Placed pages, streaming, the model library (R245, R251 to R271) -/

/-- R249, R254 to R256, R268: a promotion that ends keeps the logical bytes of its page and moves it to T2P; a fetch whose area
has come from the origin leaves the page at T2C with the bytes that its slugs decode to; a demotion that leaves the area too
large stays and is marked. An epoch of a partition whose epochs run halves HEAT of its pages, and another does nothing. A repair
counts its failed attempts and gives a page whose area has come from the origin fresh storage with the bytes of the area. -/
def Obligations.PlacedPagesMove : Prop :=
  ∀ (s : State) (e : Nat), mhas s.placed e = true →
    let x := s.entry e
    let same (t : State) : Prop := ∀ off < 0x200000, mget 0 (t.pageBytes e) off = mget 0 (s.pageBytes e) off
    let landed : Prop := x.asked = true ∧ x.failed = false
    (∀ used a, Quiet s → x.poison = false → x.tier = .moving → x.was = .t2c → x.move = some .promote →
      s.findPoolFrame x.part = some a → x.bytes.Pairwise (fun u v => u.1 < v.1) → (∀ b ∈ x.bytes, b.1 < 0x200000) →
      ∃ t, exec (.pageMoveComplete e used true) s = .next t ∧ same t ∧ (t.entry e).tier = .t2p ∧ (t.entry e).frame = a ∧
        (t.entry e).move = none ∧ (t.entry e).heap = (0, 0)) ∧
    (∀ used bs h, Quiet s → x.poison = false → x.move = some .fetch → x.tier = .moving → x.was = .t3 → x.holds = 0 →
      landed → s.decodeArea x.part x.tbase (s.areaBytes x) = some bs →
      let u := areaUsed (s.areaBytes x)
      s.findHeap x.part (heapGranules u) = some h →
      ∃ t, exec (.pageMoveComplete e used true) s = .next t ∧ (t.entry e).tier = .t2c ∧ (t.entry e).move = none ∧
        (t.entry e).heap = (h, heapGranules u) ∧ (t.entry e).used = u ∧ t.mem = s.mem ∧
        ∀ i, mget 0 (t.entry e).bytes i = nth 0 bs i) ∧
    (∀ used good, Quiet s → x.poison = false → x.move = some .demote → x.tier = .moving → x.was = .t2p →
      1572864 < 4160 + 32 * used → ∃ t, exec (.pageMoveComplete e used good) s = .next t ∧ same t ∧ (t.entry e).tier = .t2p ∧
        (t.entry e).incomp = true ∧ t.mem = s.mem) ∧
    (∀ p, p < 8 → (s.regFld .place 0 (0x40 * p) 0 1 = 0 → exec (.placementEpoch p) s = .next s) ∧
      (s.regFld .place 0 (0x40 * p) 0 1 = 1 → x.part = p → ∃ t, exec (.placementEpoch p) s = .next t ∧ t.mem = s.mem ∧
        (t.entry e).heat = x.heat / 2)) ∧
    (x.poison = true → Quiet s → s.hasOrigin x = true →
      (x.tries < 2 → ∃ t, exec (.poisonRepair e false) s = .next t ∧ (t.entry e).tries = x.tries + 1 ∧
        (t.entry e).poison = true ∧ (t.entry e).tier = x.tier ∧ (t.entry e).frame = x.frame ∧ (t.entry e).heap = x.heap ∧
        t.mem = s.mem) ∧
      ∀ a bs h, landed → s.decodeArea x.part x.tbase (s.areaBytes x) = some bs →
        s.findHeap x.part (heapGranules (areaUsed (s.areaBytes x))) = some h → x.tier = .t2p →
        s.findPoolFrame x.part = some a → a ≠ x.frame → a % 0x200000 = 0 → x.frame % 0x200000 = 0 →
        ∃ t, exec (.poisonRepair e true) s = .next t ∧ (t.entry e).poison = false ∧ (t.entry e).tries = 0 ∧
          (t.entry e).tier = .t2p ∧ (t.entry e).frame = a ∧ x.frame ∈ t.deadFrames ∧
          ∀ off < 0x200000, cell t.mem (a + off) = nth 0 bs off)

/-- R251, R258, R259, R271: PLACE registers an allocated 2 MiB page at T2P in its frame, makes one an ordinary page
again, and sets PIN; MIGRATE of mapped ranges starts a long operation. PLACE.CFG takes a write only where it stays
consistent. -/
def Obligations.PagesPlaced : Prop :=
  ∀ (s : State) (r : MReq),
    let c := r.num Key.context
    let k := r.num Key.vaddr / 0x200000
    let rule := ruleOf true false false [(Key.context, true), (Key.vaddr, true), (Key.action, true), (Key.pin, false)]
    let here (p : Page) : Prop := r.num Key.vaddr % 0x200000 = 0 ∧ r.num Key.vaddr < 2 ^ 48 ∧
      mfind? (s.ctx c).large k = some p
    (∀ p a e, Admitted s rule r → r.num Key.action = 0 → here p → p.tgt = .frame a → p.own = true →
      mfree s.placed (2 ^ 24) 0 = some e → ∃ t, exec (.placeRegister r) s = .next t ∧ Answers s t r St.ok [] ∧
        t.mem = s.mem ∧ (t.entry e).tier = .t2p ∧ (t.entry e).frame = a ∧ (t.entry e).part = (s.ctx c).part ∧
        mfind? (t.ctx c).large k = some { p with tgt := .placed e }) ∧
    (∀ p e, Admitted s rule r → Quiet s → r.num Key.action = 1 → here p → p.tgt = .placed e →
      (s.entry e).image = none → (s.entry e).tier = .t2p → ∃ t, exec (.placeEnd r) s = .next t ∧
        Answers s t r St.ok [] ∧ t.mem = s.mem ∧ mfind? t.placed e = none ∧
        mfind? (t.ctx c).large k = some { p with tgt := .frame (s.entry e).frame, own := true }) ∧
    (∀ p e, Admitted s rule r → r.num Key.action = 2 → r.has Key.pin = true → here p → p.tgt = .placed e →
      (r.num Key.pin ≠ 1 → ∃ t, exec (.placePin r) s = .next t ∧ Answers s t r St.ok [] ∧
        t.entry e = { s.entry e with pin := r.num Key.pin }) ∧
      (r.num Key.pin = 1 → (s.entry e).pin ≠ 1 → s.unpinnedFrames (s.entry e).part ≤ s.reserveFrames (s.entry e).part →
        Responds (.placePin r) s s r St.opState [])) ∧
    (∀ h, Admitted s (ruleOf true false false [(Key.context, true), (Key.vaddr, true), (Key.pages, true)]) r →
      r.num Key.vaddr % 0x200000 = 0 → r.num Key.vaddr + r.num Key.pages * 0x200000 ≤ 2 ^ 48 →
      (∀ i < r.num Key.pages, s.rangeMoves c (k + i) = true) → s.newHandle = some h →
      ∃ t, exec (.migrate r) s = .next t ∧ (t.longop h).st = .running ∧
        (t.longop h).kind = .migrate c (r.num Key.vaddr) (r.num Key.pages) 0 ∧ t.mem = s.mem ∧
        (t.session r.session).queue = (s.session r.session).queue ++ [.manage r.reqId St.ok [(Key.handle, wn h)] [] false]) ∧
    ∀ path v p, p < 8 → path ≠ .i3c →
      let thr := s.reg .place 0 (0x40 * p + 8)
      (placeCfgOk v thr = true → ∃ t, exec (.placeCfgWrite path (regAddr .place 0 (0x40 * p)) v) s = .next t ∧
        t.regFld .place 0 (0x40 * p) 0 1 = fld v 0 0 ∧ t.regFld .place 0 (0x40 * p) 16 16 = fld v 31 16 ∧
        t.regFld .place 0 (0x40 * p) 32 16 = fld v 47 32) ∧
      (placeCfgOk v thr = false → ∃ t, exec (.placeCfgWrite path (regAddr .place 0 (0x40 * p)) v) s = .next t ∧
        t.reg .place 0 (0x40 * p) = s.reg .place 0 (0x40 * p) ∧ t.regFld .place 0 (0x40 * p + 0x28) 0 1 = 1)

/-- R245, R260 to R266: TABLESET stores the four length tables of a set; MODEL_LOAD takes a free library entry and
starts; MODEL_UNLOAD of an image that nothing maps frees it; STREAM opens a job of a context and ends one. -/
def Obligations.LibraryAndStreams : Prop :=
  ∀ (s : State) (r : MReq),
    let c := r.num Key.context
    let p := (s.ctx c).part
    let stream := ruleOf true false false [(Key.context, true), (Key.action, true), (Key.list, false), (Key.nlayers, false),
      (Key.window, false), (Key.wrap, false), (Key.progress, false), (Key.job, false)]
    (Admitted s (ruleOf true false false ([(Key.part, true), (Key.tset, true), (Key.seedw, false)] ++
        (List.range 64).map fun i => (Key.tableWord + i, true))) r → (s.part (r.num Key.part)).st ≠ 0 →
      let ts := tablesOf ((List.range 64).flatMap fun i => toBytes 8 (r.num (Key.tableWord + i)))
      tablesOk ts = true → 4096 ≤ r.num Key.tset → s.setNamed (r.num Key.part) (r.num Key.tset) = false →
      s.storeSets < 16384 → ∃ t x, exec (.tableset r) s = .next t ∧ Answers s t r St.ok [] ∧
        t.tset (r.num Key.part) (r.num Key.tset) = some x ∧ x.lens = ts ∧ x.seeds = ((s.tset (r.num Key.part) (r.num Key.tset)).getD {}).seeds) ∧
    (∀ entry i h, Admitted s (ruleOf true false false [(Key.part, true), (Key.origin, true), (Key.tier, true),
        (Key.hostAddr, false), (Key.originSession, false), (Key.originDevice, false), (Key.exportable, false)]) r →
      s.loadOk r = true → s.takeEntry entry = some i → s.newHandle = some h →
      ∃ t, exec (.modelLoad r entry) s = .next t ∧ (t.longop h).kind = .modelLoad i (r.num Key.tier) ∧
        (mget ({} : Image) t.images i).part = r.num Key.part ∧ (mget ({} : Image) t.images i).origin = r.num Key.origin ∧
        let q := (s.session r.session).queue ++ [.manage r.reqId St.ok [(Key.handle, wn h)] [] false]
        (t.session r.session).queue.take q.length = q) ∧
    (∀ m, Admitted s (ruleOf true false false [(Key.image, true)]) r → mfind? s.images (r.num Key.image) = some m →
      r.session = 0 ∨ m.part = (s.session r.session).part → s.loading (r.num Key.image) = false →
      (∀ e ∈ m.pages, s.mappers e = []) → ∃ t, exec (.modelUnload r) s = .next t ∧ Answers s t r St.ok [] ∧
        mfind? t.images (r.num Key.image) = none ∧ ∀ e ∈ m.pages, mfind? t.placed e = none) ∧
    (∀ ls i, Admitted s stream r → r.num Key.action = 0 →
      (∀ k ∈ [Key.list, Key.nlayers, Key.window, Key.wrap, Key.progress], r.has k = true) →
      1 ≤ r.num Key.nlayers → r.num Key.nlayers ≤ 65535 → 2 ≤ r.num Key.window → r.num Key.window ≤ 8 →
      r.num Key.progress % 8 = 0 → s.wordAt none c (wn (r.num Key.progress)) ≠ none → s.layerRecords r = some ls →
      s.layersPlaced c ls = true → mfree (s.part p).jobs 16 0 = some i →
      ∃ t j, exec (.streamJobCreate r) s = .next t ∧ Answers s t r St.ok [(Key.job, wn i)] ∧
        mfind? (t.part p).jobs i = some j ∧ j.ctx = c ∧ j.layers = ls ∧ j.window = r.num Key.window ∧
        j.wrap = decide (r.num Key.wrap = 1) ∧ j.progress = wn (r.num Key.progress)) ∧
    ∀ j, Admitted s stream r → r.num Key.action = 1 → r.has Key.job = true →
      mfind? (s.part p).jobs (r.num Key.job) = some j → j.ctx = c →
      ∃ t, exec (.streamJobEnd r) s = .next t ∧ Answers s t r St.ok [] ∧ mfind? (t.part p).jobs (r.num Key.job) = none ∧
        (j.held.Nodup → ∀ e ∈ j.held, mhas s.placed e = true → (t.entry e).holds = (s.entry e).holds - 1)

/-! ### Clearing and testing a partition (R39, R296, R430, R431, R451) -/

/-- R39, R360, R430, R431, R451: SCRUB of a partition starts a long operation, answered with its handle, and the partition is
SCRUBBING; BIST of a partition that the life cycle permits starts one, and the partition is QUARANTINED; a PARTITION_RESET
of one partition without contexts starts its scrub with the new configuration. -/
def Obligations.PartitionsCleared : Prop :=
  ∀ (s : State) (r : MReq) (h p : Nat), s.newHandle = some h →
    let began (t : State) (n : Nat) : Prop := (t.longop h).st = .running ∧ (t.part p).st = n ∧
      let q := (s.session 0).queue ++ [.manage r.reqId St.ok [(Key.handle, wn h)] [] false]
      (t.session 0).queue.take q.length = q
    Quiet s →
    (Admitted s (ruleOf false false false [(Key.part, true)]) r → r.num Key.part = p → (s.part p).st = 1 ∨ (s.part p).st = 3 →
      s.bistOn p = false → ∃ t, exec (.scrub r) s = .next t ∧ began t 2 ∧ (t.longop h).kind = .scrub p none false ∧
        ∀ n, n ≠ 0 → (s.session n).part = p → t.sessionOpen n = false) ∧
    (Admitted s { service := true, keys := [(Key.part, false), (Key.chases, false), (Key.stackMask, false), (Key.algo, true),
        (Key.apply, false)] } r → r.has Key.part = true → r.has Key.chases = false → r.has Key.stackMask = false →
      r.num Key.part = p → (s.part p).st ≠ 0 → (s.part p).st ≠ 2 → s.bistAllowed r = true → s.bistOn p = false →
      ∃ t, exec (.bist r) s = .next t ∧ began t 3) ∧
    ∀ es, Admitted s { plain := false } r → r.items = (Key.part, wn p) :: es → p < 8 → (∀ e ∈ es, e.1 ≠ Key.part) →
      resetItemsOk (p, es) = true → (∀ e ∈ es, e.1 ≠ Key.spread) → (s.resetConf es).present = true →
      s.resetRefusal [(p, es)] ((upTo 8).map fun q => if q = p then s.resetConf es else s.confOf q)
        (s.regFld .hbm 0 0 8 8) = none →
      ∃ t, exec (.partitionReset r) s = .next t ∧ began t 2 ∧
        (t.longop h).kind = .scrub p (some (s.resetConf es)) false

/-! ### Taosh (R322 to R338, R359, R361, R362) -/

/-- R3, R326, R328 to R333: an open session sends a message that fits one segment with a credit and the next packet number; a lost
segment goes first and takes no credit; nothing goes while cwnd segments are in flight or no credit is left. An expiry of
the retransmission timer loses what is in flight, sets cwnd to 2 and doubles the timer up to 10 ms. cwnd follows the
fraction of marked packets. An acknowledgement raises the limit to the one it carries, and a segment that it does not
cover three numbers or more below the largest is lost, which halves cwnd. An acknowledgement owed is sent with
the limit W + processed segments. -/
def Obligations.TransportSends : Prop :=
  ∀ (s : State) (n : Nat), n < 1024 → (s.session n).st = .isOpen →
    let x := s.session n
    let others (t : State) : Prop := (∀ m, m ≠ n → t.session m = s.session m) ∧ t.mem = s.mem ∧ t.regs = s.regs
    let go (i : Instr) (P : State → Session → Prop) : Prop := ∃ t, exec i s = .next t ∧ others t ∧ P t (t.session n)
    (x.cwnd ≤ (x.flight.length : Rat) → exec (.segmentSend n) s = .next s) ∧
    (x.lost = [] → x.limit ≤ x.txNew → exec (.segmentSend n) s = .next s) ∧
    ((x.flight.length : Rat) < x.cwnd →
      (∀ g rest, x.lost = g :: rest → go (.segmentSend n) fun t y => y.lost = rest ∧ y.txNew = x.txNew ∧
        y.queue = x.queue ∧ y.flight = x.flight ++ [{ g with pn := x.txPn }] ∧ y.txPn = (x.txPn + 1) % 2 ^ 32 ∧
        t.out = .segment (x.headOf n { g with pn := x.txPn }) (packetBytes x (x.headOf n g) g.payload) :: s.out) ∧
      (∀ m rest, x.lost = [] → x.txNew < x.limit → x.queue = m :: rest → x.cut = none →
        let len := msgLen m + if s.sealedSession n then 32 else 0
        len ≤ x.mss → go (.segmentSend n) fun t y => y.lost = [] ∧ y.txNew = x.txNew + 1 ∧ y.queue = rest ∧
          y.txMsn = (x.txMsn + 1) % 2 ^ 32 ∧ y.txPn = (x.txPn + 1) % 2 ^ 32 ∧
          ∃ g : SentSeg, y.flight = x.flight ++ [g] ∧ g.pn = x.txPn ∧ g.msn = x.txMsn ∧ g.off = 0 ∧ g.len = len ∧
            g.mlen = len ∧ g.cls = m.cls ∧ g.last = true ∧ g.sealed = s.sealedSession n ∧
            (s.sealedSession n = false → g.payload = m.body.take len) ∧
            t.out = .taosh n m :: .segment (x.headOf n g) (packetBytes x (x.headOf n g) g.payload) :: s.out)) ∧
    (go (.retransmitTimeout n) fun t y => y.flight = [] ∧ y.lost = x.lost ++ x.flight ∧ y.cwnd = 2 ∧
      y.rtoUs = min 10000 (2 * max 1 x.rtoUs) ∧ y.txNew = x.txNew ∧ t.out = s.out) ∧
    (∀ acked marked, 0 < acked → marked ≤ acked → go (.cwndUpdate n acked marked) fun t y =>
      y.alpha = 15 / 16 * x.alpha + 1 / 16 * ((marked : Rat) / acked) ∧ t.out = s.out ∧
      (marked = 0 → y.cwnd = min 512 (x.cwnd + 1)) ∧ (0 < marked → y.cwnd = max 2 (x.cwnd * (1 - y.alpha / 2)))) ∧
    (∀ pn a, let rest := x.flight.filter (fun g => !ackCovers a g.pn)
      let credit := (a.creditLimit.toNat + 2 ^ 32 - x.limit % 2 ^ 32) % 2 ^ 32
      go (.ack n pn a) fun t y => y.flight = rest.filter (fun g => !ackPasses a g.pn) ∧
        y.lost = x.lost ++ rest.filter (fun g => ackPasses a g.pn) ∧ y.txNew = x.txNew ∧
        (y.lost = x.lost → y.cwnd = x.cwnd) ∧ (y.lost ≠ x.lost → x.halved = false → y.cwnd = max 2 (x.cwnd / 2)) ∧
        (credit < 2 ^ 31 → y.limit = x.limit + credit) ∧ (2 ^ 31 ≤ credit → y.limit = x.limit) ∧ t.out = s.out) ∧
    (x.unacked = 0 → exec (.ackTimer n) s = .next s) ∧
    (x.unacked ≠ 0 → go (.ackTimer n) fun t y => y.unacked = 0 ∧ y.rxLimit = x.w + x.rxDone ∧
      y.txPn = (x.txPn + 1) % 2 ^ 32 ∧ ∃ (a : AckBody) (h : SegHead), t.out = .ackPacket n a (packetBytes x h (ackBytes a)) :: s.out ∧
        h.cls = 0 ∧ h.session = n ∧ h.pn = x.txPn ∧ h.len = 64 ∧ a.creditLimit = BitVec.ofNat 32 (x.w + x.rxDone) ∧ a.ceCount = x.rxCe)

/-- R326 to R331, R338: a segment for no open session is counted and dropped, one whose tag fails is counted, a duplicate
changes nothing but what an acknowledgement will say, and one beyond the limit is counted and not stored; the payload of each
that is authentic is counted. A packet number that reaches 2^31 starts a key update. A message of one
segment that is next in order is processed, and its segment's credit returns; shown on a PULL whose operation is not a
response, which has no effect (log 45), with the acknowledgement not yet due. -/
def Obligations.SegmentsReceived : Prop :=
  ∀ (s : State) (g : Segment), g.cls ≠ 0 → g.cls ≠ 8 →
    let n := g.session
    let x := s.session n
    let go (good : Bool) (P : State → Session → Prop) : Prop :=
      ∃ t, exec (.segmentReceive g good) s = .next t ∧ t.mem = s.mem ∧ P t (t.session n)
    let cnt (lo : Nat) : Nat := (s.regFld .taosh 0 8 lo 16 + 1) % 2 ^ 16
    let counted (t : State) : Prop := t.rxBytes = s.rxBytes + g.payload.length
    (segmentOk g = false ∨ (s.session n).st ≠ .isOpen → ∀ good, go good fun t _ =>
      t.regFld .taosh 0 8 48 16 = cnt 48 ∧ { t with regs := s.regs } = s) ∧
    (segmentOk g = true → (s.session n).st = .isOpen →
      (x.authFails + 1 < 2 ^ 20 → go false fun t y => t.regFld .taosh 0 8 16 16 = cnt 16 ∧ y.authFails = x.authFails + 1 ∧
        { t with regs := s.regs, sessions := s.sessions } = s) ∧
      (g.phase = x.phase → 2 ^ 31 ≤ g.pn → (∀ q ∈ x.rxPns, q < 2 ^ 31) → x.unacked + 1 < s.ackEvery → x.holds g = true →
        go true fun _ y => y.phase = !x.phase ∧ y.oldKeys = some x.keys ∧ y.keys = x.update.keys) ∧
      (g.phase = x.phase → g.pn < 2 ^ 31 ∨ (∃ q ∈ x.rxPns, 2 ^ 31 ≤ q) → x.unacked + 1 < s.ackEvery →
        (x.holds g = true → go true fun t y => y = { x with
          rxPns := if g.pn ∈ x.rxPns then x.rxPns else g.pn :: x.rxPns, rxCe := if g.ce then x.rxCe + 1 else x.rxCe
          unacked := x.unacked + 1 } ∧ counted t ∧ { t with sessions := s.sessions, rxBytes := s.rxBytes } = s) ∧
        (x.holds g = false → x.rxLimit ≤ x.rxSegs → go true fun t y => y.rx = x.rx ∧ y.rxSegs = x.rxSegs ∧
          y.rxDone = x.rxDone ∧ t.regFld .taosh 0 8 32 16 = cnt 32 ∧ counted t ∧
          { t with regs := s.regs, sessions := s.sessions, rxBytes := s.rxBytes } = s) ∧
        (x.rxSegs < x.rxLimit → x.rx = [] → g.msn = x.rxMsn → g.msn < 2 ^ 32 → g.cls = 5 → g.offset = 0 →
          g.sealed = false → g.payload.length = g.mlen → s.sealedSession n = false → num g.payload 4 2 ≠ 1 →
          go true fun t y => y.rx = [] ∧ y.rxMsn = (x.rxMsn + 1) % 2 ^ 32 ∧ y.rxSegs = x.rxSegs + 1 ∧
            y.rxDone = x.rxDone + 1 ∧ counted t ∧ { t with sessions := s.sessions, rxBytes := s.rxBytes } = s)))

/-- R334 to R338, R406, R429: HELLO_1 is answered with HELLO_2, a repeated one with the same HELLO_2, a refused one with its
status. HELLO_3 that proves the host opens the session with the handshake's keys, W credits in each direction and cwnd 16;
one that does not leaves no state and is refused with AUTH_FAIL. A timeout drops an unfinished handshake. A key update flips
the phase, keeps the old keys until they expire, and derives the new ones from the update secret. -/
def Obligations.SessionsOpen : Prop :=
  ∀ (s : State) (n : Nat), n < 1024 →
    let x := s.session n
    let go (i : Instr) (P : State → Session → Prop) : Prop := ∃ t, exec i s = .next t ∧ t.mem = s.mem ∧
      (∀ m, m ≠ n → m ≠ 0 → t.session m = s.session m) ∧ P t (t.session n)
    (∀ h : Hello1, h.session = n →
      (helloDiscarded h = true → exec (.hello1 h) s = .next s) ∧
      (helloDiscarded h = false →
        (∀ st, s.helloRefusal h = some st →
          exec (.hello1 h) s = .next { s with
            out := .udpRefusal n st (refusalBytes n 0 st) :: s.out
            txBytes := s.txBytes + 16, rxBytes := s.rxBytes + (helloBytes h).length }) ∧
        (s.helloRefusal h = none →
          (∀ p, x.pend = some p → p.hello1 = helloBytes h → go (.hello1 h) fun t y =>
            t.out = .flight n p.hello2 (flightBytes n 0 p.sent p.hello2) :: s.out ∧ y.st = x.st ∧ t.sec = s.sec) ∧
          (x.pend = none → go (.hello1 h) fun t y => ∃ p : Hand, y = { x with pend := some p } ∧ p.hello1 = helloBytes h ∧
            p.mss = h.mss ∧ p.w = h.w ∧ p.protect = h.protect ∧ p.ticket = h.ticket ∧
            p.keys = helloKeys p.hello1 p.hello2
              (Config.x25519 h.x25519 s.sec.draws ++ Config.mlkem h.mlkem s.sec.draws ++
                match s.ticketOf h.ticket with
                | some k => if n = 0 then List.replicate 32 0 else k.secret
                | none => List.replicate 32 0) ∧
            t.out = .flight n p.hello2 (flightBytes n 0 0 p.hello2) :: s.out)))) ∧
    (∀ fin ed ml p, x.pend = some p → x.st = .closed →
      (s.hello3Ok n p fin ed ml = true → go (.hello3 n fin ed ml) fun _ y => y.st = .isOpen ∧ y.pend = none ∧
        y.keys = p.keys ∧ y.mss = p.mss ∧ y.w = p.w ∧ y.limit = p.w ∧ y.rxLimit = p.w ∧ y.cwnd = 16 ∧ y.ticket = p.ticket ∧
        y.protect = p.protect ∧ y.txNew = 0 ∧ y.rxSegs = 0) ∧
      (s.hello3Ok n p fin ed ml = false → go (.hello3 n fin ed ml) fun t y => y = { x with pend := none } ∧
        t.out = .udpRefusal n St.authFail (refusalBytes n (p.sent % 2 ^ 32) St.authFail) :: s.out)) ∧
    (go (.helloTimeout n) fun t y => y = { x with pend := none } ∧ { t with sessions := s.sessions } = s) ∧
    (x.st = .isOpen → go (.keyUpdate n) fun t y => y.phase = !x.phase ∧ y.oldKeys = some x.keys ∧
      y.keys.h2d = Config.hkdfExpand x.keys.update (label "taosh h2d key") 32 ∧
      y.keys.d2h = Config.hkdfExpand x.keys.update (label "taosh d2h key") 32 ∧
      y.keys.h2dIv = Config.hkdfExpand x.keys.update (label "taosh h2d iv") 12 ∧
      y.keys.d2hIv = Config.hkdfExpand x.keys.update (label "taosh d2h iv") 12 ∧
      y.keys.update = Config.hkdfExpand x.keys.update (label "taosh update") 48 ∧
      { t with sessions := s.sessions } = s) ∧
    (go (.oldKeyExpiry n) fun t y => y = { x with oldKeys := none } ∧ { t with sessions := s.sessions } = s)

/-- R325, R333, R334, R359, R406: a session that fails or is closed is closed, its keys are gone, no queue is bound to it;
CLOSE is answered first. A ticket is issued under the lowest free number with 32 bytes of the DRBG; one revoked is gone
with the sessions opened by it. NET_CONFIG that changes an address or the port closes every session. -/
def Obligations.SessionsEnd : Prop :=
  ∀ (s : State), Quiet s →
    let closed (t : State) (n : Nat) : Prop := (t.session n).st = .closed ∧ (t.session n).keys = {} ∧
      ∀ e ∈ t.queues, e.2.session ≠ some n
    (∀ n, n < 1024 → (s.session n).st = .isOpen → ∃ t, exec (.sessionFail n) s = .next t ∧ closed t n ∧ t.mem = s.mem ∧
      t.out = s.out ∧ ∀ m, m ≠ n → t.session m = s.session m) ∧
    (∀ r, Admitted s { all := true } r → ∃ t, exec (.close r) s = .next t ∧ closed t r.session ∧ t.mem = s.mem ∧
      t.out = .taosh r.session (.manage r.reqId St.ok [] [] false) :: s.out ∧
      ∀ m, m ≠ r.session → t.session m = s.session m) ∧
    (∀ r i, Admitted s (ruleOf false false false [(Key.part, true), (Key.minProtect, true)]) r →
      (s.part (r.num Key.part)).st ≠ 0 → mfree s.tickets (2 ^ 32) 1 = some i →
      let secret := Config.drbg s.sec.draws 32
      Responds (.ticketIssue r) s
        { s with tickets := mput s.tickets i
                   { id := wn i, secret, part := r.num Key.part, minProtect := r.num Key.minProtect }
                 sec := { s.sec with draws := s.sec.draws + 1 } }
        r St.ok ((Key.ticketId, wn i) :: (List.range 4).map fun k => (Key.secret + k, wn (ofBytes (slice secret (8 * k) 8))))) ∧
    (∀ r i k, Admitted s (ruleOf false false false [(Key.ticketId, true)]) r →
      s.tickets.find? (fun e => e.2.id == wn (r.num Key.ticketId)) = some (i, k) →
      ∃ t, exec (.ticketRevoke r) s = .next t ∧ mfind? t.tickets i = none ∧ Answers s t r St.ok [] ∧ t.mem = s.mem ∧
        ∀ n, n ≠ 0 → (s.session n).ticket = wn (r.num Key.ticketId) → (t.session n).st = .closed) ∧
    ∀ r, Admitted s (ruleOf false false false
        [(Key.ipv4, false), (Key.ipv6Hi, false), (Key.ipv6Lo, false), (Key.udpPort, false)]) r →
      r.has Key.ipv6Hi = r.has Key.ipv6Lo → ∃ t, exec (.netConfig r) s = .next t ∧ t.mem = s.mem ∧
        t.flash.ipv4 = BitVec.ofNat 32 (r.num Key.ipv4 s.flash.ipv4.toNat) ∧
        t.flash.port = r.num Key.udpPort s.flash.port ∧
        (t.flash ≠ s.flash → ∀ n < 1024, (t.session n).st = .closed) ∧
        (t.flash = s.flash → Answers s t r St.ok [] ∧ t.out = s.out)

/-- R322 to R325, R359, R361, R362, R469: the link's field and its flaps; fallback tries codes 1 and 2 and 0 again; the
device answers for its addresses and counts what it discards, but for PAUSE and tagged frames; ECHO returns its body; the port's
loop-back runs and answers with the final LOOP_CTL; TAOSH.CC_CFG takes a write only where its fields are in range. -/
def Obligations.PortAndEcho : Prop :=
  ∀ (s : State),
    let drops (i : Instr) : Prop := ∃ t, exec i s = .next t ∧ { t with regs := s.regs } = s ∧
      t.regFld .taosh 0 8 48 16 = (s.regFld .taosh 0 8 48 16 + 1) % 2 ^ 16
    let ports (i : Instr) (P : State → Prop) : Prop := ∃ t, exec i s = .next t ∧ { t with regs := s.regs } = s ∧ P t
    (ports (.portLinkChange true) fun t => t.regFld .eth 0 8 0 1 = 1 ∧ t.regFld .eth 0 8 32 16 = s.regFld .eth 0 8 32 16 ∧
      (s.regFld .eth 0 0 50 1 = 0 → t.regFld .eth 0 8 1 2 = s.regFld .eth 0 0 48 2)) ∧
    (ports (.portLinkChange false) fun t => t.regFld .eth 0 8 0 1 = 0 ∧
      t.regFld .eth 0 8 32 16 = (s.regFld .eth 0 8 32 16 + s.regFld .eth 0 8 0 1) % 2 ^ 16) ∧
    (ports .portFallback fun t =>
      (s.regFld .eth 0 0 50 1 = 1 → s.regFld .eth 0 0 48 2 = 0 → s.regFld .eth 0 8 0 1 = 0 →
        t.regFld .eth 0 8 1 2 = (s.regFld .eth 0 8 1 2 + 1) % 3) ∧
      (s.regFld .eth 0 0 50 1 = 0 ∨ s.regFld .eth 0 0 48 2 ≠ 0 ∨ s.regFld .eth 0 8 0 1 = 1 → t = s)) ∧
    (∀ q, let mine : Prop := match q with
        | .arp ip => s.flash.ipv4 ≠ 0 ∧ ip = s.flash.ipv4
        | .nd ip => ip = s.ipv6
        | .echo4 _ _ => True
        | .echo6 _ _ => True
      (mine → exec (.neighborRequest q) s = .next { s with out := .neighbor q :: s.out }) ∧
      (¬mine → drops (.neighborRequest q))) ∧
    exec (.packetDiscard .pauseOrTagged) s = .next s ∧ drops (.packetDiscard .notTaosh) ∧ drops (.packetDiscard .badHeader) ∧
    (∀ r body, Admitted s { all := true, plain := false } r → body.length ≤ 8192 → ∃ t, exec (.echo r body) s = .next t ∧
      (t.session r.session).queue = (s.session r.session).queue ++ [.manage r.reqId St.ok [] body false] ∧
      { t with sessions := s.sessions } = s) ∧
    (∀ r v, Admitted s { service := true, keys := [(Key.interface, true), (Key.loop, true)] } r →
      r.num Key.interface = 0 → r.item? Key.loop = some v → s.regFld .eth 0 0x10 4 1 = 0 →
      (s.ethLoopDenied = true → Responds (.ethLoopbackStart r) s s r St.bistDenied []) ∧
      (s.ethLoopDenied = false → 1 ≤ fld v 31 16 → fld v 31 16 ≤ 60000 → ∃ t, exec (.ethLoopbackStart r) s = .next t ∧
        t.regFld .eth 0 0x10 4 1 = 1 ∧ t.regFld .eth 0 0x10 5 2 = 0 ∧ t.regFld .eth 0 0x10 16 16 = fld v 31 16 ∧
        mfind? t.loopReqs 0 = some (r.session, r.reqId) ∧ t.sessions = s.sessions)) ∧
    (∀ errors n id, s.regFld .eth 0 0x10 4 1 = 1 → mfind? s.loopReqs 0 = some (n, id) → s.sessionOpen n = true →
      ∃ t, exec (.ethLoopbackEnd errors) s = .next t ∧ t.regFld .eth 0 0x10 4 1 = 0 ∧
        t.regFld .eth 0 0x10 5 1 = 1 ∧ t.regFld .eth 0 0x10 6 1 = (if errors = 0 then 1 else 0) ∧
        t.regFld .eth 0 0x10 32 32 = errors.toNat ∧ mfind? t.loopReqs 0 = none ∧
        (t.session n).queue = (s.session n).queue ++ [.manage id St.ok [(Key.loop, t.reg .eth 0 0x10)] [] false]) ∧
    ∀ path v, path ≠ .i3c →
      let pace := fld v 6 0
      let every := fld v 12 8
      let bad : Prop := pace < 50 ∨ 100 < pace ∨ every < 1 ∨ 16 < every ∨ fld v 31 16 = 0 ∨ fld v 47 32 = 0 ∨ fld v 63 48 = 0
      (¬bad → ports (.taoshCcCfgWrite path v) fun t =>
        t.regFld .taosh 0 0 0 7 = fld v 6 0 ∧ t.regFld .taosh 0 0 8 5 = fld v 12 8 ∧ t.regFld .taosh 0 0 16 16 = fld v 31 16 ∧
        t.regFld .taosh 0 0 32 16 = fld v 47 32 ∧ t.regFld .taosh 0 0 48 16 = fld v 63 48) ∧
      (bad → ∃ t, exec (.taoshCcCfgWrite path v) s = .next t ∧ t.reg .taosh 0 0 = s.reg .taosh 0 0 ∧
        t.regFld .taosh 0 8 0 1 = 1)

/-! ### Queues, buffers and host windows (R339 to R354) -/

/-- The command puts one message last on the send queue of an open session and does nothing else. -/
def SendsTo (i : Instr) (s : State) (n : Nat) (m : Msg) : Prop :=
  ∃ t, exec i s = .next t ∧ (t.session n).queue = (s.session n).queue ++ [m] ∧
    (∀ k, k ≠ n → t.session k = s.session k) ∧ { t with sessions := s.sessions } = s

/-- R339 to R341: QUEUE_CREATE takes the lowest free queue for its session; QUEUE_DESTROY frees an empty one; QUEUE_BIND binds
a queue to another session of its partition, which is sent the records held. An accepted descriptor becomes the last take of
its queue with the fields of R341; one that finds the queue full is refused with QUEUE_FULL, and any refused descriptor is
reported by a record with its status and TAKE_SEQ of all ones. -/
def Obligations.QueuesAndTakes : Prop :=
  ∀ (s : State),
    (∀ r q, Admitted s (ruleOf true false false [(Key.context, true), (Key.depth, true)]) r →
      mfree s.queues 4096 0 = some q →
      let c := r.num Key.context
      Responds (.queueCreate r) s { s with queues := mput s.queues q { ctx := c, part := (s.ctx c).part, session := some r.session, depth := r.num Key.depth } }
        r St.ok [(Key.queue, wn q)]) ∧
    (∀ r, Admitted s (ruleOf true false false [(Key.queue, true)]) r → let q := r.num Key.queue
      let x := mget ({} : CmdQueue) s.queues q
      (x.takes = [] → x.records = [] → Responds (.queueDestroy r) s { s with queues := mdel s.queues q } r St.ok []) ∧
      (x.takes ≠ [] → Responds (.queueDestroy r) s s r St.opState [])) ∧
    (∀ r, Admitted s (ruleOf true false false [(Key.queue, true), (Key.session, true)]) r →
      let q := r.num Key.queue
      let n := r.num Key.session
      let x := mget ({} : CmdQueue) s.queues q
      (s.ctx x.ctx).events = [] → (s.ctx x.ctx).heldLongs = [] → s.sessionOpen n = true →
      (s.sessionMay n x.part = true → n ≠ r.session → (s.session n).queue = [] → (s.session n).cut = none →
        x.records.length ≤ 128 → ∃ t, exec (.queueBind r) s = .next t ∧ Answers s t r St.ok [] ∧
          mget ({} : CmdQueue) t.queues q = { x with session := some n, records := [] } ∧
          (t.session n).queue = if x.records = [] then [] else [.complete x.records]) ∧
      (s.sessionMay n x.part = false → Responds (.queueBind r) s s r St.descriptorInvalid [])) ∧
    ∀ n q w, n < 1024 → s.sessionOpen n = true →
      let d := cmdDesc w
      let x := mget ({} : CmdQueue) s.queues q
      let k := s.nextTake
      (∀ ds win, s.checkDesc n q w = .ok (ds, win) → (∀ wr, win = some wr → windowOk wr ds = true) →
        ∃ t e, exec (.submit n q true [w]) s = .next t ∧ mfind? t.takes k = some e ∧ t.nextTake = k + 1 ∧
          t.sessions = s.sessions ∧ t.mem = s.mem ∧
          mget ({} : CmdQueue) t.queues q = { x with takes := x.takes ++ [k], next := (x.next + 1) % 2 ^ 32 } ∧
          e.queue = q ∧ e.seq = x.next ∧ e.ctx = x.ctx ∧ e.st = .queued ∧ e.forme = d.forme ∧ e.entry = d.entry ∧
          e.arg = d.arg ∧ e.user = d.user ∧ e.granule = d.granule ∧ e.marker = decide (d.op = 2) ∧
          e.waitPrev = d.waitPrev ∧ e.descs = ds ∧ e.window = win ∧
          e.fence = (if d.fenceEn then some (d.buf, d.gen) else none)) ∧
      (∀ m, mhas s.queues q = true → s.sessionMay n x.part = true → x.session = some m → s.sessionOpen m = true →
        (s.session m).queue = [] → ∀ st, (s.checkDesc n q w = .error st → ∃ t c, exec (.submit n q true [w]) s = .next t ∧
          (t.session m).queue = [.complete [c]] ∧ c.status = st ∧ c.seq = 0xFFFFFFFF ∧ c.user = d.user ∧ c.queue = q ∧
          c.ctx = x.ctx ∧ t.takes = s.takes ∧ t.queues = s.queues) ∧
        (x.depth ≤ x.takes.length → s.checkDesc n q w = .error St.queueFull))

/-- Bytes `len` of context memory at `va` lie in plain local memory from `pa` on, none marked uncorrectable or sealed. -/
structure PlainSpan (s : State) (c : Nat) (k : Kind) (va : W64) (pa len : Nat) : Prop where
  place : ∀ i < len, s.resolve c k (va + wn i) = .ok (.mem (pa + i))
  inDevice : pa + len ≤ 2 ^ 48
  good : ∀ i < len, s.isBad (pa + i) 1 = false
  unsealed : k = .wr → ∀ i < len, s.sealedKey (pa + i) = false

/-- R346, R349, R350, R353: a buffer is registered with generation 0 and unsealed, its number being free, and unregistered
while it is not sealed. READ_BUF answers NOT_READY below the generation asked for, the bytes while sealed, and
BUFFER_RELEASED otherwise; RELEASE of the generation unseals it and raises the WAKE word by 1. READ_MEM answers the bytes as
they stand; WRITE_MEM writes its bytes and no others, and refuses a range with a sealed byte. -/
def Obligations.BuffersAndHostAccess : Prop :=
  ∀ (s : State) (n : Nat) (id : W32), n < 1024 → s.sessionOpen n = true →
    let flows (write : Bool) (pa len : Nat) : Prop := ∀ i < len, s.waits none (.mem (pa + i)) 1 write = false
    (∀ r, Admitted s (ruleOf true false false
        [(Key.buf, true), (Key.context, true), (Key.vaddr, true), (Key.length, true), (Key.wake, false)]) r →
      let c := r.num Key.context
      let va := r.num Key.vaddr
      let len := r.num Key.length
      (mhas s.buffers (r.num Key.buf) = false → va % 64 = 0 → va < 2 ^ 48 → 64 ≤ len → len ≤ 0x4000000 → len % 64 = 0 →
        s.plainRange c va len = true → r.num Key.wake = 0 → Responds (.bufRegister r) s
          { s with buffers := mput s.buffers (r.num Key.buf) { ctx := c, base := va, len, gen := 0, sealed := false } } r St.ok []) ∧
      (mhas s.buffers (r.num Key.buf) = true ∨ va % 64 ≠ 0 ∨ len < 64 ∨ 0x4000000 < len ∨ len % 64 ≠ 0 ∨
          s.plainRange c va len = false → Responds (.bufRegister r) s s r St.descriptorInvalid [])) ∧
    (∀ r x, Admitted s (ruleOf true false false [(Key.buf, true)]) r → mfind? s.buffers (r.num Key.buf) = some x →
      r.session = 0 ∨ s.bufferMay r.session (r.num Key.buf) = true →
      (x.sealed = true → Responds (.bufUnregister r) s s r St.opState []) ∧
      (x.sealed = false → Responds (.bufUnregister r) s { s with buffers := mdel s.buffers (r.num Key.buf) } r St.ok [])) ∧
    (∀ b x, mfind? s.buffers b = some x → s.bufferMay n b = true →
      (∀ gen off len, 1 ≤ len → len ≤ 0x1000000 → off + len ≤ x.len →
        (x.gen < gen → SendsTo (.readBuf n id b gen off len) s n (.readResp id St.notReady x.gen [])) ∧
        (gen ≤ x.gen → x.sealed = false →
          SendsTo (.readBuf n id b gen off len) s n (.readResp id St.bufferReleased x.gen [])) ∧
        (∀ pa, gen ≤ x.gen → x.sealed = true → PlainSpan s x.ctx .rd (wn (x.base + off)) pa len →
          SendsTo (.readBuf n id b gen off len) s n (.readResp id St.ok x.gen (cells s.mem pa len)))) ∧
      (x.sealed = false → ∀ gen, SendsTo (.release n id b gen) s n (.readResp id St.bufferReleased x.gen [])) ∧
      (Quiet s → x.sealed = true → ∀ pa, x.wake ≠ 0 → s.resolve x.ctx .wr x.wake = .ok (.mem pa) → pa + 8 ≤ 2 ^ 48 →
        ∃ t, exec (.release n id b x.gen) s = .next t ∧ mfind? t.buffers b = some { x with sealed := false } ∧
          (∀ j < 8, cell t.mem (pa + j) = (BitVec.ofNat 64 (ofBytes (cells s.mem pa 8)) + 1).extractLsb' (8 * j) 8) ∧
          (∀ a, a < pa ∨ pa + 8 ≤ a → cell t.mem a = cell s.mem a) ∧
          (t.session n).queue = (s.session n).queue ++ [.readResp id St.ok x.gen []])) ∧
    ∀ c (va : W64), c < 4096 → (s.ctx c).st = .active → s.sessionMay n (s.ctx c).part = true →
      Quiet s →
      (∀ pa len, 1 ≤ len → len ≤ 0x1000000 → PlainSpan s c .rd va pa len → flows false pa len →
        SendsTo (.readMem n id c va.toNat len) s n (.readResp id St.ok 0 (cells s.mem pa len))) ∧
      ∀ bs pa, 1 ≤ bs.length → bs.length ≤ 0x1000000 →
        (PlainSpan s c .wr va pa bs.length → flows true pa bs.length → ∃ t, exec (.writeMem n id c va.toNat bs) s = .next t ∧
          (∀ i < bs.length, cell t.mem (pa + i) = nth 0 bs i) ∧
          (∀ a, a < pa ∨ pa + bs.length ≤ a → cell t.mem a = cell s.mem a) ∧
          (t.session n).queue = (s.session n).queue ++ [.writeAck id St.ok]) ∧
        ((∀ i < bs.length, s.resolve c .wr (va + wn i) = .ok (.mem (pa + i))) →
          (∃ i < bs.length, s.sealedKey (pa + i) = true) →
          SendsTo (.writeMem n id c va.toNat bs) s n (.writeAck id St.descriptorInvalid))

/-- R352, R354, R98: HOSTWIN_MAP of unmapped pages maps them, readable and writable (log 69), to a new window of the host's. The
data of a PULL that a load waits for reaches its register; the acknowledgement of a store ends it; a PULL or write that
fails starts the teardown of its context with PULL_FAILED (for a write, the reading of log 39). With one request outstanding.
R357: of a bounce window the data are the records of its blocks, which must open; a store that leaves part of a block then
writes them (the course of log 108). -/
def Obligations.HostWindows : Prop :=
  ∀ (s : State),
    (∀ r w g, Admitted s (ruleOf true false false
        [(Key.context, true), (Key.vaddr, true), (Key.length, true), (Key.hostAddr, true)]) r →
      let c := r.num Key.context
      let k := r.num Key.vaddr / 0x200000
      r.num Key.vaddr = k * 0x200000 → r.num Key.length = g * 0x200000 → 1 ≤ g →
      r.num Key.vaddr + r.num Key.length ≤ serviceBase → (∀ i < g, (s.ctx c).touched true (k + i) = false) →
      ((s.part (s.ctx c).part).conf = false ∨ r.session ≠ 0) → mfree s.hostwins (2 ^ 32) 0 = some w →
      ∃ t h, exec (.hostwinMap r) s = .next t ∧ Answers s t r St.ok [] ∧ t.mem = s.mem ∧ mfind? t.hostwins w = some h ∧
        h.ctx = c ∧ h.session = r.session ∧ h.addr = r.num Key.hostAddr ∧ h.len = r.num Key.length ∧
        (∀ i < g, (t.ctx c).entryOf true (k + i) =
          some { rd := true, wr := true, ex := false, tgt := .host w (i * 0x200000) }) ∧
        (∀ j, j < k ∨ k + g ≤ j → (t.ctx c).entryOf true j = (s.ctx c).entryOf true j) ∧
        ∀ d, d ≠ c → t.ctx d = s.ctx d) ∧
    ∀ (id : W32) (q : Request) (n m : Nat), n < 128 → m < 1024 → s.sessionOpen m = true →
      s.requests = [(id.toNat, q)] → Quiet { s with requests := [] } → q.session = some m → q.failed = none →
      (s.ctx q.ctx).st = .active → (s.press n).run = some q.ctx →
      let fails (i : Instr) : Prop := ∃ t, exec i s = .next t ∧ (t.ctx q.ctx).st = .teardown ∧
        (t.ctx q.ctx).endStatus = St.pullFailed ∧ t.requests = []
      (∀ rd size signed, q.kind = 3 → q.cause = .load n rd size signed → rd ≠ 0 → q.len = size → q.merge = none →
        let lands (bs d : List Byte) : Prop := ∃ t, exec (.pullResp m id St.ok bs) s = .next t ∧ t.requests = [] ∧
          (t.ctx q.ctx).remoteOut = (s.ctx q.ctx).remoteOut - 1 ∧ t.mem = s.mem ∧
          (t.pc n) = (s.pc n).setX rd (if signed then (BitVec.ofNat (8 * size) (ofBytes d)).signExtend 64
            else BitVec.ofNat 64 (ofBytes d % 2 ^ (8 * size)))
        (q.bounce = none → (∀ bs, bs.length = size → lands bs bs) ∧
          ∀ st bs, st ≠ St.ok ∨ bs.length ≠ size → fails (.pullResp m id st bs)) ∧
        ∀ w off, q.bounce = some (w, off) →
          let h := mget ({} : HostWin) s.hostwins w
          let k := blockSpan off size
          (∀ st bs, st ≠ St.ok ∨ bs.length ≠ recordSize * k.2 → fails (.pullResp m id st bs)) ∧
          ∀ bs, bs.length = recordSize * k.2 → match openBlocks (s.session h.session).keys h.session k.1 k.2 bs with
            | none => fails (.pullResp m id St.ok bs)
            | some ps => lands bs (slice ps (off % blockSize) size)) ∧
      (∀ w off d, q.kind = 3 → q.cause = .store n → q.bounce = some (w, off) → q.merge = some d →
        let h := mget ({} : HostWin) s.hostwins w
        let k := blockSpan off q.len
        h.session = m → ∀ bs, bs.length = recordSize * k.2 → match openBlocks (s.session m).keys m k.1 k.2 bs with
          | none => fails (.pullResp m id St.ok bs)
          | some ps => ∃ t, exec (.pullResp m id St.ok bs) s = .next t ∧ t.requests = [(id.toNat, { q with kind := 4 })] ∧
            t.mem = s.mem ∧ (t.session m).queue = (s.session m).queue ++ [.writeHost id (h.addr + recordSize * k.1)
              (sealBlocks (s.session m).keys m (s.session m).txRseq k.1 k.2 (s.withWrites w (blockSize * k.1) ps))]) ∧
      (q.kind = 4 → q.cause = .store n →
        (∃ t, exec (.writeAck m id St.ok) s = .next t ∧ t.requests = [] ∧ t.mem = s.mem ∧ t.presses = s.presses ∧
          (t.ctx q.ctx).remoteOut = (s.ctx q.ctx).remoteOut - 1) ∧
        ∀ st, st ≠ St.ok → fails (.writeAck m id st))

/-! ### Images, tokens, start-up (R411 to R456) -/

/-- R414 to R419, R425, R426: the colophon is 4,272 bytes with its magic number and the nonce at byte 32. FW_STAGE of a loadable kind
empties the slot that is not active and starts a long operation; FW_ACTIVATE marks a staged slot active for the next start;
both refuse G with LIFECYCLE_DENIED outside MANUFACTURE and RETURNED. An SVN commit raises SVN_MIN to the SVN that runs, in
DEPLOYED and not above the golden image's. PROVISION of blank fuses in MANUFACTURE writes the owner's digests. -/
def Obligations.ImagesAndColophon : Prop :=
  ∀ (s : State) (r : MReq),
    let k := r.num Key.kind
    let x := s.sec
    let closed : Prop := x.fuses.lifecycle ≠ 0 ∧ x.fuses.lifecycle ≠ 3
    let activate : OpRule := { service := true, restricted := true, keys := [(Key.kind, true), (Key.svnCommit, false)] }
    (∀ nonce, Admitted s { service := true, restricted := true, plain := false } r →
      (nonce.length = 32 → (∃ bs, SendsTo (.colophon r nonce) s r.session (.manage r.reqId St.ok [] bs false) ∧
        bs.length = 4272 ∧ bs.take 4 = toBytes 4 0x4F43485A ∧ (bs.drop 32).take 32 = nonce)) ∧
      (nonce.length ≠ 32 → Responds (.colophon r nonce) s s r St.descriptorInvalid [])) ∧
    (∀ img, Admitted s (ruleOf false true true [(Key.kind, true)]) r → k ≠ 15 →
      (closed → Responds (.fwStage r 2 img) s s r St.lifecycleDenied []) ∧
      ∀ h, s.newHandle = some h → ∃ t, exec (.fwStage r 0 img) s = .next t ∧ (t.longop h).st = .running ∧
        mfind? t.sec.slots (4 * k + x.otherSlot k) = none ∧ t.sec.active = x.active ∧ t.sec.running = x.running ∧
        t.mem = s.mem ∧ (t.session r.session).queue =
          (s.session r.session).queue ++ [.manage r.reqId St.ok [(Key.handle, wn h)] [] false]) ∧
    (Admitted s activate r → k ≠ 15 →
      (r.num Key.svnCommit ≠ 1 →
        (closed → Responds (.fwActivate r 2) s s r St.lifecycleDenied []) ∧
        (mhas x.slots (4 * k + x.otherSlot k) = true → Responds (.fwActivate r 0) s
          { s with sec := { x with active := mset 0 x.active k (x.otherSlot k) } } r St.ok []) ∧
        (mhas x.slots (4 * k + x.otherSlot k) = false → Responds (.fwActivate r 0) s s r St.opState [])) ∧
      (r.num Key.svnCommit = 1 → ∀ n i g, mfind? x.running k = some (n, i) → mfind? x.slots (4 * k + 2) = some g →
        (x.fuses.lifecycle ≠ 2 → Responds (.svnCommit r) s s r St.lifecycleDenied []) ∧
        (x.fuses.lifecycle = 2 → g.svn < i.svn → Responds (.svnCommit r) s s r St.opState []) ∧
        (x.fuses.lifecycle = 2 → i.svn ≤ g.svn → Responds (.svnCommit r) s
          { s with sec := { x with fuses := { x.fuses with
            svnMin := mset 0 x.fuses.svnMin k (max (mget 0 x.fuses.svnMin k) i.svn) } } } r St.ok []))) ∧
    ∀ ed ml, (x.fuses.lifecycle ≠ 0 → exec (.provision ed ml) s = .next s) ∧
      (x.fuses.lifecycle = 0 → x.fuses.ownerEd = [] → x.fuses.ownerMl = [] → (Config.sha384 ed).length = 48 →
        (Config.sha384 ml).length = 48 → ∃ t, exec (.provision ed ml) s = .next t ∧ t.sec.fuses.lifecycle = 1 ∧
          t.sec.fuses.ownerEd = Config.sha384 ed ∧ t.sec.fuses.ownerMl = Config.sha384 ml ∧
          t.regFld .mgmt 0 0x10 32 8 = 1 ∧ { t with sec := x, regs := s.regs } = s)

/-- R417, R419, R422, R423: a token row with no token in the buffer, or with one that fails its checks, is refused with
OVERRIDE_INVALID, and one that the life cycle does not permit with LIFECYCLE_DENIED. An override stands for the next start, and so
does a debug token. The three transitions start the scrub of every partition, or, where none exists, blow their fuse at
once. -/
def Obligations.TokensApplied : Prop :=
  ∀ (s : State) (r : MReq),
    Admitted s { service := true, restricted := true, keys := [(Key.kind, true), (Key.svnCommit, false)] } r →
    r.num Key.kind = 15 →
    let f := s.sec.fuses
    let row (k : Nat) : Instr :=
      match k with
      | 1 => .tokenOverride r | 2 => .tokenReturn r | 3 => .tokenRedeploy r | 4 => .tokenDecommission r | _ => .tokenDebug r
    let allowed (k : Nat) : Prop :=
      (k = 2 → f.lifecycle = 2 ∧ f.returns < 32) ∧
      (k = 3 → f.lifecycle = 3 ∧ f.returns < 32 ∧ ∀ j ∈ loadableKinds, s.sec.good j 2 ≠ none) ∧ (k = 4 → f.lifecycle ≠ 4)
    (s.sec.token = none → ∀ k, 1 ≤ k → k ≤ 5 → Responds (row k) s s r St.overrideInvalid []) ∧
    ∀ i k, s.sec.token = some i → tokType i = k → 1 ≤ k → k ≤ 5 →
      (s.tokenOk i = false → ∃ t, exec (row k) s = .next t ∧ Answers s t r St.overrideInvalid [] ∧ t.sec.fuses = f) ∧
      (s.tokenOk i = true →
        (¬allowed k → Responds (row k) s s r St.lifecycleDenied []) ∧
        (k = 1 → Responds (row 1) s { s with sec := { s.sec with token := none, nextOverride := some (slice i.body 32 48) } }
          r St.ok []) ∧
        (k = 5 → Responds (row 5) s { s with sec := { s.sec with token := none, nextDebug := true } } r St.ok []) ∧
        (2 ≤ k → k ≤ 4 → allowed k → Quiet s → s.sec.transition = none → (∀ e ∈ s.longops, e.2.st = .done) →
          ((∀ p < 8, (s.part p).st = 0) → ∃ t, exec (row k) s = .next t ∧
            t.out = .taosh r.session (.manage r.reqId St.ok [] [] false) :: s.out ∧
            (k ≤ 3 → t.sec.fuses = { f with returns := f.returns + 1 }) ∧
            (k = 4 → t.sec.fuses = { f with lcDecom := true } ∧ ∀ n < 1024, (t.session n).st = .closed)) ∧
          ((∃ p < 8, (s.part p).st ≠ 0) → (∀ p < 8, s.bistOn p = false) → ∃ t hs, exec (row k) s = .next t ∧
            t.sec.transition = some (k, hs) ∧ hs ≠ [] ∧ t.sec.fuses = f ∧ t.sec.token = none ∧
            ∀ p < 8, (s.part p).st ≠ 0 → (t.part p).st = 2)))

/-- The device between two runs (R437, R442, R448): no context, no session, no start under way; what fuses and the ledger count
stays. -/
def RunEnded (s t : State) (fails : Nat) : Prop :=
  t.ctxs = [] ∧ t.sessions = [] ∧ t.bootStep = 0 ∧ t.presses = [] ∧ t.sec.fuses = s.sec.fuses ∧
    t.sec.startCount = s.sec.startCount ∧ t.ledger.fails = fails ∧ t.pending = s.pending

/-- R435 to R444, R448, R449, R456: a step that passes gives way to the next; step 5 opens a record, and a service start where
FAILS is 3 or more; step 24 makes the device ready and FAILS 0. A required step that fails, or overruns (log 42), ends the
start as FAILED with one more in FAILS and its alternate marked; RESTART and a FATAL error end the run. SKIP, ALT and FENCED
take ones where steps have them; SUSPECT is written by halves; CLEAR_FAILS clears FAILS; LEDGER_READ answers the ledger. -/
def Obligations.StartsAndLedger : Prop :=
  ∀ (s : State),
    let at_ (k : Nat) : Prop := s.bootStep = k ∧ s.startHeld = false
    let ledgered (i : Instr) (P : Ledger → Prop) : Prop :=
      ∃ t, exec i s = .next t ∧ P t.ledger ∧ t.ledger.seq = s.ledger.seq + 1 ∧ { t with ledger := s.ledger } = s
    let required (k : Nat) : Prop := 6 ≤ k ∧ k ≤ 24 ∧ k ≠ 19 ∧ k ≠ 21 ∧ s.ledger.service = false
    let failed (t : State) (k : Nat) (st : Status) : Prop := RunEnded s t (min (s.ledger.fails + 1) 255) ∧
      (altSteps.contains k = true → t.ledger.alt.getLsbD (k - 1) = true) ∧
      ∀ r rs, s.ledger.starts = r :: rs → ∃ r', t.ledger.starts = r' :: rs ∧ r'.outcome = 1 ∧ r'.failedStep = k ∧
        r'.status = st
    (s.bootStep = 0 → s.startHeld = false → ∃ t, exec (.deviceStart [] 1) s = .next t ∧ t.bootStep = 2 ∧
      t.pins.powerGood = true ∧ t.ledger.fails = s.ledger.fails) ∧
    (at_ 5 → ∀ ms us, (∀ r ∈ s.ledger.starts, r.outcome ≠ 4) → ∃ t, exec (.deviceStart [⟨5, false, 0, ms, us, []⟩] 5) s = .next t ∧
      t.bootStep = 6 ∧ t.sec.startCount = s.sec.startCount + 1 ∧ t.ledger.service = decide (3 ≤ s.ledger.fails) ∧
      t.ledger.fails = s.ledger.fails ∧ t.regFld .boot 0 0 6 1 = (if 3 ≤ s.ledger.fails then 1 else 0) ∧
      ∃ r rs, t.ledger.starts = r :: rs ∧ r.boot = s.sec.startCount + 1 ∧ r.outcome = 4) ∧
    (at_ 24 → ∀ ms us, s.ledger.service = false → ∃ t, exec (.deviceStart [⟨24, false, 0, ms, us, []⟩] 24) s = .next t ∧
      t.bootStep = 25 ∧ t.regFld .boot 0 0 5 1 = 1 ∧ t.regFld .boot 0 0 32 32 = ms % 2 ^ 32 ∧ t.ledger.fails = 0 ∧
      ∀ r rs, s.ledger.starts = r :: rs → ∃ r', t.ledger.starts = r' :: rs ∧ r'.outcome = 0) ∧
    (s.bootStep = 25 → ∀ rs k, exec (.deviceStart rs k) s = .next s) ∧
    (∀ k st ms, at_ k → required k → ∃ t, exec (.deviceStart [⟨k, true, st, ms, [], []⟩] k) s = .next t ∧
      failed t k (St.passOn St.bootStepFailed st)) ∧
    (∀ k, at_ k → required k → ∃ t, exec (.stepTimeout k) s = .next t ∧ failed t k St.bootStepFailed) ∧
    (∀ k, s.bootStep ≠ k → exec (.stepTimeout k) s = .next s) ∧
    (∀ path v, path ≠ .i3c →
      (ledgered (.bootSkipWrite path v) fun l =>
        ∀ i < 24, l.skip.getLsbD i = (v.getLsbD i && decide (i + 1 ∈ optSteps))) ∧
      (ledgered (.bootAltWrite path v) fun l =>
        (∀ i < 24, l.alt.getLsbD i = (v.getLsbD i && decide (i + 1 ∈ altSteps))) ∧ l.fenced = v.extractLsb' 32 16) ∧
      ∀ k, k < 2 → ledgered (.suspectClear path k v) fun l => l.suspect.extractLsb' (64 * k) 64 = v ∧
        l.suspect.extractLsb' (64 * (1 - k)) 64 = s.ledger.suspect.extractLsb' (64 * (1 - k)) 64) ∧
    (∀ path, path ≠ .i3c ∨ s.sec.fuses.lifecycle ≠ 4 →
      (ledgered (.clearFails path) fun l => l.fails = 0 ∧ l.skip = s.ledger.skip ∧ l.alt = s.ledger.alt) ∧
      ∃ t, exec (.restart path) s = .next t ∧ RunEnded s t s.ledger.fails) ∧
    (∀ cause st locKind loc, St.reportable st = true → ∃ t, exec (.fatalError cause st locKind loc) s = .next t ∧
      RunEnded s t (if s.recordOpen then min (s.ledger.fails + 1) 255 else s.ledger.fails) ∧ t.pins.fatal = true ∧
      t.pins.alertN = false ∧
      ∃ e es, t.ledger.errlog = e :: es ∧ e.cls = 4 ∧ e.cause = cause ∧ e.status = st ∧ e.locKind = locKind ∧ e.loc = loc) ∧
    ∀ r, Admitted s (ruleOf false true true []) r → ∃ bs, SendsTo (.ledgerRead r) s r.session (.manage r.reqId St.ok [] bs false) ∧
      bs.length = 32768 + 64 * s.ring.length ∧ bs.take 4 = toBytes 4 0x4C42485A ∧
      (bs.drop 8).take 8 = toBytes 8 s.ledger.seq

/-! ### Quoin (R363 to R376, R395 to R398) -/

/-- A link status field read as LINK_STATUS[l]. -/
def linkFld (s : State) (l lo w : Nat) : Nat := s.regFld .quoin 0 (0x200 + 8 * l) lo w

/-- R366 to R368, R371, R395: a flit with the next sequence number is taken, with its packets and credits; one that is not
next, while the receiver drops, changes neither; a CRC failure or a gap sends NAK with the last good number. A NAK without
progress is counted and retrains the link at RETRY_LIMIT; a lost lock and LINK_RETRAIN retrain a link that is UP. A retrain
keeps the credit counts and the replay buffer. -/
def Obligations.LinksCarryFlits : Prop :=
  ∀ (s : State) (l : Nat), l < 32 →
    let x := s.link l
    let go (i : Instr) (P : State → Link → Prop) : Prop := ∃ t, exec i s = .next t ∧ t.mem = s.mem ∧
      (∀ k, k ≠ l → t.link k = s.link k) ∧ P t (t.link l)
    let kept (y : Link) : Prop := y.sent = x.sent ∧ y.creditRx = x.creditRx ∧ y.freed = x.freed
    let nakked (t : State) (y : Link) : Prop := y.dropping = true ∧ y.expect = x.expect ∧ y.arrived = x.arrived ∧
      t.out = .nakFlit l ((x.expect + 4095) % 4096) (flitBytes (x.flitHead 0 2 0 false 0) []) :: s.out
    let retrains (t : State) (y : Link) : Prop := t.linkState l = LinkSt.retrain ∧ kept y ∧
      linkFld t l 16 16 = (linkFld s l 16 16 + 1) % 2 ^ 16 ∧ ∃ r rs, t.ring = r :: rs ∧ r.status = St.linkRetrained ∧ r.loc = l
    (s.linkState l ≠ LinkSt.up → exec (.fecLockLoss l) s = .next s ∧ (∀ f good, exec (.flitReceive l f good) s = .next s) ∧
      (∀ a, exec (.nak l a) s = .next s) ∧
      ∀ r, Admitted s (ruleOf false false false [(Key.link, true)]) r → r.num Key.link = l →
        Responds (.linkRetrain r) s s r St.opState []) ∧
    (s.linkState l = LinkSt.up →
      (go (.fecLockLoss l) fun t y => retrains t y ∧ y.replay = x.replay) ∧
      (∀ r, Admitted s (ruleOf false false false [(Key.link, true)]) r → r.num Key.link = l → go (.linkRetrain r) fun t y =>
        retrains t y ∧ y.replay = x.replay ∧
          (t.session r.session).queue.getLast? = some (.manage r.reqId St.ok [] [] false)) ∧
      (∀ f, go (.flitReceive l f false) fun t y => nakked t y ∧ kept y ∧
        linkFld t l 32 16 = (linkFld s l 32 16 + 1) % 2 ^ 16) ∧
      (∀ f, f.kind = 1 → x.waiting = [] → s.regFld .quoin 0 (0x100 + 8 * l) 0 1 = 1 →
        (∀ p, f.seq = x.expect → f.packets = [p] → typeOk p.typ = true → p.rsvZero = true →
          go (.flitReceive l f true) fun t y => y.expect = (x.expect + 1) % 4096 ∧ y.dropping = false ∧
            mget 0 y.creditRx f.cvc = f.credits ∧ y.arrived = x.arrived ++ [(p, mget 0 x.open_ f.vc + 1)] ∧
            mget 0 y.inBuf f.vc = mget 0 x.inBuf f.vc + 1 ∧ t.out = s.out) ∧
        (f.seq ≠ x.expect → x.dropping = true → go (.flitReceive l f true) fun t y => y.expect = x.expect ∧
          y.arrived = x.arrived ∧ y.dropping = true ∧ mget 0 y.creditRx f.cvc = f.credits ∧ t.out = s.out) ∧
        (f.seq < 4096 → 1024 < (x.expect + 4096 - f.seq) % 4096 → x.dropping = false →
          go (.flitReceive l f true) fun t y => nakked t y)) ∧
      (∀ a, x.waiting = [] → (x.replay.any fun e => e.1 == a) = false →
        let limit := s.regFld .quoin 0 8 16 8
        (x.naks + 1 < limit → go (.nak l a) fun t y => y.naks = x.naks + 1 ∧ y.replay = x.replay ∧ kept y ∧
          linkFld t l 32 16 = (linkFld s l 32 16 + 1) % 2 ^ 16 ∧ t.linkState l = LinkSt.up) ∧
        (limit ≤ x.naks + 1 → go (.nak l a) fun t y => retrains t y ∧ y.replay = x.replay)))

/-- R364, R365, R374, R395 to R398: a training that ends well brings a retrained link up with its counts, and a new link up where
the peer is the expected neighbour, MISWIRED otherwise; failures are counted, the third brings the reduced rate, and a failure
at that rate ends the link and is recorded. QUOIN.TOPO and LINK_CFG take writes while the identifier is not valid, QUOIN.CFG
while its fields are not zero. A loop-back runs on a link that is OFF. -/
def Obligations.LinksTrained : Prop :=
  ∀ (s : State) (l : Nat), l < 32 →
    let x := s.link l
    let slow := linkFld s l 3 1
    let rejects (t : State) : Prop := t.regFld .quoin 0 0x18 0 1 = 1
    (Quiet s → x.waiting = [] →
      (s.linkState l ≠ LinkSt.retrain → s.linkState l ≠ LinkSt.training → ∀ g a b c d,
        exec (.retrainComplete l g a b c d) s = .next s) ∧
      (s.linkState l = LinkSt.retrain → slow = 0 → ∀ a b c d,
        (∃ t, exec (.retrainComplete l true a b c d) s = .next t ∧ t.linkState l = LinkSt.up ∧
          (∃ c, t.link l = { x with failedRetrains := 0, cvc := c }) ∧ t.mem = s.mem) ∧
        (∃ t, exec (.retrainComplete l false a b c d) s = .next t ∧ t.linkState l = LinkSt.retrain ∧
          t.link l = { x with failedRetrains := x.failedRetrains + 1 } ∧
          linkFld t l 3 1 = (if 3 ≤ x.failedRetrains + 1 then 1 else 0))) ∧
      (s.linkState l = LinkSt.retrain → slow = 1 → ∀ a b c d, ∃ t, exec (.retrainComplete l false a b c d) s = .next t ∧
        t.linkState l = LinkSt.failed ∧ mget 0 t.ledger.links l = 2) ∧
      (s.linkState l = LinkSt.training → slow = 0 → s.idValid = true → ∀ peer link dim dir, peer < 2 ^ 16 → link < 32 →
        let right : Prop := peer = s.neighborId l ∧ dim = s.linkDim l ∧ (if dir then 1 else 0) ≠ s.linkDir l
        (right → ∃ t, exec (.retrainComplete l true peer link dim dir) s = .next t ∧ t.linkState l = LinkSt.up ∧
          t.link l = {} ∧ linkFld t l 4 1 = 0 ∧ t.regFld .quoin 0 (0x300 + 8 * l) 0 16 = peer) ∧
        (¬right → ∃ t, exec (.retrainComplete l true peer link dim dir) s = .next t ∧ t.linkState l = LinkSt.down ∧
          linkFld t l 4 1 = 1))) ∧
    (∀ path v, path ≠ .i3c →
      let cfg := 0x100 + 8 * l
      (s.idValid = true → (∃ t, exec (.quoinTopoWrite path v) s = .next t ∧ rejects t ∧ t.reg .quoin 0 0 = s.reg .quoin 0 0) ∧
        ∃ t, exec (.quoinLinkCfgWrite path l v) s = .next t ∧ rejects t ∧
          t.regFld .quoin 0 cfg 0 4 = s.regFld .quoin 0 cfg 0 4 ∧ t.regFld .quoin 0 cfg 4 1 = fld v 4 4) ∧
      (s.idValid = false → (∃ t, exec (.quoinTopoWrite path v) s = .next t ∧
          (∀ d < 4, t.regFld .quoin 0 0 (4 * d) 4 = fld v (4 * d + 3) (4 * d)) ∧ mfind? t.flash.quoin 0 = some (t.reg .quoin 0 0)) ∧
        (s.extent (fld v 2 1) ≠ 1 → ∃ t, exec (.quoinLinkCfgWrite path l v) s = .next t ∧
          t.regFld .quoin 0 cfg 0 5 = fld v 4 0 ∧ mfind? t.flash.quoin (l + 1) = some (t.reg .quoin 0 cfg) ∧
          (fld v 0 0 = 1 → s.linkState l = LinkSt.off → t.linkState l = LinkSt.training) ∧
          (fld v 0 0 = 0 → x.replay = [] → s.linkState l = LinkSt.up → t.linkState l = LinkSt.off)) ∧
        (s.extent (fld v 2 1) = 1 → ∃ t, exec (.quoinLinkCfgWrite path l v) s = .next t ∧ rejects t ∧
          t.regFld .quoin 0 cfg 0 4 = s.regFld .quoin 0 cfg 0 4)) ∧
      (fld v 15 0 = 0 ∨ fld v 23 16 = 0 → ∃ t, exec (.quoinCfgWrite path v) s = .next t ∧ rejects t ∧
        t.reg .quoin 0 8 = s.reg .quoin 0 8) ∧
      (fld v 15 0 ≠ 0 → fld v 23 16 ≠ 0 → ∃ t, exec (.quoinCfgWrite path v) s = .next t ∧
        t.regFld .quoin 0 8 0 16 = fld v 15 0 ∧ t.regFld .quoin 0 8 16 8 = fld v 23 16)) ∧
    (∀ r v, Admitted s { service := true, keys := [(Key.interface, true), (Key.loop, true)] } r →
      r.num Key.interface = 1 → r.item? Key.loop = some v → s.regFld .quoin 0 0x400 8 1 = 0 → fld v 4 0 = l →
      (s.linkState l ≠ LinkSt.off → Responds (.quoinLoopbackStart r) s s r St.bistDenied []) ∧
      (s.linkState l = LinkSt.off → 1 ≤ fld v 31 16 → fld v 31 16 ≤ 60000 → ∃ t, exec (.quoinLoopbackStart r) s = .next t ∧
        t.linkState l = LinkSt.loop ∧ t.regFld .quoin 0 0x400 8 1 = 1 ∧ t.regFld .quoin 0 0x400 9 2 = 0 ∧
        mfind? t.loopReqs 1 = some (r.session, r.reqId) ∧ t.sessions = s.sessions)) ∧
    ∀ errors n id, s.regFld .quoin 0 0x400 8 1 = 1 → s.regFld .quoin 0 0x400 0 5 = l → mfind? s.loopReqs 1 = some (n, id) →
      s.sessionOpen n = true → ∃ t, exec (.quoinLoopbackEnd errors) s = .next t ∧ t.linkState l = LinkSt.off ∧
        t.regFld .quoin 0 0x400 8 1 = 0 ∧ t.regFld .quoin 0 0x400 9 2 = (if errors = 0 then 3 else 1) ∧
        t.regFld .quoin 0 0x400 32 32 = errors.toNat ∧ mfind? t.loopReqs 1 = none ∧
        (t.session n).queue = (s.session n).queue ++ [.manage id St.ok [(Key.loop, t.reg .quoin 0 0x400)] [] false]

/-- A packet of a type that has come whole on a link in service, for this device and not sent before (R370 to R374). -/
structure Delivered (s : State) (l : Nat) (p : Packet) (typ : Nat) : Prop where
  link : l < 32
  up : s.linkState l = LinkSt.up
  typ : p.typ = typ
  zero : p.rsvZero = true
  allowed : p.ossel = false
  first : p.reissue = false
  mine : p.dest = s.myId

/-- The device answers `p` with one packet, which leaves on a link in its flits or waits for its credits (R366, R368, R376). -/
def Replies (s t : State) (p : Packet) (typ : Nat) (st : Status) (data : List Byte) : Prop :=
  ∃ k q, k < 32 ∧ q.typ = typ ∧ q.dest = p.src ∧ q.tag = p.tag ∧ q.status = st ∧ q.data = data ∧
    ((∃ x : Link, x.expect = (t.link k).expect ∧ x.freed = (t.link k).freed ∧
        t.out = .quoin k q (x.dataFlits q (pktVc q) (s.link k).seqNext 0 (pktFlits q)) :: s.out) ∨
      (t.link k).waiting = (s.link k).waiting ++ [q])

/-- R283, R376: a target answers a read with the bytes, performs a write and an INT64 add and answers once they are visible,
denies what no page of the requester's job maps and an atomic where none permits writes (PAGE_ACCESS, the model's choice, log
91), answers a read of an origin with the bytes of an exportable image, and lets a request wait while its page moves or a sealed buffer holds it.
Plain local memory; a link leads to the requester. -/
def Obligations.TargetServes : Prop :=
  ∀ (s : State) (l : Nat) (p : Packet) (pc loc : Nat),
    (∀ d < 4, s.bundle d 0 ≠ [] ∨ s.bundle d 1 ≠ []) → (∃ d < 4, coord s.myId d ≠ coord p.src d) →
    let a := p.addr.toNat % 2 ^ 48
    let go (i : Instr) (P : State → Prop) : Prop := ∃ t, exec i s = .next t ∧ P t
    let same (t : State) : Prop := t.mem = s.mem
    (∀ typ, Delivered s l p typ → s.serveWaits p = true →
      (typ = 1 → exec (.rdReq l p) s = .next s) ∧ (typ = 3 → exec (.wr l p) s = .next s) ∧
      (typ = 5 → exec (.atom l p) s = .next s)) ∧
    (Delivered s l p 5 → s.mayServe p = true → s.serveWaits p = false → s.mappedFor p.jobTag a p.data.length true = false →
      go (.atom l p) fun t => same t ∧ Replies s t p 6 St.pageAccess []) ∧
    (∀ typ, Delivered s l p typ → s.mayServe p = false →
      (typ = 1 → go (.rdReq l p) fun t => same t ∧ Replies s t p 2 St.remoteDenied []) ∧
      (typ = 3 → go (.wr l p) fun t => same t ∧ Replies s t p 4 St.remoteDenied []) ∧
      (typ = 5 → go (.atom l p) fun t => same t ∧ Replies s t p 6 St.remoteDenied [])) ∧
    (∀ bs, p.origin = true → s.mayServe p = true → s.exported a p.len = some bs → Delivered s l p 1 → go (.rdReq l p) fun t =>
      same t ∧ Replies s t p 2 St.ok bs) ∧
    (s.mayServe p = true → p.origin = false → s.serveWaits p = false → s.placedAt a = none →
      (Delivered s l p 1 → a + p.len ≤ 2 ^ 48 → s.isBad a p.len = false → go (.rdReq l p) fun t => same t ∧
        Replies s t p 2 St.ok (cells s.mem a p.len)) ∧
      (Quiet s → s.hbmMap a = some (pc, loc) → s.pcState pc ≠ 1 → s.pcState pc ≠ 2 →
        (Delivered s l p 3 → p.data ≠ [] → a + p.data.length ≤ 2 ^ 48 → go (.wr l p) fun t => Replies s t p 4 St.ok [] ∧
          (∀ i < p.data.length, cell t.mem (a + i) = nth 0 p.data i) ∧
          ∀ b, b < a ∨ a + p.data.length ≤ b → cell t.mem b = cell s.mem b) ∧
        (Delivered s l p 5 → p.op = 0 → p.fmt.toNat = fmtInt64 → p.data.length = 8 → a % 8 = 0 → s.isBad a 8 = false →
          s.mappedFor p.jobTag a 8 true = true → go (.atom l p) fun t => Replies s t p 6 St.ok [] ∧
            (∀ j < 8, cell t.mem (a + j) =
              (BitVec.ofNat 64 (ofBytes (cells s.mem a 8) + ofBytes p.data)).extractLsb' (8 * j) 8) ∧
            ∀ b, b < a ∨ a + 8 ≤ b → cell t.mem b = cell s.mem b)))

/-- R11, R85, R98, R375: the answers to requests. The data of a read reaches the register of the load that asked, the
acknowledgement of a write ends the store's wait, that of an add signals the mark; an answer with a nonzero status (REMOTE_UNREACHABLE in place of a code that no device reports, log 82), and a request that
times out with REMOTE_UNREACHABLE, start the teardown of the context. With one request outstanding. -/
def Obligations.RequestsEnd : Prop :=
  ∀ (s : State) (q : Request) (l : Nat) (p : Packet) (n : Nat), n < 128 → s.requests = [(p.tag.toNat, q)] →
    Quiet { s with requests := [] } → q.held = none → q.failed = none → (s.ctx q.ctx).st = .active →
    (s.press n).run = some q.ctx →
    let fails (i : Instr) (st : Status) : Prop := ∃ t, exec i s = .next t ∧ (t.ctx q.ctx).st = .teardown ∧
      (t.ctx q.ctx).endStatus = st ∧ t.requests = []
    let ends (i : Instr) (P : State → Prop) : Prop := ∃ t, exec i s = .next t ∧ t.requests = [] ∧ t.mem = s.mem ∧
      (t.ctx q.ctx).remoteOut = (s.ctx q.ctx).remoteOut - 1 ∧ P t
    (∀ rd size signed, Delivered s l p 2 → q.kind = 0 → q.cause = .load n rd size signed → q.len = size →
      (p.status = 0 → p.data.length = size → ends (.rdResp l p) fun t =>
        t.pc n = (s.pc n).setX rd (if signed then (BitVec.ofNat (8 * size) (ofBytes p.data)).signExtend 64
          else BitVec.ofNat 64 (ofBytes p.data % 2 ^ (8 * size)))) ∧
      (p.status ≠ 0 → fails (.rdResp l p) (St.passOn St.remoteUnreachable p.status))) ∧
    (Delivered s l p 4 → q.kind = 1 → q.cause = .store n →
      (p.status = 0 → ends (.wrAck l p) fun t => t.presses = s.presses) ∧ (p.status ≠ 0 → fails (.wrAck l p) (St.passOn St.remoteUnreachable p.status))) ∧
    (Delivered s l p 6 → q.kind = 2 → q.cause = .signal n →
      (p.status = 0 → ends (.atomAck l p) fun t => t.pc n = (s.pc n).signal q.mark) ∧
      (p.status ≠ 0 → fails (.atomAck l p) (St.passOn St.remoteUnreachable p.status))) ∧
    (q.kind < 3 → q.cause = .store n → fails (.requestTimeout p.tag) St.remoteUnreachable)

/-! ### Service commands and collectives (R377 to R391) -/

/-- Where a service command's result record and DONE word lie: plain local memory, apart. -/
structure CmdPlaces (s : State) (c : Nat) (result done : W64) (ra da : Nat) : Prop where
  result : PlainSpan s c .wr result ra 16
  done : PlainSpan s c .wr done da 8
  apart : ra + 16 ≤ da ∨ da + 8 ≤ ra

/-- A 64-bit word in memory. -/
def wordIs (t : State) (a : Nat) (v : W64) : Prop := ∀ j < 8, cell t.mem (a + j) = v.extractLsb' (8 * j) 8

/-- The result record holds `w0` and a status with VALUE, 1 has been added to DONE, and no other byte has changed (R379). -/
def CmdEnded (s t : State) (ra da : Nat) (w0 : W64) (st : Status) (value : Nat) : Prop :=
  wordIs t ra w0 ∧ wordIs t (ra + 8) (BitVec.ofNat 64 (st.toNat + value * 2 ^ 32)) ∧
    wordIs t da (BitVec.ofNat 64 (ofBytes (cells s.mem da 8)) + 1) ∧
    ∀ a, a < ra ∨ ra + 16 ≤ a → a < da ∨ da + 8 ≤ a → cell t.mem a = cell s.mem a

/-- R377 to R379, R385, R386: the interface reads the command of a doorbell, and refuses a malformed one in its result record. UPD_SET
writes an entry's fields, UPD_FREEZE its FREEZE, UPD_CLEAR empties it, each answered with ACCEPTED, status 0 and an add to
DONE; another context's entry is refused with UPDATE_TABLE_INVALID, one that a running collective names with OP_STATE. -/
def Obligations.ServiceCommands : Prop :=
  ∀ (s : State) (d : Doorbell) (cmd : List W64) (ra da : Nat), Quiet s →
    CmdPlaces s d.ctx (svcWord cmd 1) (svcWord cmd 2) ra da →
    let c := d.ctx
    let w (i : Nat) : W64 := svcWord cmd i
    (∀ pa, s.doorbells = [d] → d.cmd = none → PlainSpan s c .rd d.addr pa 64 → cmd = toWords 8 (cells s.mem pa 64) →
      (cmdOk d cmd = true → exec (.doorbell c) s = .next { s with doorbells := [{ d with cmd := some cmd }] }) ∧
      (cmdOk d cmd = false → ∃ t, exec (.doorbell c) s = .next t ∧ t.doorbells = [] ∧
        CmdEnded s t ra da 0 St.descriptorInvalid 0)) ∧
    (s.doorbells = [d] → d.cmd = some cmd →
      let i := fld (w 3) 14 0
      let e := s.updEntry i
      let foreign : Prop := e.valid = true ∧ e.owner ≠ c
      let others (t : State) : Prop := t.doorbells = [] ∧ ∀ k, k ≠ i → t.updEntry k = s.updEntry k
      let ended (j : Instr) (x : UpdEntry) (w0 : W64) (st : Status) : Prop :=
        ∃ t, exec j s = .next t ∧ others t ∧ t.updEntry i = x ∧ CmdEnded s t ra da w0 st 0
      ((w 0).toNat = 2 → fld (w 3) 63 15 = 0 →
        (foreign → ended (.updSet c) e 0 St.updateTableInvalid) ∧
        (¬foreign → updImageOk cmd = true →
          (s.updNamed i = true → ended (.updSet c) e 0 St.opState) ∧
          (s.updNamed i = false → ended (.updSet c)
            { valid := flag (w 4) 0, freeze := flag (w 4) 1, sr := flag (w 4) 2, curve := flag (w 4) 3, wfmt := fld (w 4) 7 4,
              group := fld (w 4) 15 8, owner := c, w := w 5, elems := fld (w 6) 39 0 } 0x10000 St.ok))) ∧
      ((w 0).toNat = 3 → flag (w 3) 15 = false → fld (w 3) 63 17 = 0 →
        (foreign → ended (.updFreeze c) e 0 St.updateTableInvalid) ∧
        (¬foreign → ended (.updFreeze c) { e with freeze := flag (w 3) 16 } 0x10000 St.ok)) ∧
      ((w 0).toNat = 4 → fld (w 3) 63 15 = 0 →
        (foreign → ended (.updClear c) e 0 St.updateTableInvalid) ∧
        (¬foreign → s.updNamed i = true → ended (.updClear c) e 0 St.opState) ∧
        (¬foreign → s.updNamed i = false → ended (.updClear c) {} 0x10000 St.ok)))

/-- R379 to R381, R384: a refused COLLECTIVE has its status in the result record. An accepted one with other members is a long
operation whose handle stands in the record, and waits for their matching messages; a message for no active collective is
kept (log 40); a nonzero status is a COLLECTIVE_MISMATCH, which starts the teardown of the context; a part of a chunk is
kept at its place; a missing chunk ends the collective with REMOTE_UNREACHABLE. -/
def Obligations.CollectivesMeet : Prop :=
  ∀ (s : State), Quiet s →
    (∀ d cmd ra da, s.doorbells = [d] → d.cmd = some cmd → (svcWord cmd 0).toNat = 1 →
      CmdPlaces s d.ctx (svcWord cmd 1) (svcWord cmd 2) ra da →
      let x := newColl s d cmd
      (∀ st, s.collRefusal x cmd = some st → ∃ t, exec (.collective d.ctx) s = .next t ∧ t.doorbells = [] ∧
        t.colls = s.colls ∧ CmdEnded s t ra da 0 st 0) ∧
      (collWellFormed x cmd = true → mhas s.formes (fld (svcWord cmd 3) 9 0) = false →
        s.collRefusal x cmd = some St.formeInvalid) ∧
      (∀ h dev, s.collRefusal x cmd = none → flag (svcWord cmd 3) 15 = false → (s.ctx d.ctx).st = .active →
        s.newHandle = some h → s.collEarly = [] → dev ∈ x.group → dev ≠ s.myId →
        ∃ t, exec (.collective d.ctx) s = .next t ∧ t.doorbells = [] ∧ mfind? t.colls h = some x ∧
          (t.longop h).st = .running ∧ wordIs t ra (BitVec.ofNat 64 (h + 0x10000)) ∧
          ∀ a, a < ra ∨ ra + 8 ≤ a → cell t.mem a = cell s.mem a)) ∧
    (∀ l p, Delivered s l p 0x11 → s.collOf p = none → ∃ t, exec (.collCtl l p) s = .next t ∧ t.mem = s.mem ∧
      t.colls = s.colls ∧ t.collEarly = s.collEarly ++ [p]) ∧
    (∀ l p, Delivered s l p 0x10 → s.collOf p = none → ∃ t, exec (.coll l p) s = .next t ∧ t.mem = s.mem ∧
      t.colls = s.colls) ∧
    (∀ l p h c dev, s.collOf p = some (h, c) → mfind? s.colls h = some c → c.sent = false → dev ∈ c.group →
      dev ≠ s.myId → dev ∉ c.met →
      (Delivered s l p 0x11 → p.status = 0 → dev ≠ p.src → ∃ t, exec (.collCtl l p) s = .next t ∧ t.mem = s.mem ∧
        mfind? t.colls h = some { c with
          met := if p.src ∈ c.met then c.met else c.met ++ [p.src], differs := c.differs || p.data != c.terms }) ∧
      (Delivered s l p 0x10 → p.ossel = false → c.kind ≠ 2 → ∃ t y, exec (.coll l p) s = .next t ∧ t.mem = s.mem ∧
        mfind? t.colls h = some y ∧ y.met = c.met ∧ ∀ i < p.data.length,
          mfind? y.got (c.rankOf p.src * 2 ^ 50 + ((p.addr >>> 32).toNat * 0x10000 + p.tag.toNat) + i) =
            some (nth 0 p.data i))) ∧
    (∀ l p h c ra da, Delivered s l p 0x11 → p.status ≠ 0 → s.collOf p = some (h, c) → CmdPlaces s c.ctx c.result c.done ra da →
      (s.ctx c.ctx).st = .active → ∃ t, exec (.collCtl l p) s = .next t ∧ mfind? t.colls h = none ∧
        (t.ctx c.ctx).st = .teardown ∧ (t.ctx c.ctx).endStatus = St.collectiveMismatch) ∧
    ∀ h c, mfind? s.colls h = some c →
      (c.sent = false → exec (.collectiveChunkTimeout h) s = .next s) ∧
      ∀ ra da, c.sent = true → (s.longop h).st = .running → CmdPlaces s c.ctx c.result c.done ra da →
        ∃ t, exec (.collectiveChunkTimeout h) s = .next t ∧ mfind? t.colls h = none ∧ (t.longop h).st = .done ∧
          wordIs t (ra + 8) (BitVec.ofNat 64 (St.remoteUnreachable.toNat + c.stepped * 2 ^ 32)) ∧
          wordIs t da (BitVec.ofNat 64 (ofBytes (cells s.mem da 8)) + 1) ∧
          ∀ a, a < ra + 8 ∨ ra + 16 ≤ a → a < da ∨ da + 8 ≤ a → cell t.mem a = cell s.mem a

/-! ### Audits (R399, R410) -/

/-- R399, R400, R410: a write of AUDIT.CTL with START begins a run, which takes the three values and judges the identity; one whose
INDEX is out of range, or a WALK over a partition with live contexts, is REFUSED at once; while a run is under way another is
not begun. At its end a run loads A, B and C and sets DONE with PASS and VOID. -/
def Obligations.AuditsRun : Prop :=
  ∀ (s : State),
    (∀ path v walk, path ≠ .i3c → s.isWalk v = walk → flag v 25 = true →
      let i : Instr := if walk then .auditWalk path v else .auditSnap path v
      let u := s.plainWrite .audit 0 0 v
      let q := u.regFld .audit 0 0 0 8
      let k := u.regFld .audit 0 0 8 16
      let live : Prop := walk = true ∧ u.liveCtxs (if q = 7 then k / 16 else k) ≠ 0
      let refused : Prop := ∃ t, exec i s = .next t ∧ t.audit = none ∧ t.regFld .audit 0 0 26 1 = 1 ∧ t.regFld .audit 0 0 29 1 = 1
      (s.audit = none →
        (u.quantity q k = none → refused) ∧
        (live → refused) ∧
        ∀ a b c, u.quantity q k = some (a, b, c) → ¬live → ∃ t r, exec i s = .next t ∧ t.audit = some r ∧
          t.regFld .audit 0 0 26 1 = 0 ∧ r.a = wn a ∧ r.b = wn b ∧ r.c = wn c ∧ r.isVoid = decide ((q, k) ∈ s.voids) ∧
          (q = 1 ∨ q = 3 ∨ q = 5 ∨ q = 6 ∨ q = 7 ∨ q = 9 → r.pass = decide (b + c = a)) ∧
          (q = 2 ∨ q = 4 → r.pass = decide (b + c ≤ a)) ∧
          { t with regs := s.regs, audit := none } = { u with regs := s.regs }) ∧
      (s.audit ≠ none → ∃ t, exec i s = .next t ∧ t.audit = s.audit)) ∧
    (s.audit = none → exec .auditDone s = .next s) ∧
    ∀ r, s.audit = some r → ∃ t, exec .auditDone s = .next t ∧ t.reg .audit 0 0x08 = r.a ∧ t.reg .audit 0 0x10 = r.b ∧
      t.reg .audit 0 0x18 = r.c ∧ t.audit = none ∧ t.regFld .audit 0 0 25 1 = 0 ∧ t.regFld .audit 0 0 26 1 = 1 ∧
      t.regFld .audit 0 0 27 1 = (if r.pass then 1 else 0) ∧ t.regFld .audit 0 0 28 1 = (if r.isVoid then 1 else 0) ∧
      t.regFld .audit 0 0 29 1 = 0 ∧ { t with regs := s.regs, audit := s.audit } = s

/-! ### Power, temperature, sideband (R457 to R465, R482 to R489) -/

/-- PWR.LIMIT shows the limit in force. -/
def shownLimit (t : State) : Nat := t.regFld .pwr 0 0x08 0 12

/-- R457 to R463: below 46 V, above 90 V or while the current is clamped, the limit is at most 1,000 W and SAG is set, until the
input has been back; above 72 V OVERVOLT is set. THROTTLE_IN holds the limit to the throttled cap until its release. A cap
within 1,000 W to 3,900 W is taken and kept in flash, any other ignored. A dropout of a sag ends the run in the shed stage;
power back above 48 V restarts the device; an empty bulk store takes POWER_GOOD away. -/
def Obligations.PowerInput : Prop :=
  ∀ (s : State),
    let go (i : Instr) (P : State → Prop) : Prop := ∃ t, exec i s = .next t ∧ P t
    let vin (t : State) : Nat := t.regFld .pwr 0 0x28 0 16
    let event (t : State) (b : Nat) : Prop := t.regFld .pwr 0 0x10 b 1 = 1
    let sag (t : State) (sagging : Bool) : Prop := t.power = { s.power with sagging, bySag := true } ∧ event t 1 ∧
      shownLimit t ≤ 1000 ∧ t.regFld .pwr 0 0x08 18 1 = 1 ∧ t.mem = s.mem
    let onlyVin (i : Instr) (cv : Nat) : Prop := go i fun t => vin t = min cv 65535 ∧ { t with regs := s.regs } = s
    (∀ cv, (cv < 4600 → go (.inputSag cv) fun t => sag t true ∧ vin t = cv) ∧ (4600 ≤ cv → onlyVin (.inputSag cv) cv) ∧
      (9000 < cv → go (.surge cv) fun t => sag t true ∧ vin t = min cv 65535) ∧ (cv ≤ 9000 → onlyVin (.surge cv) cv) ∧
      (7200 < cv → go (.overvolt cv) fun t => event t 3 ∧ t.power = s.power ∧ vin t = min cv 65535) ∧
      (cv ≤ 7200 → onlyVin (.overvolt cv) cv) ∧
      (4800 ≤ cv → cv ≤ 9000 → go (.sagRelease cv) fun t => t.power = { s.power with bySag := false, sagging := false } ∧
        t.regFld .pwr 0 0x08 18 1 = 0 ∧ vin t = cv) ∧
      (cv < 4800 ∨ 9000 < cv → onlyVin (.sagRelease cv) cv) ∧
      (s.power.shed = true → 4800 < cv → go (.inputRestore cv) fun t => RunEnded s t s.ledger.fails ∧
        t.power.shed = false ∧ t.power.sagging = false ∧ vin t = min cv 65535) ∧
      (s.power.shed = false ∨ cv ≤ 4800 → onlyVin (.inputRestore cv) cv)) ∧
    (go .currentClamp fun t => sag t s.power.sagging) ∧
    (s.power.sagging = true → s.power.shed = false → go .dropout fun t => RunEnded s t s.ledger.fails ∧
      t.power.shed = true ∧ ∃ e es, t.ledger.errlog = e :: es ∧ e.cls = 4 ∧ e.status = St.inputSag) ∧
    (s.power.sagging = false ∨ s.power.shed = true → exec .dropout s = .next s) ∧
    (go .bulkUndervoltage fun t => RunEnded s t s.ledger.fails ∧ t.pins.powerGood = false ∧ t.power.inputOff = true ∧
      t.power.shed = false) ∧
    (go .throttleInAssert fun t => t.power = { s.power with throttle := true, byThrottle := true } ∧
      shownLimit t ≤ s.regFld .pwr 0 0 16 12 ∧ t.regFld .pwr 0 0x08 17 1 = 1) ∧
    exec .throttleInDeassert s = .next { s with power := { s.power with throttle := false } } ∧
    (s.power.throttle = true → exec .throttleRelease s = .next s) ∧
    (s.power.throttle = false → go .throttleRelease fun t => t.power = { s.power with byThrottle := false } ∧
      t.regFld .pwr 0 0x08 17 1 = 0) ∧
    ∀ path v, path ≠ .i3c ∨ s.sec.fuses.lifecycle ≠ 4 →
      let w := fld v 11 0
      let th := fld v 27 16
      (1000 ≤ w → w ≤ 3900 → 1000 ≤ th → th ≤ 3900 → go (.pwrCapWrite path v) fun t => t.regFld .pwr 0 0 0 12 = w ∧
        t.regFld .pwr 0 0 16 12 = th ∧ t.flash = { s.flash with capW := some w } ∧ shownLimit t ≤ w) ∧
      (w < 1000 ∨ 3900 < w ∨ th < 1000 ∨ 3900 < th → go (.pwrCapWrite path v) fun t =>
        t.reg .pwr 0 0 = s.reg .pwr 0 0 ∧ event t 4 ∧ t.flash = s.flash)

/-- R421, R464, R465, R483 to R489: a compute die enters step n at 90 + 5n °C, and leaves its steps only after it has been 5 °C below for
the release time; at 115 °C the run ends and the device waits to cool. RESET_N low ends the run and its release begins a
start at step 2. The I3C target keeps its pointer, which a read advances by 8, reads all ones where R487 permits nothing, and
writes LEDGER_CTL; a misaligned read or write is recorded as an access error (R4); its address is assigned. A JTAG instruction that the life cycle does not permit selects bypass. -/
def Obligations.TemperatureAndSideband : Prop :=
  ∀ (s : State),
    let go (i : Instr) (P : State → Prop) : Prop := ∃ t, exec i s = .next t ∧ P t
    (∀ ts held, let deg (i : Nat) : Int := tempOf ts i
      let shut : Prop := ∃ i < 28, atShutdown ts i = true
      ((∃ i < 16, 115 * 16 ≤ deg i) → shut) ∧
      (shut → s.power.thermalHold = false → go (.thermalSample ts held) fun t => RunEnded s t s.ledger.fails ∧
        t.power.thermalHold = true ∧ t.pins.alertN = false) ∧
      (¬shut → go (.thermalSample ts held) fun t => t.mem = s.mem ∧
        (∀ n, 1 ≤ n → n ≤ 3 → (∃ i < 16, (90 + 5 * n : Int) * 16 ≤ deg i) → n ≤ t.power.dieStep) ∧
        (held = false → s.power.dieStep ≤ t.power.dieStep) ∧
        (∀ n, 1 ≤ n → n ≤ 3 → (∀ i < 16, deg i < (90 + 5 * n : Int) * 16) → s.power.dieStep < n → t.power.dieStep < n) ∧
        (held = true → (∀ i < 16, deg i < 90 * 16) → t.power.dieStep = 0) ∧
        ∀ i < 28, t.regFld .pwr 0 (0x40 + 8 * i) 0 16 = (nth (0 : BitVec 16) ts i).toNat)) ∧
    (go .resetNAssert fun t => RunEnded s t s.ledger.fails ∧ t.pins.resetN = false) ∧
    (s.pins.resetN = true → ∀ rs k, exec (.resetNDeassert rs k) s = .next s) ∧
    (s.pins.resetN = false → s.power.inputOff = false → go (.resetNDeassert [] 0) fun t => t.pins.resetN = true ∧
      t.pins.earlyFail = false ∧ t.bootStep = 2) ∧
    (s.bootStep < 6 → (∀ bs, exec (.i3cPointerWrite bs) s = .next s ∧ exec (.i3cRegisterWrite bs) s = .next s) ∧
      exec .i3cRead s = .next s ∧ ∀ a, exec (.i3cDynamicAddress a) s = .next s) ∧
    (6 ≤ s.bootStep →
      (∀ bs, bs.length = 8 → exec (.i3cPointerWrite bs) s = .next { s with pins := { s.pins with i3cPtr := wn (ofBytes bs) } }) ∧
      (∀ bs, bs.length ≠ 8 → bs.length ≠ 16 → exec (.i3cPointerWrite bs) s = .next s ∧ exec (.i3cRegisterWrite bs) s = .next s) ∧
      (∀ bs : List Byte, bs.length = 16 → let a := wn (ofBytes (bs.take 8))
        let v := wn (ofBytes (bs.drop 8))
        (a.toNat = regAddr .boot 0 0x18 → s.sec.fuses.lifecycle ≠ 4 → flag v 0 = true → flag v 1 = false →
          go (.i3cRegisterWrite bs) fun t => t.ledger.fails = 0 ∧ t.pins = { s.pins with i3cPtr := a } ∧
            { t with ledger := s.ledger, pins := s.pins } = s) ∧
        let u : State := { s with pins := { s.pins with i3cPtr := a } }
        (a.toNat % 8 = 0 → (∀ b i o, blockOf a.toNat = some (b, i, o) → s.pathWrites .i3c b o = false) →
          exec (.i3cRegisterWrite bs) s = .next u) ∧
        (a.toNat % 8 ≠ 0 → go (.i3cRegisterWrite bs) fun t => AccessError u t a.toNat ∧ t.out = s.out)) ∧
      (let a := s.pins.i3cPtr
        let u : State := { s with pins := { s.pins with i3cPtr := a + 8 } }
        (∀ b i o, a.toNat % 8 = 0 → blockOf a.toNat = some (b, i, o) → s.i3cReads b o = false →
          exec .i3cRead s = .next { u with out := .i3cData (BitVec.allOnes 64) :: s.out }) ∧
        (a.toNat % 8 = 0 → blockOf a.toNat = none →
          exec .i3cRead s = .next { u with out := .i3cData (BitVec.allOnes 64) :: s.out }) ∧
        (a.toNat % 8 ≠ 0 → go .i3cRead fun t => AccessError u t a.toNat ∧
          t.out = .i3cData (BitVec.allOnes 64) :: s.out) ∧
        (a.toNat = regAddr .boot 0 0 → s.sec.fuses.lifecycle ≠ 4 → go .i3cRead fun t =>
          t.out = .i3cData (putFld (s.reg .boot 0 0) 8 8 s.ledger.fails) :: s.out ∧ t.pins = u.pins)) ∧
      ∀ a, exec (.i3cDynamicAddress a) s = .next { s with pins := { s.pins with i3cDyn := some a } }) ∧
    (∀ ir, let lc := s.sec.fuses.lifecycle
      let may : Prop := match ir with
        | .bypass => False | .idcode => True | .samplePreload => True
        | .extest => s.pins.resetN = false | .otherDrive => s.pins.resetN = false
        | .scanChains => lc = 0 ∨ lc = 3 | .selfTest => lc = 0 ∨ lc = 3 | .fuseProgram => lc = 0
        | .debugAccess => lc = 0 ∨ (lc = 3 ∧ s.sec.debug = true)
      go (.jtagInstruction ir) fun t => t.pins = { s.pins with jtag := some ir, bypass := t.pins.bypass } ∧
        (t.pins.bypass = true ↔ ¬may) ∧ { t with pins := s.pins } = s) ∧
    exec .jtagTrst s = .next { s with pins := { s.pins with jtag := none, bypass := true } }

/-! ### Division, faults of a Line, reset and the invariant -/

/-- A Line of the one slot operation `i` may issue on press `n` and is fetched, its header is in order, its guard holds and
the region that is open, if any, has the resources taken so far: what a Line needs besides its slot's own checks. -/
structure Issues (s : State) (n : Nat) (l : Line) (i : Instr) : Prop where
  press : n < 128
  core : l.core = .press n
  last : l.more = false
  running : (s.press n).st = .running
  bound : (s.press n).run ≠ none
  alone : (s.press n).gathered = []
  ready : s.lineReady n l (lineSlots l [i]) = true
  fetched : s.rangeFault (s.runCtx n) .ex (s.pc n).pc 64 = none
  rsv : l.rsv = 0
  split : l.split ≠ 3
  stray : l.stray = 0
  unlisted : l.unlisted = 0
  guard : (s.lc n l).guard = true
  region : ∀ r, s.openRegion n = some r → needFault (s.region (chaseOf n) r) (s.need0 n) = none

/-- R80: integer division never faults, on a press or a compositor, whatever its operands: DIV (17) and DIVU (18) by zero
give all ones, REM (19) and REMU (20) by zero the dividend; DIV of −2^63 by −1 gives −2^63 and REM of them 0. Each writes
x[RD] and retires, records no condition, and changes nothing of memory or another press. -/
def Obligations.DivisionResults : Prop :=
  ∀ (s : State) (n m : Nat) (l : Line) (a : FormA),
    let least : W64 := BitVec.ofNat 64 (2 ^ 63)
    let value (u v : W64) : W64 := match a.sub.toNat with
      | 17 => if v = 0 then BitVec.allOnes 64 else if u = least ∧ v = BitVec.allOnes 64 then least else u.sdiv v
      | 18 => if v = 0 then BitVec.allOnes 64 else u / v
      | 19 => if v = 0 then u else if u = least ∧ v = BitVec.allOnes 64 then 0 else u.srem v
      | _ => if v = 0 then u else u % v
    17 ≤ a.sub.toNat → a.sub.toNat ≤ 20 →
      (Issues s n l (.alu l a) → ∃ t, exec (.alu l a) s = .next t ∧
        t.press n = { s.press n with
          cur := ((s.pc n).setX a.rd.toNat (value (s.x n a.rs1) (s.x n a.rs2))).retire (s.nextLine n) } ∧
        (∀ k, k ≠ n → t.press k = s.press k) ∧ { t with presses := s.presses, chases := s.chases } = s) ∧
      (m < 64 → l.core = .comp m → l.unlisted = 0 → (s.comp m).fault.valid = false → (s.comp m).stall = [] → s.requests = [] →
        let x := s.comp m
        ∃ t, exec (.alu l a) s = .next t ∧
          t.comp m = ({ x with pc := x.pc + 4 } : Comp).setX a.rd.toNat (value (x.getX a.rs1.toNat) (x.getX a.rs2.toNat)) ∧
          (∀ k, k ≠ m → t.comp k = s.comp k) ∧ { t with comps := s.comps } = s)

/-- The commands of the scalar slots of a Line `l`, with the fields given: integer, memory and case, predicate, floating
point, branch and register operations. -/
def intRows (l : Line) (sl : ScalarSlot) (rest : BitVec 25) (a : FormA) (b : FormB) : List Instr :=
  [.scalarNop l sl rest, .alu l a, .addi l b, .andi l b, .ori l b, .xori l b, .slli l b, .srli l b, .srai l b, .slti l b, .lis l b]
def memRows (l : Line) (b : FormB) (c : FormS) : List Instr :=
  [.lb l b, .lh l b, .lw l b, .ld l b, .lbu l b, .lhu l b, .lwu l b, .sb l c, .sh l c, .sw l c, .sd l c, .ldc l b, .stc l c]
def fpRows (l : Line) (hi : Bool) (a : FormA) : List Instr :=
  [.cmp l a, .plog l a, .pget l a, .pset l a, .fadd l a, .fsub l a, .fmul l a, .fdiv l a, .fsqrt l a, .fmin l a, .fmax l a,
   .fcmp l a, .fcvt l hi a]
def regRows (l : Line) (b : FormB) : List Instr :=
  [.bnz l b, .bz l b, .jal l b, .jalr l b, .rdcsr l b, .wrcsr l b, .tset l b, .tget l b]
def slotRows (l : Line) (sl : ScalarSlot) (rest : BitVec 25) (hi : Bool) (a : FormA) (b : FormB) (c : FormS) : List Instr :=
  (intRows l sl rest a b).append ((memRows l b c).append ((fpRows l hi a).append (regRows l b)))
/-- The same for the slots of the engines and the control slot. -/
def tmRows (l : Line) (tm : TmF) : List Instr :=
  [.tmNop l tm, .copy l tm, .dload l tm, .dstore l tm, .prefetch l tm, .fill l tm, .slugPack l tm, .slugUnpack l tm]
def plRows (l : Line) (pl : PlF) : List Instr :=
  [.plNop l pl, .wload l pl, .mm l pl, .drain l pl, .tzero l pl, .tfree l pl, .tload l pl]
def rlRows (l : Line) (rl : RlF) : List Instr :=
  [.elementWiseArithmetic l rl, .transcendental l rl, .conversion l rl, .comparison l rl, .reduction l rl, .scan l rl,
   .segmentedScan l rl, .permutationGather l rl]
def ctRows (l : Line) (ct : CtF) : List Instr :=
  [.ctNop l ct, .br l ct, .brx l ct, .call l ct, .dbnz l ct, .fence l ct, .cbarinit l ct, .cbar l ct, .wcinit l ct, .wcfa l ct,
   .fbar l ct, .rsignal l ct, .rwait l ct, .popen l ct, .pcommit l ct, .preject l ct, .endTake l ct]
def commandRows (l : Line) (ct : CtF) : List Instr :=
  [.kernOpen l ct, .kernAppend l ct, .kernAttend l ct, .kernFork l ct, .kernTruncate l ct, .kernRelease l ct,
   .galleyCreate l ct, .galleyStick l ct, .galleyFork l ct, .galleyReset l ct, .galleyLoad l ct, .galleyStore l ct,
   .galleySwapOut l ct, .galleySwapIn l ct, .galleyRelease l ct, .galleyQuery l ct]
def engineRows (l : Line) (tm : TmF) (pl : PlF) (rl : RlF) (ct : CtF) : List Instr :=
  (tmRows l tm).append ((plRows l pl).append ((rlRows l rl).append ((ctRows l ct).append (commandRows l ct))))

/-- R74, R79, R97, R98, R315, R491: a Line whose check fails tears its context down with the first failing check's status, and the
fault registers latched for the completion record name the status, the slot, the program counter and the address; the guard
is not looked at (R78). The header's own checks come before the slots', as do a scalar access that is not aligned (R79) and
a SUB that the table does not list. Bits of an absent slot fault it with RSV_NONZERO and an operation that no table lists with
ILLEGAL_OPCODE, the first slot at fault being named. The press is left idle once no region of the context has a commit to
carry to its end. -/
def Obligations.LineFaults : Prop :=
  ∀ (s : State) (n : Nat) (l : Line) sl rest hi a b c tm pl rl ct i, let cx := s.runCtx n
    i ∈ slotRows l sl rest hi a b c ++ engineRows l tm pl rl ct →
    n < 128 → l.core = .press n → l.more = false → (s.press n).st = .running → (s.press n).run ≠ none →
    (s.press n).gathered = [] → s.lineReady n l (lineSlots l [i]) = true → (lineSlots l [i]).any (s.rowWrong n) = false →
    s.listsWait (s.lc n l) (lineSlots l [i]) = false → Quiet s → (s.ctx cx).st = .active → (s.ctx cx).faultPress = none →
      let fails (st : Status) (va : W64) (slot : BitVec 3) : Prop := ∃ t, exec i s = .next t ∧
        (t.ctx cx).st = .teardown ∧ (t.ctx cx).endStatus = st ∧ (t.ctx cx).faultPress = some n ∧
        (t.ctx cx).fault = { valid := true, async := false, status := st, slot := slot
                             pc := (s.pc n).pc &&& 0xFFFFFFFFFFFF, va := va } ∧
        (t.regionsLeft cx = false → t.press n = { s.press n with
          st := .idle, run := none, cur := {}, preempt := false, gathered := []
          slotA := (s.press n).slotA.filter (·.ctx ≠ cx), slotB := (s.press n).slotB.filter (·.ctx ≠ cx) })
      (∀ st va slot, s.lineFault (s.lc n l) (lineSlots l [i]) = some (st, va, slot) → fails st va slot) ∧
      (∀ st va, s.rangeFault cx .ex (s.pc n).pc 64 = some (st, va) → fails st va 7) ∧
      (s.rangeFault cx .ex (s.pc n).pc 64 = none →
        (l.rsv ≠ 0 → fails St.rsvNonzero 0 6) ∧
        (l.rsv = 0 → l.split = 3 → fails St.immSplitInvalid 0 6) ∧
        (l.rsv = 0 → l.split ≠ 3 → ∀ j < 6, (∀ k < j, l.stray.getLsbD k = false ∧ l.unlisted.getLsbD k = false) →
          (∀ d, slotOf i = some d → j ≤ d.slot) →
          (l.stray.getLsbD j = true → fails St.rsvNonzero 0 (BitVec.ofNat 3 j)) ∧
          (l.stray.getLsbD j = false → l.unlisted.getLsbD j = true → fails St.illegalOpcode 0 (BitVec.ofNat 3 j))) ∧
        (l.rsv = 0 → l.split ≠ 3 → l.stray = 0 → l.unlisted = 0 →
          (i = .alu l a → 24 ≤ a.sub.toNat → fails St.illegalOpcode 0 (if a.slot = .s0 then 0 else 1)) ∧
          (i = .lw l b → let va := s.x n b.rs1 + b.imm.signExtend 64
            va.toNat % 4 ≠ 0 → fails St.misaligned va (if b.slot = .s0 then 0 else 1)) ∧
          (i = .sd l c → let va := s.x n c.rs1 + c.imm.signExtend 64
            va.toNat % 8 ≠ 0 → fails St.misaligned va (if c.slot = .s0 then 0 else 1))))

/-- R298, R303, R334, R339, R443, R447, R467 and the register tables: the state after reset, where the manual gives it: no
command waits, no context, session, stream, page, take, request or long operation lives, every press is idle, no byte of
memory is other than zero, and registers hold the reset values of their tables. -/
def Obligations.ResetState : Prop :=
  let s := State.reset
  (s.pending = [] ∧ s.mem = [] ∧ s.bad = [] ∧ s.takes = [] ∧ s.subs = [] ∧ s.kstreams = [] ∧ s.folios = [] ∧ s.galley = [] ∧
    s.gsets = [] ∧ s.gslots = [] ∧ s.placed = [] ∧ s.longops = [] ∧ s.queues = [] ∧ s.buffers = [] ∧ s.hostwins = [] ∧
    s.tickets = [] ∧ s.requests = [] ∧ s.ring = [] ∧ s.heldWide = [] ∧ s.out = []) ∧
  (∀ c, (s.ctx c).st = .free ∧ (s.ctx c).pages = [] ∧ (s.ctx c).large = []) ∧
  (∀ n, (s.press n).st = .idle ∧ (s.press n).run = none ∧ (s.pc n).srSeed = 1 ∧ (s.pc n).numStatus = 0) ∧
  (∀ k, s.sessionOpen k = false) ∧
  (let f (b : Block) (o lo w : Nat) : Nat := s.regFld b 0 o lo w;
    f .taosh 0 0 7 = 96 ∧ f .taosh 0 8 5 = 4 ∧ f .taosh 0 16 16 = 10 ∧ f .taosh 0 32 16 = 20 ∧ f .taosh 0 48 16 = 1000 ∧
    f .audit 0 0 8 = 1 ∧ f .eth 0x10 16 16 = 1000 ∧ f .eth 0 50 1 = 1 ∧ f .quoin 0x400 16 16 = 1000 ∧
    f .quoin 8 0 16 = 10000 ∧ f .quoin 8 16 8 = 8 ∧ f .quoin 0 0 16 = 0xFFFF ∧ f .quoin 0x10 0 64 = 1 ∧
    f .pwr 0 0 12 = 3900 ∧ f .pwr 0 16 12 = 1000 ∧ f .pwr 8 0 12 = 3900 ∧ f .ras 0x40 0 8 = 4 ∧
    f .hbm 0 0 1 = 1 ∧ f .hbm 0 32 10 = 512 ∧ f .hbm 0x20 0 16 = 50 ∧ f .hbm 0x20 16 8 = 4 ∧ f .hbm 0x20 24 3 = 4 ∧
    f .hbm 0x28 0 16 = 64 ∧ f .hbm 0x28 16 8 = 8 ∧ f .hbm 0x28 32 8 = 24 ∧
    (∀ p < 8, f .place (0x40 * p) 16 16 = 1000 ∧ f .place (0x40 * p) 32 16 = 64 ∧ f .place (0x40 * p + 8) 0 16 = 12288 ∧
      f .place (0x40 * p + 8) 16 16 = 2048 ∧ f .place (0x40 * p + 8) 32 7 = 90 ∧ f .place (0x40 * p + 8) 40 7 = 80 ∧
      f .place (0x40 * p + 8) 48 8 = 8) ∧
    ∀ k < 32, f .quoin (0x100 + 8 * k) 0 1 = 1 ∧ f .quoin (0x100 + 8 * k) 1 2 = k / 8 ∧
      f .quoin (0x100 + 8 * k) 3 1 = k / 4 % 2)

/-- The state after reset meets the invariant. -/
def Obligations.ResetInv : Prop := State.reset.Inv

/-- Memory keeps its one canonical form through every command, whatever the state: addresses rise and no byte equal to the
zero of an unlisted address is listed. -/
def Obligations.StepKeepsMemory : Prop := ∀ s t : State, s.Inv → step s = .next t → t.Inv

/-! ### Statements put together -/

/-- IntegerResults, NopsAdvance and PredicateResults, together. -/
def Obligations.ScalarResults : Prop :=
  Claims.IntegerResults ∧ Claims.NopsAdvance ∧ Claims.PredicateResults

/-- CaseAccess, LoadResults and StoreResults, together. -/
def Obligations.ScalarAccess : Prop :=
  Claims.CaseAccess ∧ Claims.LoadResults ∧ Claims.StoreResults

/-- CompositorBranches and Branches, together. -/
def Obligations.AllBranches : Prop :=
  Claims.CompositorBranches ∧ Claims.Branches

/-- TensorMovesQueue, DescriptorMoves, PlatenQueue and RollerQueue, together. -/
def Obligations.EnginesQueue : Prop :=
  Claims.TensorMovesQueue ∧ Claims.DescriptorMoves ∧ Claims.PlatenQueue ∧ Claims.RollerQueue

/-- FenceAndEnd, ChaseBarriers and WorkCounters, together. -/
def Obligations.ChaseOperations : Prop :=
  Claims.FenceAndEnd ∧ Claims.ChaseBarriers ∧ Claims.WorkCounters

/-- FormeBarrierAndWait and SignalAdds, together. -/
def Obligations.RemoteWaits : Prop :=
  Claims.FormeBarrierAndWait ∧ Claims.SignalAdds

/-- RegionOpens and RegionEndsRequested, together. -/
def Obligations.RegionRequests : Prop :=
  Claims.RegionOpens ∧ Claims.RegionEndsRequested

/-- KernCommandsAccepted and GalleyCommandsAccepted, together. -/
def Obligations.ServiceCommandsAccepted : Prop :=
  Claims.KernCommandsAccepted ∧ Claims.GalleyCommandsAccepted

/-- GalleyExecutes and StickExecutes, together. -/
def Obligations.GalleyWork : Prop :=
  Claims.GalleyExecutes ∧ Claims.StickExecutes

/-- FormesInstalled and TakesSplit, together. -/
def Obligations.TakesInstalled : Prop :=
  Claims.FormesInstalled ∧ Claims.TakesSplit

/-- ReadsClear and AccessesNotPerformed, together. -/
def Obligations.RegisterEffects : Prop :=
  Claims.ReadsClear ∧ Claims.AccessesNotPerformed

/-- RuntimeGalleySwaps and SwapsEnd, together. -/
def Obligations.GalleySwaps : Prop :=
  Claims.RuntimeGalleySwaps ∧ Claims.SwapsEnd

/-- DeviceIdentifier and RegisterRequests, together. -/
def Obligations.DeviceRegisters : Prop :=
  Claims.DeviceIdentifier ∧ Claims.RegisterRequests

/-- PatrolAndWindows, Regulators and HbmLoopbacks, together. -/
def Obligations.HbmService : Prop :=
  Claims.PatrolAndWindows ∧ Claims.Regulators ∧ Claims.HbmLoopbacks
end

