-- ==== Sys2Proof/Laws/Map.lean ====
section
/-! SUPPORT. Sparse arrays: a read after a write, and the canonical form kept by every operation on memory. -/

namespace Sys2Proof.Machine

theorem mget_mdel_same {α : Type} (d : α) (m : Map α) (k : Nat) : mget d (mdel m k) k = d := by
  induction m with
  | nil => rfl
  | cons e m ih => obtain ⟨k', v⟩ := e; by_cases h : k' = k <;> simp [mdel, mget, h, ih]

theorem mget_mdel_ne {α : Type} (d : α) (m : Map α) (k j : Nat) (hj : j ≠ k) : mget d (mdel m k) j = mget d m j := by
  induction m with
  | nil => rfl
  | cons e m ih =>
    obtain ⟨k', v⟩ := e
    by_cases h : k' = k
    · subst h; simp [mdel, mget, ih, Ne.symm hj]
    · simp [mdel, mget, h, ih]

theorem mget_mput {α : Type} (d : α) (m : Map α) (k j : Nat) (v : α) :
    mget d (mput m k v) j = if k = j then v else mget d m j := by
  induction m with
  | nil => simp [mput, mget]
  | cons e m ih =>
    obtain ⟨k', v'⟩ := e
    by_cases h1 : k < k'
    · simp [mput, h1, mget]
    · by_cases h2 : k = k'
      · subst h2; by_cases h : k = j <;> simp [mput, mget, h]
      · simp only [mput, h1, h2, if_false, mget, ih]
        by_cases h3 : k' = j
        · subst h3; simp [h2]
        · simp [h3]

/-- A read of a sparse array after a write. -/
theorem mget_mset {α : Type} [DecidableEq α] (d : α) (m : Map α) (k j : Nat) (v : α) :
    mget d (mset d m k v) j = if k = j then v else mget d m j := by
  by_cases hv : v = d
  · subst hv; by_cases h : k = j
    · subst h; simp [mset, mget_mdel_same]
    · simp [mset, h, mget_mdel_ne v m k j (Ne.symm h)]
  · simp [mset, hv, mget_mput]

theorem mfind_mput {α : Type} (m : Map α) (k j : Nat) (v : α) :
    mfind? (mput m k v) j = if k = j then some v else mfind? m j := by
  induction m with
  | nil => simp [mput, mfind?]
  | cons e m ih =>
    obtain ⟨k', v'⟩ := e
    by_cases h1 : k < k'
    · simp [mput, h1, mfind?]
    · by_cases h2 : k = k'
      · subst h2; by_cases h : k = j <;> simp [mput, mfind?, h]
      · simp only [mput, h1, h2, if_false, mfind?, ih]
        by_cases h3 : k' = j
        · subst h3; simp [h2]
        · simp [h3]

theorem mfind_mdel_same {α : Type} (m : Map α) (k : Nat) : mfind? (mdel m k) k = none := by
  induction m with
  | nil => rfl
  | cons e m ih => obtain ⟨k', v⟩ := e; by_cases h : k' = k <;> simp [mdel, mfind?, h, ih]

/-! ### The canonical form -/

/-- Every key of a sparse array is at least `b`, the keys rise and no entry is the default: the canonical form, in a shape
for induction. -/
def rising {α : Type} [DecidableEq α] (d : α) : Nat → Map α → Bool
  | _, [] => true
  | b, (k, v) :: m => decide (b ≤ k) && !decide (v = d) && rising d (k + 1) m

theorem rising_mono {α : Type} [DecidableEq α] (d : α) (m : Map α) (b b' : Nat) (hb : b' ≤ b) (h : rising d b m = true) :
    rising d b' m = true := by
  cases m with
  | nil => rfl
  | cons e m =>
    obtain ⟨k, v⟩ := e
    simp only [rising, Bool.and_eq_true, decide_eq_true_eq] at h ⊢
    exact ⟨⟨Nat.le_trans hb h.1.1, h.1.2⟩, h.2⟩

theorem mwf_iff_rising {α : Type} [DecidableEq α] (d : α) (m : Map α) : mwf d m = true ↔ rising d 0 m = true := by
  have key : ∀ (m : Map α) (k : Nat) (v : α), mwf d ((k, v) :: m) = true ↔ (¬v = d ∧ rising d (k + 1) m = true) := by
    intro m
    induction m with
    | nil => intro k v; simp [mwf, rising]
    | cons e m ih =>
      intro k v
      obtain ⟨k', v'⟩ := e
      have h' := ih k' v'
      simp only [mwf, Bool.and_eq_true, h', rising, decide_eq_true_eq, Bool.not_eq_true', decide_eq_false_iff_not]
      constructor
      · rintro ⟨⟨h1, h2⟩, h3, h4⟩
        exact ⟨h1, ⟨by omega, h3⟩, h4⟩
      · rintro ⟨h1, ⟨h2, h3⟩, h4⟩
        exact ⟨⟨h1, by omega⟩, h3, h4⟩
  cases m with
  | nil => simp [mwf, rising]
  | cons e m =>
    obtain ⟨k, v⟩ := e
    rw [key]; simp [rising]

theorem rising_mput {α : Type} [DecidableEq α] (d : α) (m : Map α) (b k : Nat) (v : α) (hk : b ≤ k) (hv : v ≠ d)
    (h : rising d b m = true) : rising d b (mput m k v) = true := by
  induction m generalizing b with
  | nil => simp [mput, rising, hk, hv]
  | cons e m ih =>
    obtain ⟨k', v'⟩ := e
    simp only [rising, Bool.and_eq_true, decide_eq_true_eq, Bool.not_eq_true', decide_eq_false_iff_not] at h
    by_cases h1 : k < k'
    · simp [mput, h1, rising, hk, hv, h.1.2, h.2]
    · by_cases h2 : k = k'
      · subst h2; simp [mput, rising, hk, hv, h.2]
      · have h3 : k' + 1 ≤ k := by omega
        simp [mput, h1, h2, rising, h.1.1, h.1.2, ih _ h3 h.2]

theorem rising_mdel {α : Type} [DecidableEq α] (d : α) (m : Map α) (b k : Nat) (h : rising d b m = true) :
    rising d b (mdel m k) = true := by
  induction m generalizing b with
  | nil => rfl
  | cons e m ih =>
    obtain ⟨k', v'⟩ := e
    simp only [rising, Bool.and_eq_true, decide_eq_true_eq, Bool.not_eq_true', decide_eq_false_iff_not] at h
    by_cases h2 : k' = k
    · simp only [mdel, h2, if_true]
      exact ih b (rising_mono d m _ _ (by omega) h.2)
    · simp [mdel, h2, rising, h.1.1, h.1.2, ih _ h.2]

theorem mwf_mset {α : Type} [DecidableEq α] (d : α) (m : Map α) (k : Nat) (v : α) (h : mwf d m = true) :
    mwf d (mset d m k v) = true := by
  rw [mwf_iff_rising] at *
  unfold mset
  split
  · exact rising_mdel d m 0 k h
  · exact rising_mput d m 0 k v (Nat.zero_le _) (by assumption) h

theorem rising_filter {α : Type} [DecidableEq α] (d : α) (m : Map α) (b : Nat) (p : Nat × α → Bool)
    (h : rising d b m = true) : rising d b (m.filter p) = true := by
  induction m generalizing b with
  | nil => rfl
  | cons e m ih =>
    obtain ⟨k, v⟩ := e
    simp only [rising, Bool.and_eq_true, decide_eq_true_eq, Bool.not_eq_true', decide_eq_false_iff_not] at h
    by_cases hp : p (k, v) = true
    · simp [List.filter, hp, rising, h.1.1, h.1.2, ih _ h.2]
    · simp only [List.filter, hp]
      exact ih b (rising_mono d m _ _ (by omega) h.2)

/-! ### Memory (Host.Cell lists) -/

/-- One byte written keeps the canonical form. -/
theorem Memory.wf_putCell (m : List Host.Cell) (a : Nat) (b : Byte) (h : Memory.wf m = true) : Memory.wf (putCell m a b) = true :=
  mwf_mset 0 m a b h

theorem Memory.wf_putCells (m : List Host.Cell) (a : Nat) (bs : List Byte) (h : Memory.wf m = true) :
    Memory.wf (putCells m a bs) = true := by
  induction bs generalizing m a with
  | nil => exact h
  | cons b bs ih => exact ih _ _ (Memory.wf_putCell m a b h)

theorem Memory.wf_wipe (m : List Host.Cell) (a n : Nat) (h : Memory.wf m = true) : Memory.wf (wipe m a n) = true := by
  rw [mwf_iff_rising] at *
  exact rising_filter 0 m 0 _ h

theorem Memory.wf_restore (m c : List Host.Cell) (a : Nat) (h : Memory.wf m = true) : Memory.wf (restore m a c) = true := by
  unfold restore
  induction c generalizing m with
  | nil => exact h
  | cons e c ih => exact ih _ (Memory.wf_putCell m _ _ h)

/-- A read of memory after one byte is written. -/
theorem cell_putCell (m : List Host.Cell) (a j : Nat) (b : Byte) :
    cell (putCell m a b) j = if a = j then b else cell m j := mget_mset 0 m a j b

/-- Bytes outside a written run read as before. -/
theorem cell_putCells_outside (m : List Host.Cell) (a j : Nat) (bs : List Byte) (h : j < a ∨ a + bs.length ≤ j) :
    cell (putCells m a bs) j = cell m j := by
  induction bs generalizing m a with
  | nil => rfl
  | cons b bs ih =>
    have hl : (b :: bs).length = bs.length + 1 := rfl
    rw [hl] at h
    have h1 : a ≠ j := by omega
    show cell (putCells (putCell m a b) (a + 1) bs) j = cell m j
    rw [ih _ _ (by omega), cell_putCell, if_neg h1]

/-- Bytes of a written run read as written. -/
theorem cell_putCells_inside (m : List Host.Cell) (a i : Nat) (bs : List Byte) (h : i < bs.length) :
    cell (putCells m a bs) (a + i) = bs[i] := by
  induction bs generalizing m a i with
  | nil => exact absurd h (Nat.not_lt_zero _)
  | cons b bs ih =>
    show cell (putCells (putCell m a b) (a + 1) bs) (a + i) = _
    cases i with
    | zero =>
      rw [cell_putCells_outside _ _ _ _ (by omega), cell_putCell]
      simp
    | succ i =>
      have h' : i < bs.length := by simpa using h
      have := ih (putCell m a b) (a + 1) i h'
      rw [show a + (i + 1) = a + 1 + i by omega, this]
      rfl

end Sys2Proof.Machine
end

