-- ==== Sys2Proof/Laws/State.lean ====
section
/-! SUPPORT. One lemma for each field of the state and each of its updates: what an update leaves, and what a read of the
unit that it writes gives. -/

namespace Sys2Proof.Machine

variable (s : State)

/-! ### A unit read after it is written -/

@[simp] theorem State.press_setPress (n m : Nat) (x : Press) : (s.setPress n x).press m = if n = m then x else s.press m := by
  simp [State.setPress, State.press, mget_mset]
@[simp] theorem State.comp_setComp (n m : Nat) (x : Comp) : (s.setComp n x).comp m = if n = m then x else s.comp m := by
  simp [State.setComp, State.comp, mget_mset]
@[simp] theorem State.chase_setChase (n m : Nat) (x : Chase) : (s.setChase n x).chase m = if n = m then x else s.chase m := by
  simp [State.setChase, State.chase, mget_mset]
@[simp] theorem State.ctx_setCtx (n m : Nat) (x : Ctx) : (s.setCtx n x).ctx m = if n = m then x else s.ctx m := by
  simp [State.setCtx, State.ctx, mget_mset]
@[simp] theorem State.part_setPart (n m : Nat) (x : Part) : (s.setPart n x).part m = if n = m then x else s.part m := by
  simp [State.setPart, State.part, mget_mset]
@[simp] theorem State.session_setSession (n m : Nat) (x : Session) : (s.setSession n x).session m = if n = m then x else s.session m := by
  simp [State.setSession, State.session, mget_mset]
@[simp] theorem State.link_setLink (n m : Nat) (x : Link) : (s.setLink n x).link m = if n = m then x else s.link m := by
  simp [State.setLink, State.link, mget_mset]
@[simp] theorem State.pc_setPc (n m : Nat) (c : PressCtx) : (s.setPc n c).pc m = if n = m then c else s.pc m := by
  unfold State.setPc State.pc
  rw [State.press_setPress]
  split <;> simp_all
@[simp] theorem State.reg_setReg_same (b : Block) (i o : Nat) (v : W64) : (s.setReg b i o v).reg b i o = v := by
  simp [State.setReg, State.reg, mget_mset]

/-! ### setPress -/

@[simp] theorem State.pending_setPress (n : Nat) (p : Press) : (s.setPress n p).pending = s.pending := rfl
@[simp] theorem State.free_setPress (n : Nat) (p : Press) : (s.setPress n p).free = s.free := rfl
@[simp] theorem State.mem_setPress (n : Nat) (p : Press) : (s.setPress n p).mem = s.mem := rfl
@[simp] theorem State.bad_setPress (n : Nat) (p : Press) : (s.setPress n p).bad = s.bad := rfl
@[simp] theorem State.regs_setPress (n : Nat) (p : Press) : (s.setPress n p).regs = s.regs := rfl
@[simp] theorem State.comps_setPress (n : Nat) (p : Press) : (s.setPress n p).comps = s.comps := rfl
@[simp] theorem State.chases_setPress (n : Nat) (p : Press) : (s.setPress n p).chases = s.chases := rfl
@[simp] theorem State.useClock_setPress (n : Nat) (p : Press) : (s.setPress n p).useClock = s.useClock := rfl
@[simp] theorem State.ctxs_setPress (n : Nat) (p : Press) : (s.setPress n p).ctxs = s.ctxs := rfl
@[simp] theorem State.formes_setPress (n : Nat) (p : Press) : (s.setPress n p).formes = s.formes := rfl
@[simp] theorem State.fbars_setPress (n : Nat) (p : Press) : (s.setPress n p).fbars = s.fbars := rfl
@[simp] theorem State.parts_setPress (n : Nat) (p : Press) : (s.setPress n p).parts = s.parts := rfl
@[simp] theorem State.frames_setPress (n : Nat) (p : Press) : (s.setPress n p).frames = s.frames := rfl
@[simp] theorem State.poolFrames_setPress (n : Nat) (p : Press) : (s.setPress n p).poolFrames = s.poolFrames := rfl
@[simp] theorem State.deadFrames_setPress (n : Nat) (p : Press) : (s.setPress n p).deadFrames = s.deadFrames := rfl
@[simp] theorem State.takes_setPress (n : Nat) (p : Press) : (s.setPress n p).takes = s.takes := rfl
@[simp] theorem State.nextTake_setPress (n : Nat) (p : Press) : (s.setPress n p).nextTake = s.nextTake := rfl
@[simp] theorem State.subs_setPress (n : Nat) (p : Press) : (s.setPress n p).subs = s.subs := rfl
@[simp] theorem State.nextSub_setPress (n : Nat) (p : Press) : (s.setPress n p).nextSub = s.nextSub := rfl
@[simp] theorem State.kstreams_setPress (n : Nat) (p : Press) : (s.setPress n p).kstreams = s.kstreams := rfl
@[simp] theorem State.folios_setPress (n : Nat) (p : Press) : (s.setPress n p).folios = s.folios := rfl
@[simp] theorem State.nextCmd_setPress (n : Nat) (p : Press) : (s.setPress n p).nextCmd = s.nextCmd := rfl
@[simp] theorem State.galley_setPress (n : Nat) (p : Press) : (s.setPress n p).galley = s.galley := rfl
@[simp] theorem State.gsets_setPress (n : Nat) (p : Press) : (s.setPress n p).gsets = s.gsets := rfl
@[simp] theorem State.gslots_setPress (n : Nat) (p : Press) : (s.setPress n p).gslots = s.gslots := rfl
@[simp] theorem State.placed_setPress (n : Nat) (p : Press) : (s.setPress n p).placed = s.placed := rfl
@[simp] theorem State.images_setPress (n : Nat) (p : Press) : (s.setPress n p).images = s.images := rfl
@[simp] theorem State.unmaps_setPress (n : Nat) (p : Press) : (s.setPress n p).unmaps = s.unmaps := rfl
@[simp] theorem State.longops_setPress (n : Nat) (p : Press) : (s.setPress n p).longops = s.longops := rfl
@[simp] theorem State.queues_setPress (n : Nat) (p : Press) : (s.setPress n p).queues = s.queues := rfl
@[simp] theorem State.buffers_setPress (n : Nat) (p : Press) : (s.setPress n p).buffers = s.buffers := rfl
@[simp] theorem State.hostwins_setPress (n : Nat) (p : Press) : (s.setPress n p).hostwins = s.hostwins := rfl
@[simp] theorem State.tickets_setPress (n : Nat) (p : Press) : (s.setPress n p).tickets = s.tickets := rfl
@[simp] theorem State.sessions_setPress (n : Nat) (p : Press) : (s.setPress n p).sessions = s.sessions := rfl
@[simp] theorem State.requests_setPress (n : Nat) (p : Press) : (s.setPress n p).requests = s.requests := rfl
@[simp] theorem State.nextTag_setPress (n : Nat) (p : Press) : (s.setPress n p).nextTag = s.nextTag := rfl
@[simp] theorem State.links_setPress (n : Nat) (p : Press) : (s.setPress n p).links = s.links := rfl
@[simp] theorem State.colls_setPress (n : Nat) (p : Press) : (s.setPress n p).colls = s.colls := rfl
@[simp] theorem State.updTable_setPress (n : Nat) (p : Press) : (s.setPress n p).updTable = s.updTable := rfl
@[simp] theorem State.collEarly_setPress (n : Nat) (p : Press) : (s.setPress n p).collEarly = s.collEarly := rfl
@[simp] theorem State.doorbells_setPress (n : Nat) (p : Press) : (s.setPress n p).doorbells = s.doorbells := rfl
@[simp] theorem State.atomics_setPress (n : Nat) (p : Press) : (s.setPress n p).atomics = s.atomics := rfl
@[simp] theorem State.atomicsEnd_setPress (n : Nat) (p : Press) : (s.setPress n p).atomicsEnd = s.atomicsEnd := rfl
@[simp] theorem State.sets_setPress (n : Nat) (p : Press) : (s.setPress n p).sets = s.sets := rfl
@[simp] theorem State.incs_setPress (n : Nat) (p : Press) : (s.setPress n p).incs = s.incs := rfl
@[simp] theorem State.voids_setPress (n : Nat) (p : Press) : (s.setPress n p).voids = s.voids := rfl
@[simp] theorem State.audit_setPress (n : Nat) (p : Press) : (s.setPress n p).audit = s.audit := rfl
@[simp] theorem State.nocHeld_setPress (n : Nat) (p : Press) : (s.setPress n p).nocHeld = s.nocHeld := rfl
@[simp] theorem State.pcFails_setPress (n : Nat) (p : Press) : (s.setPress n p).pcFails = s.pcFails := rfl
@[simp] theorem State.pcUes_setPress (n : Nat) (p : Press) : (s.setPress n p).pcUes = s.pcUes := rfl
@[simp] theorem State.pcHeld_setPress (n : Nat) (p : Press) : (s.setPress n p).pcHeld = s.pcHeld := rfl
@[simp] theorem State.mapsOut_setPress (n : Nat) (p : Press) : (s.setPress n p).mapsOut = s.mapsOut := rfl
@[simp] theorem State.loopReqs_setPress (n : Nat) (p : Press) : (s.setPress n p).loopReqs = s.loopReqs := rfl
@[simp] theorem State.proofHr_setPress (n : Nat) (p : Press) : (s.setPress n p).proofHr = s.proofHr := rfl
@[simp] theorem State.sec_setPress (n : Nat) (p : Press) : (s.setPress n p).sec = s.sec := rfl
@[simp] theorem State.ledger_setPress (n : Nat) (p : Press) : (s.setPress n p).ledger = s.ledger := rfl
@[simp] theorem State.flash_setPress (n : Nat) (p : Press) : (s.setPress n p).flash = s.flash := rfl
@[simp] theorem State.ring_setPress (n : Nat) (p : Press) : (s.setPress n p).ring = s.ring := rfl
@[simp] theorem State.heldWide_setPress (n : Nat) (p : Press) : (s.setPress n p).heldWide = s.heldWide := rfl
@[simp] theorem State.power_setPress (n : Nat) (p : Press) : (s.setPress n p).power = s.power := rfl
@[simp] theorem State.pins_setPress (n : Nat) (p : Press) : (s.setPress n p).pins = s.pins := rfl
@[simp] theorem State.out_setPress (n : Nat) (p : Press) : (s.setPress n p).out = s.out := rfl

/-! ### setPc -/

@[simp] theorem State.pending_setPc (n : Nat) (c : PressCtx) : (s.setPc n c).pending = s.pending := rfl
@[simp] theorem State.free_setPc (n : Nat) (c : PressCtx) : (s.setPc n c).free = s.free := rfl
@[simp] theorem State.mem_setPc (n : Nat) (c : PressCtx) : (s.setPc n c).mem = s.mem := rfl
@[simp] theorem State.bad_setPc (n : Nat) (c : PressCtx) : (s.setPc n c).bad = s.bad := rfl
@[simp] theorem State.regs_setPc (n : Nat) (c : PressCtx) : (s.setPc n c).regs = s.regs := rfl
@[simp] theorem State.comps_setPc (n : Nat) (c : PressCtx) : (s.setPc n c).comps = s.comps := rfl
@[simp] theorem State.chases_setPc (n : Nat) (c : PressCtx) : (s.setPc n c).chases = s.chases := rfl
@[simp] theorem State.useClock_setPc (n : Nat) (c : PressCtx) : (s.setPc n c).useClock = s.useClock := rfl
@[simp] theorem State.ctxs_setPc (n : Nat) (c : PressCtx) : (s.setPc n c).ctxs = s.ctxs := rfl
@[simp] theorem State.formes_setPc (n : Nat) (c : PressCtx) : (s.setPc n c).formes = s.formes := rfl
@[simp] theorem State.fbars_setPc (n : Nat) (c : PressCtx) : (s.setPc n c).fbars = s.fbars := rfl
@[simp] theorem State.parts_setPc (n : Nat) (c : PressCtx) : (s.setPc n c).parts = s.parts := rfl
@[simp] theorem State.frames_setPc (n : Nat) (c : PressCtx) : (s.setPc n c).frames = s.frames := rfl
@[simp] theorem State.poolFrames_setPc (n : Nat) (c : PressCtx) : (s.setPc n c).poolFrames = s.poolFrames := rfl
@[simp] theorem State.deadFrames_setPc (n : Nat) (c : PressCtx) : (s.setPc n c).deadFrames = s.deadFrames := rfl
@[simp] theorem State.takes_setPc (n : Nat) (c : PressCtx) : (s.setPc n c).takes = s.takes := rfl
@[simp] theorem State.nextTake_setPc (n : Nat) (c : PressCtx) : (s.setPc n c).nextTake = s.nextTake := rfl
@[simp] theorem State.subs_setPc (n : Nat) (c : PressCtx) : (s.setPc n c).subs = s.subs := rfl
@[simp] theorem State.nextSub_setPc (n : Nat) (c : PressCtx) : (s.setPc n c).nextSub = s.nextSub := rfl
@[simp] theorem State.kstreams_setPc (n : Nat) (c : PressCtx) : (s.setPc n c).kstreams = s.kstreams := rfl
@[simp] theorem State.folios_setPc (n : Nat) (c : PressCtx) : (s.setPc n c).folios = s.folios := rfl
@[simp] theorem State.nextCmd_setPc (n : Nat) (c : PressCtx) : (s.setPc n c).nextCmd = s.nextCmd := rfl
@[simp] theorem State.galley_setPc (n : Nat) (c : PressCtx) : (s.setPc n c).galley = s.galley := rfl
@[simp] theorem State.gsets_setPc (n : Nat) (c : PressCtx) : (s.setPc n c).gsets = s.gsets := rfl
@[simp] theorem State.gslots_setPc (n : Nat) (c : PressCtx) : (s.setPc n c).gslots = s.gslots := rfl
@[simp] theorem State.placed_setPc (n : Nat) (c : PressCtx) : (s.setPc n c).placed = s.placed := rfl
@[simp] theorem State.images_setPc (n : Nat) (c : PressCtx) : (s.setPc n c).images = s.images := rfl
@[simp] theorem State.unmaps_setPc (n : Nat) (c : PressCtx) : (s.setPc n c).unmaps = s.unmaps := rfl
@[simp] theorem State.longops_setPc (n : Nat) (c : PressCtx) : (s.setPc n c).longops = s.longops := rfl
@[simp] theorem State.queues_setPc (n : Nat) (c : PressCtx) : (s.setPc n c).queues = s.queues := rfl
@[simp] theorem State.buffers_setPc (n : Nat) (c : PressCtx) : (s.setPc n c).buffers = s.buffers := rfl
@[simp] theorem State.hostwins_setPc (n : Nat) (c : PressCtx) : (s.setPc n c).hostwins = s.hostwins := rfl
@[simp] theorem State.tickets_setPc (n : Nat) (c : PressCtx) : (s.setPc n c).tickets = s.tickets := rfl
@[simp] theorem State.sessions_setPc (n : Nat) (c : PressCtx) : (s.setPc n c).sessions = s.sessions := rfl
@[simp] theorem State.requests_setPc (n : Nat) (c : PressCtx) : (s.setPc n c).requests = s.requests := rfl
@[simp] theorem State.nextTag_setPc (n : Nat) (c : PressCtx) : (s.setPc n c).nextTag = s.nextTag := rfl
@[simp] theorem State.links_setPc (n : Nat) (c : PressCtx) : (s.setPc n c).links = s.links := rfl
@[simp] theorem State.colls_setPc (n : Nat) (c : PressCtx) : (s.setPc n c).colls = s.colls := rfl
@[simp] theorem State.updTable_setPc (n : Nat) (c : PressCtx) : (s.setPc n c).updTable = s.updTable := rfl
@[simp] theorem State.collEarly_setPc (n : Nat) (c : PressCtx) : (s.setPc n c).collEarly = s.collEarly := rfl
@[simp] theorem State.doorbells_setPc (n : Nat) (c : PressCtx) : (s.setPc n c).doorbells = s.doorbells := rfl
@[simp] theorem State.atomics_setPc (n : Nat) (c : PressCtx) : (s.setPc n c).atomics = s.atomics := rfl
@[simp] theorem State.atomicsEnd_setPc (n : Nat) (c : PressCtx) : (s.setPc n c).atomicsEnd = s.atomicsEnd := rfl
@[simp] theorem State.sets_setPc (n : Nat) (c : PressCtx) : (s.setPc n c).sets = s.sets := rfl
@[simp] theorem State.incs_setPc (n : Nat) (c : PressCtx) : (s.setPc n c).incs = s.incs := rfl
@[simp] theorem State.voids_setPc (n : Nat) (c : PressCtx) : (s.setPc n c).voids = s.voids := rfl
@[simp] theorem State.audit_setPc (n : Nat) (c : PressCtx) : (s.setPc n c).audit = s.audit := rfl
@[simp] theorem State.nocHeld_setPc (n : Nat) (c : PressCtx) : (s.setPc n c).nocHeld = s.nocHeld := rfl
@[simp] theorem State.pcFails_setPc (n : Nat) (c : PressCtx) : (s.setPc n c).pcFails = s.pcFails := rfl
@[simp] theorem State.pcUes_setPc (n : Nat) (c : PressCtx) : (s.setPc n c).pcUes = s.pcUes := rfl
@[simp] theorem State.pcHeld_setPc (n : Nat) (c : PressCtx) : (s.setPc n c).pcHeld = s.pcHeld := rfl
@[simp] theorem State.mapsOut_setPc (n : Nat) (c : PressCtx) : (s.setPc n c).mapsOut = s.mapsOut := rfl
@[simp] theorem State.loopReqs_setPc (n : Nat) (c : PressCtx) : (s.setPc n c).loopReqs = s.loopReqs := rfl
@[simp] theorem State.proofHr_setPc (n : Nat) (c : PressCtx) : (s.setPc n c).proofHr = s.proofHr := rfl
@[simp] theorem State.sec_setPc (n : Nat) (c : PressCtx) : (s.setPc n c).sec = s.sec := rfl
@[simp] theorem State.ledger_setPc (n : Nat) (c : PressCtx) : (s.setPc n c).ledger = s.ledger := rfl
@[simp] theorem State.flash_setPc (n : Nat) (c : PressCtx) : (s.setPc n c).flash = s.flash := rfl
@[simp] theorem State.ring_setPc (n : Nat) (c : PressCtx) : (s.setPc n c).ring = s.ring := rfl
@[simp] theorem State.heldWide_setPc (n : Nat) (c : PressCtx) : (s.setPc n c).heldWide = s.heldWide := rfl
@[simp] theorem State.power_setPc (n : Nat) (c : PressCtx) : (s.setPc n c).power = s.power := rfl
@[simp] theorem State.pins_setPc (n : Nat) (c : PressCtx) : (s.setPc n c).pins = s.pins := rfl
@[simp] theorem State.out_setPc (n : Nat) (c : PressCtx) : (s.setPc n c).out = s.out := rfl

/-! ### setComp -/

@[simp] theorem State.pending_setComp (n : Nat) (c : Comp) : (s.setComp n c).pending = s.pending := rfl
@[simp] theorem State.free_setComp (n : Nat) (c : Comp) : (s.setComp n c).free = s.free := rfl
@[simp] theorem State.mem_setComp (n : Nat) (c : Comp) : (s.setComp n c).mem = s.mem := rfl
@[simp] theorem State.bad_setComp (n : Nat) (c : Comp) : (s.setComp n c).bad = s.bad := rfl
@[simp] theorem State.regs_setComp (n : Nat) (c : Comp) : (s.setComp n c).regs = s.regs := rfl
@[simp] theorem State.presses_setComp (n : Nat) (c : Comp) : (s.setComp n c).presses = s.presses := rfl
@[simp] theorem State.chases_setComp (n : Nat) (c : Comp) : (s.setComp n c).chases = s.chases := rfl
@[simp] theorem State.useClock_setComp (n : Nat) (c : Comp) : (s.setComp n c).useClock = s.useClock := rfl
@[simp] theorem State.ctxs_setComp (n : Nat) (c : Comp) : (s.setComp n c).ctxs = s.ctxs := rfl
@[simp] theorem State.formes_setComp (n : Nat) (c : Comp) : (s.setComp n c).formes = s.formes := rfl
@[simp] theorem State.fbars_setComp (n : Nat) (c : Comp) : (s.setComp n c).fbars = s.fbars := rfl
@[simp] theorem State.parts_setComp (n : Nat) (c : Comp) : (s.setComp n c).parts = s.parts := rfl
@[simp] theorem State.frames_setComp (n : Nat) (c : Comp) : (s.setComp n c).frames = s.frames := rfl
@[simp] theorem State.poolFrames_setComp (n : Nat) (c : Comp) : (s.setComp n c).poolFrames = s.poolFrames := rfl
@[simp] theorem State.deadFrames_setComp (n : Nat) (c : Comp) : (s.setComp n c).deadFrames = s.deadFrames := rfl
@[simp] theorem State.takes_setComp (n : Nat) (c : Comp) : (s.setComp n c).takes = s.takes := rfl
@[simp] theorem State.nextTake_setComp (n : Nat) (c : Comp) : (s.setComp n c).nextTake = s.nextTake := rfl
@[simp] theorem State.subs_setComp (n : Nat) (c : Comp) : (s.setComp n c).subs = s.subs := rfl
@[simp] theorem State.nextSub_setComp (n : Nat) (c : Comp) : (s.setComp n c).nextSub = s.nextSub := rfl
@[simp] theorem State.kstreams_setComp (n : Nat) (c : Comp) : (s.setComp n c).kstreams = s.kstreams := rfl
@[simp] theorem State.folios_setComp (n : Nat) (c : Comp) : (s.setComp n c).folios = s.folios := rfl
@[simp] theorem State.nextCmd_setComp (n : Nat) (c : Comp) : (s.setComp n c).nextCmd = s.nextCmd := rfl
@[simp] theorem State.galley_setComp (n : Nat) (c : Comp) : (s.setComp n c).galley = s.galley := rfl
@[simp] theorem State.gsets_setComp (n : Nat) (c : Comp) : (s.setComp n c).gsets = s.gsets := rfl
@[simp] theorem State.gslots_setComp (n : Nat) (c : Comp) : (s.setComp n c).gslots = s.gslots := rfl
@[simp] theorem State.placed_setComp (n : Nat) (c : Comp) : (s.setComp n c).placed = s.placed := rfl
@[simp] theorem State.images_setComp (n : Nat) (c : Comp) : (s.setComp n c).images = s.images := rfl
@[simp] theorem State.unmaps_setComp (n : Nat) (c : Comp) : (s.setComp n c).unmaps = s.unmaps := rfl
@[simp] theorem State.longops_setComp (n : Nat) (c : Comp) : (s.setComp n c).longops = s.longops := rfl
@[simp] theorem State.queues_setComp (n : Nat) (c : Comp) : (s.setComp n c).queues = s.queues := rfl
@[simp] theorem State.buffers_setComp (n : Nat) (c : Comp) : (s.setComp n c).buffers = s.buffers := rfl
@[simp] theorem State.hostwins_setComp (n : Nat) (c : Comp) : (s.setComp n c).hostwins = s.hostwins := rfl
@[simp] theorem State.tickets_setComp (n : Nat) (c : Comp) : (s.setComp n c).tickets = s.tickets := rfl
@[simp] theorem State.sessions_setComp (n : Nat) (c : Comp) : (s.setComp n c).sessions = s.sessions := rfl
@[simp] theorem State.requests_setComp (n : Nat) (c : Comp) : (s.setComp n c).requests = s.requests := rfl
@[simp] theorem State.nextTag_setComp (n : Nat) (c : Comp) : (s.setComp n c).nextTag = s.nextTag := rfl
@[simp] theorem State.links_setComp (n : Nat) (c : Comp) : (s.setComp n c).links = s.links := rfl
@[simp] theorem State.colls_setComp (n : Nat) (c : Comp) : (s.setComp n c).colls = s.colls := rfl
@[simp] theorem State.updTable_setComp (n : Nat) (c : Comp) : (s.setComp n c).updTable = s.updTable := rfl
@[simp] theorem State.collEarly_setComp (n : Nat) (c : Comp) : (s.setComp n c).collEarly = s.collEarly := rfl
@[simp] theorem State.doorbells_setComp (n : Nat) (c : Comp) : (s.setComp n c).doorbells = s.doorbells := rfl
@[simp] theorem State.atomics_setComp (n : Nat) (c : Comp) : (s.setComp n c).atomics = s.atomics := rfl
@[simp] theorem State.atomicsEnd_setComp (n : Nat) (c : Comp) : (s.setComp n c).atomicsEnd = s.atomicsEnd := rfl
@[simp] theorem State.sets_setComp (n : Nat) (c : Comp) : (s.setComp n c).sets = s.sets := rfl
@[simp] theorem State.incs_setComp (n : Nat) (c : Comp) : (s.setComp n c).incs = s.incs := rfl
@[simp] theorem State.voids_setComp (n : Nat) (c : Comp) : (s.setComp n c).voids = s.voids := rfl
@[simp] theorem State.audit_setComp (n : Nat) (c : Comp) : (s.setComp n c).audit = s.audit := rfl
@[simp] theorem State.nocHeld_setComp (n : Nat) (c : Comp) : (s.setComp n c).nocHeld = s.nocHeld := rfl
@[simp] theorem State.pcFails_setComp (n : Nat) (c : Comp) : (s.setComp n c).pcFails = s.pcFails := rfl
@[simp] theorem State.pcUes_setComp (n : Nat) (c : Comp) : (s.setComp n c).pcUes = s.pcUes := rfl
@[simp] theorem State.pcHeld_setComp (n : Nat) (c : Comp) : (s.setComp n c).pcHeld = s.pcHeld := rfl
@[simp] theorem State.mapsOut_setComp (n : Nat) (c : Comp) : (s.setComp n c).mapsOut = s.mapsOut := rfl
@[simp] theorem State.loopReqs_setComp (n : Nat) (c : Comp) : (s.setComp n c).loopReqs = s.loopReqs := rfl
@[simp] theorem State.proofHr_setComp (n : Nat) (c : Comp) : (s.setComp n c).proofHr = s.proofHr := rfl
@[simp] theorem State.sec_setComp (n : Nat) (c : Comp) : (s.setComp n c).sec = s.sec := rfl
@[simp] theorem State.ledger_setComp (n : Nat) (c : Comp) : (s.setComp n c).ledger = s.ledger := rfl
@[simp] theorem State.flash_setComp (n : Nat) (c : Comp) : (s.setComp n c).flash = s.flash := rfl
@[simp] theorem State.ring_setComp (n : Nat) (c : Comp) : (s.setComp n c).ring = s.ring := rfl
@[simp] theorem State.heldWide_setComp (n : Nat) (c : Comp) : (s.setComp n c).heldWide = s.heldWide := rfl
@[simp] theorem State.power_setComp (n : Nat) (c : Comp) : (s.setComp n c).power = s.power := rfl
@[simp] theorem State.pins_setComp (n : Nat) (c : Comp) : (s.setComp n c).pins = s.pins := rfl
@[simp] theorem State.out_setComp (n : Nat) (c : Comp) : (s.setComp n c).out = s.out := rfl

/-! ### setChase -/

@[simp] theorem State.pending_setChase (n : Nat) (c : Chase) : (s.setChase n c).pending = s.pending := rfl
@[simp] theorem State.free_setChase (n : Nat) (c : Chase) : (s.setChase n c).free = s.free := rfl
@[simp] theorem State.mem_setChase (n : Nat) (c : Chase) : (s.setChase n c).mem = s.mem := rfl
@[simp] theorem State.bad_setChase (n : Nat) (c : Chase) : (s.setChase n c).bad = s.bad := rfl
@[simp] theorem State.regs_setChase (n : Nat) (c : Chase) : (s.setChase n c).regs = s.regs := rfl
@[simp] theorem State.presses_setChase (n : Nat) (c : Chase) : (s.setChase n c).presses = s.presses := rfl
@[simp] theorem State.comps_setChase (n : Nat) (c : Chase) : (s.setChase n c).comps = s.comps := rfl
@[simp] theorem State.useClock_setChase (n : Nat) (c : Chase) : (s.setChase n c).useClock = s.useClock := rfl
@[simp] theorem State.ctxs_setChase (n : Nat) (c : Chase) : (s.setChase n c).ctxs = s.ctxs := rfl
@[simp] theorem State.formes_setChase (n : Nat) (c : Chase) : (s.setChase n c).formes = s.formes := rfl
@[simp] theorem State.fbars_setChase (n : Nat) (c : Chase) : (s.setChase n c).fbars = s.fbars := rfl
@[simp] theorem State.parts_setChase (n : Nat) (c : Chase) : (s.setChase n c).parts = s.parts := rfl
@[simp] theorem State.frames_setChase (n : Nat) (c : Chase) : (s.setChase n c).frames = s.frames := rfl
@[simp] theorem State.poolFrames_setChase (n : Nat) (c : Chase) : (s.setChase n c).poolFrames = s.poolFrames := rfl
@[simp] theorem State.deadFrames_setChase (n : Nat) (c : Chase) : (s.setChase n c).deadFrames = s.deadFrames := rfl
@[simp] theorem State.takes_setChase (n : Nat) (c : Chase) : (s.setChase n c).takes = s.takes := rfl
@[simp] theorem State.nextTake_setChase (n : Nat) (c : Chase) : (s.setChase n c).nextTake = s.nextTake := rfl
@[simp] theorem State.subs_setChase (n : Nat) (c : Chase) : (s.setChase n c).subs = s.subs := rfl
@[simp] theorem State.nextSub_setChase (n : Nat) (c : Chase) : (s.setChase n c).nextSub = s.nextSub := rfl
@[simp] theorem State.kstreams_setChase (n : Nat) (c : Chase) : (s.setChase n c).kstreams = s.kstreams := rfl
@[simp] theorem State.folios_setChase (n : Nat) (c : Chase) : (s.setChase n c).folios = s.folios := rfl
@[simp] theorem State.nextCmd_setChase (n : Nat) (c : Chase) : (s.setChase n c).nextCmd = s.nextCmd := rfl
@[simp] theorem State.galley_setChase (n : Nat) (c : Chase) : (s.setChase n c).galley = s.galley := rfl
@[simp] theorem State.gsets_setChase (n : Nat) (c : Chase) : (s.setChase n c).gsets = s.gsets := rfl
@[simp] theorem State.gslots_setChase (n : Nat) (c : Chase) : (s.setChase n c).gslots = s.gslots := rfl
@[simp] theorem State.placed_setChase (n : Nat) (c : Chase) : (s.setChase n c).placed = s.placed := rfl
@[simp] theorem State.images_setChase (n : Nat) (c : Chase) : (s.setChase n c).images = s.images := rfl
@[simp] theorem State.unmaps_setChase (n : Nat) (c : Chase) : (s.setChase n c).unmaps = s.unmaps := rfl
@[simp] theorem State.longops_setChase (n : Nat) (c : Chase) : (s.setChase n c).longops = s.longops := rfl
@[simp] theorem State.queues_setChase (n : Nat) (c : Chase) : (s.setChase n c).queues = s.queues := rfl
@[simp] theorem State.buffers_setChase (n : Nat) (c : Chase) : (s.setChase n c).buffers = s.buffers := rfl
@[simp] theorem State.hostwins_setChase (n : Nat) (c : Chase) : (s.setChase n c).hostwins = s.hostwins := rfl
@[simp] theorem State.tickets_setChase (n : Nat) (c : Chase) : (s.setChase n c).tickets = s.tickets := rfl
@[simp] theorem State.sessions_setChase (n : Nat) (c : Chase) : (s.setChase n c).sessions = s.sessions := rfl
@[simp] theorem State.requests_setChase (n : Nat) (c : Chase) : (s.setChase n c).requests = s.requests := rfl
@[simp] theorem State.nextTag_setChase (n : Nat) (c : Chase) : (s.setChase n c).nextTag = s.nextTag := rfl
@[simp] theorem State.links_setChase (n : Nat) (c : Chase) : (s.setChase n c).links = s.links := rfl
@[simp] theorem State.colls_setChase (n : Nat) (c : Chase) : (s.setChase n c).colls = s.colls := rfl
@[simp] theorem State.updTable_setChase (n : Nat) (c : Chase) : (s.setChase n c).updTable = s.updTable := rfl
@[simp] theorem State.collEarly_setChase (n : Nat) (c : Chase) : (s.setChase n c).collEarly = s.collEarly := rfl
@[simp] theorem State.doorbells_setChase (n : Nat) (c : Chase) : (s.setChase n c).doorbells = s.doorbells := rfl
@[simp] theorem State.atomics_setChase (n : Nat) (c : Chase) : (s.setChase n c).atomics = s.atomics := rfl
@[simp] theorem State.atomicsEnd_setChase (n : Nat) (c : Chase) : (s.setChase n c).atomicsEnd = s.atomicsEnd := rfl
@[simp] theorem State.sets_setChase (n : Nat) (c : Chase) : (s.setChase n c).sets = s.sets := rfl
@[simp] theorem State.incs_setChase (n : Nat) (c : Chase) : (s.setChase n c).incs = s.incs := rfl
@[simp] theorem State.voids_setChase (n : Nat) (c : Chase) : (s.setChase n c).voids = s.voids := rfl
@[simp] theorem State.audit_setChase (n : Nat) (c : Chase) : (s.setChase n c).audit = s.audit := rfl
@[simp] theorem State.nocHeld_setChase (n : Nat) (c : Chase) : (s.setChase n c).nocHeld = s.nocHeld := rfl
@[simp] theorem State.pcFails_setChase (n : Nat) (c : Chase) : (s.setChase n c).pcFails = s.pcFails := rfl
@[simp] theorem State.pcUes_setChase (n : Nat) (c : Chase) : (s.setChase n c).pcUes = s.pcUes := rfl
@[simp] theorem State.pcHeld_setChase (n : Nat) (c : Chase) : (s.setChase n c).pcHeld = s.pcHeld := rfl
@[simp] theorem State.mapsOut_setChase (n : Nat) (c : Chase) : (s.setChase n c).mapsOut = s.mapsOut := rfl
@[simp] theorem State.loopReqs_setChase (n : Nat) (c : Chase) : (s.setChase n c).loopReqs = s.loopReqs := rfl
@[simp] theorem State.proofHr_setChase (n : Nat) (c : Chase) : (s.setChase n c).proofHr = s.proofHr := rfl
@[simp] theorem State.sec_setChase (n : Nat) (c : Chase) : (s.setChase n c).sec = s.sec := rfl
@[simp] theorem State.ledger_setChase (n : Nat) (c : Chase) : (s.setChase n c).ledger = s.ledger := rfl
@[simp] theorem State.flash_setChase (n : Nat) (c : Chase) : (s.setChase n c).flash = s.flash := rfl
@[simp] theorem State.ring_setChase (n : Nat) (c : Chase) : (s.setChase n c).ring = s.ring := rfl
@[simp] theorem State.heldWide_setChase (n : Nat) (c : Chase) : (s.setChase n c).heldWide = s.heldWide := rfl
@[simp] theorem State.power_setChase (n : Nat) (c : Chase) : (s.setChase n c).power = s.power := rfl
@[simp] theorem State.pins_setChase (n : Nat) (c : Chase) : (s.setChase n c).pins = s.pins := rfl
@[simp] theorem State.out_setChase (n : Nat) (c : Chase) : (s.setChase n c).out = s.out := rfl

/-! ### setCtx -/

@[simp] theorem State.pending_setCtx (n : Nat) (c : Ctx) : (s.setCtx n c).pending = s.pending := rfl
@[simp] theorem State.free_setCtx (n : Nat) (c : Ctx) : (s.setCtx n c).free = s.free := rfl
@[simp] theorem State.mem_setCtx (n : Nat) (c : Ctx) : (s.setCtx n c).mem = s.mem := rfl
@[simp] theorem State.bad_setCtx (n : Nat) (c : Ctx) : (s.setCtx n c).bad = s.bad := rfl
@[simp] theorem State.regs_setCtx (n : Nat) (c : Ctx) : (s.setCtx n c).regs = s.regs := rfl
@[simp] theorem State.presses_setCtx (n : Nat) (c : Ctx) : (s.setCtx n c).presses = s.presses := rfl
@[simp] theorem State.comps_setCtx (n : Nat) (c : Ctx) : (s.setCtx n c).comps = s.comps := rfl
@[simp] theorem State.chases_setCtx (n : Nat) (c : Ctx) : (s.setCtx n c).chases = s.chases := rfl
@[simp] theorem State.useClock_setCtx (n : Nat) (c : Ctx) : (s.setCtx n c).useClock = s.useClock := rfl
@[simp] theorem State.formes_setCtx (n : Nat) (c : Ctx) : (s.setCtx n c).formes = s.formes := rfl
@[simp] theorem State.fbars_setCtx (n : Nat) (c : Ctx) : (s.setCtx n c).fbars = s.fbars := rfl
@[simp] theorem State.parts_setCtx (n : Nat) (c : Ctx) : (s.setCtx n c).parts = s.parts := rfl
@[simp] theorem State.frames_setCtx (n : Nat) (c : Ctx) : (s.setCtx n c).frames = s.frames := rfl
@[simp] theorem State.poolFrames_setCtx (n : Nat) (c : Ctx) : (s.setCtx n c).poolFrames = s.poolFrames := rfl
@[simp] theorem State.deadFrames_setCtx (n : Nat) (c : Ctx) : (s.setCtx n c).deadFrames = s.deadFrames := rfl
@[simp] theorem State.takes_setCtx (n : Nat) (c : Ctx) : (s.setCtx n c).takes = s.takes := rfl
@[simp] theorem State.nextTake_setCtx (n : Nat) (c : Ctx) : (s.setCtx n c).nextTake = s.nextTake := rfl
@[simp] theorem State.subs_setCtx (n : Nat) (c : Ctx) : (s.setCtx n c).subs = s.subs := rfl
@[simp] theorem State.nextSub_setCtx (n : Nat) (c : Ctx) : (s.setCtx n c).nextSub = s.nextSub := rfl
@[simp] theorem State.kstreams_setCtx (n : Nat) (c : Ctx) : (s.setCtx n c).kstreams = s.kstreams := rfl
@[simp] theorem State.folios_setCtx (n : Nat) (c : Ctx) : (s.setCtx n c).folios = s.folios := rfl
@[simp] theorem State.nextCmd_setCtx (n : Nat) (c : Ctx) : (s.setCtx n c).nextCmd = s.nextCmd := rfl
@[simp] theorem State.galley_setCtx (n : Nat) (c : Ctx) : (s.setCtx n c).galley = s.galley := rfl
@[simp] theorem State.gsets_setCtx (n : Nat) (c : Ctx) : (s.setCtx n c).gsets = s.gsets := rfl
@[simp] theorem State.gslots_setCtx (n : Nat) (c : Ctx) : (s.setCtx n c).gslots = s.gslots := rfl
@[simp] theorem State.placed_setCtx (n : Nat) (c : Ctx) : (s.setCtx n c).placed = s.placed := rfl
@[simp] theorem State.images_setCtx (n : Nat) (c : Ctx) : (s.setCtx n c).images = s.images := rfl
@[simp] theorem State.unmaps_setCtx (n : Nat) (c : Ctx) : (s.setCtx n c).unmaps = s.unmaps := rfl
@[simp] theorem State.longops_setCtx (n : Nat) (c : Ctx) : (s.setCtx n c).longops = s.longops := rfl
@[simp] theorem State.queues_setCtx (n : Nat) (c : Ctx) : (s.setCtx n c).queues = s.queues := rfl
@[simp] theorem State.buffers_setCtx (n : Nat) (c : Ctx) : (s.setCtx n c).buffers = s.buffers := rfl
@[simp] theorem State.hostwins_setCtx (n : Nat) (c : Ctx) : (s.setCtx n c).hostwins = s.hostwins := rfl
@[simp] theorem State.tickets_setCtx (n : Nat) (c : Ctx) : (s.setCtx n c).tickets = s.tickets := rfl
@[simp] theorem State.sessions_setCtx (n : Nat) (c : Ctx) : (s.setCtx n c).sessions = s.sessions := rfl
@[simp] theorem State.requests_setCtx (n : Nat) (c : Ctx) : (s.setCtx n c).requests = s.requests := rfl
@[simp] theorem State.nextTag_setCtx (n : Nat) (c : Ctx) : (s.setCtx n c).nextTag = s.nextTag := rfl
@[simp] theorem State.links_setCtx (n : Nat) (c : Ctx) : (s.setCtx n c).links = s.links := rfl
@[simp] theorem State.colls_setCtx (n : Nat) (c : Ctx) : (s.setCtx n c).colls = s.colls := rfl
@[simp] theorem State.updTable_setCtx (n : Nat) (c : Ctx) : (s.setCtx n c).updTable = s.updTable := rfl
@[simp] theorem State.collEarly_setCtx (n : Nat) (c : Ctx) : (s.setCtx n c).collEarly = s.collEarly := rfl
@[simp] theorem State.doorbells_setCtx (n : Nat) (c : Ctx) : (s.setCtx n c).doorbells = s.doorbells := rfl
@[simp] theorem State.atomics_setCtx (n : Nat) (c : Ctx) : (s.setCtx n c).atomics = s.atomics := rfl
@[simp] theorem State.atomicsEnd_setCtx (n : Nat) (c : Ctx) : (s.setCtx n c).atomicsEnd = s.atomicsEnd := rfl
@[simp] theorem State.sets_setCtx (n : Nat) (c : Ctx) : (s.setCtx n c).sets = s.sets := rfl
@[simp] theorem State.incs_setCtx (n : Nat) (c : Ctx) : (s.setCtx n c).incs = s.incs := rfl
@[simp] theorem State.voids_setCtx (n : Nat) (c : Ctx) : (s.setCtx n c).voids = s.voids := rfl
@[simp] theorem State.audit_setCtx (n : Nat) (c : Ctx) : (s.setCtx n c).audit = s.audit := rfl
@[simp] theorem State.nocHeld_setCtx (n : Nat) (c : Ctx) : (s.setCtx n c).nocHeld = s.nocHeld := rfl
@[simp] theorem State.pcFails_setCtx (n : Nat) (c : Ctx) : (s.setCtx n c).pcFails = s.pcFails := rfl
@[simp] theorem State.pcUes_setCtx (n : Nat) (c : Ctx) : (s.setCtx n c).pcUes = s.pcUes := rfl
@[simp] theorem State.pcHeld_setCtx (n : Nat) (c : Ctx) : (s.setCtx n c).pcHeld = s.pcHeld := rfl
@[simp] theorem State.mapsOut_setCtx (n : Nat) (c : Ctx) : (s.setCtx n c).mapsOut = s.mapsOut := rfl
@[simp] theorem State.loopReqs_setCtx (n : Nat) (c : Ctx) : (s.setCtx n c).loopReqs = s.loopReqs := rfl
@[simp] theorem State.proofHr_setCtx (n : Nat) (c : Ctx) : (s.setCtx n c).proofHr = s.proofHr := rfl
@[simp] theorem State.sec_setCtx (n : Nat) (c : Ctx) : (s.setCtx n c).sec = s.sec := rfl
@[simp] theorem State.ledger_setCtx (n : Nat) (c : Ctx) : (s.setCtx n c).ledger = s.ledger := rfl
@[simp] theorem State.flash_setCtx (n : Nat) (c : Ctx) : (s.setCtx n c).flash = s.flash := rfl
@[simp] theorem State.ring_setCtx (n : Nat) (c : Ctx) : (s.setCtx n c).ring = s.ring := rfl
@[simp] theorem State.heldWide_setCtx (n : Nat) (c : Ctx) : (s.setCtx n c).heldWide = s.heldWide := rfl
@[simp] theorem State.power_setCtx (n : Nat) (c : Ctx) : (s.setCtx n c).power = s.power := rfl
@[simp] theorem State.pins_setCtx (n : Nat) (c : Ctx) : (s.setCtx n c).pins = s.pins := rfl
@[simp] theorem State.out_setCtx (n : Nat) (c : Ctx) : (s.setCtx n c).out = s.out := rfl

/-! ### setPart -/

@[simp] theorem State.pending_setPart (n : Nat) (p : Part) : (s.setPart n p).pending = s.pending := rfl
@[simp] theorem State.free_setPart (n : Nat) (p : Part) : (s.setPart n p).free = s.free := rfl
@[simp] theorem State.mem_setPart (n : Nat) (p : Part) : (s.setPart n p).mem = s.mem := rfl
@[simp] theorem State.bad_setPart (n : Nat) (p : Part) : (s.setPart n p).bad = s.bad := rfl
@[simp] theorem State.regs_setPart (n : Nat) (p : Part) : (s.setPart n p).regs = s.regs := rfl
@[simp] theorem State.presses_setPart (n : Nat) (p : Part) : (s.setPart n p).presses = s.presses := rfl
@[simp] theorem State.comps_setPart (n : Nat) (p : Part) : (s.setPart n p).comps = s.comps := rfl
@[simp] theorem State.chases_setPart (n : Nat) (p : Part) : (s.setPart n p).chases = s.chases := rfl
@[simp] theorem State.useClock_setPart (n : Nat) (p : Part) : (s.setPart n p).useClock = s.useClock := rfl
@[simp] theorem State.ctxs_setPart (n : Nat) (p : Part) : (s.setPart n p).ctxs = s.ctxs := rfl
@[simp] theorem State.formes_setPart (n : Nat) (p : Part) : (s.setPart n p).formes = s.formes := rfl
@[simp] theorem State.fbars_setPart (n : Nat) (p : Part) : (s.setPart n p).fbars = s.fbars := rfl
@[simp] theorem State.frames_setPart (n : Nat) (p : Part) : (s.setPart n p).frames = s.frames := rfl
@[simp] theorem State.poolFrames_setPart (n : Nat) (p : Part) : (s.setPart n p).poolFrames = s.poolFrames := rfl
@[simp] theorem State.deadFrames_setPart (n : Nat) (p : Part) : (s.setPart n p).deadFrames = s.deadFrames := rfl
@[simp] theorem State.takes_setPart (n : Nat) (p : Part) : (s.setPart n p).takes = s.takes := rfl
@[simp] theorem State.nextTake_setPart (n : Nat) (p : Part) : (s.setPart n p).nextTake = s.nextTake := rfl
@[simp] theorem State.subs_setPart (n : Nat) (p : Part) : (s.setPart n p).subs = s.subs := rfl
@[simp] theorem State.nextSub_setPart (n : Nat) (p : Part) : (s.setPart n p).nextSub = s.nextSub := rfl
@[simp] theorem State.kstreams_setPart (n : Nat) (p : Part) : (s.setPart n p).kstreams = s.kstreams := rfl
@[simp] theorem State.folios_setPart (n : Nat) (p : Part) : (s.setPart n p).folios = s.folios := rfl
@[simp] theorem State.nextCmd_setPart (n : Nat) (p : Part) : (s.setPart n p).nextCmd = s.nextCmd := rfl
@[simp] theorem State.galley_setPart (n : Nat) (p : Part) : (s.setPart n p).galley = s.galley := rfl
@[simp] theorem State.gsets_setPart (n : Nat) (p : Part) : (s.setPart n p).gsets = s.gsets := rfl
@[simp] theorem State.gslots_setPart (n : Nat) (p : Part) : (s.setPart n p).gslots = s.gslots := rfl
@[simp] theorem State.placed_setPart (n : Nat) (p : Part) : (s.setPart n p).placed = s.placed := rfl
@[simp] theorem State.images_setPart (n : Nat) (p : Part) : (s.setPart n p).images = s.images := rfl
@[simp] theorem State.unmaps_setPart (n : Nat) (p : Part) : (s.setPart n p).unmaps = s.unmaps := rfl
@[simp] theorem State.longops_setPart (n : Nat) (p : Part) : (s.setPart n p).longops = s.longops := rfl
@[simp] theorem State.queues_setPart (n : Nat) (p : Part) : (s.setPart n p).queues = s.queues := rfl
@[simp] theorem State.buffers_setPart (n : Nat) (p : Part) : (s.setPart n p).buffers = s.buffers := rfl
@[simp] theorem State.hostwins_setPart (n : Nat) (p : Part) : (s.setPart n p).hostwins = s.hostwins := rfl
@[simp] theorem State.tickets_setPart (n : Nat) (p : Part) : (s.setPart n p).tickets = s.tickets := rfl
@[simp] theorem State.sessions_setPart (n : Nat) (p : Part) : (s.setPart n p).sessions = s.sessions := rfl
@[simp] theorem State.requests_setPart (n : Nat) (p : Part) : (s.setPart n p).requests = s.requests := rfl
@[simp] theorem State.nextTag_setPart (n : Nat) (p : Part) : (s.setPart n p).nextTag = s.nextTag := rfl
@[simp] theorem State.links_setPart (n : Nat) (p : Part) : (s.setPart n p).links = s.links := rfl
@[simp] theorem State.colls_setPart (n : Nat) (p : Part) : (s.setPart n p).colls = s.colls := rfl
@[simp] theorem State.updTable_setPart (n : Nat) (p : Part) : (s.setPart n p).updTable = s.updTable := rfl
@[simp] theorem State.collEarly_setPart (n : Nat) (p : Part) : (s.setPart n p).collEarly = s.collEarly := rfl
@[simp] theorem State.doorbells_setPart (n : Nat) (p : Part) : (s.setPart n p).doorbells = s.doorbells := rfl
@[simp] theorem State.atomics_setPart (n : Nat) (p : Part) : (s.setPart n p).atomics = s.atomics := rfl
@[simp] theorem State.atomicsEnd_setPart (n : Nat) (p : Part) : (s.setPart n p).atomicsEnd = s.atomicsEnd := rfl
@[simp] theorem State.sets_setPart (n : Nat) (p : Part) : (s.setPart n p).sets = s.sets := rfl
@[simp] theorem State.incs_setPart (n : Nat) (p : Part) : (s.setPart n p).incs = s.incs := rfl
@[simp] theorem State.voids_setPart (n : Nat) (p : Part) : (s.setPart n p).voids = s.voids := rfl
@[simp] theorem State.audit_setPart (n : Nat) (p : Part) : (s.setPart n p).audit = s.audit := rfl
@[simp] theorem State.nocHeld_setPart (n : Nat) (p : Part) : (s.setPart n p).nocHeld = s.nocHeld := rfl
@[simp] theorem State.pcFails_setPart (n : Nat) (p : Part) : (s.setPart n p).pcFails = s.pcFails := rfl
@[simp] theorem State.pcUes_setPart (n : Nat) (p : Part) : (s.setPart n p).pcUes = s.pcUes := rfl
@[simp] theorem State.pcHeld_setPart (n : Nat) (p : Part) : (s.setPart n p).pcHeld = s.pcHeld := rfl
@[simp] theorem State.mapsOut_setPart (n : Nat) (p : Part) : (s.setPart n p).mapsOut = s.mapsOut := rfl
@[simp] theorem State.loopReqs_setPart (n : Nat) (p : Part) : (s.setPart n p).loopReqs = s.loopReqs := rfl
@[simp] theorem State.proofHr_setPart (n : Nat) (p : Part) : (s.setPart n p).proofHr = s.proofHr := rfl
@[simp] theorem State.sec_setPart (n : Nat) (p : Part) : (s.setPart n p).sec = s.sec := rfl
@[simp] theorem State.ledger_setPart (n : Nat) (p : Part) : (s.setPart n p).ledger = s.ledger := rfl
@[simp] theorem State.flash_setPart (n : Nat) (p : Part) : (s.setPart n p).flash = s.flash := rfl
@[simp] theorem State.ring_setPart (n : Nat) (p : Part) : (s.setPart n p).ring = s.ring := rfl
@[simp] theorem State.heldWide_setPart (n : Nat) (p : Part) : (s.setPart n p).heldWide = s.heldWide := rfl
@[simp] theorem State.power_setPart (n : Nat) (p : Part) : (s.setPart n p).power = s.power := rfl
@[simp] theorem State.pins_setPart (n : Nat) (p : Part) : (s.setPart n p).pins = s.pins := rfl
@[simp] theorem State.out_setPart (n : Nat) (p : Part) : (s.setPart n p).out = s.out := rfl

/-! ### setSession -/

@[simp] theorem State.pending_setSession (n : Nat) (x : Session) : (s.setSession n x).pending = s.pending := rfl
@[simp] theorem State.free_setSession (n : Nat) (x : Session) : (s.setSession n x).free = s.free := rfl
@[simp] theorem State.mem_setSession (n : Nat) (x : Session) : (s.setSession n x).mem = s.mem := rfl
@[simp] theorem State.bad_setSession (n : Nat) (x : Session) : (s.setSession n x).bad = s.bad := rfl
@[simp] theorem State.regs_setSession (n : Nat) (x : Session) : (s.setSession n x).regs = s.regs := rfl
@[simp] theorem State.presses_setSession (n : Nat) (x : Session) : (s.setSession n x).presses = s.presses := rfl
@[simp] theorem State.comps_setSession (n : Nat) (x : Session) : (s.setSession n x).comps = s.comps := rfl
@[simp] theorem State.chases_setSession (n : Nat) (x : Session) : (s.setSession n x).chases = s.chases := rfl
@[simp] theorem State.useClock_setSession (n : Nat) (x : Session) : (s.setSession n x).useClock = s.useClock := rfl
@[simp] theorem State.ctxs_setSession (n : Nat) (x : Session) : (s.setSession n x).ctxs = s.ctxs := rfl
@[simp] theorem State.formes_setSession (n : Nat) (x : Session) : (s.setSession n x).formes = s.formes := rfl
@[simp] theorem State.fbars_setSession (n : Nat) (x : Session) : (s.setSession n x).fbars = s.fbars := rfl
@[simp] theorem State.parts_setSession (n : Nat) (x : Session) : (s.setSession n x).parts = s.parts := rfl
@[simp] theorem State.frames_setSession (n : Nat) (x : Session) : (s.setSession n x).frames = s.frames := rfl
@[simp] theorem State.poolFrames_setSession (n : Nat) (x : Session) : (s.setSession n x).poolFrames = s.poolFrames := rfl
@[simp] theorem State.deadFrames_setSession (n : Nat) (x : Session) : (s.setSession n x).deadFrames = s.deadFrames := rfl
@[simp] theorem State.takes_setSession (n : Nat) (x : Session) : (s.setSession n x).takes = s.takes := rfl
@[simp] theorem State.nextTake_setSession (n : Nat) (x : Session) : (s.setSession n x).nextTake = s.nextTake := rfl
@[simp] theorem State.subs_setSession (n : Nat) (x : Session) : (s.setSession n x).subs = s.subs := rfl
@[simp] theorem State.nextSub_setSession (n : Nat) (x : Session) : (s.setSession n x).nextSub = s.nextSub := rfl
@[simp] theorem State.kstreams_setSession (n : Nat) (x : Session) : (s.setSession n x).kstreams = s.kstreams := rfl
@[simp] theorem State.folios_setSession (n : Nat) (x : Session) : (s.setSession n x).folios = s.folios := rfl
@[simp] theorem State.nextCmd_setSession (n : Nat) (x : Session) : (s.setSession n x).nextCmd = s.nextCmd := rfl
@[simp] theorem State.galley_setSession (n : Nat) (x : Session) : (s.setSession n x).galley = s.galley := rfl
@[simp] theorem State.gsets_setSession (n : Nat) (x : Session) : (s.setSession n x).gsets = s.gsets := rfl
@[simp] theorem State.gslots_setSession (n : Nat) (x : Session) : (s.setSession n x).gslots = s.gslots := rfl
@[simp] theorem State.placed_setSession (n : Nat) (x : Session) : (s.setSession n x).placed = s.placed := rfl
@[simp] theorem State.images_setSession (n : Nat) (x : Session) : (s.setSession n x).images = s.images := rfl
@[simp] theorem State.unmaps_setSession (n : Nat) (x : Session) : (s.setSession n x).unmaps = s.unmaps := rfl
@[simp] theorem State.longops_setSession (n : Nat) (x : Session) : (s.setSession n x).longops = s.longops := rfl
@[simp] theorem State.queues_setSession (n : Nat) (x : Session) : (s.setSession n x).queues = s.queues := rfl
@[simp] theorem State.buffers_setSession (n : Nat) (x : Session) : (s.setSession n x).buffers = s.buffers := rfl
@[simp] theorem State.hostwins_setSession (n : Nat) (x : Session) : (s.setSession n x).hostwins = s.hostwins := rfl
@[simp] theorem State.tickets_setSession (n : Nat) (x : Session) : (s.setSession n x).tickets = s.tickets := rfl
@[simp] theorem State.requests_setSession (n : Nat) (x : Session) : (s.setSession n x).requests = s.requests := rfl
@[simp] theorem State.nextTag_setSession (n : Nat) (x : Session) : (s.setSession n x).nextTag = s.nextTag := rfl
@[simp] theorem State.links_setSession (n : Nat) (x : Session) : (s.setSession n x).links = s.links := rfl
@[simp] theorem State.colls_setSession (n : Nat) (x : Session) : (s.setSession n x).colls = s.colls := rfl
@[simp] theorem State.updTable_setSession (n : Nat) (x : Session) : (s.setSession n x).updTable = s.updTable := rfl
@[simp] theorem State.collEarly_setSession (n : Nat) (x : Session) : (s.setSession n x).collEarly = s.collEarly := rfl
@[simp] theorem State.doorbells_setSession (n : Nat) (x : Session) : (s.setSession n x).doorbells = s.doorbells := rfl
@[simp] theorem State.atomics_setSession (n : Nat) (x : Session) : (s.setSession n x).atomics = s.atomics := rfl
@[simp] theorem State.atomicsEnd_setSession (n : Nat) (x : Session) : (s.setSession n x).atomicsEnd = s.atomicsEnd := rfl
@[simp] theorem State.sets_setSession (n : Nat) (x : Session) : (s.setSession n x).sets = s.sets := rfl
@[simp] theorem State.incs_setSession (n : Nat) (x : Session) : (s.setSession n x).incs = s.incs := rfl
@[simp] theorem State.voids_setSession (n : Nat) (x : Session) : (s.setSession n x).voids = s.voids := rfl
@[simp] theorem State.audit_setSession (n : Nat) (x : Session) : (s.setSession n x).audit = s.audit := rfl
@[simp] theorem State.nocHeld_setSession (n : Nat) (x : Session) : (s.setSession n x).nocHeld = s.nocHeld := rfl
@[simp] theorem State.pcFails_setSession (n : Nat) (x : Session) : (s.setSession n x).pcFails = s.pcFails := rfl
@[simp] theorem State.pcUes_setSession (n : Nat) (x : Session) : (s.setSession n x).pcUes = s.pcUes := rfl
@[simp] theorem State.pcHeld_setSession (n : Nat) (x : Session) : (s.setSession n x).pcHeld = s.pcHeld := rfl
@[simp] theorem State.mapsOut_setSession (n : Nat) (x : Session) : (s.setSession n x).mapsOut = s.mapsOut := rfl
@[simp] theorem State.loopReqs_setSession (n : Nat) (x : Session) : (s.setSession n x).loopReqs = s.loopReqs := rfl
@[simp] theorem State.proofHr_setSession (n : Nat) (x : Session) : (s.setSession n x).proofHr = s.proofHr := rfl
@[simp] theorem State.sec_setSession (n : Nat) (x : Session) : (s.setSession n x).sec = s.sec := rfl
@[simp] theorem State.ledger_setSession (n : Nat) (x : Session) : (s.setSession n x).ledger = s.ledger := rfl
@[simp] theorem State.flash_setSession (n : Nat) (x : Session) : (s.setSession n x).flash = s.flash := rfl
@[simp] theorem State.ring_setSession (n : Nat) (x : Session) : (s.setSession n x).ring = s.ring := rfl
@[simp] theorem State.heldWide_setSession (n : Nat) (x : Session) : (s.setSession n x).heldWide = s.heldWide := rfl
@[simp] theorem State.power_setSession (n : Nat) (x : Session) : (s.setSession n x).power = s.power := rfl
@[simp] theorem State.pins_setSession (n : Nat) (x : Session) : (s.setSession n x).pins = s.pins := rfl
@[simp] theorem State.out_setSession (n : Nat) (x : Session) : (s.setSession n x).out = s.out := rfl

/-! ### setLink -/

@[simp] theorem State.pending_setLink (n : Nat) (l : Link) : (s.setLink n l).pending = s.pending := rfl
@[simp] theorem State.free_setLink (n : Nat) (l : Link) : (s.setLink n l).free = s.free := rfl
@[simp] theorem State.mem_setLink (n : Nat) (l : Link) : (s.setLink n l).mem = s.mem := rfl
@[simp] theorem State.bad_setLink (n : Nat) (l : Link) : (s.setLink n l).bad = s.bad := rfl
@[simp] theorem State.regs_setLink (n : Nat) (l : Link) : (s.setLink n l).regs = s.regs := rfl
@[simp] theorem State.presses_setLink (n : Nat) (l : Link) : (s.setLink n l).presses = s.presses := rfl
@[simp] theorem State.comps_setLink (n : Nat) (l : Link) : (s.setLink n l).comps = s.comps := rfl
@[simp] theorem State.chases_setLink (n : Nat) (l : Link) : (s.setLink n l).chases = s.chases := rfl
@[simp] theorem State.useClock_setLink (n : Nat) (l : Link) : (s.setLink n l).useClock = s.useClock := rfl
@[simp] theorem State.ctxs_setLink (n : Nat) (l : Link) : (s.setLink n l).ctxs = s.ctxs := rfl
@[simp] theorem State.formes_setLink (n : Nat) (l : Link) : (s.setLink n l).formes = s.formes := rfl
@[simp] theorem State.fbars_setLink (n : Nat) (l : Link) : (s.setLink n l).fbars = s.fbars := rfl
@[simp] theorem State.parts_setLink (n : Nat) (l : Link) : (s.setLink n l).parts = s.parts := rfl
@[simp] theorem State.frames_setLink (n : Nat) (l : Link) : (s.setLink n l).frames = s.frames := rfl
@[simp] theorem State.poolFrames_setLink (n : Nat) (l : Link) : (s.setLink n l).poolFrames = s.poolFrames := rfl
@[simp] theorem State.deadFrames_setLink (n : Nat) (l : Link) : (s.setLink n l).deadFrames = s.deadFrames := rfl
@[simp] theorem State.takes_setLink (n : Nat) (l : Link) : (s.setLink n l).takes = s.takes := rfl
@[simp] theorem State.nextTake_setLink (n : Nat) (l : Link) : (s.setLink n l).nextTake = s.nextTake := rfl
@[simp] theorem State.subs_setLink (n : Nat) (l : Link) : (s.setLink n l).subs = s.subs := rfl
@[simp] theorem State.nextSub_setLink (n : Nat) (l : Link) : (s.setLink n l).nextSub = s.nextSub := rfl
@[simp] theorem State.kstreams_setLink (n : Nat) (l : Link) : (s.setLink n l).kstreams = s.kstreams := rfl
@[simp] theorem State.folios_setLink (n : Nat) (l : Link) : (s.setLink n l).folios = s.folios := rfl
@[simp] theorem State.nextCmd_setLink (n : Nat) (l : Link) : (s.setLink n l).nextCmd = s.nextCmd := rfl
@[simp] theorem State.galley_setLink (n : Nat) (l : Link) : (s.setLink n l).galley = s.galley := rfl
@[simp] theorem State.gsets_setLink (n : Nat) (l : Link) : (s.setLink n l).gsets = s.gsets := rfl
@[simp] theorem State.gslots_setLink (n : Nat) (l : Link) : (s.setLink n l).gslots = s.gslots := rfl
@[simp] theorem State.placed_setLink (n : Nat) (l : Link) : (s.setLink n l).placed = s.placed := rfl
@[simp] theorem State.images_setLink (n : Nat) (l : Link) : (s.setLink n l).images = s.images := rfl
@[simp] theorem State.unmaps_setLink (n : Nat) (l : Link) : (s.setLink n l).unmaps = s.unmaps := rfl
@[simp] theorem State.longops_setLink (n : Nat) (l : Link) : (s.setLink n l).longops = s.longops := rfl
@[simp] theorem State.queues_setLink (n : Nat) (l : Link) : (s.setLink n l).queues = s.queues := rfl
@[simp] theorem State.buffers_setLink (n : Nat) (l : Link) : (s.setLink n l).buffers = s.buffers := rfl
@[simp] theorem State.hostwins_setLink (n : Nat) (l : Link) : (s.setLink n l).hostwins = s.hostwins := rfl
@[simp] theorem State.tickets_setLink (n : Nat) (l : Link) : (s.setLink n l).tickets = s.tickets := rfl
@[simp] theorem State.sessions_setLink (n : Nat) (l : Link) : (s.setLink n l).sessions = s.sessions := rfl
@[simp] theorem State.requests_setLink (n : Nat) (l : Link) : (s.setLink n l).requests = s.requests := rfl
@[simp] theorem State.nextTag_setLink (n : Nat) (l : Link) : (s.setLink n l).nextTag = s.nextTag := rfl
@[simp] theorem State.colls_setLink (n : Nat) (l : Link) : (s.setLink n l).colls = s.colls := rfl
@[simp] theorem State.updTable_setLink (n : Nat) (l : Link) : (s.setLink n l).updTable = s.updTable := rfl
@[simp] theorem State.collEarly_setLink (n : Nat) (l : Link) : (s.setLink n l).collEarly = s.collEarly := rfl
@[simp] theorem State.doorbells_setLink (n : Nat) (l : Link) : (s.setLink n l).doorbells = s.doorbells := rfl
@[simp] theorem State.atomics_setLink (n : Nat) (l : Link) : (s.setLink n l).atomics = s.atomics := rfl
@[simp] theorem State.atomicsEnd_setLink (n : Nat) (l : Link) : (s.setLink n l).atomicsEnd = s.atomicsEnd := rfl
@[simp] theorem State.sets_setLink (n : Nat) (l : Link) : (s.setLink n l).sets = s.sets := rfl
@[simp] theorem State.incs_setLink (n : Nat) (l : Link) : (s.setLink n l).incs = s.incs := rfl
@[simp] theorem State.voids_setLink (n : Nat) (l : Link) : (s.setLink n l).voids = s.voids := rfl
@[simp] theorem State.audit_setLink (n : Nat) (l : Link) : (s.setLink n l).audit = s.audit := rfl
@[simp] theorem State.nocHeld_setLink (n : Nat) (l : Link) : (s.setLink n l).nocHeld = s.nocHeld := rfl
@[simp] theorem State.pcFails_setLink (n : Nat) (l : Link) : (s.setLink n l).pcFails = s.pcFails := rfl
@[simp] theorem State.pcUes_setLink (n : Nat) (l : Link) : (s.setLink n l).pcUes = s.pcUes := rfl
@[simp] theorem State.pcHeld_setLink (n : Nat) (l : Link) : (s.setLink n l).pcHeld = s.pcHeld := rfl
@[simp] theorem State.mapsOut_setLink (n : Nat) (l : Link) : (s.setLink n l).mapsOut = s.mapsOut := rfl
@[simp] theorem State.loopReqs_setLink (n : Nat) (l : Link) : (s.setLink n l).loopReqs = s.loopReqs := rfl
@[simp] theorem State.proofHr_setLink (n : Nat) (l : Link) : (s.setLink n l).proofHr = s.proofHr := rfl
@[simp] theorem State.sec_setLink (n : Nat) (l : Link) : (s.setLink n l).sec = s.sec := rfl
@[simp] theorem State.ledger_setLink (n : Nat) (l : Link) : (s.setLink n l).ledger = s.ledger := rfl
@[simp] theorem State.flash_setLink (n : Nat) (l : Link) : (s.setLink n l).flash = s.flash := rfl
@[simp] theorem State.ring_setLink (n : Nat) (l : Link) : (s.setLink n l).ring = s.ring := rfl
@[simp] theorem State.heldWide_setLink (n : Nat) (l : Link) : (s.setLink n l).heldWide = s.heldWide := rfl
@[simp] theorem State.power_setLink (n : Nat) (l : Link) : (s.setLink n l).power = s.power := rfl
@[simp] theorem State.pins_setLink (n : Nat) (l : Link) : (s.setLink n l).pins = s.pins := rfl
@[simp] theorem State.out_setLink (n : Nat) (l : Link) : (s.setLink n l).out = s.out := rfl

/-! ### emit -/

@[simp] theorem State.pending_emit (o : Out) : (s.emit o).pending = s.pending := rfl
@[simp] theorem State.free_emit (o : Out) : (s.emit o).free = s.free := rfl
@[simp] theorem State.mem_emit (o : Out) : (s.emit o).mem = s.mem := rfl
@[simp] theorem State.bad_emit (o : Out) : (s.emit o).bad = s.bad := rfl
@[simp] theorem State.regs_emit (o : Out) : (s.emit o).regs = s.regs := rfl
@[simp] theorem State.presses_emit (o : Out) : (s.emit o).presses = s.presses := rfl
@[simp] theorem State.comps_emit (o : Out) : (s.emit o).comps = s.comps := rfl
@[simp] theorem State.chases_emit (o : Out) : (s.emit o).chases = s.chases := rfl
@[simp] theorem State.useClock_emit (o : Out) : (s.emit o).useClock = s.useClock := rfl
@[simp] theorem State.ctxs_emit (o : Out) : (s.emit o).ctxs = s.ctxs := rfl
@[simp] theorem State.formes_emit (o : Out) : (s.emit o).formes = s.formes := rfl
@[simp] theorem State.fbars_emit (o : Out) : (s.emit o).fbars = s.fbars := rfl
@[simp] theorem State.parts_emit (o : Out) : (s.emit o).parts = s.parts := rfl
@[simp] theorem State.frames_emit (o : Out) : (s.emit o).frames = s.frames := rfl
@[simp] theorem State.poolFrames_emit (o : Out) : (s.emit o).poolFrames = s.poolFrames := rfl
@[simp] theorem State.deadFrames_emit (o : Out) : (s.emit o).deadFrames = s.deadFrames := rfl
@[simp] theorem State.takes_emit (o : Out) : (s.emit o).takes = s.takes := rfl
@[simp] theorem State.nextTake_emit (o : Out) : (s.emit o).nextTake = s.nextTake := rfl
@[simp] theorem State.subs_emit (o : Out) : (s.emit o).subs = s.subs := rfl
@[simp] theorem State.nextSub_emit (o : Out) : (s.emit o).nextSub = s.nextSub := rfl
@[simp] theorem State.kstreams_emit (o : Out) : (s.emit o).kstreams = s.kstreams := rfl
@[simp] theorem State.folios_emit (o : Out) : (s.emit o).folios = s.folios := rfl
@[simp] theorem State.nextCmd_emit (o : Out) : (s.emit o).nextCmd = s.nextCmd := rfl
@[simp] theorem State.galley_emit (o : Out) : (s.emit o).galley = s.galley := rfl
@[simp] theorem State.gsets_emit (o : Out) : (s.emit o).gsets = s.gsets := rfl
@[simp] theorem State.gslots_emit (o : Out) : (s.emit o).gslots = s.gslots := rfl
@[simp] theorem State.placed_emit (o : Out) : (s.emit o).placed = s.placed := rfl
@[simp] theorem State.images_emit (o : Out) : (s.emit o).images = s.images := rfl
@[simp] theorem State.unmaps_emit (o : Out) : (s.emit o).unmaps = s.unmaps := rfl
@[simp] theorem State.longops_emit (o : Out) : (s.emit o).longops = s.longops := rfl
@[simp] theorem State.queues_emit (o : Out) : (s.emit o).queues = s.queues := rfl
@[simp] theorem State.buffers_emit (o : Out) : (s.emit o).buffers = s.buffers := rfl
@[simp] theorem State.hostwins_emit (o : Out) : (s.emit o).hostwins = s.hostwins := rfl
@[simp] theorem State.tickets_emit (o : Out) : (s.emit o).tickets = s.tickets := rfl
@[simp] theorem State.sessions_emit (o : Out) : (s.emit o).sessions = s.sessions := rfl
@[simp] theorem State.requests_emit (o : Out) : (s.emit o).requests = s.requests := rfl
@[simp] theorem State.nextTag_emit (o : Out) : (s.emit o).nextTag = s.nextTag := rfl
@[simp] theorem State.links_emit (o : Out) : (s.emit o).links = s.links := rfl
@[simp] theorem State.colls_emit (o : Out) : (s.emit o).colls = s.colls := rfl
@[simp] theorem State.updTable_emit (o : Out) : (s.emit o).updTable = s.updTable := rfl
@[simp] theorem State.collEarly_emit (o : Out) : (s.emit o).collEarly = s.collEarly := rfl
@[simp] theorem State.doorbells_emit (o : Out) : (s.emit o).doorbells = s.doorbells := rfl
@[simp] theorem State.atomics_emit (o : Out) : (s.emit o).atomics = s.atomics := rfl
@[simp] theorem State.atomicsEnd_emit (o : Out) : (s.emit o).atomicsEnd = s.atomicsEnd := rfl
@[simp] theorem State.sets_emit (o : Out) : (s.emit o).sets = s.sets := rfl
@[simp] theorem State.incs_emit (o : Out) : (s.emit o).incs = s.incs := rfl
@[simp] theorem State.voids_emit (o : Out) : (s.emit o).voids = s.voids := rfl
@[simp] theorem State.audit_emit (o : Out) : (s.emit o).audit = s.audit := rfl
@[simp] theorem State.nocHeld_emit (o : Out) : (s.emit o).nocHeld = s.nocHeld := rfl
@[simp] theorem State.pcFails_emit (o : Out) : (s.emit o).pcFails = s.pcFails := rfl
@[simp] theorem State.pcUes_emit (o : Out) : (s.emit o).pcUes = s.pcUes := rfl
@[simp] theorem State.pcHeld_emit (o : Out) : (s.emit o).pcHeld = s.pcHeld := rfl
@[simp] theorem State.mapsOut_emit (o : Out) : (s.emit o).mapsOut = s.mapsOut := rfl
@[simp] theorem State.loopReqs_emit (o : Out) : (s.emit o).loopReqs = s.loopReqs := rfl
@[simp] theorem State.proofHr_emit (o : Out) : (s.emit o).proofHr = s.proofHr := rfl
@[simp] theorem State.sec_emit (o : Out) : (s.emit o).sec = s.sec := rfl
@[simp] theorem State.ledger_emit (o : Out) : (s.emit o).ledger = s.ledger := rfl
@[simp] theorem State.flash_emit (o : Out) : (s.emit o).flash = s.flash := rfl
@[simp] theorem State.ring_emit (o : Out) : (s.emit o).ring = s.ring := rfl
@[simp] theorem State.heldWide_emit (o : Out) : (s.emit o).heldWide = s.heldWide := rfl
@[simp] theorem State.power_emit (o : Out) : (s.emit o).power = s.power := rfl
@[simp] theorem State.pins_emit (o : Out) : (s.emit o).pins = s.pins := rfl

/-! ### setReg -/

@[simp] theorem State.pending_setReg (b : Block) (i o : Nat) (v : W64) : (s.setReg b i o v).pending = s.pending := rfl
@[simp] theorem State.free_setReg (b : Block) (i o : Nat) (v : W64) : (s.setReg b i o v).free = s.free := rfl
@[simp] theorem State.mem_setReg (b : Block) (i o : Nat) (v : W64) : (s.setReg b i o v).mem = s.mem := rfl
@[simp] theorem State.bad_setReg (b : Block) (i o : Nat) (v : W64) : (s.setReg b i o v).bad = s.bad := rfl
@[simp] theorem State.presses_setReg (b : Block) (i o : Nat) (v : W64) : (s.setReg b i o v).presses = s.presses := rfl
@[simp] theorem State.comps_setReg (b : Block) (i o : Nat) (v : W64) : (s.setReg b i o v).comps = s.comps := rfl
@[simp] theorem State.chases_setReg (b : Block) (i o : Nat) (v : W64) : (s.setReg b i o v).chases = s.chases := rfl
@[simp] theorem State.useClock_setReg (b : Block) (i o : Nat) (v : W64) : (s.setReg b i o v).useClock = s.useClock := rfl
@[simp] theorem State.ctxs_setReg (b : Block) (i o : Nat) (v : W64) : (s.setReg b i o v).ctxs = s.ctxs := rfl
@[simp] theorem State.formes_setReg (b : Block) (i o : Nat) (v : W64) : (s.setReg b i o v).formes = s.formes := rfl
@[simp] theorem State.fbars_setReg (b : Block) (i o : Nat) (v : W64) : (s.setReg b i o v).fbars = s.fbars := rfl
@[simp] theorem State.parts_setReg (b : Block) (i o : Nat) (v : W64) : (s.setReg b i o v).parts = s.parts := rfl
@[simp] theorem State.frames_setReg (b : Block) (i o : Nat) (v : W64) : (s.setReg b i o v).frames = s.frames := rfl
@[simp] theorem State.poolFrames_setReg (b : Block) (i o : Nat) (v : W64) : (s.setReg b i o v).poolFrames = s.poolFrames := rfl
@[simp] theorem State.deadFrames_setReg (b : Block) (i o : Nat) (v : W64) : (s.setReg b i o v).deadFrames = s.deadFrames := rfl
@[simp] theorem State.takes_setReg (b : Block) (i o : Nat) (v : W64) : (s.setReg b i o v).takes = s.takes := rfl
@[simp] theorem State.nextTake_setReg (b : Block) (i o : Nat) (v : W64) : (s.setReg b i o v).nextTake = s.nextTake := rfl
@[simp] theorem State.subs_setReg (b : Block) (i o : Nat) (v : W64) : (s.setReg b i o v).subs = s.subs := rfl
@[simp] theorem State.nextSub_setReg (b : Block) (i o : Nat) (v : W64) : (s.setReg b i o v).nextSub = s.nextSub := rfl
@[simp] theorem State.kstreams_setReg (b : Block) (i o : Nat) (v : W64) : (s.setReg b i o v).kstreams = s.kstreams := rfl
@[simp] theorem State.folios_setReg (b : Block) (i o : Nat) (v : W64) : (s.setReg b i o v).folios = s.folios := rfl
@[simp] theorem State.nextCmd_setReg (b : Block) (i o : Nat) (v : W64) : (s.setReg b i o v).nextCmd = s.nextCmd := rfl
@[simp] theorem State.galley_setReg (b : Block) (i o : Nat) (v : W64) : (s.setReg b i o v).galley = s.galley := rfl
@[simp] theorem State.gsets_setReg (b : Block) (i o : Nat) (v : W64) : (s.setReg b i o v).gsets = s.gsets := rfl
@[simp] theorem State.gslots_setReg (b : Block) (i o : Nat) (v : W64) : (s.setReg b i o v).gslots = s.gslots := rfl
@[simp] theorem State.placed_setReg (b : Block) (i o : Nat) (v : W64) : (s.setReg b i o v).placed = s.placed := rfl
@[simp] theorem State.images_setReg (b : Block) (i o : Nat) (v : W64) : (s.setReg b i o v).images = s.images := rfl
@[simp] theorem State.unmaps_setReg (b : Block) (i o : Nat) (v : W64) : (s.setReg b i o v).unmaps = s.unmaps := rfl
@[simp] theorem State.longops_setReg (b : Block) (i o : Nat) (v : W64) : (s.setReg b i o v).longops = s.longops := rfl
@[simp] theorem State.queues_setReg (b : Block) (i o : Nat) (v : W64) : (s.setReg b i o v).queues = s.queues := rfl
@[simp] theorem State.buffers_setReg (b : Block) (i o : Nat) (v : W64) : (s.setReg b i o v).buffers = s.buffers := rfl
@[simp] theorem State.hostwins_setReg (b : Block) (i o : Nat) (v : W64) : (s.setReg b i o v).hostwins = s.hostwins := rfl
@[simp] theorem State.tickets_setReg (b : Block) (i o : Nat) (v : W64) : (s.setReg b i o v).tickets = s.tickets := rfl
@[simp] theorem State.sessions_setReg (b : Block) (i o : Nat) (v : W64) : (s.setReg b i o v).sessions = s.sessions := rfl
@[simp] theorem State.requests_setReg (b : Block) (i o : Nat) (v : W64) : (s.setReg b i o v).requests = s.requests := rfl
@[simp] theorem State.nextTag_setReg (b : Block) (i o : Nat) (v : W64) : (s.setReg b i o v).nextTag = s.nextTag := rfl
@[simp] theorem State.links_setReg (b : Block) (i o : Nat) (v : W64) : (s.setReg b i o v).links = s.links := rfl
@[simp] theorem State.colls_setReg (b : Block) (i o : Nat) (v : W64) : (s.setReg b i o v).colls = s.colls := rfl
@[simp] theorem State.updTable_setReg (b : Block) (i o : Nat) (v : W64) : (s.setReg b i o v).updTable = s.updTable := rfl
@[simp] theorem State.collEarly_setReg (b : Block) (i o : Nat) (v : W64) : (s.setReg b i o v).collEarly = s.collEarly := rfl
@[simp] theorem State.doorbells_setReg (b : Block) (i o : Nat) (v : W64) : (s.setReg b i o v).doorbells = s.doorbells := rfl
@[simp] theorem State.atomics_setReg (b : Block) (i o : Nat) (v : W64) : (s.setReg b i o v).atomics = s.atomics := rfl
@[simp] theorem State.atomicsEnd_setReg (b : Block) (i o : Nat) (v : W64) : (s.setReg b i o v).atomicsEnd = s.atomicsEnd := rfl
@[simp] theorem State.sets_setReg (b : Block) (i o : Nat) (v : W64) : (s.setReg b i o v).sets = s.sets := rfl
@[simp] theorem State.incs_setReg (b : Block) (i o : Nat) (v : W64) : (s.setReg b i o v).incs = s.incs := rfl
@[simp] theorem State.voids_setReg (b : Block) (i o : Nat) (v : W64) : (s.setReg b i o v).voids = s.voids := rfl
@[simp] theorem State.audit_setReg (b : Block) (i o : Nat) (v : W64) : (s.setReg b i o v).audit = s.audit := rfl
@[simp] theorem State.nocHeld_setReg (b : Block) (i o : Nat) (v : W64) : (s.setReg b i o v).nocHeld = s.nocHeld := rfl
@[simp] theorem State.pcFails_setReg (b : Block) (i o : Nat) (v : W64) : (s.setReg b i o v).pcFails = s.pcFails := rfl
@[simp] theorem State.pcUes_setReg (b : Block) (i o : Nat) (v : W64) : (s.setReg b i o v).pcUes = s.pcUes := rfl
@[simp] theorem State.pcHeld_setReg (b : Block) (i o : Nat) (v : W64) : (s.setReg b i o v).pcHeld = s.pcHeld := rfl
@[simp] theorem State.mapsOut_setReg (b : Block) (i o : Nat) (v : W64) : (s.setReg b i o v).mapsOut = s.mapsOut := rfl
@[simp] theorem State.loopReqs_setReg (b : Block) (i o : Nat) (v : W64) : (s.setReg b i o v).loopReqs = s.loopReqs := rfl
@[simp] theorem State.proofHr_setReg (b : Block) (i o : Nat) (v : W64) : (s.setReg b i o v).proofHr = s.proofHr := rfl
@[simp] theorem State.sec_setReg (b : Block) (i o : Nat) (v : W64) : (s.setReg b i o v).sec = s.sec := rfl
@[simp] theorem State.ledger_setReg (b : Block) (i o : Nat) (v : W64) : (s.setReg b i o v).ledger = s.ledger := rfl
@[simp] theorem State.flash_setReg (b : Block) (i o : Nat) (v : W64) : (s.setReg b i o v).flash = s.flash := rfl
@[simp] theorem State.ring_setReg (b : Block) (i o : Nat) (v : W64) : (s.setReg b i o v).ring = s.ring := rfl
@[simp] theorem State.heldWide_setReg (b : Block) (i o : Nat) (v : W64) : (s.setReg b i o v).heldWide = s.heldWide := rfl
@[simp] theorem State.power_setReg (b : Block) (i o : Nat) (v : W64) : (s.setReg b i o v).power = s.power := rfl
@[simp] theorem State.pins_setReg (b : Block) (i o : Nat) (v : W64) : (s.setReg b i o v).pins = s.pins := rfl
@[simp] theorem State.out_setReg (b : Block) (i o : Nat) (v : W64) : (s.setReg b i o v).out = s.out := rfl

end Sys2Proof.Machine
end

