-- ==== Sys2Proof/Laws/Line.lean ====
section
/-! SUPPORT. What a Line of one slot operation does (R78): everything that its issue can do, in terms of its slot. -/

namespace Sys2Proof.Machine

/-- The slots of a Line of one slot, none of whose other slots carries bits. -/
theorem lineSlots_one (l : Line) (i : Instr) (d : SlotDef) (h : slotOf i = some d) (hs : d.slot < 6) (hl : l.stray = 0)
    (hu : l.unlisted = 0) : lineSlots l [i] = [d] := by
  unfold lineSlots
  simp [h, List.range, List.range.loop, hl, hu]
  have : d.slot = 0 ∨ d.slot = 1 ∨ d.slot = 2 ∨ d.slot = 3 ∨ d.slot = 4 ∨ d.slot = 5 := by omega
  rcases this with h | h | h | h | h | h <;> simp [h]

/-- Where the slots of a Line all pass, each passes its own encoding checks. -/
theorem slotsFault_pre (s : State) (k : Lc) (ds : List SlotDef) (a : Need) (h : s.slotsFault k ds a = none) :
    ∀ d ∈ ds, (d.chk k s).pre = none := by
  induction ds generalizing a with
  | nil => simp
  | cons d ds ih =>
    simp only [State.slotsFault] at h
    generalize hx : Option.map _ (firstOf _) = x at h
    cases x with
    | some x => cases h
    | none =>
      intro e he
      rcases List.mem_cons.1 he with rfl | he
      · cases hc : (e.chk k s).pre with
        | none => rfl
        | some x => simp [firstOf, hc] at hx
      · exact ih _ h e he

/-- A Line that passes step 2 has no bits set in an absent slot and no code that no table lists (R74, R79). -/
theorem lineFault_clean (s : State) (k : Lc) (l : Line) (is : List Instr) (h : s.lineFault k (lineSlots l is) = none) :
    l.stray = 0 ∧ l.unlisted = 0 := by
  have hp : ∀ d ∈ lineSlots l is, (d.chk k s).pre = none := by
    unfold State.lineFault at h
    split at h
    · cases h
    · split at h
      · cases h
      · split at h
        · cases h
        · exact slotsFault_pre s k _ _ h
  have bit (j : Nat) (hj : j < 6) : l.stray.getLsbD j = false ∧ l.unlisted.getLsbD j = false := by
    by_cases h1 : l.stray.getLsbD j = true
    · have := hp (brokenSlot j St.rsvNonzero) (List.mem_filterMap.2 ⟨j, List.mem_range.2 hj, by simp [h1]⟩)
      simp [brokenSlot] at this
    · by_cases h2 : l.unlisted.getLsbD j = true
      · have := hp (brokenSlot j St.illegalOpcode) (List.mem_filterMap.2 ⟨j, List.mem_range.2 hj, by simp [h1, h2]⟩)
        simp [brokenSlot] at this
      · simp_all
  exact ⟨BitVec.eq_of_getLsbD_eq fun j hj => by simp [(bit j hj).1],
    BitVec.eq_of_getLsbD_eq fun j hj => by simp [(bit j hj).2]⟩

/-- A Line of one slot that may issue: its effect is `lineEffect`, whatever the slot, unless its row is another's. -/
theorem issue_one (s : State) (n : Nat) (l : Line) (i : Instr) (d : SlotDef) (h : OneSlot s n l i)
    (hd : slotOf i = some d) (hs : d.slot < 6) (hw : s.rowWrong n d = false) :
    issue l i s = .next (s.lineEffect (s.lc n l) [d]) := by
  obtain ⟨hc, hu⟩ := lineFault_clean s _ l [i] h.passes
  have hl := lineSlots_one l i d hd hs hc hu
  have h1 := h.ready
  have h2 := h.passes
  have h3 := h.listed
  rw [hl] at h1 h2 h3
  unfold issue
  rw [h.core]
  simp [Nat.not_le.mpr h.press, h.running, h.bound, h.last, h.alone, hl, hw, State.issueLine, h1, h2, h3, h.guard]

/-- The effect of one slot outside a region: the slot's own, its conditions recorded, the Line retired, and what waits
looked at again where the slot wakes. -/
theorem lineEffect_one (s : State) (k : Lc) (d : SlotDef) (hr : s.openRegion k.n = none) (hd : d.live k = true) :
    s.lineEffect k [d] =
      let r := d.act k s false s
      let t := (r.s.record k.n k.old.retired.toNat r.fl).modPc k.n fun p => p.retire (r.goal.getD (k.old.pc + 64))
      if d.wakes then t.settle else t := by
  simp [State.lineEffect, hd, actAll, State.takeNeeds, State.placeEntries, hr]

/-- A slot that changes only the press's state of its context, with conditions that were all raised before or none, leaves
only that state changed. -/
theorem onlyPress_setPc (s : State) (n : Nat) (p : PressCtx) : OnlyPress s (s.setPc n p) n p := by
  refine ⟨by simp [State.setPc], ?_, rfl⟩
  intro m hm
  simp [State.setPc, Ne.symm hm]

@[simp] theorem setPc_setPc_press (s : State) (n m : Nat) (p q : PressCtx) :
    ((s.setPc n p).setPc n q).press m = (s.setPc n q).press m := by
  by_cases h : n = m
  · subst h; simp [State.setPc]
  · simp [State.setPc, h]

theorem onlyPress_twice (s : State) (n : Nat) (p q : PressCtx) : OnlyPress s ((s.setPc n p).setPc n q) n q := by
  refine ⟨by simp [State.setPc], ?_, rfl⟩
  intro m hm
  simp [State.setPc, Ne.symm hm]

end Sys2Proof.Machine
end

