-- ==== Sys2Proof/WellFormed.lean ====
section
/-! DEFINITION. Which commands name units that the device has: presses 0 to 127, compositors 0 to 63, chases 0 to 15,
region slots 0 to 63, pseudo-channels 0 to 511, links 0 to 31, sessions 0 to 1,023, contexts 0 to 4,095. -/

namespace Sys2Proof

/-- The core of a Line exists (R74, R75). -/
def Line.wf (l : Line) : Bool :=
  match l.core with
  | .press n => decide (n < 128)
  | .comp n => decide (n < 64)

/-- A MANAGE request arrives on a session of the device, its item numbers have 16 bits (R334, R358). -/
def MReq.wf (r : MReq) : Bool := decide (r.session < 1024) && r.items.all fun e => decide (e.1 < 65536)

/-- Whether a command names only units that exist. -/
def Instr.wf (i : Instr) : Bool :=
  match i with
  | .subtakeComplete p | .asyncFault p _ _ _ _ | .tmEngineStart ⟨p, _⟩ | .platenStart p _ | .rollerStart p
  | .operationComplete p _ _ | .kernExecute p _ | .attendExecute p _ | .galleyExecute p _ | .stickExecute p _
  | .preemptSave p _ | .pressDispatch p => decide (p < 128)
  | .proofCommitEngine c r | .proofRejectEngine c r => decide (c < 16) && decide (r < 64)
  | .scalarNop l _ _ | .alu l _ | .addi l _ | .andi l _ | .ori l _ | .xori l _ | .slli l _ | .srli l _ | .srai l _
  | .slti l _ | .lis l _ | .lb l _ | .lh l _ | .lw l _ | .ld l _ | .lbu l _ | .lhu l _ | .lwu l _ | .sb l _
  | .sh l _ | .sw l _ | .sd l _ | .ldc l _ | .stc l _ | .cmp l _ | .plog l _ | .pget l _ | .pset l _ | .fadd l _
  | .fsub l _ | .fmul l _ | .fdiv l _ | .fsqrt l _ | .fmin l _ | .fmax l _ | .fcmp l _ | .fcvt l _ _ | .bnz l _
  | .bz l _ | .jal l _ | .jalr l _ | .rdcsr l _ | .wrcsr l _ | .tset l _ | .tget l _ => l.wf
  | .tmNop l _ | .copy l _ | .dload l _ | .dstore l _ | .prefetch l _ | .fill l _ | .slugPack l _
  | .slugUnpack l _ => l.wf
  | .plNop l _ | .wload l _ | .mm l _ | .drain l _ | .tzero l _ | .tfree l _ | .tload l _ => l.wf
  | .elementWiseArithmetic l _ | .transcendental l _ | .conversion l _ | .comparison l _ | .reduction l _
  | .scan l _ | .segmentedScan l _ | .permutationGather l _ => l.wf
  | .ctNop l _ | .br l _ | .brx l _ | .call l _ | .dbnz l _ | .fence l _ | .cbarinit l _ | .cbar l _ | .wcinit l _
  | .wcfa l _ | .fbar l _ | .rsignal l _ | .rwait l _ | .popen l _ | .pcommit l _ | .preject l _
  | .endTake l _ => l.wf
  | .kernOpen l _ | .kernAppend l _ | .kernAttend l _ | .kernFork l _ | .kernTruncate l _ | .kernRelease l _
  | .galleyCreate l _ | .galleyStick l _ | .galleyFork l _ | .galleyReset l _ | .galleyLoad l _
  | .galleyStore l _ | .galleySwapOut l _ | .galleySwapIn l _ | .galleyRelease l _ | .galleyQuery l _ => l.wf
  | .hbmPatrol pc _ _ | .retrainingWindowEnd pc _ => decide (pc < 512)
  | .hbmRetrainWindow stack k => decide (stack < 8) && decide (k < 64)
  | .regulatorAdmit part _ _ _ _ => decide (part < 8)
  | .flitReceive l _ _ | .nak l _ | .rdReq l _ | .rdResp l _ | .wr l _ | .wrAck l _ | .atom l _ | .atomAck l _
  | .coll l _ | .collCtl l _ | .fecLockLoss l | .retrainComplete l _ _ _ _ _ => decide (l < 32)
  | .quoinLinkCfgWrite _ l _ => decide (l < 32)
  | .submit n _ _ _ | .readBuf n _ _ _ _ _ | .readMem n _ _ _ _ | .release n _ _ _ | .writeMem n _ _ _ _
  | .writeAck n _ _ | .pullResp n _ _ _ | .hello3 n _ _ _ | .helloTimeout n | .retransmitTimeout n
  | .sessionFail n | .ackTimer n | .cwndUpdate n _ _ | .segmentSend n | .keyUpdate n | .ack n _ _
  | .oldKeyExpiry n => decide (n < 1024)
  | .segmentReceive g _ => decide (g.session < 1024)
  | .teardownComplete c | .doorbell c | .collective c | .updSet c | .updFreeze c | .updClear c => decide (c < 4096)
  | .suspectClear _ k _ => decide (k < 2)
  | .map r | .unmap r | .protect r | .formeInstall r _ | .formeRelease r | .deviceIdSet r | .partitionReset r
  | .runtimeSwapOut r | .runtimeSwapIn r | .autoswapDisable r | .autoswapEnable r | .runtimeReset r
  | .runtimeLoad r | .placeRegister r | .placeEnd r | .placePin r | .migrate r | .streamJobCreate r
  | .streamJobEnd r | .modelLoad r _ | .modelUnload r | .tableset r | .hbmLoopbackStart r | .contextCreate r
  | .contextDestroy r | .longopSuspend r | .longopResume r | .longopCancel r | .ticketIssue r | .ticketRevoke r
  | .colophon r _ | .fwStage r _ _ | .fwActivate r _ | .svnCommit r | .tokenOverride r | .tokenReturn r
  | .tokenRedeploy r | .tokenDecommission r | .tokenDebug r | .scrub r | .bist r | .telemetry r | .regRead r
  | .regWrite r | .ledgerRead r | .netConfig r | .linkRetrain r | .queueCreate r | .queueDestroy r | .queueBind r
  | .bufRegister r | .bufUnregister r | .hostwinMap r | .echo r _ | .close r | .ethLoopbackStart r
  | .quoinLoopbackStart r => r.wf
  | .registerWrite _ _ _ | .controlAccessMisaligned _ _ _ | .unmappedAccess _ _ | .readClear _ _ _
  | .imposerSplit _ | .fencePublish _ _ | .mgmtUnset _ | .unmapComplete _ | .swapOutEnd _ | .swapInEnd _ _
  | .poisonRepair _ _ | .placementEpoch _ | .pageMoveComplete _ _ _
  | .memoryAtomic _ _ _ _ | .hbmRegWrite _ _ _ | .hbmLoopbackEnd _ _ | .longopStop _ _ | .portLinkChange _
  | .portFallback | .neighborRequest _ | .packetDiscard _ | .hello1 _ | .provision _ _ | .ethLoopbackEnd _
  | .taoshCcCfgWrite _ _ | .requestTimeout _ | .collectiveChunkTimeout _ | .quoinTopoWrite _ _
  | .quoinCfgWrite _ _ | .quoinLoopbackEnd _ | .auditSnap _ _ | .auditWalk _ _ | .auditDone | .deviceStart _ _
  | .stepTimeout _ | .bootSkipWrite _ _ | .bootAltWrite _ _ | .clearFails _ | .restart _ | .fatalError _ _ _ _
  | .inputSag _ | .surge _ | .overvolt _ | .currentClamp | .sagRelease _ | .dropout | .inputRestore _
  | .bulkUndervoltage | .throttleInAssert | .throttleInDeassert | .throttleRelease | .thermalSample _ _
  | .pwrCapWrite _ _ | .placeCfgWrite _ _ _ | .resetNAssert | .resetNDeassert _ _ | .i3cPointerWrite _
  | .i3cRegisterWrite _ | .i3cRead | .i3cDynamicAddress _ | .jtagInstruction _ | .jtagTrst => true

end Sys2Proof
end

