-- ==== Sys2Proof/Tests/Slice0.lean ====
section
/-! SUPPORT. Tests of the model on small states: the well-formedness checks refuse ill-formed commands; each statement with
hypotheses has a state that meets them, clause by clause, and where it is short what the command does there. Expected values
are worked out by hand from the rules named. -/

namespace Sys2Proof.Tests

open Sys2Proof Sys2Proof.Machine

/-! ### Helpers -/

/-- What a command leaves, as `f` sees it; nothing where it does not give a next state. -/
def after {α : Type} (i : Instr) (s : State) (f : State → α) : Option α :=
  match exec i s with
  | .next t => some (f t)
  | _ => none

/-- The conditions of `Goes`, decided. -/
def goesB (s : State) (n : Nat) (l : Line) (i : Instr) : Bool :=
  decide (n < 128) && decide (l.core = .press n) && !l.more && decide ((s.press n).st = .running) &&
    decide ((s.press n).run ≠ none) && decide ((s.press n).gathered = []) && s.lineReady n l (lineSlots l [i]) &&
    !s.listsWait (s.lc n l) (lineSlots l [i]) && decide (s.lineFault (s.lc n l) (lineSlots l [i]) = none) && (s.lc n l).guard

theorem goes_of_goesB {s : State} {n : Nat} {l : Line} {i : Instr} (h : goesB s n l i = true) : Goes s n l i := by
  simp only [goesB, Bool.and_eq_true, decide_eq_true_eq, Bool.not_eq_true'] at h
  obtain ⟨⟨⟨⟨⟨⟨⟨⟨⟨h1, h2⟩, h3⟩, h4⟩, h5⟩, h6⟩, h7⟩, h8⟩, h9⟩, h10⟩ := h
  exact ⟨h1, h2, h3, h4, h5, h6, h7, h8, h9, h10⟩

/-- The conditions of `OneSlot`, decided. -/
def oneB (s : State) (n : Nat) (l : Line) (i : Instr) : Bool := goesB s n l i && decide (s.openRegion n = none)

theorem one_of_oneB {s : State} {n : Nat} {l : Line} {i : Instr} (h : oneB s n l i = true) : OneSlot s n l i := by
  simp only [oneB, Bool.and_eq_true, decide_eq_true_eq] at h
  exact ⟨goes_of_goesB h.1, h.2⟩

def holdB : Hold → Bool
  | .none => true
  | .ending => true
  | .commit _ => true
  | .reject _ => true
  | _ => false

/-- The conditions of `Quiet`, decided. -/
def quietB (s : State) : Bool :=
  (s.presses.all fun e => !e.2.cur.away && holdB e.2.cur.hold && decide (e.2.cur.watch = none) &&
    (e.2.slotA.toList ++ e.2.slotB.toList).all fun x => !x.st.away) &&
  (s.comps.all fun e => decide (e.2.stall = [])) && decide (s.hostq = []) && decide (s.requests = []) &&
  (s.parts.all fun e => decide (e.2.jobs = [])) &&
  (s.placed.all fun e => e.2.asked || (!e.2.poison && decide (e.2.move ≠ some .fetch))) &&
  s.longops.all fun e => match e.2.kind with
    | .modelLoad _ _ => false
    | _ => true

theorem quiet_of_quietB {s : State} (h : quietB s = true) : Quiet s := by
  simp only [quietB, Bool.and_eq_true, List.all_eq_true, decide_eq_true_eq, Bool.not_eq_true', Bool.or_eq_true] at h
  obtain ⟨⟨⟨⟨⟨⟨h1, h2⟩, h3⟩, h4⟩, h5⟩, h6⟩, h7⟩ := h
  refine ⟨fun e he => ?_, h2, h3, h4, h5, h6, fun e he i t hk => ?_⟩
  · obtain ⟨⟨⟨a, b⟩, c⟩, d⟩ := h1 e he
    refine ⟨a, ?_, c, d⟩
    revert b; cases e.2.cur.hold <;> simp [holdB, Hold.quiet]
  · have h8 := h7 e he
    rw [hk] at h8
    cases h8

/-- The conditions of `Admitted`, decided. -/
def admitB (s : State) (o : OpRule) (r : MReq) : Bool :=
  decide (r.session < 1024) && s.sessionOpen r.session && decide (s.gate o r = none)

theorem admitted_of_admitB {s : State} {o : OpRule} {r : MReq} (h : admitB s o r = true) : Admitted s o r := by
  simp only [admitB, Bool.and_eq_true, decide_eq_true_eq] at h
  exact ⟨h.1.1, h.1.2, h.2⟩

/-- Where an address lies in plain local memory. -/
def placeB (s : State) (c : Nat) (k : Kind) (va : W64) (pa : Nat) : Bool :=
  match s.resolve c k va with
  | .ok (.mem a) => a == pa
  | _ => false

theorem place_of_placeB {s : State} {c : Nat} {k : Kind} {va : W64} {pa : Nat} (h : placeB s c k va pa = true) :
    s.resolve c k va = .ok (.mem pa) := by
  unfold placeB at h
  split at h
  · rename_i a ha; rw [ha, eq_of_beq h]
  · cases h

/-- The conditions of `PlainWord`, decided. -/
def wordB (s : State) (n : Nat) (c : Option Nat) (k : Kind) (va : W64) (pa size : Nat) : Bool :=
  placeB s (s.runCtx n) k va pa && decide (pa + size ≤ 2 ^ 48) && !s.waits c (.mem pa) size (decide (k = .wr)) && !s.isBad pa size &&
    !s.scalarBusy n (s.runCtx n)

theorem word_of_wordB {s : State} {n : Nat} {c : Option Nat} {k : Kind} {va : W64} {pa size : Nat}
    (h : wordB s n c k va pa size = true) : PlainWord s n c k va pa size := by
  simp only [wordB, Bool.and_eq_true, decide_eq_true_eq, Bool.not_eq_true'] at h
  obtain ⟨⟨⟨⟨h1, h2⟩, h3⟩, h4⟩, h5⟩ := h
  exact ⟨place_of_placeB h1, h2, h3, h4, h5⟩

/-- Running, decided. -/
def runB (s : State) (n : Nat) : Bool := decide (n < 128) && decide ((s.press n).run ≠ none)

/-- A page of code, and a page of data that may be read and written; context 0 has them at 0x10000 and 0x20000. -/
def code : Page := { rd := true, ex := true, tgt := .frame 0x100000 }
def data : Page := { rd := true, wr := true, tgt := .frame 0x200000 }
def ctxA : Ctx := { st := .active, pages := [(1, code), (2, data)] }

/-- Press 0 runs context 0 with the state `p`, at the code page. -/
def on (p : PressCtx) : State :=
  { ctxs := [(0, ctxA)], presses := [(0, { st := .running, run := some 0, cur := { p with pc := 0x10000 } })] }

/-- A Line of press 0 with a header that asks for nothing. -/
def ln : Line :=
  { core := .press 0, more := false, wait := 0, split := 0, lpred := 0, lneg := false, lpen := false, rsv := 0, imm := 0 }

/-- Slot fields: destination 3, sources 1 and 2. -/
def fA (sub : BitVec 7) : FormA := { slot := .s0, rd := 3, rs1 := 1, rs2 := 2, sub := sub }
def fB (imm : BitVec 13) : FormB := { slot := .s0, rd := 3, rs1 := 1, imm := imm }
def fS (imm : BitVec 13) : FormS := { slot := .s0, rs2 := 2, rs1 := 1, imm := imm }
def fT (td ts : BitVec 5) : TmF := { td, ts, nc := 0, mark := 0, markEn := false, xa := 0, xb := 0, rsv := 0 }
def fP (plat : BitVec 4) : PlF :=
  { tr := false, acc := false, plat, ta := 1, tw := 2, tile := 0, nc := 0, mark := 0, markEn := false, pm := 0, chk := false,
    pass := 0, rel := false, rsv := 0 }
def fR (fn : BitVec 6) : RlF :=
  { fn, td := 1, ta := 2, tb := 3, xs := 0, xsImm := false, pm := 0, pmn := false, pd := 1, nc := 0, mark := 0, markEn := false,
    xn := 1, bc := false, bcax := false, rsv := 0 }
def fC (xa xb xd : BitVec 6) (imm : BitVec 14) : CtF :=
  { cp := 0, cpn := false, xa, xb, xd, mark := 0, markEn := false, imm, rsv := 0 }

/-- A descriptor of a row in the case: `e0` elements of a format at `base`. -/
def row (base e0 fmt : Nat) : Desc :=
  BitVec.ofNat 512 (base + e0 * 2 ^ 128 + 2 ^ 160 + 2 ^ 192 + 2 ^ 224 + (fmt + 128) * 2 ^ 448)
/-- A descriptor of a matrix in the case, `e1` rows of `e0` elements, `s1` bytes apart. -/
def mat (base e0 e1 s1 fmt : Nat) : Desc :=
  BitVec.ofNat 512 (base + e0 * 2 ^ 128 + e1 * 2 ^ 160 + 2 ^ 192 + 2 ^ 224 + s1 * 2 ^ 256 + (fmt + 128) * 2 ^ 448)

set_option maxRecDepth 20000
set_option Elab.async false

/-! ### Well-formed commands -/

/-- A request of the management channel. -/
def rq (items : List (Nat × W64)) : MReq := { session := 0, reqId := 9, part := 0, items }

theorem test_wf_press : Instr.wf (.subtakeComplete 127) = true ∧ Instr.wf (.subtakeComplete 128) = false := by decide
theorem test_wf_chase : Instr.wf (.proofCommitEngine 15 63) = true ∧ Instr.wf (.proofCommitEngine 16 0) = false := by decide
theorem test_wf_region : Instr.wf (.proofRejectEngine 0 64) = false := by decide
theorem test_wf_line : Instr.wf (.alu ln (fA 0)) = true ∧
    Instr.wf (.alu { ln with core := .press 128 } (fA 0)) = false := by decide
theorem test_wf_compositor : Instr.wf (.jal { ln with core := .comp 63 } (fB 0)) = true ∧
    Instr.wf (.jal { ln with core := .comp 64 } (fB 0)) = false := by decide
theorem test_wf_tensor : Instr.wf (.copy { ln with core := .press 128 } (fT 0 0)) = false := by decide
theorem test_wf_platen : Instr.wf (.mm { ln with core := .press 128 } (fP 1)) = false := by decide
theorem test_wf_roller : Instr.wf (.scan { ln with core := .press 128 } (fR 0)) = false := by decide
theorem test_wf_control : Instr.wf (.br { ln with core := .press 128 } (fC 0 0 0 0)) = false := by decide
theorem test_wf_service : Instr.wf (.kernOpen { ln with core := .press 128 } (fC 0 0 0 0)) = false := by decide
theorem test_wf_channel : Instr.wf (.hbmPatrol 511 0 .good) = true ∧ Instr.wf (.hbmPatrol 512 0 .good) = false := by decide
theorem test_wf_partition : Instr.wf (.regulatorAdmit 7 .access ⟨0, 64, false, 0⟩ 0 0) = true ∧
    Instr.wf (.regulatorAdmit 8 .access ⟨0, 64, false, 0⟩ 0 0) = false := by decide
theorem test_wf_link : Instr.wf (.fecLockLoss 31) = true ∧ Instr.wf (.fecLockLoss 32) = false := by decide
theorem test_wf_linkcfg : Instr.wf (.quoinLinkCfgWrite .i3c 32 0) = false := by decide
theorem test_wf_session : Instr.wf (.segmentSend 1023) = true ∧ Instr.wf (.segmentSend 1024) = false := by decide
theorem test_wf_context : Instr.wf (.doorbell 4095) = true ∧ Instr.wf (.doorbell 4096) = false := by decide
theorem test_wf_suspect : Instr.wf (.suspectClear .i3c 1 0) = true ∧ Instr.wf (.suspectClear .i3c 2 0) = false := by decide
theorem test_wf_request : Instr.wf (.scrub (rq [])) = true ∧ Instr.wf (.scrub { rq [] with session := 1024 }) = false := by
  decide
theorem test_wf_item : Instr.wf (.scrub (rq [(65536, 0)])) = false := by decide

/-! ### Scalar slots -/

/-- x1 = 0x20010 in the data page, x2 = −1, p1 the predicate of even bits. -/
def sc : State := on { x := [(1, 0x20010), (2, BitVec.allOnes 64)], p := [(1, 0x5555)] }

theorem witness_IntegerResults :
    ([.alu ln (fA 0), .alu ln (fA 23), .addi ln (fB 0x1FFF), .andi ln (fB 0x1000), .ori ln (fB 1), .xori ln (fB 1), .slli ln (fB 63),
      .srli ln (fB 63), .srai ln (fB 1), .slti ln (fB 0), .lis ln (fB 4)] : List Instr).all (oneB sc 0 ln) = true ∧
    aluOp 23 (sc.x 0 1) (sc.x 0 2) = some 4 := by decide
theorem witness_NopsAdvance :
    ([.scalarNop ln .s1 0, .tmNop ln (fT 0 0), .plNop ln { fP 0 with ta := 0, tw := 0 }, .ctNop ln (fC 0 0 0 0)] : List Instr).all
      (oneB sc 0 ln) = true := by decide
theorem witness_PredicateResults :
    ([.cmp ln (fA 5), .plog ln (fA 3), .pget ln (fA 0), .pset ln (fA 0)] : List Instr).all (oneB sc 0 ln) = true := by decide
theorem witness_FloatResults :
    ([.fadd ln (fA 0), .fsub ln (fA 16), .fmul ln (fA 0), .fdiv ln (fA 0), .fsqrt ln { fA 0 with rs2 := 0 }, .fmin ln (fA 0), .fmax ln (fA 0),
      .fcmp ln (fA 5), .fcvt ln true { fA 0 with rs2 := 7 }] : List Instr).all (oneB sc 0 ln) = true ∧
    drawsFor 8 0 = false := by decide +kernel
theorem witness_StateRegisters :
    ([.rdcsr ln (fB 2), .rdcsr ln (fB 0), .wrcsr ln (fB 0x250), .tset ln (fB 7), .tget ln (fB 7)] : List Instr).all
      (oneB sc 0 ln) = true := by decide
theorem test_addi : after (.addi ln (fB 0x1FFF)) sc (fun t => ((t.pc 0).getX 3, (t.pc 0).pc)) = some (0x2000F, 0x10040) := by
  decide
theorem test_x0 : after (.addi ln { fB 1 with rd := 0 }) sc (fun t => (t.pc 0).getX 0) = some 0 := by decide

/-- x1 = 8 bytes below the end of the case. -/
def cs : State := on { x := [(1, 0x3FFF8), (2, 0x1122334455667788)] }

theorem witness_CaseAccess : ([.ldc ln (fB 0), .stc ln (fS 0)] : List Instr).all (oneB cs 0 ln) = true := by decide
theorem witness_LoadResults :
    ([.lb ln (fB 0), .lh ln (fB 0), .lw ln (fB 0), .ld ln (fB 0), .lbu ln (fB 0), .lhu ln (fB 0), .lwu ln (fB 0)] : List Instr).all
      (oneB sc 0 ln) = true ∧ wordB sc 0 (some 0) .rd 0x20010 0x200010 8 = true := by decide
theorem witness_StoreResults :
    ([.sb ln (fS 0), .sh ln (fS 0), .sw ln (fS 0), .sd ln (fS 0)] : List Instr).all (oneB sc 0 ln) = true ∧
      wordB sc 0 (some 0) .wr 0x20010 0x200010 8 = true ∧ quietB sc = true ∧
      overlaps [(0x200010, 8)] (sc.sharedRuns 0 (sc.runCtx 0)) = [] := by decide
theorem test_store : after (.sd ln (fS 0)) sc (fun t => cells t.mem 0x200010 9) = some (List.replicate 8 0xFF ++ [0]) := by
  decide

/-- Compositor 63 with x1 = 3. -/
def cm : State := { ctxs := [(0, ctxA)], comps := [(63, { ctx := 0, pc := 0x10000, x := [(1, 3)] })] }
def lnC : Line := { ln with core := .comp 63 }

theorem witness_CompositorBranches : lnC.core = .comp 63 ∧ (cm.comp 63).fault.valid = false ∧ (cm.comp 63).stall = [] ∧
    cm.requests = [] := by decide
theorem test_bnz : after (.bnz lnC { fB 0x1FFF with rd := 0 }) cm (fun t => (t.comp 63).pc) = some 0xFFFC := by decide
theorem test_jalr : after (.jalr lnC (fB 4)) cm (fun t => ((t.comp 63).pc, (t.comp 63).getX 3)) = some (4, 0x10004) := by
  decide

theorem witness_DivisionResults :
    let i : Instr := .alu ln (fA 19)
    ln.stray = 0 ∧ ln.unlisted = 0 ∧ sc.lineReady 0 ln (lineSlots ln [i]) = true ∧ sc.rangeFault 0 .ex 0x10000 64 = none ∧ (sc.lc 0 ln).guard = true ∧
      sc.openRegion 0 = none ∧ sc.runCtx 0 = 0 ∧ (sc.pc 0).pc = 0x10000 ∧ (sc.press 0).st = .running ∧ (sc.press 0).gathered = [] ∧
      (sc.press 0).run ≠ none := by decide
theorem test_div : ([(17, 7, 0), (18, 7, 0), (19, 7, 0), (20, 7, 0), (17, 0x8000000000000000, 0xFFFFFFFFFFFFFFFF),
      (19, 0x8000000000000000, 0xFFFFFFFFFFFFFFFF), (17, 0xFFFFFFFFFFFFFFF9, 2), (19, 0xFFFFFFFFFFFFFFF9, 2)] :
      List (BitVec 7 × W64 × W64)).map (fun e => after (.alu ln (fA e.1)) (on { x := [(1, e.2.1), (2, e.2.2)] }) fun t =>
        (t.pc 0).getX 3) =
    [some 0xFFFFFFFFFFFFFFFF, some 0xFFFFFFFFFFFFFFFF, some 7, some 7, some 0x8000000000000000, some 0,
      some 0xFFFFFFFFFFFFFFFD, some 0xFFFFFFFFFFFFFFFF] := by decide

/-! ### Engine queues -/

/-- Words as bytes, and the state with words in the case of press 0. -/
def bytesOf (ws : List W64) : List Byte := ws.flatMap fun w => toBytes 8 w.toNat
def inCase (s : State) (off : Nat) (ws : List W64) : State := { s with mem := putCells s.mem (caseBase 0 + off) (bytesOf ws) }
/-- A descriptor of a row in memory. -/
def mrow (base e0 fmt : Nat) : Desc := BitVec.ofNat 512 (base + e0 * 2 ^ 128 + 2 ^ 160 + 2 ^ 192 + 2 ^ 224 + fmt * 2 ^ 448)

/-- t1 to t3 rows of 4 INT32 elements in the case, t4 a slug area in memory, t5 8 KiB of it, x1 = 4, x2 = 0. -/
def tm : State :=
  { on { t := [(1, row 0 4 11), (2, row 64 4 11), (3, row 128 4 11), (4, mrow 0x20000 8352 15), (5, mrow 0x24000 4096 3)],
         x := [(1, 4)] } with parts := [(0, { st := 1, tsets := [(0, {})] })] }

theorem witness_TensorMovesQueue :
    ([.copy ln (fT 1 2), .prefetch ln (fT 0 5), .fill ln (fT 1 0), .slugPack ln (fT 4 5), .slugUnpack ln (fT 5 4)] : List Instr).all
      (oneB tm 0 ln) = true := by decide +kernel
theorem witness_DescriptorMoves : ([.dload ln (fT 1 0), .dstore ln (fT 0 1)] : List Instr).all (oneB tm 0 ln) = true := by
  decide +kernel

/-- t1 operands of 4 rows by 2, t2 weights of 2 by 3, INT8; a window recorded and resident; tile 0 unbound, handle 5 bound. -/
def pl : State := on { t := [(1, mat 0 2 4 2 13), (2, mat 64 3 2 3 13), (3, mat 128 3 4 12 11)],
                       wrec := some { fmt := 13, kExt := 2, nExt := 3 }, binds := [(5, { tile := 3, tag := .int32 })] }

theorem witness_PlatenQueue :
    ([.wload ln (fP 0), .mm ln (fP 1), .drain ln { fP 1 with ta := 3, tile := 5, rel := true }, .tzero ln (fP 1),
      .tfree ln { fP 1 with tile := 5 }, .tload ln { fP 1 with ta := 3 }] : List Instr).all (oneB pl 0 ln) = true := by
  decide +kernel
/-- FP32 rows, and INT32 indices in t3. -/
def rl : State := on { t := [(1, row 0 4 1), (2, row 64 4 1), (3, row 128 4 11)], x := [(1, 4)] }

theorem witness_RollerQueue :
    ([.elementWiseArithmetic ln (fR 0), .transcendental ln (fR 0), .conversion ln (fR 0), .comparison ln (fR 0), .reduction ln (fR 0),
      .scan ln (fR 0), .segmentedScan ln (fR 0), .permutationGather ln (fR 0)] : List Instr).all (oneB rl 0 ln) = true := by
  decide +kernel

/-! ### Control slot -/

/-- x1 = 0x10040, x2 = 1, x3 = 3; CP = 0 with CPN = 0 holds, with CPN = 1 not. -/
def ct : State := on { x := [(1, 0x10040), (2, 1), (3, 3)] }

theorem witness_Branches :
    ([.br ln (fC 0 0 0 0x3FFF), .brx ln (fC 1 0 0 0), .call ln (fC 0 0 4 1), .dbnz ln (fC 2 0 0 1),
      .br ln { fC 0 0 0 1 with cpn := true }] : List Instr).all (oneB ct 0 ln) = true ∧
    condHolds ct 0 (fC 0 0 0 0) ∧ ¬condHolds ct 0 { fC 0 0 0 0 with cpn := true } := by
  refine ⟨by decide +kernel, ?_, ?_⟩ <;> unfold condHolds <;> decide +kernel
theorem test_branches :
    ([.br ln (fC 0 0 0 0x3FFF), .brx ln (fC 1 0 0 0), .call ln (fC 0 0 4 1), .dbnz ln (fC 2 0 0 2), .dbnz ln (fC 3 0 0 2),
      .br ln { fC 0 0 0 9 with cpn := true }] : List Instr).map (fun i => after i ct fun t => (t.pc 0).pc) =
    [some 0xFFC0, some 0x10040, some 0x10040, some 0x10040, some 0x10080, some 0x10040] := by decide +kernel

/-- A press with a mark outstanding. -/
def busy : State := on { x := [(1, 2)], marks := [(3, 1)] }

theorem witness_FenceAndEnd :
    ([.fence ln (fC 0 0 0 0), .endTake ln (fC 0 0 0 0)] : List Instr).all (oneB ct 0 ln) = true ∧ quietB ct = true ∧
      Settled (ct.pc 0) ∧ oneB busy 0 ln (.fence ln (fC 0 0 0 0)) = true ∧ quietB busy = true ∧ ¬Settled (busy.pc 0) := by
  refine ⟨by decide +kernel, by decide +kernel, ?_, by decide +kernel, by decide +kernel, ?_⟩ <;> unfold Settled <;>
    decide +kernel

/-- Barrier 2 of chase 0 belongs to context 0 and expects two, one of them arrived; a claim counter with value 5 claimed. -/
def bar : State :=
  { ct with chases := [(0, { barriers := [(1, { ctx := some 0, expect := 2 }), (2, { ctx := some 0, expect := 2, arrived := [1] })],
                             counters := [(0, { ctx := some 0, value := 7 }),
                                          (1, { ctx := some 0, value := 4, claim := true, bitmap := 32 })] })] }

theorem witness_ChaseBarriers :
    ([.cbarinit ln (fC 2 0 0 3), .cbar ln (fC 0 0 0 1), .cbar ln (fC 0 0 0 2)] : List Instr).all (oneB bar 0 ln) = true ∧
      quietB bar = true ∧ Settled (bar.pc 0) ∧ (bar.barrier 0 1).arrived.length + 1 < (bar.barrier 0 1).expect ∧
      (bar.barrier 0 2).expect ≤ (bar.barrier 0 2).arrived.length + 1 := by
  refine ⟨by decide +kernel, by decide +kernel, ?_, by decide +kernel, by decide +kernel⟩
  unfold Settled; decide +kernel
theorem witness_WorkCounters :
    ([.wcinit ln (fC 1 0 0 2), .wcfa ln (fC 0 3 4 0), .wcfa ln (fC 0 3 4 1)] : List Instr).all (oneB bar 0 ln) = true ∧
      (bar.counter 0 0).claim = false ∧ (bar.counter 0 1).claim = true := by decide +kernel
theorem test_claim_twice : after (.wcfa ln (fC 0 3 4 1)) bar (fun t => ((t.pc 0).getX 4, (t.pc 0).dropLatch, (t.counter 0 1).dups)) =
    some (0x8000000000000004, true, 1) := by decide +kernel
theorem test_claim_new : after (.wcfa ln (fC 0 2 4 1)) bar (fun t => ((t.pc 0).getX 4, (t.pc 0).dropLatch, (t.counter 0 1).bitmap.toNat)) =
    some (4, false, 48) := by decide +kernel

/-- Press 0 takes part in the barrier of forme 0, which waits for press 1 too; x1 names a word that holds 3. -/
def fb : State :=
  { on { x := [(1, 0x20000), (2, 3), (3, 4)], sub := some 0 } with
    subs := [(0, { take := 7, ctx := 0, via := [0], started := true })]
    formes := [(0, { ctx := 0, level := 3 })]
    fbars := [(7168, { expect := [0, 1] })]
    mem := [(0x200000, 3)] }
def fbLast : State := { fb with fbars := [(7168, { expect := [0, 1], arrived := [1] })] }

theorem witness_FormeBarrierAndWait :
    ([.fbar ln (fC 0 0 4 0), .rwait ln (fC 1 2 4 0), .rwait ln (fC 1 3 4 0)] : List Instr).all (oneB fb 0 ln) = true ∧
      quietB fb = true ∧ fb.takeOf (fb.pc 0) = some 7 ∧ (mget ({} : Forme) fb.formes 0).lost = false ∧
      fb.wordAt (some 0) 0 0x20000 = some 3 ∧ fb.badWord 0 0 0x20000 = none ∧
      oneB fbLast 0 ln (.fbar ln (fC 0 0 4 0)) = true ∧ quietB fbLast = true ∧ (mget ({} : FBarrier) fb.fbars 7168).remote = false ∧
      (fb.x 0 1).toNat % 1024 = 0 ∧ FormeHere fb 0 ∧ Settled (fb.pc 0) := by
  refine ⟨by decide +kernel, by decide +kernel, by decide +kernel, by decide +kernel, by decide +kernel, by decide +kernel,
    by decide +kernel, by decide +kernel, by decide +kernel, by decide +kernel, ?_, ?_⟩
  · unfold FormeHere; decide +kernel
  · unfold Settled; decide +kernel
theorem test_fbar : ([fb, fbLast].map fun s => after (.fbar ln (fC 0 0 4 0)) s fun t => (t.pc 0).hold) =
    [some (.fbarWait 0 4), some .none] := by decide +kernel
theorem test_rwait : ([.rwait ln (fC 1 2 4 0), .rwait ln (fC 1 3 4 0)] : List Instr).map (fun i => after i fb fun t => (t.pc 0).hold) =
    [some .none, some (.rwait 4)] := by decide +kernel

theorem witness_SignalAdds : oneB fb 0 ln (.rsignal ln (fC 1 2 0 0)) = true ∧ wordB fb 0 none .wr 0x20000 0x200000 8 = true ∧
    quietB fb = true ∧ (fb.pc 0).dropLatch = false := by decide +kernel
theorem test_rsignal : after (.rsignal ln { fC 1 2 0 0 with markEn := true, mark := 5 }) fb (fun t => (cells t.mem 0x200000 2, (t.pc 0).marks)) =
    some ([6, 0], []) := by decide +kernel

/-! ### Regions and service commands at acceptance -/

/-- Room for a region with 2 roots and 3 shadow pages: x1 a branch, x2 the parameters. -/
def rg : State :=
  { on { x := [(1, 9), (2, 0x31201)] } with parts := [(0, { st := 1, free := [(0, 2), (19, 3)] })] }
def rgFull : State := { rg with parts := [(0, { st := 1, free := [(0, 2), (19, 2)] })] }
/-- Region 4 open on press 0; x1 = 4. -/
def rgOpen : State :=
  { on { x := [(1, 9), (2, 0x31201), (3, 4)], region := some 4 } with
    chases := [(0, { regions := [(4, { press := 0, ctx := 0, branch := 9, depth := 2, frames := 1 })] })] }

theorem witness_RegionOpens :
    goesB rg 0 ln (.popen ln (fC 1 2 5 0)) = true ∧ (rg.pc 0).region = none ∧ mfree (rg.chase 0).regions 64 0 = some 0 ∧
      fld (rg.x 0 2) 11 8 ≤ rg.poolRoom 0 (Pool.folio 0) ∧ fld (rg.x 0 2) 27 16 ≤ rg.poolRoom 0 Pool.proof ∧
      goesB rgFull 0 ln (.popen ln (fC 1 2 5 0)) = true ∧ ¬fld (rgFull.x 0 2) 27 16 ≤ rgFull.poolRoom 0 Pool.proof ∧
      goesB rgOpen 0 ln (.popen ln (fC 1 2 5 0)) = true ∧ (rgOpen.pc 0).region = some 4 ∧
      (rgOpen.region 0 4).st ≠ .issuing := by decide +kernel
theorem test_popen : ([rg, rgFull, rgOpen].map fun s => after (.popen ln (fC 1 2 5 0)) s fun t => ((t.pc 0).getX 5, (t.pc 0).region)) =
    [some (0, some 0), some (BitVec.allOnes 64, none), some (4, some 4)] := by decide +kernel
theorem witness_RegionEndsRequested :
    ([.pcommit ln (fC 3 0 0 0), .preject ln (fC 3 0 0 0)] : List Instr).all (goesB rgOpen 0 ln) = true ∧
      rgOpen.openRegion 0 = some 4 := by decide +kernel

/-- A descriptor of three dimensions in the case, packed, elements of `w` bytes. -/
def cube (base e0 e1 e2 fmt w : Nat) : Desc :=
  BitVec.ofNat 512 (base + e0 * 2 ^ 128 + e1 * 2 ^ 160 + e2 * 2 ^ 192 + 2 ^ 224 + (e0 * w) * 2 ^ 256 + (e0 * e1 * w) * 2 ^ 320 +
    (fmt + 128) * 2 ^ 448)
def descWords (d : Desc) : List W64 := (List.range 8).map fun i => dword d i
/-- Words of a service command: operation, stream, result record at 0x2000. -/
def cmdWords (op stream w1 w2 : Nat) (more : List W64) : List W64 :=
  [wn (op + stream * 2 ^ 16 + 0x2000 * 2 ^ 32), wn w1, wn w2] ++ more ++ List.replicate (5 - more.length) 0

/-- Stream 0 of BF16 keys and values of 32 elements, one head, two positions in folio 2 under list folio 1 and root 0;
x1 names the command. -/
def ks : State :=
  { on { x := [(1, 0x1000)] } with
    parts := [(0, { st := 1, free := [(0, 6)] })]
    kstreams := [(0, { ctx := 0, kfmt := 3, vfmt := 3, hkv := 1, dk := 32, dv := 32, ropeBase := 0x461C4000, len := 2, root := 0 })]
    folios := [(0, { refs := 1, kids := [(0, 1)] }), (1, { refs := 1, kids := [(0, 2)] }), (2, { refs := 1 })] }
def kcmd (op w1 w2 : Nat) (more : List W64) : State :=
  inCase (inCase (inCase ks 0x1000 (cmdWords op 0 w1 w2 more)) 0x3000 (descWords (cube 0x4000 32 1 2 3 2))) 0x3040
    (descWords (cube 0x5000 32 1 1 3 2))
def kOpen : State := kcmd 1 0x010101000303 0x461C4000 []
def kOpenFull : State := { kOpen with parts := [(0, { st := 1 })] }
def kAppend : State := kcmd 2 0x300000003000 2 []
def kAttend : State := kcmd 3 0x304000003040 (2 ^ 40 + 2 ^ 48) [0x3F800000]
def kFork : State := kcmd 4 1 0 []
def kTruncate : State := kcmd 5 1 0 []
def kRelease : State := kcmd 6 0 0 []
/-- The conditions of an accepted kern or galley command. -/
def cmdB (s : State) (i : Instr) (op : Nat) (bound : Option (Nat × Nat)) : Bool :=
  oneB s 0 ln i && cmdOp (s.caseWords 0 (s.x 0 1)) == op && decide (bound = none)

theorem witness_KernCommandsAccepted :
    cmdB kOpen (.kernOpen ln (fC 1 0 0 0)) 1 (kOpen.kstream 0).bound = true ∧ kOpen.freeKern = some 1 ∧
    (kOpen.newFolio 0 0).isSome = true ∧ cmdB kOpenFull (.kernOpen ln (fC 1 0 0 0)) 1 none = true ∧ kOpenFull.newFolio 0 0 = none ∧
    (kFork.newFolio (kFork.kstream 0).part 0).isSome = true ∧
    cmdB kAppend (.kernAppend ln (fC 1 0 0 0)) 2 (kAppend.kstream 0).bound = true ∧
    cmdB kAttend (.kernAttend ln (fC 1 0 0 0)) 3 (kAttend.kstream 0).bound = true ∧
    cmdB kFork (.kernFork ln (fC 1 0 0 0)) 4 (kFork.kstream 0).bound = true ∧
    cmdB kTruncate (.kernTruncate ln (fC 1 0 0 0)) 5 (kTruncate.kstream 0).bound = true ∧
    cmdB kRelease (.kernRelease ln (fC 1 0 0 0)) 6 (kRelease.kstream 0).bound = true := by decide +kernel

/-- Stream 0 of one channel of four FP32 elements, sticks of 64. -/
def gs : State :=
  { on { x := [(1, 0x1000)] } with
    parts := [(0, { st := 1, free := [(10, 4), (18, 1)] })]
    galley := [(0, { cur := some 0, spare := some 1, elems := 4, stick := 64, isOpen := true, refs := 1 })]
    gsets := [(0, { share := 1 }), (1, {})] }
def gcmd (op w1 w2 : Nat) (more : List W64) : State :=
  inCase (inCase (inCase gs 0x1000 (cmdWords op 0 w1 w2 more)) 0x3000 (descWords (cube 0x4000 4 1 64 1 4))) 0x3040
    (descWords (cube 0x5000 4 1 1 1 4))
def gCreate : State := inCase gs 0x1000 (cmdWords 1 0 (0x3000 + 2 ^ 30) 0 [])
def gStick : State := gcmd 2 0x300000003000 0 []

theorem witness_GalleyCommandsAccepted :
    cmdB gCreate (.galleyCreate ln (fC 1 0 0 0)) 1 (gCreate.gentry 0).bound = true ∧ gCreate.freeGalley = some 1 ∧
    cmdB gStick (.galleyStick ln (fC 1 0 0 0)) 2 none = true ∧
    cmdB (gcmd 3 0 0 []) (.galleyFork ln (fC 1 0 0 0)) 3 none = true ∧
    cmdB (gcmd 4 0 0 []) (.galleyReset ln (fC 1 0 0 0)) 4 none = true ∧
    cmdB (gcmd 5 0x3040 0 []) (.galleyLoad ln (fC 1 0 0 0)) 5 none = true ∧
    cmdB (gcmd 6 0x3040 0 []) (.galleyStore ln (fC 1 0 0 0)) 6 none = true ∧
    cmdB (gcmd 7 0 0 []) (.galleySwapOut ln (fC 1 0 0 0)) 7 none = true ∧
    cmdB (gcmd 8 0 0 []) (.galleySwapIn ln (fC 1 0 0 0)) 8 none = true ∧
    cmdB (gcmd 9 0 0 []) (.galleyRelease ln (fC 1 0 0 0)) 9 none = true ∧
    cmdB (gcmd 10 0x6000 0 []) (.galleyQuery ln (fC 1 0 0 0)) 10 none = true := by decide +kernel

/-! ### The engines at work -/

theorem caseRow_row (base e0 fmt : Nat) : Nat.beq (tdOf (row base e0 fmt)).space 1 = true → (tdOf (row base e0 fmt)).mx = false →
    (tdOf (row base e0 fmt)).plist = false → fmtWidth (tdOf (row base e0 fmt)).fmt % 8 = 0 →
    (tdOf (row base e0 fmt)).e1 = 1 ∧ (tdOf (row base e0 fmt)).e2 = 1 ∧ (tdOf (row base e0 fmt)).e3 = 1 →
    CaseRow (tdOf (row base e0 fmt)) := fun h a b c d => ⟨Nat.eq_of_beq_eq_true h, a, b, c, d⟩
def caseRowB (t : TD) : Bool :=
  t.space == 1 && !t.mx && !t.plist && fmtWidth t.fmt % 8 == 0 && t.e1 == 1 && t.e2 == 1 && t.e3 == 1

def tmFill : State := on { tmq := [{ kind := .fill, td := row 0x100 3 11, imm := 0x55667788 }] }
def tmCopy : State := inCase (on { tmq := [{ kind := .copy, td := row 0x100 3 11, ts := row 0x108 3 11, offA := 1 }] }) 0x10C
  [0x0A0B0C0D01020304, 0x1112131421222324]

def tmDload : State := inCase (on { tmq := [{ kind := .dload, treg := 5, offA := 0x100 }] }) 0x100 [0x1122, 0, 0, 0, 0, 0, 0, 1]
def tmDstore : State := on { tmq := [{ kind := .dstore, ts := row 0 4 11, offA := 0x100 }] }

/-- The conditions of `Unshared`, decided. -/
def unsharedB (s : State) (n : Nat) (runs : List (Nat × Nat)) : Bool :=
  (overlaps runs (s.busySpans n (s.runCtx n))).isEmpty && (overlaps runs (s.sharedRuns n (s.runCtx n))).isEmpty

theorem unshared_of_unsharedB {s : State} {n : Nat} {runs : List (Nat × Nat)} (h : unsharedB s n runs = true) : Unshared s n runs := by
  simp only [unsharedB, Bool.and_eq_true, List.isEmpty_iff] at h
  exact ⟨h.1, h.2⟩

theorem witness_TensorMoveRuns : ([tmFill, tmCopy, tmDload, tmDstore].all fun s => quietB s && runB s 0 && decide ((s.pc 0).tmRun = []) &&
    (s.pc 0).tmq.all fun o => !o.done && decide (o.left = []) && unsharedB s 0 (s.tmSpans 0 0 o)) = true ∧ caseRowB (tdOf (row 0x100 3 11)) = true ∧
    caseRowB (tdOf (row 0x108 3 11)) = true := by decide +kernel
theorem test_fill : after (.tmEngineStart ⟨0, none⟩) tmFill (fun t => ofBytes (cells t.mem (caseBase 0 + 0xFC) 20)) =
    some (0x000000005566778855667788556677880000000 * 16) := by decide +kernel
/-- The source starts one element in, and overlaps the destination. -/
theorem test_copy : after (.tmEngineStart ⟨0, none⟩) tmCopy (fun t => ofBytes (cells t.mem (caseBase 0 + 0x100) 12)) =
    some 0x212223240A0B0C0D01020304 := by decide +kernel

theorem test_dload : after (.tmEngineStart ⟨0, none⟩) tmDload (fun t => (t.pc 0).getT 5) = some (0x1122 + 2 ^ 448) := by decide +kernel
theorem test_dstore : after (.tmEngineStart ⟨0, none⟩) tmDstore (fun t => t.caseDesc 0 0x100) = some (row 0 4 11) := by decide +kernel

def plOp (k : PlKind) (p : BitVec 4) (t : List (List Nat)) : PlOp :=
  { kind := k, plat := p, tiles := t, pm := 7, mark := some 3 }
def plRun1 (o : PlOp) : State := on { plq := [o], marks := [(3, 1)] }
def plNopS : State := plRun1 { plOp .nop 0 [] with kind := .mm }
def plLoadS : State := inCase (plRun1 { plOp .wload 0 [] with tw := mat 0x40 3 2 3 13 }) 0x40 [0xFB04FEFF0201]
def plZeroS : State := { plRun1 (plOp .tzero 1 [[2]]) with mem := putCells [] (tympBase 0 0 + 16384 * 2 - 1) (List.replicate 6 1) }
def plFreeS : State := plRun1 (plOp .tfree 1 [[2]])
/-- Two rows of two INT8 elements, against a window of 2 by 3: 1, 2 and −1, 3 against 1, 2, −1 / −2, 4, −5. -/
def plMmS : State :=
  inCase (on { plq := [{ plOp .mm 1 [[2]] with ta := [mat 0x80 2 2 2 13], wrec := { fmt := 13, kExt := 2, nExt := 3 } }],
               weights := [(0, 1), (1, 2), (2, 0xFF), (64, 0xFE), (65, 4), (66, 0xFB)], marks := [(3, 1)] }) 0x80 [0x03FF0201]

theorem witness_PlatenRuns : ([plNopS, plLoadS, plZeroS, plFreeS].all fun s => runB s 0 && (s.pc 0).plq.length == 1 &&
    (s.pc 0).plq.all fun o => o.mayStart []) = true ∧ (tdOf (mat 0x40 3 2 3 13)).e0 ≤ 64 := by decide +kernel
theorem test_wload : after (.platenStart 0 []) plLoadS (fun t => (t.pc 0).weights) =
    some [(0, 1), (1, 2), (2, 0xFF), (64, 0xFE), (65, 4), (66, 0xFB)] := by decide +kernel
theorem test_tzero : after (.platenStart 0 []) plZeroS (fun t => cells t.mem (tympBase 0 0 + 16384 * 2 - 1) 6) =
    some [1, 0, 0, 0, 0, 0] := by decide +kernel
theorem witness_PlatenIntegerProducts : runB plMmS 0 = true ∧ (plMmS.pc 0).plq.all (fun o => decide (o.kind = .mm) && !o.tr && !o.acc &&
    !o.chk && o.pass == 0 && platensOf o.plat == [0] && nth [] o.tiles 0 == [2] && o.mayStart [] &&
    decide ((tdOf (nth 0 o.ta 0)).e1 = 2) && o.wrec.nExt == 3 && o.wrec.fmt == Fmt.int8 && !o.wrec.mx) = true ∧
    (tdOf (mat 0x80 2 2 2 13)).fmt = Fmt.int8 ∧ (tdOf (mat 0x80 2 2 2 13)).mx = false ∧ (tdOf (mat 0x80 2 2 2 13)).space = 1 ∧
    ∀ m < 2, ∀ i < 2, ((tdOf (mat 0x80 2 2 2 13)).place [] ⟨i, m, 0, 0⟩).1.toNat < caseSize := by decide +kernel
theorem test_mm : after (.platenStart 0 []) plMmS (fun t => [t.tileWord 0 0 2 0 0, t.tileWord 0 0 2 0 1, t.tileWord 0 0 2 1 2]) =
    some [2 ^ 32 - 3, 10, 2 ^ 32 - 14] := by decide +kernel

def rlAddS : State :=
  inCase (on { rlq := [{ cls := 1, td := row 0 3 11, ta := row 0x40 3 11, tb := row 0x80 3 11, mask := 5, n := 3 }] }) 0x40
    [0x0000000500000001, 0x7FFFFFFF, 0, 0, 0, 0, 0, 0, 0x0000000600000002, 1]
def rlCmpS : State :=
  inCase (on { rlq := [{ cls := 4, fn := 2, td := 0, ta := row 0x40 3 11, tb := row 0x80 3 11, mask := 5, n := 3, pd := 2 }] }) 0x40
    [0x0000000500000001, 0x7FFFFFFF, 0, 0, 0, 0, 0, 0, 0x0000000600000002, 1]

theorem witness_RollerRuns : ([rlAddS, rlCmpS].all fun s => runB s 0 && decide ((s.pc 0).rlRun = []) && (s.pc 0).rlq.length == 1) = true ∧
    ([row 0 3 11, row 0x40 3 11, row 0x80 3 11].all fun d => caseRowB (tdOf d) && (tdOf d).fmt == Fmt.int32 &&
      decide ((tdOf d).base.toNat + rowLen (tdOf d) ≤ 2 ^ 32) && (tdOf d).e0 == 3) = true ∧
    overlaps [(caseBase 0, 12)] (rlAddS.busySpans 0 0) = [] := by decide +kernel
/-- The second element is not active; the third wraps (R60). -/
theorem test_roller_add : after (.rollerStart 0) rlAddS (fun t => ofBytes (cells t.mem (caseBase 0) 12)) =
    some 0x800000000000000000000003 := by decide +kernel

/-- A press with one operation of each engine running, marks taken, and a galley command of stream 3 among them. -/
def doneS : State :=
  { on { tmRun := [{ done := true, mark := some 1 }], plRun := [plOp .mm 1 [[2]]], rlRun := [{ mark := some 2 }],
         ctRun := [.kern { mark := some 4 }, .galley { op := 10, stream := 3, mark := some 5 },
                   .galley { op := 1, refused := true, new := 9, mark := some 5 }],
         marks := [(1, 1), (2, 2), (3, 1), (4, 1), (5, 2)] } with
    galley := [(3, { isOpen := true, refs := 2 })] }

/-- A tensor move that stopped with its last two bytes still to write. -/
def leftS : State := on { tmRun := [{ done := true, left := [(0x100, [7, 8])], td := row 0x100 4 11, mark := some 1 }], marks := [(1, 1)] }

theorem witness_OperationsComplete : quietB doneS = true ∧ runB doneS 0 = true ∧ mhas doneS.galley 3 = true ∧
    1 < (doneS.gentry 3).refs ∧ (doneS.gentry 3).acts = [] ∧ quietB leftS = true ∧ runB leftS 0 = true ∧
    (tdOf (row 0x100 4 11)).space = 1 := by decide +kernel
theorem test_complete_left : after (.operationComplete 0 .tm 0) leftS (fun t =>
    (cells t.mem (caseBase 0 + 0x100) 2, (t.pc 0).marks, (t.pc 0).tmRun.length)) = some ([7, 8], [], 0) := by decide +kernel
theorem test_complete : (([(.tm, 0), (.platen, 0), (.roller, 0), (.control, 0), (.control, 1), (.control, 2)] : List (Engine × Nat)).map fun e =>
    after (.operationComplete 0 e.1 e.2) doneS fun t => (t.pc 0).marks.map Prod.snd) =
    [some [2, 1, 1, 2], some [1, 2, 1, 2], some [1, 1, 1, 1, 2], some [1, 2, 1, 2], some [1, 2, 1, 1, 1], some [1, 2, 1, 1, 1]] := by decide +kernel

/-! ### Service commands at execution -/

/-- A state with an accepted command. -/
def accepted (i : Instr) (s : State) : State := (after i s id).getD s
def kTruncateE : State := accepted (.kernTruncate ln (fC 1 0 0 0)) kTruncate
def kAttendE : State := accepted (.kernAttend ln (fC 1 0 0 0)) kAttend
def kHead (s : State) : KernCmd := match (s.pc 0).ctq with | .kern c :: _ => c | _ => {}
def gHead (s : State) : GalleyCmd := match (s.pc 0).ctq with | .galley c :: _ => c | _ => {}

theorem witness_KernExecutes : ([kTruncateE, kAttendE].all fun s => runB s 0 && decide ((s.pc 0).ctq[0]? = some (.kern (kHead s))) &&
    s.kernMay 0 (kHead s)) = true ∧ (kHead kTruncateE).op = 5 ∧ (kHead kAttendE).op = 3 := by decide +kernel

def gCreateE : State := accepted (.galleyCreate ln (fC 1 0 0 0)) gCreate
def gResetE : State := accepted (.galleyReset ln (fC 1 0 0 0)) (gcmd 4 0 0 [])
def gSwapE : State := accepted (.galleySwapOut ln (fC 1 0 0 0)) (gcmd 7 0 0 [])
def gQueryE : State := accepted (.galleyQuery ln (fC 1 0 0 0)) (gcmd 10 0x6000 0 [])
/-- The conditions of a galley command about to execute. -/
def gexB (s : State) : Bool :=
  let c := gHead s
  let e := s.gentry c.stream
  quietB s && runB s 0 && decide ((s.pc 0).ctq[0]? = some (.galley c)) && s.galleyMay 0 c && !c.refused && mhas s.galley c.stream &&
    decide (e.res = .resident) && decide (e.bound = none)

theorem witness_GalleyExecutes : ([gCreateE, gResetE, gSwapE, gQueryE].all gexB) = true ∧ (gHead gCreateE).new = 1 ∧
    slotUnits (gSwapE.gentry 0) ≤ gSwapE.poolRoom 0 Pool.swap ∧ mfree gSwapE.gslots (2 ^ 24) 0 = some 0 ∧
    (gHead gQueryE).op = 10 := by decide +kernel

def gStickE : State := accepted (.galleyStick ln (fC 1 0 0 0)) gStick
def gStaleE : State := gStickE.setGentry 0 { gStickE.gentry 0 with gen := 7 }

theorem witness_StickExecutes : ([gStickE, gStaleE].all gexB) = true ∧ (gStickE.gentry 0).gen = (gHead gStickE).agen ∧
    (gStaleE.gentry 0).gen ≠ (gHead gStaleE).agen ∧ (gHead gStickE).reads (gStickE.gentry 0) = [] ∧
    (gHead gStickE).writes (gStickE.gentry 0) = [] ∧ (stickOf (gHead gStickE).words (gStickE.gentry 0)).emitY = false ∧
    (gHead gStickE).op = 2 ∧ (gHead gStickE).part = none ∧ (gHead gStaleE).part = none ∧
    (stickOf (gHead gStickE).words (gStickE.gentry 0)).emitH = false ∧ (gStickE.gentry 0).cur = some 0 ∧ (gStickE.gentry 0).spare = some 1 ∧ (gStickE.gset 0).share ≤ 1 := by decide +kernel

/-- Streams 0 and 1 on their way out and in. -/
def swapS : State :=
  { parts := [(0, { st := 1, free := [(10, 2)] })]
    galley := [(0, { cur := some 0, spare := some 1, slot := some 4, res := .swappingOut, gen := 9, refs := 1 }),
               (1, { slot := some 5, res := .swappingIn, refs := 1 })]
    gsets := [(0, { share := 1, vals := [(0, 77)] }), (1, {})]
    gslots := [(4, { units := 1 }), (5, { units := 1, vals := [(0, 5)] })] }

theorem witness_SwapsEnd : quietB swapS = true ∧ (swapS.twoSets 0 (setClass (swapS.gentry 1))).isSome = true ∧
    (swapS.gset 0).share ≤ 1 ∧ (swapS.gset 0).frozen = false ∧ (swapS.gset 1).frozen = false := by decide +kernel
theorem test_swap_out : after (.swapOutEnd 0) swapS (fun t => decide ((t.gentry 0).cur = none ∧
    mget {} t.gslots 4 = { units := 1, gen := 9, vals := [(0, 77)] })) = some true := by decide +kernel

/-- Region 4 of chase 0 about to end, with one shadow sector. -/
def endS (st : RegSt) (h : Hold) : State :=
  { on { region := some 4, hold := h } with
    mem := [(0x200000, 3), (0x200020, 9)]
    chases := [(0, { regions := [(4, { press := 0, ctx := 0, frames := 1, pages := 1, used := 1, homes := [0x20], st,
                                       shadow := [(0x200000 / 32, List.replicate 32 7)] })] })] }
theorem witness_RegionEnds : ([endS .committing (.commit 4), endS .copying (.commit 4), endS .rejecting (.reject 4)].all fun s => quietB s &&
    decide ((s.press 0).run = some 0) && s.drained 0 && decide ((s.pc 0).region = some 4) && mhas (s.chase 0).regions 4 &&
    decide ((s.region 0 4).kBound = [] ∧ (s.region 0 4).gBound = [] ∧ (s.region 0 4).queue = [] ∧ s.windows = [] ∧
      (s.ctx 0).st ≠ .teardown) && (s.region 0 4).shadow.all fun e => decide (e.1 * 32 + 32 ≤ 2 ^ 48) && e.2.length == 32) = true ∧
    (endS .committing (.commit 4)).sealedKey = fun _ => false := ⟨by decide +kernel, rfl⟩
theorem test_region : ([(.proofCommitEngine 0 4, .committing, .commit 4), (.proofRejectEngine 0 4, .rejecting, .reject 4)] :
    List (Instr × RegSt × Hold)).map (fun e => after e.1 (endS e.2.1 e.2.2) fun t =>
      ((cell t.mem 0x20001F).toNat, (cell t.mem 0x200020).toNat, (t.pc 0).hold)) =
    [some (7, 9, .none), some (0, 9, .none)] := by decide +kernel

/-! ### Contexts, presses and takes -/

/-- Sessions 0 and 3 open, the second of partition 0, which is ACTIVE. -/
def opened (s : State) : State :=
  { s with sessions := [(0, { st := .isOpen }), (3, { st := .isOpen })], regs := [(0xF00000000000, 0x10005)] }
def part0 : Part := { st := 1, chases := 3, groups := 1, quota := 8, free := [(10, 2), (20, 4), (21, 100)], sessFirst := 1, sessLast := 9 }
def mg : State := opened { on {} with parts := [(0, part0)] }
/-- The rule of an operation in general form. -/
def rul (keys : List (Nat × Bool)) : OpRule := ruleOf true false false keys
def rCreate : MReq := rq [(1, 0), (0x200, 1), (0x202, 4), (0x204, 77)]
/-- Context 0 in teardown, with nothing outstanding. -/
def mgDown : State :=
  { mg with ctxs := [(0, { ctxA with st := .teardown, endStatus := St.misaligned })], presses := [],
            formes := [(1, { ctx := 0 })], buffers := [(2, { ctx := 0 })], hostwins := [(0, { ctx := 0 })] }

theorem witness_ContextsLiveAndEnd :
    admitB mg (rul [(Key.part, true), (Key.cls, true), (Key.retainPriv, false), (Key.resvLo, false), (Key.resvHi, false),
      (Key.jobTag, false)]) rCreate = true ∧ mg.createRefusal rCreate = none ∧ (mg.ctx 1).st = .free ∧ (mg.ctx 0).st ≠ .free ∧
    admitB mg (rul [(Key.context, true)]) (rq [(2, 0)]) = true ∧
    quietB mg = true ∧ runB mg 0 = true ∧ mg.runCtx 0 = 0 ∧ (mg.ctx 0).st = .active ∧ (mg.ctx 0).faultPress = none ∧
    quietB mgDown = true ∧ (mgDown.ctx 0).st = .teardown ∧ mgDown.outstanding 0 = false ∧ mgDown.longops = [] ∧
    St.reportable St.misaligned = true := by decide +kernel
theorem test_context_create : after (.contextCreate rCreate) mg (fun t => ((t.ctx 1).resv, (t.ctx 1).critical, (t.ctx 1).jobTag,
    (t.session 0).queue)) = some (4, true, 77, [.manage 9 St.ok [(Key.context, 1)] [] false]) := by decide +kernel
theorem test_teardown : after (.teardownComplete 0) mgDown (fun t => ((t.ctx 0).st, t.formes.length, t.buffers.length,
    t.hostwins.length)) = some (.free, 0, 0, 0) := by decide +kernel

/-- Context 1 is latency-critical and reserves press 0; sub-take 7 is its, sub-take 8 of context 0. -/
def sub7 : SubTake := { take := 3, ctx := 1, press := 0, entry := 0x10040, arg := 5, descs := [row 0 4 1], order := 2 }
def sub8 : SubTake := { take := 4, ctx := 0, press := 0, entry := 0x10080, arg := 6, order := 1 }
def twoCtx : List (Nat × Ctx) := [(0, ctxA), (1, { ctxA with critical := true, resv := 1 })]
def prOwner : State := { mg with ctxs := twoCtx, subs := [(7, sub7), (8, sub8)], presses := [(0, { run := some 1 })] }
def prBest : State := { mg with subs := [(8, sub8)], presses := [] }
def slot0 : Slot := { ctx := 0, st := { pc := 0x10000 } }
def prResume : State := { mg with presses := [(0, { slotB := some slot0 })] }
def prPreempt : State :=
  { mg with ctxs := twoCtx, subs := [(7, sub7)], mem := [(caseBase 0, 1), (tympBase 0 0, 2)]
            presses := [(0, { st := .running, run := some 0, cur := { pc := 0x10000 }, preempt := true })] }

theorem witness_PressesScheduled :
    ([prOwner, prBest, prResume, prPreempt].all quietB) = true ∧ (prOwner.press 0).st = .idle ∧ prOwner.reserver 0 = some 1 ∧
    (prOwner.press 0).run = some 1 ∧ prOwner.oldestSub 0 (fun y => decide (prOwner.reserver 0 = some y.ctx)) = some (7, sub7) ∧
    prBest.reserver 0 = none ∧ (prBest.press 0).st = .idle ∧ (prBest.press 0).run = none ∧ (prBest.press 0).slotB = none ∧
    prBest.oldestSub 0 (fun y => decide (prBest.reserver 0 = some y.ctx)) = none ∧
    prBest.oldestSub 0 (fun y => !(prBest.ctx y.ctx).critical) = some (8, sub8) ∧
    (prResume.press 0).slotB = some slot0 ∧ prResume.oldestSub 0 (fun y => decide (prResume.reserver 0 = some y.ctx)) = none ∧
    prResume.retained 0 = false ∧ slot0.st.watch = none ∧ slot0.st.hold = .none ∧ slot0.st.tmRun = [] ∧
    (prPreempt.press 0).slotA = none ∧ (prPreempt.press 0).preempt = true ∧ prPreempt.reserver 0 = some 1 ∧ (prPreempt.pc 0).hold = .none ∧ (prPreempt.ctx 0).critical = false ∧
    prPreempt.oldestSub 0 (fun y => y.ctx == 1) = some (7, sub7) := by decide +kernel
theorem test_preempt : after (.preemptSave 0 900) prPreempt (fun t => ((t.press 0).run, t.mem, (t.ctx 0).preempts,
    t.regFld .sched 0 0x400 32 32)) = some (some 1, [], 1, 900) := by decide +kernel

/-- FORME_INSTALL of handle 5: one press of this device, level 3. -/
def fBody : List Byte := bytesOf [wn (3 + 2 ^ 8 + 5 * 2 ^ 52), 0, 0, 0, 0, 0, 0, 0, wn (3 * 2 + 1 * 2 ^ 16 + 5 * 2 ^ 32)]
def mgF : State := { mg with formes := [(5, { level := 3, members := [{ level := 3, index := 1, device := 5 }] })] }
def mgBusy : State := { mgF with takes := [(3, { forme := 5 })] }

theorem witness_FormesInstalled :
    admitB mg { all := true, plain := false } (rq []) = true ∧
    mg.checkForme fBody = some (5, { level := 3, members := [{ level := 3, index := 1, device := 5 }] }) ∧
    admitB mgF (rul [(Key.forme, true)]) (rq [(7, 5)]) = true ∧ mgF.formeBusy 5 = false ∧
    admitB mgBusy (rul [(Key.forme, true)]) (rq [(7, 5)]) = true ∧ mgBusy.formeBusy 5 = true := by decide +kernel

/-- Queue 2 with a marker, and with a take on forme 5. -/
def tk : Take := { queue := 2, forme := 5, entry := 0x10040, descs := [row 0 4 1], granule := 1, arg := 9 }
def qMarker : State := { mgF with queues := [(2, { takes := [3] })], takes := [(3, { tk with marker := true })] }
def qTake : State := { mgF with queues := [(2, { takes := [3] })], takes := [(3, tk)] }

theorem witness_TakesSplit :
    ([qMarker, qTake].all fun s => mhas s.queues 2 && decide (s.nextTakeOf (mget {} s.queues 2) = some 3)) = true ∧
    mhas qTake.formes 5 = true ∧ (qTake.forme 5).level = 3 ∧ qTake.myId = 5 ∧ splitOk 1 (row 0 4 1) = true ∧
    splitGranules [row 0 4 1] none 1 ≠ 0 ∧ sumL [1, 2, 4] ≠ 0 := by decide +kernel
theorem test_marker : after (.imposerSplit 2) qMarker (fun t => (mget ({} : Take) t.takes 3).st) = some .done := by decide +kernel
theorem test_apportion : apportion 10 [1, 2, 4] = [(0, 2), (2, 3), (5, 5)] := by decide +kernel

/-- Sub-take 8 at its END on press 0, the last of take 4; and take 6 of queue 2 about to publish to buffer 1. -/
def endT (left : Nat) (dup : Bool) : State :=
  { mg with subs := [(8, { sub8 with started := true })], takes := [(4, { queue := 2, left, st := .running })],
            mem := [(caseBase 0, 1)], queues := [(2, { takes := [4] })]
            presses := [(0, { st := .running, run := some 0, cur := { sub := some 8, hold := .ending, dupSeen := dup } })] }
def pubT : State :=
  { mg with takes := [(6, { queue := 2, seq := 1, fence := some (1, 3), st := .publishing })], queues := [(2, { takes := [6] })]
            buffers := [(1, { base := 0x20000, len := 0x10000 })], ctxs := [(0, ctxA)] }

theorem witness_TakesComplete :
    ([endT 1 false, endT 1 true, endT 2 false].all fun s => runB s 0 && decide ((s.pc 0).sub = some 8) &&
      decide ((s.pc 0).hold = .ending) && s.drained 0 && decide ((s.ctx 0).critical = false)) = true ∧
    pubT.takes.find? (fun e => e.2.queue == 2 && e.2.seq == 1 && decide (e.2.st = .publishing)) =
      some (6, { queue := 2, seq := 1, fence := some (1, 3), st := .publishing }) ∧ mhas pubT.buffers 1 = true ∧
    pubT.bufferWrites (mget {} pubT.buffers 1) = false ∧ pubT.requests = [] := by decide +kernel
theorem test_end : ([endT 1 false, endT 1 true, endT 2 false].map fun s => after (.subtakeComplete 0) s fun t =>
    let k := mget ({} : Take) t.takes 4
    (k.st, k.status, k.left)) =
    [some (.done, St.ok, 0), some (.done, St.claimDuplicate, 0), some (.running, 0, 1)] := by decide +kernel

/-- Long operation 4 of session 0, a migration. -/
def lop (st : LongSt) : State := { mg with longops := [(4, { kind := .migrate 0 0 1 0, reqId := 8, st })] }
def lreq (a : Nat) : MReq := rq [(5, 4), (6, wn a)]

theorem witness_LongOperationsCommanded :
    ([(0, .running), (0, .done), (1, .suspended), (1, .running), (2, .running), (2, .suspending), (2, .suspended), (2, .cancelling),
      (2, .done)] : List (Nat × LongSt)).all (fun e => admitB (lop e.2) (ruleOf true true true [(Key.handle, true), (Key.action, true)])
        (lreq e.1) && (lop e.2).commands (lreq e.1) && quietB (lop e.2) && decide (mfind? (lop e.2).colls 4 = none)) = true ∧
    mhas (lop .suspending).longops 4 = true ∧ (lop .suspending).sessionOpen 0 = true := by decide +kernel
theorem test_suspend : after (.longopStop 4 []) (lop .suspending) (fun t => ((t.longop 4).st, (t.session 0).queue)) =
    some (.suspended, [.manage 8 St.suspended [(Key.handle, 4)] [] false]) := by decide +kernel

/-! ### Control space -/

/-- Fields apart, decided. -/
def apartB : List Field → Bool
  | [] => true
  | f :: fs => fs.all (fun g => decide (f.lo + f.w ≤ g.lo ∨ g.lo + g.w ≤ f.lo)) && decide (1 ≤ f.w ∧ f.lo + f.w ≤ 64) && apartB fs

/-- RAS.CFG, SR_SEED of press 3, and SCHED.PREEMPT_STAT, which has a read-clear field. -/
theorem witness_RegisterWrites :
    blockOf 0xF00000160040 = some (.ras, 0, 0x40) ∧ (fieldsAt .ras 0x40).map apartB = some true ∧
    blockOf 0xF00002003250 = some (.press, 3, 0x250) ∧ (fieldsAt .press 0x250).map apartB = some true ∧
    ((fieldsAt .ras 0x40).getD []).all (fun f => codeOk .ras 0x40 f (fld 0xFFFFFFFFFFFFFFFF (f.lo + f.w - 1) f.lo)) = true := by
  decide +kernel
theorem witness_ReadsClear : blockOf (regAddr .sched 0 0x400) = some (.sched, 0, 0x400) ∧
    (fieldsAt .sched 0x400).map apartB = some true := by decide +kernel
theorem witness_AccessesNotPerformed : inMap 0x9000000000 = false ∧ blockOf 0xF00008000000 = none ∧
    (0xF00000160044 % 8 : Nat) ≠ 0 := by decide +kernel
theorem test_misaligned : after (.controlAccessMisaligned false 0xF00000160044 8) State.reset (fun t => (t.out.length, t.ring.length,
    t.regFld .ras 0 0 0 32)) = some (1, 1, 1) := by decide +kernel
def rReg : MReq := rq [(Key.addr, 0xF00000160040), (Key.value, 0x20)]

theorem witness_RegisterRequests :
    admitB mg (ruleOf false true true []) (rq []) = true ∧
    admitB mg { service := true, restricted := true, plain := false } (rq [(Key.addr, 0xF00000160040)]) = true ∧
    admitB mg { service := true, plain := false } rReg = true ∧ blockOf 0xF00000160040 = some (.ras, 0, 0x40) ∧
    inControl 0xF00000160040 = true ∧ mg.serviceMode = false := by decide +kernel

/-! ### Pages and the runtime -/

/-- Pages 4 and 5 of context 0; a PTE of peer 6, and one of this device. -/
def rPages (more : List (Nat × W64)) : MReq := rq ([(2, 0), (3, 0x40000), (0x500, 0), (0x501, 2)] ++ more)
def rPage1 (more : List (Nat × W64)) : MReq := rq ([(2, 0), (3, 0x40000), (0x500, 0), (0x501, 1)] ++ more)
def gPages : PageRange := { large := false, first := 4, count := 2 }
def mgPages : State := { mg with ctxs := [(0, { ctxA with pages := ctxA.pages ++ [(4, { data with ex := true }), (5, data)] })] }
def mgWait (perm : Option (BitVec 3)) : State := { mgPages with unmaps := [(3, { first := 4, pages := 2, reqId := 8, perm })] }
def pteKeys : OpRule := rul [(Key.context, true), (Key.vaddr, true), (Key.pageSize, true), (Key.pages, true), (Key.pte, true),
  (Key.image, false), (Key.imagePage, false)]

theorem witness_PagesMapped :
    pageRange (rPages []) = some gPages ∧ admitB mg pteKeys (rPages [(0x502, wn (6 * 2 ^ 48 + 0x70000 + 7))]) = true ∧
    pteOk (wn (6 * 2 ^ 48 + 0x70000 + 7)) = true ∧ (gPages.nums.all fun k => !(mg.ctx 0).touched false k) = true ∧ 6 ≠ mg.myId ∧
    admitB mg pteKeys (rPage1 [(0x502, wn (5 * 2 ^ 48 + 7))]) = true ∧ (mg.findFrame 0 false 0x10000).isSome = true ∧
    admitB mgPages (rul [(Key.context, true), (Key.vaddr, true), (Key.pageSize, true), (Key.pages, true)]) (rPages []) = true ∧
    mgPages.rangeMapped 0 gPages = true ∧
    admitB mgPages (rul [(Key.context, true), (Key.vaddr, true), (Key.pageSize, true), (Key.pages, true), (Key.perm, true)])
      (rPages [(0x503, 7)]) = true ∧ data.lowered 7 = false ∧ data.lowered 1 = true ∧ mfree mgPages.unmaps 65536 0 = some 0 ∧
    ([mgWait none, mgWait (some 1)].all fun s => quietB s && (s.unmaps.all fun e => !s.unmapWaits e.2 gPages)) = true := by
  decide +kernel
theorem test_protect : after (.unmapComplete 3) (mgWait (some 1)) (fun t => (((t.ctx 0).entryOf false 4).map fun p => (p.rd, p.wr, p.ex),
    (t.session 0).queue, t.unmaps)) = some (some (true, false, false), [.manage 8 St.ok [] [] false], []) := by decide +kernel

def rSwap (more : List (Nat × W64)) : MReq := rq ([(2, 0)] ++ more)
def mgG (res : Resid) : State :=
  { mg with parts := [(0, { part0 with free := [(10, 2), (18, 1)] })], gsets := [(0, { share := 1 }), (1, {})]
            galley := [(0, { cur := some 0, spare := some 1, elems := 4, stick := 64, isOpen := true, refs := 1, res })] }

/-- A QUERY of stream 0 executes. -/
def mgGBusy : State :=
  { mgG .resident with presses := [(0, { st := .running, run := some 0, cur := { ctRun := [.galley { op := 10, stream := 0 }] } })] }

theorem witness_RuntimeGalleySwaps :
    ([(.swapped, rSwap [(6, 1), (0x490, 0)]), (.resident, rSwap [(6, 2)]), (.resident, rSwap [(6, 3)]),
      (.resident, rSwap [(6, 0), (0x490, 0)]), (.resident, rSwap [(6, 4), (0x490, 0)]),
      (.resident, rSwap [(6, 5), (0x490, 0), (3, 0x20000)])] : List (Resid × MReq)).all (fun e => admitB (mgG e.1)
        (rul [(Key.context, true), (Key.action, true), (Key.stream, false), (Key.vaddr, false)]) e.2) = true ∧
    slotUnits ((mgG .resident).gentry 0) ≤ (mgG .resident).poolRoom 0 Pool.swap ∧ (mgG .resident).streamBusy 0 none = false ∧
    mgGBusy.streamBusy 0 none = true ∧ ([rSwap [(6, 0), (0x490, 0)], rSwap [(6, 4), (0x490, 0)]].all (admitB mgGBusy
      (rul [(Key.context, true), (Key.action, true), (Key.stream, false), (Key.vaddr, false)]))) = true ∧
    ((mgG .resident).ctxRead 0 0x20000 16).isSome = true := by decide +kernel

def mgNoId : State := { mg with regs := [] }
theorem witness_DeviceIdentifier :
    admitB mgNoId (ruleOf false false false [(Key.deviceId, true)]) (rq [(0x480, 5)]) = true ∧ mgNoId.idValid = false ∧
    admitB mg (ruleOf false false false [(Key.deviceId, true)]) (rq [(0x480, 5)]) = true ∧ mg.idValid = true ∧
    ({ mg with ctxs := [] } : State).ctxs = [] ∧ ((List.range 32).all fun l => decide (mg.linkState l = LinkSt.down ∨
      mg.linkState l = LinkSt.off)) = true ∧ (∃ e ∈ mg.ctxs, e.2.st ≠ .free) := by decide +kernel
theorem test_unset : ([mg, { mg with ctxs := [] }].map fun s => after (.mgmtUnset .firmware) s fun t => (t.myId, t.regFld .mgmt 0 8 1 1)) =
    [some (5, 1), some (0, 0)] := by decide +kernel

/-! ### HBM -/

/-- Sector 0 of pseudo-channel 0, whose state is 0, 1 or 2. -/
def hb (st : Nat) : State := State.reset.setPcState 0 st
theorem witness_MemoryAtomics : ([0, 1, 2].all fun st => decide ((hb st).hbmMap 0x40 = some (2, 0x40)) || decide (((hb st).hbmMap 0x40).isSome)) = true ∧
    quietB (hb 0) = true ∧ (hb 0).hbmMap 0 = some (0, 0) ∧ (hb 0).keyOf 0 = 0 ∧ (hb 1).keyOf 0 = 0 ∧
    (hb 0).stalls (.mem 0) true = false ∧ (hb 1).stalls (.mem 0) true = false ∧ (hb 0).isBad 0 8 = false ∧ quietB (hb 1) = true ∧ (hb 1).pcState 0 = 1 ∧ (hb 0).pcState 0 = 0 ∧
    ([(0, 11), (1, 11), (2, 1), (0, 3), (0, 15)].all fun e => decide (atomRefusal e.1 e.2 0 1 = none)) = true := by decide +kernel
theorem test_atomics : ([(0, 11), (1, 11), (2, 11), (0, 15)] : List (BitVec 4 × BitVec 4)).map (fun e =>
    after (.memoryAtomic .internal 0 (.atomic e.1 e.2 [0xFFFFFFFE]) .good) { hb 0 with mem := [(0, 3)] } fun t =>
      (ofBytes (cells t.mem 0 8), t.atomics)) =
    [some (1, 1), some (0xFFFFFFFE, 1), some (3, 1), some (0x100000001, 1)] := by decide +kernel

/-- A clean line in set 2 of the cabinet of chase 3. -/
def cabS : State := { hb 0 with chases := [(3, { cabinet := [{ addr := 0x200 }] })] }

/-- Four windows of stack 0 open. -/
def openS : State := ([1, 2, 3, 4] : List Nat).foldl (fun s pc => s.setPcState pc 1) (hb 0)

theorem witness_PatrolAndWindows :
    cabS.cabLineAt 3 32 = some { addr := 0x200 } ∧ ((List.range 16).all fun c => decide (0x40 < cabBase c)) = true ∧
    mget 0 (mget [] (hb 0).laneCes 0) 5 = 0 ∧
    (openS.regFld .hbm 0 0x20 24 3 ≤ openS.inWindows 0) ∧ openS.pcState 0 = 0 ∧
    (hb 0).placedAt 0x40 = none ∧ mget 0 (hb 0).pcUes 0 + 1 < (hb 0).regFld .hbm 0 0x28 16 8 ∧ (hb 0).pcState 0 = 0 ∧
    (hb 0).inWindows 0 < (hb 0).regFld .hbm 0 0x20 24 3 ∧ (hb 1).pcState 0 = 1 ∧ quietB (hb 1) = true ∧
    mget [] (hb 1).pcHeld 0 = [] ∧ 1 ≤ mget 0 ({ hb 1 with pcFails := [(0, 1)] } : State).pcFails 0 := by decide +kernel
theorem test_retire : after (.retrainingWindowEnd 0 true) { hb 1 with pcFails := [(0, 1)] } (fun t => (t.pcState 0, t.ledger.retired)) =
    some (2, [0]) := by decide +kernel

/-- The regulator of partition 2 enabled with share 8 and depth 1, holding 100 tokens. -/
def rgl (en : Nat) : State :=
  { State.reset.setReg .hbm 0 (regOff 2) (wn (en + 8 * 256 + 65536)) with parts := [(2, { st := 1, tokens := 100 })] }
/-- A read of `len` bytes at address 0. -/
def rdAt (len : Nat) : HbmReq := { pa := 0, len, write := false, tagMiss := 0 }
theorem witness_Regulators : ([0, 1, 3].map fun e => ((rgl e).regFld .hbm 0 (regOff 2) 0 1, (rgl e).regFld .hbm 0 (regOff 2) 1 1)) =
    [(0, 0), (1, 0), (1, 1)] ∧ ((rgl 1).part 2).ingress = [] ∧ (rgl 1).chargeOf (rdAt 32) = 1 ∧ (rgl 1).chargeOf (rdAt 4096) = 128 ∧
    (rgl 1).shareSum 2 64 = 64 ∧ (rgl 1).shareSum 2 65 = 65 := by decide +kernel
theorem test_regulator : ([(0, 32), (1, 32), (1, 4096), (3, 4096)] : List (Nat × Nat)).map
    (fun e => after (.regulatorAdmit 2 .access (rdAt e.2) 0 0) (rgl e.1) fun t => ((t.part 2).tokens, (t.part 2).ingress.length,
      t.regFld .hbm 0 (regOff 2 + 8) 32 32, t.regFld .hbm 0 (regOff 2 + 8) 0 32)) =
    [some (100, 1, 0, 0), some (99, 0, 0, 0), some (100, 1, 0, 1), some (100, 0, 1, 0)] := by decide +kernel

def mgL : State := { mg with ctxs := [] }
def rLoop : MReq := rq [(0x450, 2), (0x451, 0x20B)]
def rLoop3 : MReq := rq [(0x450, 2), (0x451, 0x60B)]
def loopOn : State := { (mg.setReg .hbm 0 0x40 (wn (0x20B + 2 ^ 11))).setPcState 0xB 3 with loopReqs := [(2, 0, 8)] }
theorem witness_HbmLoopbacks :
    admitB mgL { service := true, keys := [(Key.interface, true), (Key.loop, true)] } rLoop = true ∧
    admitB mgL { service := true, keys := [(Key.interface, true), (Key.loop, true)] } rLoop3 = true ∧ fld 0x60B 10 9 = 3 ∧
    mgL.hbmLoopDenied 0xB 3 = false ∧ (mgL.partsOn 0xB).length = 1 ∧ mgL.hbmLoopDenied 0xB 1 = false ∧ mgL.regFld .hbm 0 0x40 11 1 = 0 ∧ loopOn.regFld .hbm 0 0x40 11 1 = 1 ∧
    mfind? loopOn.loopReqs 2 = some (0, 8) ∧ loopOn.sessionOpen 0 = true ∧ loopOn.regFld .hbm 0 0x40 9 2 ≠ 3 := by decide +kernel

/-! ### Placed pages, the library, partitions -/

/-- Entry 0 of partition 0 as `x`; pools with free frames and granules. -/
def partP : Part := { st := 1, chases := 1, groups := 1, quota := 8, sessFirst := 1, sessLast := 9, total := [(20, 4), (21, 2000)],
                      free := [(20, 4), (21, 2000)] }
def plc (x : PlaceEnt) : State :=
  { mg with parts := [(0, partP)], placed := [(0, x)], images := [(0, { origin := 1, pages := [0], areas := [(0, 4192)] })] }
/-- An area of 512 CONST slugs of zeros, whose directory entries all name one slug: the block, the slug with its CRC, the
directory, the header, the area. -/
def zBlock : List Byte := (List.range 4096).map fun i => nth 0 [0] (i % 1)
def zSlug (c : W32) : List Byte := toBytes 4 18 ++ (toBytes 4 c.toNat ++ List.replicate 24 0)
def zEntry : List Byte := [0x82, 0, 0, 0, 1, 0, 0, 0]
def zDir : List Byte := (List.replicate 512 zEntry).flatten
def zHead : List Byte := toBytes 8 0x200000 ++ toBytes 8 (512 + 512 * 2 ^ 32) ++ toBytes 8 3
def zTail (c : W32) : List Byte := toBytes 4 c.toNat ++ List.replicate 36 0
def zArea : List Byte := zHead ++ (zTail (crc32c (zHead ++ zDir)) ++ (zDir ++ zSlug (crc32c zBlock)))

theorem slice_left {l r : List Byte} {o n : Nat} (h : o + n ≤ l.length) : slice (l ++ r) o n = slice l o n := by
  simp [slice, List.drop_append, List.take_append, show o - l.length = 0 by omega, show n - (l.length - o) = 0 by omega]
theorem slice_right {l r : List Byte} {o n : Nat} (h : l.length ≤ o) : slice (l ++ r) o n = slice r (o - l.length) n := by
  simp [slice, List.drop_append, List.drop_eq_nil_of_le h]
theorem toBytes_len (n v : Nat) : (toBytes n v).length = n := by simp [toBytes]
theorem ofBytes_toBytes4 (c : W32) : BitVec.ofNat 32 (ofBytes (toBytes 4 c.toNat)) = c := by
  have h := c.isLt
  apply BitVec.eq_of_toNat_eq
  simp [toBytes, ofBytes, List.range_succ, Nat.shiftRight_eq_div_pow]
  omega
theorem zHead_len : zHead.length = 24 := by decide
theorem zTail_len (c : W32) : (zTail c).length = 40 := by simp [zTail, toBytes]
theorem zSlug_len (c : W32) : (zSlug c).length = 32 := by simp [zSlug, toBytes]
theorem dir_len (n : Nat) : ((List.replicate n zEntry).flatten).length = 8 * n := by
  induction n with
  | zero => rfl
  | succ n ih => simp only [List.replicate_succ, List.flatten_cons, List.length_append, ih]; simp [zEntry]; omega
theorem zDir_len : zDir.length = 4096 := dir_len 512
theorem dir_entry (n i : Nat) (h : i < n) : slice ((List.replicate n zEntry).flatten) (8 * i) 8 = zEntry := by
  induction n generalizing i with
  | zero => omega
  | succ n ih =>
    rw [List.replicate_succ, List.flatten_cons]
    cases i with
    | zero => rw [slice_left (by decide)]; rfl
    | succ i =>
      rw [slice_right (show 8 ≤ 8 * (i + 1) by omega)]
      have : 8 * (i + 1) - zEntry.length = 8 * i := by simp [zEntry]; omega
      rw [this]; exact ih i (by omega)

theorem area_head {o n : Nat} (h : o + n ≤ 24) : slice zArea o n = slice zHead o n :=
  slice_left (by rw [zHead_len]; exact h)
theorem area_crc : slice zArea 24 4 = toBytes 4 (crc32c (zHead ++ zDir)).toNat := by
  rw [zArea, slice_right (by rw [zHead_len]), zHead_len, slice_left (by rw [zTail_len]; omega), zTail,
    slice_left (by rw [toBytes_len])]
  simp [slice, toBytes]
theorem area_dir {o n : Nat} (h : o + n ≤ 4096) : slice zArea (64 + o) n = slice zDir o n := by
  rw [zArea, slice_right (by rw [zHead_len]; omega), zHead_len, slice_right (by rw [zTail_len]; omega), zTail_len,
    slice_left (by rw [zDir_len]; omega)]
  congr 1
  omega
theorem area_slug : slice zArea 4160 32 = zSlug (crc32c zBlock) := by
  rw [zArea, slice_right (by rw [zHead_len]; omega), zHead_len, slice_right (by rw [zTail_len]; omega), zTail_len,
    slice_right (by rw [zDir_len]), zDir_len]
  have := zSlug_len (crc32c zBlock)
  simp only [slice, Nat.reduceSub, List.drop_zero]
  rw [List.take_of_length_le (by omega)]
theorem unpack_zSlug (f : Nat → Option TableSet) : unpackSlug f zArea 130 1 = some zBlock := by
  unfold unpackSlug
  simp only [Nat.reduceMul, area_slug]
  generalize hb : zBlock = blk
  unfold zBlock at hb
  generalize hc : crc32c blk = c
  have e0 : ofBytes ((zSlug c).take 4) = 18 := by
    have : (zSlug c).take 4 = toBytes 4 18 := by rw [zSlug, List.take_left' (by simp [toBytes])]
    rw [this]; decide
  have e1 : slice (zSlug c) 4 4 = toBytes 4 c.toNat := by
    rw [zSlug, slice_right (by simp [toBytes]), slice_left (by simp [toBytes])]; simp [slice, toBytes]
  have e2 : slice (zSlug c) 16 1 = [0] := by
    rw [zSlug, slice_right (by simp [toBytes]), slice_right (by simp [toBytes])]; simp [toBytes]; decide
  simp only [e0, zSlug_len, e1, ofBytes_toBytes4, show bits 18 1 0 = 2 by decide, show bits 18 3 2 = 0 by decide,
    show bits 18 11 4 = 1 by decide, Nat.pow_zero, e2, hb]
  simp
  exact hc
/-- A fold that goes on at each step goes on to its end. -/
theorem fold_goes {g : Except Nat (List Byte) → Nat → Except Nat (List Byte)} {n : Nat} {r : Except Nat (List Byte)}
    (h : (List.range n).foldl g (.ok []) = r) (hs : ∀ i < n, ∀ bs, ∃ bs', g (.ok bs) i = .ok bs') : ∃ bs, r = .ok bs := by
  induction n generalizing r with
  | zero => exact ⟨[], h.symm⟩
  | succ n ih =>
    obtain ⟨bs, hb⟩ := ih rfl fun i hi => hs i (by omega)
    obtain ⟨bs', hb'⟩ := hs n (by omega) bs
    exact ⟨bs', by rw [← h, List.range_succ, List.foldl_append, hb]; exact hb'⟩
theorem zEntry_num : ofBytes zEntry = 0x100000082 := by decide
theorem area_entry (i : Nat) (h : i < 512) : slice zArea (64 + 8 * i) 8 = zEntry := by
  rw [area_dir (by omega), zDir]; exact dir_entry 512 i h
/-- An area whose header is in order and whose directory entries all name one slug that decodes. -/
theorem decode_one (s : State) (p b : Nat) (area blk : List Byte) (h5 : ofBytes (area.take 5) = 0x200000)
    (h8 : ofBytes (slice area 8 4) = 512) (h16 : ofBytes (slice area 16 1) % 16 = 3)
    (hc : BitVec.ofNat 32 (ofBytes (slice area 24 4)) = crc32c (area.take 24 ++ slice area 64 4096))
    (he : ∀ i < 512, slice area (64 + 8 * i) 8 = zEntry) (hu : ∀ f, unpackSlug f area 130 1 = some blk) :
    ∃ bs, s.decodeArea p b area = some bs := by
  unfold State.decodeArea unpackArea
  simp only [h5, h8, h16, hc, show ceilDiv 0x200000 4096 = 512 by decide, Nat.reduceMul, bne_self_eq_false, Bool.or_self,
    Bool.false_eq_true, if_false]
  generalize hr : List.foldl _ _ (List.range 512) = r
  obtain ⟨bs, rfl⟩ := fold_goes hr fun i hi bs => ⟨bs ++ blk, by
    simp only [he i hi, zEntry_num, show bits 0x100000082 31 0 = 130 by decide,
      show bits 0x100000082 39 32 = 1 by decide, hu]⟩
  exact ⟨_, rfl⟩
theorem decode_zArea (s : State) (p b : Nat) : ∃ bs, s.decodeArea p b zArea = some bs := by
  have t5 : zArea.take 5 = zHead.take 5 := by rw [zArea, List.take_append_of_le_length (by rw [zHead_len]; omega)]
  have t24 : zArea.take 24 = zHead := by rw [zArea, List.take_left' zHead_len]
  have d : slice zArea 64 4096 = zDir := by
    have := area_dir (o := 0) (n := 4096) (by omega)
    rw [Nat.add_zero] at this; rw [this, slice, List.drop_zero, List.take_of_length_le (by rw [zDir_len])]
  refine decode_one s p b zArea zBlock ?_ ?_ ?_ ?_ area_entry unpack_zSlug
  · rw [t5]; decide
  · rw [area_head (by omega)]; decide
  · rw [area_head (by omega)]; decide
  · rw [area_crc, ofBytes_toBytes4, t24, d]
theorem area_used : areaUsed zArea = 512 := by
  rw [areaUsed, area_head (by omega)]; decide

/-- Bytes as a sparse array from offset `k`. -/
def laid : Nat → List Byte → Map Byte
  | _, [] => []
  | k, b :: bs => (k, b) :: laid (k + 1) bs
theorem mget_laid (l : List Byte) (k j : Nat) : mget 0 (laid k l) (k + j) = nth 0 l j := by
  induction l generalizing k j with
  | nil => simp [laid, mget, nth]
  | cons b bs ih =>
    cases j with
    | zero => simp [laid, mget, nth]
    | succ j =>
      rw [laid, mget, if_neg (by omega), show k + (j + 1) = (k + 1) + j by omega, ih]
      simp [nth]
theorem zArea_len : zArea.length = 4192 := by
  simp only [zArea, List.length_append, zHead_len, zTail_len, zDir_len, zSlug_len]
theorem landed_zArea (s : State) (x : PlaceEnt) (m : Image) (i : Nat) (h : x.image = some i) (hm : mfind? s.images i = some m)
    (ha : m.areaLen x.originOff = 4192) (h0 : x.originOff = 0) (hx : x.area = laid 0 zArea) : s.areaBytes x = zArea := by
  unfold State.areaBytes
  rw [h, Option.bind_some, hm]
  simp only [ha]
  simp only [h0, hx]
  apply List.ext_getElem
  · simp [zArea_len]
  · intro j h1 h2
    have := mget_laid zArea 0 j
    simp only [List.getElem_map, List.getElem_range, this]
    simp [nth, List.getElem?_eq_getElem h2]

def pgPromote : State := plc { tier := .moving, was := .t2c, move := some .promote, bytes := [(5, 7)], heap := (0, 2) }
def pgFetch : State :=
  plc { tier := .moving, was := .t3, move := some .fetch, used := 1, image := some 0, asked := true, area := laid 0 zArea }
def pgDemote : State := plc { tier := .moving, was := .t2p, move := some .demote, frame := 0x400000 }
def pgEpoch : State := (plc { heat := 9, tier := .t3 }).setReg .place 0 0 0x0000004003E80001
def pgPoison : State :=
  { plc { poison := true, clean := true, image := some 0, frame := 0x400000, asked := true, area := laid 0 zArea } with
    poolFrames := [(0x400000, 0)] }
/-- The areas of both have come whole and decode. -/
theorem witness_areas : ([pgFetch, pgPoison].all fun s => (s.entry 0).asked && !(s.entry 0).failed) = true ∧
    (∀ s ∈ [pgFetch, pgPoison], s.areaBytes (s.entry 0) = zArea) ∧ areaUsed zArea = 512 ∧
    ∀ s ∈ [pgFetch, pgPoison], ∃ bs, s.decodeArea 0 0 (s.areaBytes (s.entry 0)) = some bs := by
  have h : ∀ s ∈ [pgFetch, pgPoison], s.areaBytes (s.entry 0) = zArea := by
    intro s hs
    simp only [List.mem_cons, List.not_mem_nil, or_false] at hs
    rcases hs with rfl | rfl <;>
      exact landed_zArea _ _ { origin := 1, pages := [0], areas := [(0, 4192)] } 0 rfl rfl rfl rfl rfl
  refine ⟨by decide +kernel, h, area_used, fun s hs => ?_⟩
  rw [h s hs]
  exact decode_zArea s 0 0

theorem witness_PlacedPagesMove :
    ([pgPromote, pgFetch, pgDemote, pgEpoch, pgPoison].all fun s => quietB s && mhas s.placed 0) = true ∧
    (pgPromote.findPoolFrame 0).isSome = true ∧ (pgFetch.findHeap 0 (heapGranules 512)).isSome = true ∧
    (pgPoison.findHeap 0 (heapGranules 512)).isSome = true ∧ (pgPromote.entry 0).bytes = [(5, 7)] ∧ 1572864 < 4160 + 32 * 50000 ∧
    pgEpoch.regFld .place 0 0 0 1 = 1 ∧ pgFetch.regFld .place 0 0 0 1 = 0 ∧ pgPoison.hasOrigin (pgPoison.entry 0) = true ∧
    pgPoison.findPoolFrame 0 ≠ none ∧ pgPoison.findPoolFrame 0 ≠ some 0x400000 := by decide +kernel
theorem test_promote : after (.pageMoveComplete 0 0 true) pgPromote (fun t => ((t.entry 0).tier, mget 0 (t.pageBytes 0) 5)) =
    some (.t2p, 7) := by decide +kernel

/-- A large page of context 0 at 0x400000 that MAP allocated, and one that is placed. -/
def rPlace (act : Nat) (more : List (Nat × W64)) : MReq := rq ([(2, 0), (3, 0x400000), (6, wn act)] ++ more)
def big (t : Target) : State := { plc { frame := 0x600000 } with ctxs := [(0, { ctxA with large := [(2, { rd := true, tgt := t, own := true })] })] }
def placeKeys : OpRule := rul [(Key.context, true), (Key.vaddr, true), (Key.action, true), (Key.pin, false)]

theorem witness_PagesPlaced :
    admitB (big (.frame 0x800000)) placeKeys (rPlace 0 []) = true ∧ mfree (big (.frame 0x800000)).placed (2 ^ 24) 0 = some 1 ∧
    ([rPlace 1 [], rPlace 2 [(0x504, 2)], rPlace 2 [(0x504, 1)]].all (admitB (big (.placed 0)) placeKeys)) = true ∧
    quietB (big (.placed 0)) = true ∧ ((big (.placed 0)).entry 0).image = none ∧ ((big (.placed 0)).entry 0).tier = .t2p ∧
    (({ big (.placed 0) with parts := [(0, { partP with total := [] })] } : State).unpinnedFrames 0) ≤
      ({ big (.placed 0) with parts := [(0, { partP with total := [] })] } : State).reserveFrames 0 ∧
    admitB (big (.frame 0x800000)) (rul [(Key.context, true), (Key.vaddr, true), (Key.pages, true)])
      (rq [(2, 0), (3, 0x400000), (0x501, 1)]) = true ∧ (big (.frame 0x800000)).rangeMoves 0 2 = true ∧
    (big (.frame 0x800000)).newHandle = some 0 ∧ placeCfgOk 0x0000004003E80001 (mg.reg .place 0 8) = true ∧
    placeCfgOk 1 (mg.reg .place 0 8) = false := by decide +kernel

/-- Table words whose every code has 8 bits. -/
def rTable : MReq :=
  rq ([(1, 0), (0x4B0, 5000)] ++ (List.range 64).map fun i => (Key.tableWord + i, 0x8888888888888888))
def tableKeys : OpRule :=
  rul ([(Key.part, true), (Key.tset, true), (Key.seedw, false)] ++ (List.range 64).map fun i => (Key.tableWord + i, true))
def rLoad : MReq := rq [(1, 0), (0x430, 1), (0x433, 2), (0x420, 0x1000)]
def libS : State := { mg with images := [(0, { pages := [3] })], placed := [(3, { image := some 0 })] }
/-- A list of one layer of one page in the data page of context 0, whose page at 0x400000 is placed. -/
def stS : State := { big (.placed 0) with mem := putCells [] 0x200000 (bytesOf [0x400000, 1]) }
def rStream : MReq := rq [(2, 0), (6, 0), (0x4A0, 0x20000), (0x4A1, 1), (0x4A2, 2), (0x4A3, 0), (0x4A4, 0x20100)]
def streamKeys : OpRule :=
  rul [(Key.context, true), (Key.action, true), (Key.list, false), (Key.nlayers, false), (Key.window, false), (Key.wrap, false),
    (Key.progress, false), (Key.job, false)]
def stEnd : State := { big (.placed 0) with parts := [(0, { partP with jobs := [(2, { held := [0] })] })], placed := [(0, { holds := 1 })] }

theorem witness_LibraryAndStreams :
    admitB mg tableKeys rTable = true ∧ (mg.part 0).st ≠ 0 ∧
    tablesOk (tablesOf ((List.range 64).flatMap fun i => toBytes 8 (rTable.num (Key.tableWord + i)))) = true ∧
    mg.setNamed 0 5000 = false ∧ mg.storeSets < 16384 ∧
    admitB mg (rul [(Key.part, true), (Key.origin, true), (Key.tier, true), (Key.hostAddr, false), (Key.originSession, false),
      (Key.originDevice, false), (Key.exportable, false)]) rLoad = true ∧ mg.loadOk rLoad = true ∧ mg.takeEntry 0 = some 0 ∧
    mg.newHandle = some 0 ∧ admitB libS (rul [(Key.image, true)]) (rq [(0x435, 0)]) = true ∧ libS.loading 0 = false ∧
    libS.mappers 3 = [] := by decide +kernel
theorem witness_Streams :
    admitB stS streamKeys rStream = true ∧ (stS.wordAt none 0 0x20100).isSome = true ∧
    stS.layerRecords rStream = some [(0x400000, 1)] ∧ stS.layersPlaced 0 [(0x400000, 1)] = true ∧
    mfree (stS.part 0).jobs 16 0 = some 0 ∧ admitB stEnd streamKeys (rq [(2, 0), (6, 1), (0x4A5, 2)]) = true ∧
    mfind? (stEnd.part 0).jobs 2 = some { held := [0] } := by decide +kernel
theorem test_stream_end : after (.streamJobEnd (rq [(2, 0), (6, 1), (0x4A5, 2)])) stEnd (fun t => (t.entry 0).holds) = some 0 := by
  decide +kernel

/-- Partition 0 without contexts; the items that give it chase 0, group 0 and sessions 1 to 9. -/
def mgEmpty : State := { mg with ctxs := [], presses := [], parts := [(0, partP)] }
def rReset : MReq := rq [(1, 0), (0x100, 1), (0x101, 1), (0x102, 8), (0x103, 0x90001), (0x104, 16)]
def mgReset : State := { mgEmpty with regs := mgEmpty.regs ++ [(0xF00000000010, 0x00FF0000)] }
def rBist : MReq := rq [(1, 0), (0x441, 0)]

theorem witness_PartitionsCleared :
    mgEmpty.newHandle = some 0 ∧ quietB mgEmpty = true ∧ quietB mgReset = true ∧
    admitB mgEmpty (ruleOf false false false [(Key.part, true)]) (rq [(1, 0)]) = true ∧ (mgEmpty.part 0).st = 1 ∧
    mgEmpty.bistOn 0 = false ∧
    admitB mgEmpty { service := true, keys := [(Key.part, false), (Key.chases, false), (Key.stackMask, false), (Key.algo, true),
      (Key.apply, false)] } rBist = true ∧ mgEmpty.bistAllowed rBist = true ∧
    admitB mgReset { plain := false } rReset = true ∧ resetItemsOk (0, rReset.items.drop 1) = true ∧
    (mgReset.resetConf (rReset.items.drop 1)).present = true ∧
    mgReset.resetRefusal [(0, rReset.items.drop 1)] ((upTo 8).map fun q => if q = 0 then mgReset.resetConf (rReset.items.drop 1) else mgReset.confOf q)
      (mgReset.regFld .hbm 0 0 8 8) = none := by decide +kernel

/-! ### Taosh -/

/-- Session 3 as `x`, beside session 0. -/
def sess (x : Session) : State := { mg with sessions := [(0, { st := .isOpen }), (3, x)] }
def seg1 : SentSeg := { pn := 4, msn := 1, len := 64 }
def sFull : State := sess { st := .isOpen, cwnd := 1, flight := [seg1] }
def sLost : State := sess { st := .isOpen, lost := [seg1], txPn := 7 }
def sNew : State := sess { st := .isOpen, limit := 16, mss := 1024, queue := [.writeAck 5 0], txPn := 7, unacked := 2, w := 16, rxDone := 3 }

theorem witness_TransportSends :
    ([sFull, sLost, sNew].all fun s => decide ((s.session 3).st = .isOpen)) = true ∧
    (sFull.session 3).cwnd ≤ ((sFull.session 3).flight.length : Rat) ∧ (sFull.session 3).unacked = 0 ∧
    (sFull.session 3).lost = [] ∧ (sFull.session 3).limit ≤ (sFull.session 3).txNew ∧
    ((sLost.session 3).flight.length : Rat) < (sLost.session 3).cwnd ∧ (sLost.session 3).lost = [seg1] ∧
    (sNew.session 3).lost = [] ∧ (sNew.session 3).txNew < (sNew.session 3).limit ∧ (sNew.session 3).cut = none ∧
    msgLen (.writeAck 5 0) + (if sNew.sealedSession 3 then 32 else 0) ≤ (sNew.session 3).mss ∧
    (sNew.session 3).unacked ≠ 0 := by decide +kernel
/-- The first 8 bytes of the header of a segment sent, and its MLEN and LEN (R326). -/
def sent (o : Out) : List Nat := match o with
  | .segment _ bs => [ofBytes (bs.take 8), ofBytes (slice bs 16 4), ofBytes (slice bs 20 2)]
  | _ => []
theorem test_segment_sent : after (.segmentSend 3) sNew (fun t => (t.out.map sent, (t.session 3).txNew)) =
    some ([[], [0x0000000700030641, 32, 32]], 1) := by decide +kernel
theorem test_loss_halves_once : after (.ack 3 9 { largest := 7, delay := 0, ceCount := 0, creditLimit := 20, ranges := [] })
    (sess { st := .isOpen, flight := [seg1, { seg1 with pn := 5 }, { seg1 with pn := 7 }] })
    (fun t => ((t.session 3).cwnd, (t.session 3).lost.length, (t.session 3).flight.length, (t.session 3).limit)) =
    some (8, 1, 1, 20) := by decide +kernel

/-- A segment of session 3 with a whole PULL of 32 bytes. -/
def gPull : Segment :=
  { version := 1, cls := 5, phase := false, first := true, last := true, sealed := false, session := 3, pn := 20, msn := 6,
    offset := 0, mlen := 32, rsvZero := true, ce := true, payload := List.replicate 32 0 }
def sRx (limit : Nat) (msn : Nat) : State := sess { st := .isOpen, rxMsn := msn, rxLimit := limit }

/-- PN 3 acknowledges across the wrap (R330, R338): 0xFFFFFFFE is lost, 1 is not, the pair holds 0 and 2 and not 0xFFFFFFF0. -/
theorem test_pn_wraps : let a : AckBody := { largest := 3, delay := 0, ceCount := 0, creditLimit := 0, ranges := [(0xFFFFFFF8, 2)] }
    ([0xFFFFFFFE, 1].map (ackPasses a), [0, 2, 0xFFFFFFF0].map (ackCovers a)) = ([true, false], [true, true, false]) := by
  decide +kernel

theorem witness_SegmentsReceived :
    gPull.cls ≠ 0 ∧ gPull.cls ≠ 8 ∧ segmentOk { gPull with version := 2 } = false ∧ segmentOk gPull = true ∧
    ((sRx 16 6).session 3).st = .isOpen ∧ ((sRx 16 6).session 3).authFails + 1 < 2 ^ 20 ∧
    gPull.phase = ((sRx 16 6).session 3).phase ∧ ((sRx 16 6).session 3).unacked + 1 < (sRx 16 6).ackEvery ∧
    ((sRx 16 7).session 3).holds gPull = true ∧ ((sRx 16 7).session 3).holds { gPull with pn := 2 ^ 31 } = true ∧
    ((sRx 16 7).session 3).rxPns = [] ∧ ((sRx 0 6).session 3).holds gPull = false ∧
    ((sRx 0 6).session 3).rxLimit ≤ ((sRx 0 6).session 3).rxSegs ∧ ((sRx 16 6).session 3).rxSegs < ((sRx 16 6).session 3).rxLimit ∧
    ((sRx 16 6).session 3).rx = [] ∧ gPull.payload.length = gPull.mlen ∧ (sRx 16 6).sealedSession 3 = false ∧
    num gPull.payload 4 2 ≠ 1 ∧ gPull.pn < 2 ^ 31 := by decide +kernel
theorem test_segments : ([sRx 16 6, sRx 16 7, sRx 0 6].map fun s => after (.segmentReceive gPull true) s fun t =>
    ((t.session 3).rxMsn, (t.session 3).rxDone, (t.session 3).rxCe, t.regFld .taosh 0 8 32 16)) =
    [some (7, 1, 1, 0), some (7, 0, 1, 0), some (6, 0, 1, 1)] := by decide +kernel

/-- A HELLO_1 for session 3 by the ticket 1 of partition 0, and one that is too small. -/
def hello : Hello1 :=
  { typ := 1, protect := 0, session := 3, mss := 1024, w := 16, ticket := 1, nonce := [], x25519 := [], mlkem := [], wellSized := true }
def sHello (x : Session) : State := { sess x with tickets := [(1, { id := 1 })] }
def hand : Hand := { hello1 := helloBytes hello, hello2 := [2] }

theorem witness_SessionsOpen :
    helloDiscarded { hello with wellSized := false } = true ∧ helloDiscarded hello = false ∧
    (sHello {}).helloRefusal hello = none ∧ (sHello {}).helloRefusal { hello with mss := 1000 } = some St.sessionInvalid ∧
    ((sHello {}).session 3).pend = none ∧ ((sHello { pend := some hand }).session 3).pend = some hand ∧
    hand.hello1 = helloBytes hello ∧ ((sHello { pend := some hand }).session 3).st = .closed ∧
    ((sHello { st := .isOpen }).session 3).st = .isOpen := by decide +kernel
/-- The FINISHED value of the handshake opens session 3; any other is refused. -/
theorem witness_hello3 (ed ml : List Byte) :
    (sHello { pend := some hand }).hello3Ok 3 hand (Config.hmac hand.keys.finished (Config.sha384 (hand.hello1 ++ hand.hello2) ++ [1]))
      ed ml = true ∧
    ∃ fin, (sHello { pend := some hand }).hello3Ok 3 hand fin ed ml = false := by
  refine ⟨by simp [State.hello3Ok], (0 : Byte) :: Config.hmac hand.keys.finished (Config.sha384 (hand.hello1 ++ hand.hello2) ++ [1]), ?_⟩
  simp only [State.hello3Ok, Bool.and_eq_false_iff]
  left
  simp [List.cons_ne_self]

def sTick (x : Session) : State := { sess x with tickets := [(1, { id := 1 })], queues := [(2, { session := some 3 })] }
def tickRule : OpRule := ruleOf false false false [(Key.part, true), (Key.minProtect, true)]
def netRule : OpRule := ruleOf false false false [(Key.ipv4, false), (Key.ipv6Hi, false), (Key.ipv6Lo, false), (Key.udpPort, false)]

theorem witness_SessionsEnd :
    quietB (sTick { st := .isOpen, ticket := 1 }) = true ∧ ((sTick { st := .isOpen }).session 3).st = .isOpen ∧
    admitB (sTick { st := .isOpen }) { all := true } { rq [] with session := 3 } = true ∧
    admitB mg tickRule (rq [(1, 0), (0x300, 1)]) = true ∧ (mg.part 0).st ≠ 0 ∧ mfree mg.tickets (2 ^ 32) 1 = some 1 ∧
    admitB (sTick { st := .isOpen, ticket := 1 }) (ruleOf false false false [(Key.ticketId, true)]) (rq [(0x301, 1)]) = true ∧
    (sTick {}).tickets.find? (fun e => e.2.id == wn ((rq [(0x301, 1)]).num Key.ticketId)) = some (1, { id := 1 }) ∧
    ((sTick { st := .isOpen, ticket := 1 }).session 3).ticket = wn ((rq [(0x301, 1)]).num Key.ticketId) ∧
    admitB mg netRule (rq [(0x703, 5000)]) = true ∧ (rq [(0x703, 5000)]).has Key.ipv6Hi = (rq [(0x703, 5000)]).has Key.ipv6Lo := by
  decide +kernel
theorem test_close : after (.close { rq [] with session := 3 }) (sTick { st := .isOpen }) (fun t =>
    ((t.session 3).st, (mget ({} : CmdQueue) t.queues 2).session)) = some (.closed, none) := by decide +kernel

def loopRq : MReq := rq [(0x450, 0), (0x451, 0x0000000003E80010)]
def sLoop : State := (mg.setFld .eth 0 0x10 4 1 1)
def sLoopR : State := { sLoop with loopReqs := [(0, (3, 8))] }
def mgNoCtx : State := { mg with ctxs := [] }

theorem witness_PortAndEcho :
    admitB mg { all := true, plain := false } (rq []) = true ∧
    admitB mg { service := true, keys := [(Key.interface, true), (Key.loop, true)] } loopRq = true ∧ loopRq.num Key.interface = 0 ∧
    loopRq.item? Key.loop = some 0x0000000003E80010 ∧ mg.regFld .eth 0 0x10 4 1 = 0 ∧
    mgNoCtx.ethLoopDenied = false ∧ (1 ≤ fld 0x0000000003E80010 31 16) ∧ fld 0x0000000003E80010 31 16 ≤ 60000 ∧
    ({ mg with sec := { mg.sec with fuses := { mg.sec.fuses with lcProv := true } } } : State).ethLoopDenied = true ∧
    sLoopR.regFld .eth 0 0x10 4 1 = 1 ∧ mfind? sLoopR.loopReqs 0 = some (3, 8) ∧ sLoopR.sessionOpen 3 = true ∧
    ccCfgOk 0x000A000A000A0432 = true ∧ ccCfgOk 0x000A000A000A0431 = false := by decide +kernel
theorem test_cc_cfg : after (.taoshCcCfgWrite .session0 0x000A000A000A0431) mg (fun t => (t.regFld .taosh 0 0 0 7, t.regFld .taosh 0 8 0 1)) =
    some (96, 1) := by decide +kernel
theorem test_loop_end : after (.ethLoopbackEnd 0) sLoopR (fun t => (t.regFld .eth 0 0x10 4 3, t.loopReqs.length, (t.session 3).queue.length)) =
    some (6, 0, 1) := by decide +kernel

/-! ### Queues, buffers, host access -/

/-- The conditions of `PlainSpan`, decided. -/
def spanB (s : State) (c : Nat) (k : Kind) (va : W64) (pa len : Nat) : Bool :=
  ((List.range len).all fun i => placeB s c k (va + wn i) (pa + i) && !s.isBad (pa + i) 1 &&
    !(decide (k = .wr) && s.sealedKey (pa + i))) && decide (pa + len ≤ 2 ^ 48)

theorem span_of_spanB {s : State} {c : Nat} {k : Kind} {va : W64} {pa len : Nat} (h : spanB s c k va pa len = true) :
    PlainSpan s c k va pa len := by
  simp only [spanB, Bool.and_eq_true, List.all_eq_true, List.mem_range, Bool.not_eq_true', decide_eq_true_eq,
    Bool.and_eq_false_iff, decide_eq_false_iff_not] at h
  obtain ⟨h1, h2⟩ := h
  refine ⟨fun i hi => place_of_placeB (h1 i hi).1.1, h2, fun i hi => (h1 i hi).1.2, fun hk i hi => ?_⟩
  rcases (h1 i hi).2 with h3 | h3
  · exact absurd hk h3
  · exact h3

/-- Queue 2 of context 0, of partition 0, bound to session 3 with depth `depth` and the takes `ks`. -/
def qS (depth : Nat) (ks : List Nat) (recs : List Completion) : State :=
  { mgF with queues := [(2, { depth, takes := ks, records := recs, session := some 3 })]
             sessions := [(0, { st := .isOpen }), (3, { st := .isOpen }), (4, { st := .isOpen })] }
/-- A take of forme 5 from entry 0x10040 with no descriptors, and one of an undefined operation. -/
def cmdW (op : Nat) : List W64 := [wn (op + 5 * 2 ^ 32), 0x10040, 0, 0, 1, 0, 9, 11]
def bindRule : OpRule := ruleOf true false false [(Key.queue, true), (Key.session, true)]

theorem witness_QueuesAndTakes :
    admitB mg (ruleOf true false false [(Key.context, true), (Key.depth, true)]) (rq [(2, 0), (0x401, 16)]) = true ∧
    mfree mg.queues 4096 0 = some 0 ∧
    admitB (qS 16 [] []) (ruleOf true false false [(Key.queue, true)]) (rq [(0x400, 2)]) = true ∧
    admitB (qS 16 [7] []) (ruleOf true false false [(Key.queue, true)]) (rq [(0x400, 2)]) = true ∧
    admitB (qS 16 [] [{}]) bindRule (rq [(0x400, 2), (0x402, 4)]) = true ∧ (qS 16 [] []).sessionMay 4 0 = true ∧
    ((qS 16 [] []).ctx 0).events = [] ∧ ((qS 16 [] []).session 4).queue = [] ∧ ((qS 16 [] []).session 4).cut = none ∧
    ({ qS 16 [] [] with queues := [(2, { part := 1 })] } : State).sessionMay 4 1 = false ∧
    (match (qS 16 [] []).checkDesc 3 2 (cmdW 1) with | .ok (ds, win) => ds == [] && win == none | .error _ => false) = true ∧
    (match (qS 16 [] []).checkDesc 3 2 (cmdW 3) with | .ok _ => false | .error st => st == St.descriptorInvalid) = true ∧
    mhas (qS 16 [] []).queues 2 = true ∧ (qS 16 [] []).sessionMay 3 0 = true ∧ ((qS 16 [] []).session 3).queue = [] ∧
    (mget ({} : CmdQueue) (qS 1 [7] []).queues 2).depth ≤ (mget ({} : CmdQueue) (qS 1 [7] []).queues 2).takes.length := by
  decide +kernel
theorem test_submit : after (.submit 3 2 true [cmdW 1]) (qS 16 [] []) (fun t =>
    let k := mget ({} : Take) t.takes 0
    (k.queue, k.forme, k.entry, k.arg, k.user, k.granule)) = some (2, 5, 0x10040, 9, 11, 1) := by decide +kernel

/-- Buffer 6: 4 KiB at 0x20000, generation 3. -/
def buf6 (isSealed : Bool) : Buffer := { base := 0x20000, len := 0x1000, wake := 0x28000, gen := 3, sealed := isSealed }
def bufS (isSealed : Bool) : State := { mg with buffers := [(6, buf6 isSealed)] }
def rBuf (b : W64) (more : List (Nat × W64)) : MReq := { rq ([(0x410, b)] ++ more) with session := 3 }
def regRule : OpRule := ruleOf true false false
  [(Key.buf, true), (Key.context, true), (Key.vaddr, true), (Key.length, true), (Key.wake, false)]

theorem witness_BuffersAndHostAccess :
    (bufS true).sessionOpen 3 = true ∧ admitB mg regRule (rBuf 6 [(2, 0), (3, 0x20000), (4, 64)]) = true ∧
    mhas mg.buffers 6 = false ∧ mg.plainRange 0 0x20000 64 = true ∧
    admitB (bufS true) regRule (rBuf 6 [(2, 0), (3, 0x20000), (4, 64)]) = true ∧
    admitB (bufS true) (ruleOf true false false [(Key.buf, true)]) (rBuf 6 []) = true ∧
    admitB (bufS false) (ruleOf true false false [(Key.buf, true)]) (rBuf 6 []) = true ∧
    mfind? (bufS true).buffers 6 = some (buf6 true) ∧ (bufS true).bufferMay 3 6 = true ∧
    spanB (bufS true) 0 .rd 0x20010 0x200010 8 = true ∧ quietB (bufS true) = true ∧ (buf6 true).wake ≠ 0 ∧
    placeB (bufS true) 0 .wr 0x28000 0x208000 = true ∧ (mg.ctx 0).st = .active ∧ mg.sessionMay 3 (mg.ctx 0).part = true ∧
    spanB mg 0 .rd 0x20000 0x200000 8 = true ∧ spanB mg 0 .wr 0x20000 0x200000 2 = true ∧
    placeB (bufS true) 0 .wr 0x20000 0x200000 = true ∧ (bufS true).sealedKey 0x200000 = true := by decide +kernel
theorem test_release : after (.release 3 5 6 3) (bufS true) (fun t =>
    (cells t.mem 0x208000 2, (t.session 3).queue)) = some ([1, 0], [.readResp 5 St.ok 3 []]) := by decide +kernel

/-- One request of context 0, of kind `kind`, on session 3. -/
def reqS (kind : Nat) (cause : Cause) : State :=
  { mg with requests := [(5, { kind, cause, len := 4, session := some 3 })]
            ctxs := [(0, { ctxA with remoteOut := 1 })] }
/-- The same on a bounce window, from byte 4,094. -/
def reqB (cause : Cause) (merge : Option (List Byte)) : State :=
  { reqS 3 cause with
    requests := [(5, { kind := 3, cause, len := 4, session := some 3, bounce := some (0, 4094), merge })]
    hostwins := [(0, { session := 3, bounce := true })] }
def winRule : OpRule := ruleOf true false false [(Key.context, true), (Key.vaddr, true), (Key.length, true), (Key.hostAddr, true)]
def rWin : MReq := rq [(2, 0), (3, 0x400000), (4, 0x200000), (0x420, 0x7000)]

theorem witness_HostWindows :
    admitB mg winRule rWin = true ∧ (mg.ctx 0).touched true 2 = false ∧ (mg.part 0).conf = false ∧
    mfree mg.hostwins (2 ^ 32) 0 = some 0 ∧ 0x600000 ≤ serviceBase ∧
    ([reqS 3 (.load 0 3 4 true), reqS 4 (.store 0), reqB (.load 0 3 4 true) none, reqB (.store 0) (some [1, 2, 3, 4])].all fun s => quietB { s with requests := [] } && s.sessionOpen 3 &&
      decide ((s.press 0).run = some 0) && decide ((s.ctx 0).st = .active)) = true := by decide +kernel
theorem test_pull_response : after (.pullResp 3 5 St.ok [0xFF, 0xFF, 0xFF, 0xFF]) (reqS 3 (.load 0 3 4 true)) (fun t =>
    ((t.pc 0).getX 3, (t.ctx 0).remoteOut, t.requests.length)) = some (0xFFFFFFFFFFFFFFFF, 0, 0) := by decide +kernel
/-- Four bytes from byte 4,094 of a window lie in two blocks, and a write finds its place in the first (R357). -/
theorem test_blocks : blockSpan 4094 4 = (0, 2) ∧ blockSpan 8192 4096 = (2, 1) ∧ overlay [1, 2, 3, 4] 2 [9, 9, 9] = [1, 2, 9, 9] := by
  decide +kernel
theorem test_bounce_short : after (.pullResp 3 5 St.ok [0, 0, 0, 0]) (reqB (.load 0 3 4 true) none) (fun t =>
    ((t.ctx 0).st, (t.ctx 0).endStatus)) = some (.teardown, St.pullFailed) := by decide +kernel
theorem test_pull_failed : after (.pullResp 3 5 0x20 []) (reqS 3 (.load 0 3 4 true)) (fun t =>
    ((t.ctx 0).st, (t.ctx 0).endStatus)) = some (.teardown, St.pullFailed) := by decide +kernel

/-! ### Images, tokens, starts -/

def act : OpRule := { service := true, restricted := true, keys := [(Key.kind, true), (Key.svnCommit, false)] }
/-- The fuses with LC_PROV and LC_DEPL. -/
def depl (s : State) : State := { s with sec := { s.sec with fuses := { s.sec.fuses with lcProv := true, lcDepl := true } } }
def rKind (k : W64) : MReq := rq [(0x470, k)]
def rCommit : MReq := rq [(0x470, 2), (0x471, 1)]
/-- Kind 2 runs an image of security version `a`, and its golden slot holds one of version `b`. -/
def runs (s : State) (a b : Nat) : State :=
  { s with sec := { s.sec with running := [(2, (0, { kind := 2, svn := a }))], slots := mput s.sec.slots 10 { kind := 2, svn := b } } }

theorem witness_ImagesAndColophon :
    admitB mg { service := true, restricted := true, plain := false } (rq []) = true ∧
    admitB mg (ruleOf false true true [(Key.kind, true)]) (rKind 2) = true ∧ (rKind 2).num Key.kind ≠ 15 ∧
    (depl mg).sec.fuses.lifecycle = 2 ∧ admitB (depl mg) (ruleOf false true true [(Key.kind, true)]) (rKind 2) = true ∧
    mg.newHandle = some 0 ∧ admitB mg act (rKind 2) = true ∧ admitB (depl mg) act (rKind 2) = true ∧
    mhas mg.sec.slots (4 * 2 + mg.sec.otherSlot 2) = false ∧
    ({ mg with sec := { mg.sec with slots := mput mg.sec.slots 9 {} } } : State).sec.slots.length = 13 ∧
    mhas (mput mg.sec.slots 9 {}) (4 * 2 + mg.sec.otherSlot 2) = true ∧
    ([runs mg 3 4, runs (depl mg) 3 2, runs (depl mg) 3 4].all fun s => admitB s act rCommit) = true ∧
    mg.sec.fuses.lifecycle = 0 ∧ mg.sec.fuses.ownerEd = [] ∧ mg.sec.fuses.ownerMl = [] := by decide +kernel
theorem test_svn_commit : after (.svnCommit rCommit) (runs (depl mg) 3 4) (fun t => t.sec.fuses.svnMin) = some [(2, 3)] := by
  decide +kernel

/-- A token of type `t` for the blank serial number and the next start, signed with two empty keys. -/
def tok (t : Byte) : ImageFacts :=
  let body := [t] ++ List.replicate 27 0 ++ [1] ++ List.replicate 99 0
  { magic := 0x5746485A, kind := 15, svn := 0, version := 0, digest := Config.sha384 body, body, edPub := [], mlPub := [],
    edSig := [], mlSig := [], header := [], rsvZero := true }
/-- Those keys are the vendor's, and the token is in the buffer. -/
def tokS (s : State) (t : Byte) : State :=
  { s with sec := { s.sec with
      token := some (tok t)
      fuses := { s.sec.fuses with vendorEd := Config.sha384 [], vendorMl := Config.sha384 [] } } }

theorem witness_TokensApplied :
    admitB mg act (rKind 15) = true ∧ (rKind 15).num Key.kind = 15 ∧ mg.sec.token = none ∧
    tokType (tok 2) = 2 ∧ tokType (tok 5) = 5 ∧ quietB (depl mg) = true ∧ (depl mg).sec.transition = none ∧
    (depl mg).longops = [] ∧ (depl mg).sec.fuses.lifecycle = 2 ∧ (depl mg).sec.fuses.returns < 32 ∧
    (mg.part 0).st ≠ 0 ∧ ((upTo 8).all fun p => !mg.bistOn p) = true ∧ admitB (depl mg) act (rKind 15) = true ∧
    ((upTo 8).all fun p => decide ((({ mg with parts := [] } : State).part p).st = 0)) = true ∧
    admitB { mg with parts := [] } act (rKind 15) = true := by decide +kernel
/-- A token for another device fails its checks; one that verifies passes them (no signature can be computed here). -/
theorem witness_tokenOk (s : State) (h : s.sec.fuses.serial = []) (hr : s.sec.fuses.returns = 0) (hc : s.sec.startCount = 0)
    (he : Config.edVerify [] [] [] = true) (hm : Config.mlVerify [] [] [] = true) :
    (tokS s 5).tokenOk (tok 5) = true ∧ (tokS s 2).tokenOk (tok 2) = true ∧ (tokS s 5).tokenOk { tok 5 with rsvZero := false } = false := by
  have e5 : slice (tok 5).body 8 16 = fit 16 [] ∧ tokNum (tok 5) 1 7 = 0 ∧ tokNum (tok 5) 25 3 = 0 ∧ tokNum (tok 5) 80 48 = 0 ∧
    tokType (tok 5) = 5 ∧ tokNum (tok 5) 24 1 = 0 ∧ tokNum (tok 5) 28 4 = 1 := by decide +kernel
  have e2 : slice (tok 2).body 8 16 = fit 16 [] ∧ tokNum (tok 2) 1 7 = 0 ∧ tokNum (tok 2) 25 3 = 0 ∧ tokNum (tok 2) 80 48 = 0 ∧
    tokType (tok 2) = 2 ∧ tokNum (tok 2) 24 1 = 0 := by decide +kernel
  obtain ⟨a1, a2, a3, a4, a5, a6, a7⟩ := e5
  obtain ⟨b1, b2, b3, b4, b5, b6⟩ := e2
  have v5 : (tokS s 5).sec.verifies kindToken (tok 5) = true := by
    simp [Sec.verifies, imageSound, Sec.byVendor, tokS, kindToken, tok, he, hm]
  have v2 : (tokS s 2).sec.verifies kindToken (tok 2) = true := by
    simp [Sec.verifies, imageSound, Sec.byVendor, tokS, kindToken, tok, he, hm]
  refine ⟨?_, ?_, ?_⟩
  · simp only [State.tokenOk, v5, a1, a2, a3, a4, a5, a6, a7]; simp [tokS, h, hr, hc]
  · simp only [State.tokenOk, v2, b1, b2, b3, b4, b5, b6]; simp [tokS, h, hr, hc]
  · simp [State.tokenOk, Sec.verifies, imageSound]

/-- A start in step `k`, its record open. -/
def boot (k : Nat) (svc : Bool) : State :=
  { mg.setFld .boot 0 0 0 5 k with ledger := { service := svc, starts := [{ boot := 6 }] } }

theorem witness_StartsAndLedger :
    ([5, 9, 24].all fun k => (boot k false).bootStep == k && !(boot k false).startHeld) = true ∧ mg.bootStep = 0 ∧
    mg.startHeld = false ∧ ({ boot 5 false with ledger := {} } : State).ledger.starts = [] ∧ (boot 25 false).bootStep = 25 ∧
    (boot 9 false).ledger.service = false ∧ (boot 9 false).recordOpen = true ∧ mg.recordOpen = false ∧
    admitB mg (ruleOf false true true []) (rq []) = true := by decide +kernel
theorem test_step_fails : after (.deviceStart [⟨9, true, 0x0F, 40, [], []⟩] 9) (boot 9 false) (fun t =>
    let r := t.ledger.starts.headD {}
    (t.ledger.fails, t.ledger.alt, t.bootStep, r.outcome, r.failedStep, r.status)) = some (1, 0x100, 0, 1, 9, St.bootStepFailed) := by decide +kernel
theorem test_service_start : after (.deviceStart [⟨5, false, 0, 9, [], []⟩] 5) { boot 5 false with ledger := { fails := 3 } } (fun t =>
    (t.ledger.service, t.regFld .boot 0 0 6 1, t.bootStep, t.pins.alertN)) = some (true, 1, 6, false) := by decide +kernel

/-! ### Quoin -/

/-- Links 0, 8, 16 and 24, one of each dimension, in service; link 0 is `x`. -/
def up (s : State) (x : Link) : State :=
  { (([0, 8, 16, 24] : List Nat).foldl (fun s l => s.setFld .quoin 0 (0x200 + 8 * l) 0 3 2) s) with links := [(0, x)] }
def flit (seq : Nat) (ps : List Packet) : Flit := { kind := 1, vc := 2, seq, ack := 9, cvc := 1, credits := 6, packets := ps }
/-- A packet of type `typ` from device 6. -/
def pk (typ : Nat) : Packet := { basePacket mg 0 5 0x200010 8 with typ, src := 6, jobTag := 77 }
def lk : Link := { expect := 7, naks := 2 }
def linkRule : OpRule := ruleOf false false false [(Key.link, true)]

theorem witness_LinksCarryFlits :
    mg.linkState 0 ≠ LinkSt.up ∧ admitB mg linkRule (rq [(0x710, 0)]) = true ∧ (up mg lk).linkState 0 = LinkSt.up ∧
    admitB (up mg lk) linkRule (rq [(0x710, 0)]) = true ∧ ((up mg lk).link 0).waiting = [] ∧
    (up mg lk).regFld .quoin 0 0x100 0 1 = 1 ∧ typeOk (pk 2).typ = true ∧ (pk 2).rsvZero = true ∧
    (flit 7 [pk 2]).seq = ((up mg lk).link 0).expect ∧ (flit 8 []).seq ≠ lk.expect ∧
    1024 < (lk.expect + 4096 - (flit 8 []).seq) % 4096 ∧ (lk.replay.any fun e => e.1 == 4) = false ∧
    lk.naks + 1 < (up mg lk).regFld .quoin 0 8 16 8 ∧ (up mg {}).regFld .quoin 0 8 16 8 ≤ ({ naks := 7 } : Link).naks + 1 := by
  decide +kernel
theorem test_flit : ([flit 7 [pk 2], flit 8 []].map fun f => after (.flitReceive 0 f true) (up mg lk) fun t =>
    ((t.link 0).expect, (t.link 0).dropping, (t.link 0).arrived.length, mget 0 (t.link 0).creditRx 1)) =
    [some (8, false, 1, 6), some (7, true, 0, 6)] := by decide +kernel
theorem test_flit_header : (({ expect := 7, cvc := 1, freed := [(1, 3)] } : Link).flitHead 0 1 2 true 5) =
    1 + 2 * 2 ^ 3 + 5 * 2 ^ 10 + 6 * 2 ^ 22 + 1 * 2 ^ 34 + 3 * 2 ^ 37 := by decide +kernel
theorem test_retry_limit : after (.nak 0 4) (up mg { naks := 7 }) (fun t => (t.linkState 0, (t.link 0).naks)) =
    some (LinkSt.retrain, 0) := by decide +kernel

/-- A bundle whose only link retrains keeps its packets (R395). -/
theorem test_retrain_keeps : let s := (up mg {}).setLinkState 0 LinkSt.retrain
    let t := s.inject { pk 2 with dest := 6 }
    (t.2, (t.1.link 0).waiting.length, t.1.out.length) = (true, 1, 0) := by decide +kernel

/-- Link 0 in a state, at the reduced rate or not. -/
def lkS (st slow : Nat) : State := (mg.setFld .quoin 0 0x200 0 3 st).setFld .quoin 0 0x200 3 1 slow
def noId : State := { mg with regs := [] }
def qRule : OpRule := { service := true, keys := [(Key.interface, true), (Key.loop, true)] }
def rLoopQ : MReq := rq [(0x450, 1), (0x451, 0x0000000003E80000)]
def lkLoop : State := { (lkS LinkSt.loop 0).setFld .quoin 0 0x400 8 1 1 with loopReqs := [(1, (3, 8))] }

theorem witness_LinksTrained :
    quietB (lkS 3 0) = true ∧ ((lkS 3 0).link 0).waiting = [] ∧ (lkS 3 0).linkState 0 = LinkSt.retrain ∧ linkFld (lkS 3 0) 0 3 1 = 0 ∧
    linkFld (lkS 3 1) 0 3 1 = 1 ∧ (lkS 1 0).linkState 0 = LinkSt.training ∧ (lkS 1 0).idValid = true ∧
    (lkS 1 0).neighborId 0 = 6 ∧ (lkS 1 0).linkDim 0 = 0 ∧ (lkS 1 0).linkDir 0 = 0 ∧ noId.idValid = false ∧
    noId.extent (fld 1 2 1) ≠ 1 ∧ (noId.setFld .quoin 0 0 0 4 0).extent (fld 1 2 1) = 1 ∧
    admitB (lkS 5 0) qRule rLoopQ = true ∧ (lkS 5 0).linkState 0 = LinkSt.off ∧ rLoopQ.num Key.interface = 1 ∧
    rLoopQ.item? Key.loop = some 0x0000000003E80000 ∧ (lkS 5 0).regFld .quoin 0 0x400 8 1 = 0 ∧
    lkLoop.regFld .quoin 0 0x400 8 1 = 1 ∧ lkLoop.regFld .quoin 0 0x400 0 5 = 0 ∧ mfind? lkLoop.loopReqs 1 = some (3, 8) ∧
    lkLoop.sessionOpen 3 = true := by decide +kernel
theorem test_miswired : ([(6, true), (4, true), (6, false)].map fun e => after (.retrainComplete 0 true e.1 4 0 e.2) (lkS 1 0) fun t =>
    (t.linkState 0, linkFld t 0 4 1)) = [some (2, 0), some (0, 1), some (0, 1)] := by decide +kernel

/-- The conditions of `Delivered`, decided. -/
def deliveredB (s : State) (l : Nat) (p : Packet) (typ : Nat) : Bool :=
  decide (l < 32) && decide (s.linkState l = LinkSt.up) && decide (p.typ = typ) && p.rsvZero && !p.ossel && !p.reissue &&
    decide (p.dest = s.myId)

theorem delivered_of_deliveredB {s : State} {l : Nat} {p : Packet} {typ : Nat} (h : deliveredB s l p typ = true) :
    Delivered s l p typ := by
  simp only [deliveredB, Bool.and_eq_true, decide_eq_true_eq, Bool.not_eq_true'] at h
  obtain ⟨⟨⟨⟨⟨⟨h1, h2⟩, h3⟩, h4⟩, h5⟩, h6⟩, h7⟩ := h
  exact ⟨h1, h2, h3, h4, h5, h6, h7⟩

/-- Context 0 under the job tag 77; sealed, its page is buffer 6. -/
def tgt (isSealed : Bool) : State :=
  { up (bufS isSealed) {} with ctxs := [(0, { ctxA with jobTag := 77 })] }
def pkAdd : Packet := { pk 5 with fmt := 0xF, data := toBytes 8 5 }
def pkWr : Packet := { pk 3 with data := [1, 2], len := 2 }

/-- The page may not be written. -/
def tgtRo : State :=
  { tgt false with ctxs := [(0, { ctxA with jobTag := 77, pages := [(2, { data with wr := false })] })] }
/-- An exportable image of four bytes, read as an origin. -/
def tgtOrigin : State := { tgt false with images := [(0, { exportable := true, raw := [1, 2, 3, 4] })] }
def pkOrigin : Packet := { pk 1 with origin := true, addr := 1, len := 2 }

theorem witness_TargetServes :
    deliveredB tgtRo 0 pkAdd 5 = true ∧ tgtRo.mayServe pkAdd = true ∧ tgtRo.serveWaits pkAdd = false ∧
    tgtRo.mappedFor pkAdd.jobTag 0x200010 8 true = false ∧ (tgt false).mappedFor pkAdd.jobTag 0x200010 8 true = true ∧
    pkWr.data ≠ [] ∧ deliveredB tgtOrigin 0 pkOrigin 1 = true ∧ tgtOrigin.mayServe pkOrigin = true ∧ pkOrigin.origin = true ∧
    tgtOrigin.exported 1 2 = some [2, 3] ∧ (pk 1).origin = false ∧
    ((upTo 4).all fun d => !((tgt false).bundle d 0).isEmpty) = true ∧ coord (tgt false).myId 0 ≠ coord 6 0 ∧
    deliveredB (tgt true) 0 pkWr 3 = true ∧ (tgt true).serveWaits pkWr = true ∧
    ([(pk 1, 1), (pkWr, 3), (pkAdd, 5)].all fun e => deliveredB (tgt false) 0 e.1 e.2 && (tgt false).mayServe e.1 &&
      !(tgt false).serveWaits e.1 && !(tgt false).mayServe { e.1 with jobTag := 78 }) = true ∧
    (tgt false).placedAt 0x200010 = none ∧ (tgt false).isBad 0x200010 8 = false ∧ quietB (tgt false) = true ∧
    ((tgt false).hbmMap 0x200010).isSome = true ∧
    (match (tgt false).hbmMap 0x200010 with | some (pc, _) => (tgt false).pcState pc == 0 | none => false) = true ∧
    pkAdd.op = 0 ∧ pkAdd.fmt.toNat = fmtInt64 ∧ pkAdd.data.length = 8 := by decide +kernel
theorem test_remote_add : after (.atom 0 pkAdd) (tgt false) (fun t => (t.mem, t.out.length)) = some ([(0x200010, 5)], 1) := by
  decide +kernel

/-- One Quoin request of context 0 outstanding, and an answer to it. -/
def ask (kind : Nat) (cause : Cause) (mark : Option Nat) : State :=
  { up mg {} with requests := [(5, { kind, cause, mark, len := 2 })], ctxs := [(0, { ctxA with remoteOut := 1 })] }
def ans (typ : Nat) (st : Status) : Packet := { pk typ with tag := 5, status := st, data := [0xFE, 0xFF] }

theorem witness_RequestsEnd :
    ([(ask 0 (.load 0 3 2 true) none, 2), (ask 1 (.store 0) none, 4), (ask 2 (.signal 0) (some 4), 6)].all fun e =>
      quietB { e.1 with requests := [] } && decide ((e.1.ctx 0).st = .active) && decide ((e.1.press 0).run = some 0) &&
      deliveredB e.1 0 (ans e.2 0) e.2 && deliveredB e.1 0 (ans e.2 3) e.2) = true ∧
    (ans 2 0).data.length = 2 := by decide +kernel
theorem test_answers : after (.rdResp 0 (ans 2 0)) (ask 0 (.load 0 3 2 true) none) (fun t => ((t.pc 0).getX 3, (t.ctx 0).remoteOut)) =
      some (0xFFFFFFFFFFFFFFFE, 0) ∧
    after (.requestTimeout 5) (ask 1 (.store 0) none) (fun t => ((t.ctx 0).st, (t.ctx 0).endStatus, t.requests.length)) =
      some (.teardown, St.remoteUnreachable, 0) := by decide +kernel

/-! ### Service commands, collectives, audits -/

/-- The conditions of `CmdPlaces`, decided. -/
def placesB (s : State) (c : Nat) (r d : W64) (ra da : Nat) : Bool :=
  spanB s c .wr r ra 16 && spanB s c .wr d da 8 && (decide (ra + 16 ≤ da) || decide (da + 8 ≤ ra))

theorem places_of_placesB {s : State} {c : Nat} {r d : W64} {ra da : Nat} (h : placesB s c r d ra da = true) :
    CmdPlaces s c r d ra da := by
  simp only [placesB, Bool.and_eq_true, Bool.or_eq_true, decide_eq_true_eq] at h
  exact ⟨span_of_spanB h.1.1, span_of_spanB h.1.2, h.2⟩

/-- A command of context 0 with its results at 0x20100 and DONE at 0x20200; its doorbell, read or not. -/
def svc (op w3 : W64) (more : List W64) : List W64 := [op, 0x20100, 0x20200, w3] ++ more
def bell (cmd : Option (List W64)) : Doorbell := { addr := 0x20000, pc := 0x10000, cmd }
def svcS (cmd : List W64) : State := { mg with doorbells := [bell (some cmd)] }
def bellS (cmd : List W64) : State := { mg with doorbells := [bell none], mem := putCells [] 0x200000 (bytesOf cmd) }
/-- Entry 5: an FP32 tensor of 100 elements at 0x30000. -/
def cSet : List W64 := svc 2 5 [0x11, 0x30000, 100, 0]
def entry5 (owner : Nat) : UpdEntry := { valid := true, wfmt := 1, owner, w := 0x30000, elems := 100 }
def withE (s : State) (owner : Nat) (named : Bool) : State :=
  { s with updTable := [(5, entry5 owner)], colls := if named then [(7, { upd := true, items := [(5, 0, 100)] })] else [] }
def cFreeze : List W64 := svc 3 0x10005 [0, 0, 0, 0]
def cClear : List W64 := svc 4 5 [0, 0, 0, 0]

theorem witness_ServiceCommands :
    ([svcS cSet, bellS cSet, bellS (svc 9 0 [0, 0, 0, 0])].all fun s => quietB s && placesB s 0 0x20100 0x20200 0x200100 0x200200) = true ∧
    spanB (bellS cSet) 0 .rd 0x20000 0x200000 64 = true ∧ cSet = toWords 8 (cells (bellS cSet).mem 0x200000 64) ∧
    cmdOk (bell none) cSet = true ∧ cmdOk (bell none) (svc 9 0 [0, 0, 0, 0]) = false ∧ updImageOk cSet = true ∧
    ([cSet, cClear].all fun c => fld (svcWord c 3) 63 15 == 0 && fld (svcWord c 3) 14 0 == 5) = true ∧
    flag (svcWord cFreeze 3) 15 = false ∧ fld (svcWord cFreeze 3) 63 17 = 0 ∧
    ((withE (svcS cSet) 9 false).updEntry 5).owner ≠ 0 ∧ (withE (svcS cSet) 0 true).updNamed 5 = true ∧
    (withE (svcS cSet) 0 false).updNamed 5 = false := by decide +kernel
theorem test_upd_set : after (.updSet 0) (svcS cSet) (fun t => (t.updEntry 5, ofBytes (cells t.mem 0x200100 8), cells t.mem 0x200200 1)) =
    some (entry5 0, 0x10000, [1]) := by decide +kernel
theorem test_upd_freeze : after (.updFreeze 0) (withE (svcS cFreeze) 0 true) (fun t => (t.updEntry 5).freeze) = some true := by
  decide +kernel

/-- An ALL_REDUCE of 8 FP32 elements over forme 5, whose members are on this device and on device 6. -/
def cColl (h : W64) : List W64 := svc 1 (h + 2 * 2 ^ 10 + 0x10000 + 0x900000000) [0x24000, 0x25000, 8, 0]
def mem2 : List Member := [{ level := 3, index := 1, device := 5 }, { level := 3, index := 2, device := 6 }]
def collS (h : W64) : State :=
  { up (svcS (cColl h)) {} with formes := [(5, { level := 3, members := mem2 })], ctxs := [(0, { ctxA with jobTag := 77 })] }
/-- Handle 7 of it, after its matching or before. -/
def inColl (sent : Bool) (kind : Nat) : State :=
  { collS 5 with
    doorbells := [], longops := [(7, { kind := .collective 0 9, ctx := some 0 })]
    colls := [(7, { job := 77, collId := 9, kind, group := [5, 6, 8], elems := 8, sent, result := 0x20100, done := 0x20200 })] }
def pkC (typ : Nat) (id : W64) (st : Status) : Packet := { pk typ with addr := id, tag := 4, data := [1, 2], status := st }

theorem witness_CollectivesMeet :
    ([collS 5, collS 6, inColl false 0, inColl true 0].all fun s => quietB s && placesB s 0 0x20100 0x20200 0x200100 0x200200) = true ∧
    (collS 5).doorbells = [bell (some (cColl 5))] ∧ (svcWord (cColl 5) 0).toNat = 1 ∧
    (collS 6).collRefusal (newColl (collS 6) (bell none) (cColl 6)) (cColl 6) = some St.formeInvalid ∧
    collWellFormed (newColl (collS 6) (bell none) (cColl 6)) (cColl 6) = true ∧ mhas (collS 6).formes 6 = false ∧
    fld (svcWord (cColl 6) 3) 9 0 = 6 ∧
    (collS 5).collRefusal (newColl (collS 5) (bell none) (cColl 5)) (cColl 5) = none ∧ flag (svcWord (cColl 5) 3) 15 = false ∧
    (collS 5).newHandle = some 0 ∧ (newColl (collS 5) (bell none) (cColl 5)).group = [5, 6] ∧ (collS 5).myId = 5 ∧
    ([0x10, 0x11].all fun t => deliveredB (inColl false 0) 0 (pkC t 9 0) t && deliveredB (inColl false 0) 0 (pkC t 9 3) t) = true ∧
    (inColl false 0).collOf (pkC 0x11 8 0) = none ∧ ((inColl false 0).collOf (pkC 0x11 9 0)).map (·.1) = some 7 ∧
    ((inColl true 0).longop 7).st = .running ∧ ((inColl true 0).ctx 0).st = .active := by decide +kernel
theorem test_collective : after (.collective 0) (collS 5) (fun t => (ofBytes (cells t.mem 0x200100 8), (t.longop 0).st, t.out.length)) =
    some (0x10000, .running, 1) := by decide +kernel
theorem test_mismatch : after (.collCtl 0 (pkC 0x11 9 3)) (inColl false 0) (fun t => ((t.ctx 0).st, (t.ctx 0).endStatus)) =
    some (.teardown, St.collectiveMismatch) := by decide +kernel

/-- A write of AUDIT.CTL that starts quantity `q` at an index. -/
def auditV (q i : Nat) : W64 := wn (q + i * 2 ^ 8 + 2 ^ 25)
/-- A walk of quantity 7, index 0. -/
def walkV : W64 := auditV 7 0 + 0x1000000
def audS : State := { mg with audit := some { a := 5, b := 2, c := 3, pass := true } }

theorem witness_AuditsRun :
    mg.audit = none ∧ flag (auditV 6 0) 25 = true ∧ mg.isWalk (auditV 6 0) = false ∧
    (mg.plainWrite .audit 0 0 (auditV 6 0)).quantity 6 0 = some (16384, 16384, 0) ∧
    (mg.plainWrite .audit 0 0 (auditV 6 1)).quantity 6 1 = none ∧ mg.isWalk (walkV) = true ∧
    (mg.plainWrite .audit 0 0 (walkV)).liveCtxs 0 ≠ 0 ∧ (mgNoCtx.plainWrite .audit 0 0 (walkV)).liveCtxs 0 = 0 ∧
    ((mgNoCtx.plainWrite .audit 0 0 (walkV)).quantity 7 0).isSome = true ∧ audS.audit ≠ none := by decide +kernel
theorem test_audit : after (.auditSnap .session0 (auditV 6 0)) mg (fun t => t.audit.map fun r => (r.a, r.b, r.c, r.pass)) =
    some (some (16384, 16384, 0, true)) := by decide +kernel
theorem test_audit_done : after .auditDone audS (fun t => (t.reg .audit 0 0x08, t.regFld .audit 0 0 25 5)) = some (5, 6) := by
  decide +kernel

/-! ### Power, temperature, sideband, faults -/

def shedS : State := { mg with power := { shed := true } }
def sagS : State := { mg with power := { sagging := true, bySag := true } }
def thrS : State := { mg with power := { throttle := true, byThrottle := true } }
/-- CAP_W 2,000 and throttled 1,500; and 900. -/
def capV (w : Nat) : W64 := wn (w + 1500 * 2 ^ 16)

theorem witness_PowerInput :
    shedS.power.shed = true ∧ sagS.power.sagging = true ∧ sagS.power.shed = false ∧ mg.power.sagging = false ∧
    thrS.power.throttle = true ∧ mg.power.throttle = false ∧ fld (capV 2000) 11 0 = 2000 ∧ fld (capV 2000) 27 16 = 1500 ∧
    fld (capV 900) 11 0 < 1000 ∧ mg.sec.fuses.lifecycle ≠ 4 := by decide +kernel
theorem test_sag_limits : ([4599, 4600].map fun cv => after (.inputSag cv) mg fun t => (shownLimit t, t.power.sagging)) =
    [some (1000, true), some (3900, false)] := by decide +kernel
theorem test_cap : ([capV 2000, capV 900].map fun v => after (.pwrCapWrite .session0 v) mg fun t =>
    (shownLimit t, t.flash.capW, t.regFld .pwr 0 0x10 4 1)) = [some (2000, some 2000, 0), some (3900, none, 1)] := by decide +kernel

/-- Sensor 0 at `d` degrees, the others at 20. -/
def temps (d : Nat) : List (BitVec 16) := BitVec.ofNat 16 (16 * d) :: List.replicate 27 320
def hot1 : State := { mg with power := { dieStep := 1 } }
def rstS : State := { mg with pins := { resetN := false } }
/-- A start past step 5, with the I3C pointer at `a`. -/
def sbS (k : Nat) (a : W64) : State := { mg.setFld .boot 0 0 0 5 k with pins := { i3cPtr := a } }
def ctlA : W64 := wn (regAddr .boot 0 0x18)

theorem witness_TemperatureAndSideband :
    ((upTo 28).any (atShutdown (temps 115))) = true ∧ ((upTo 28).any (atShutdown (temps 114))) = false ∧
    mg.power.thermalHold = false ∧ (100 * 16 : Int) ≤ tempOf (temps 100) 0 ∧ tempOf (temps 89) 0 < 90 * 16 ∧
    hot1.power.dieStep < 2 ∧ mg.pins.resetN = true ∧ rstS.pins.resetN = false ∧ rstS.power.inputOff = false ∧
    (sbS 5 0).bootStep < 6 ∧ 6 ≤ (sbS 20 0).bootStep ∧ (sbS 20 0).sec.fuses.lifecycle ≠ 4 ∧ ctlA.toNat = regAddr .boot 0 0x18 ∧
    ofBytes ((toBytes 8 ctlA.toNat ++ toBytes 8 1).take 8) = ctlA.toNat ∧
    ofBytes ((toBytes 8 ctlA.toNat ++ toBytes 8 1).drop 8) = 1 ∧ (toBytes 8 ctlA.toNat ++ toBytes 8 1).length = 16 ∧
    (0xF00000160044 : W64).toNat % 8 ≠ 0 ∧ blockOf 0 = none ∧ blockOf (regAddr .quoin 0 0) = some (.quoin, 0, 0) ∧ (sbS 20 0).i3cReads .quoin 0 = false ∧
    (wn (regAddr .quoin 0 0)).toNat = regAddr .quoin 0 0 ∧ (wn (regAddr .boot 0 0)).toNat = regAddr .boot 0 0 := by decide +kernel
theorem test_thermal : ([94, 95, 100, 105].map fun d => after (.thermalSample (temps d) false) mg fun t => t.power.dieStep) =
    [some 0, some 1, some 2, some 3] := by decide +kernel
theorem test_i3c_misaligned : after .i3cRead (sbS 20 0xF00000160044) (fun t => (t.out, t.ring.length, t.regFld .ras 0 0 0 32)) =
    some ([.i3cData 0xFFFFFFFFFFFFFFFF], 1, 1) := by decide +kernel
theorem test_i3c_denied : after .i3cRead (sbS 20 (wn (regAddr .quoin 0 0))) (fun t => (t.out, t.pins.i3cPtr)) =
    some ([.i3cData 0xFFFFFFFFFFFFFFFF], wn (regAddr .quoin 0 0) + 8) := by decide +kernel

/-- Lines that fail: a bit of an absent slot, an operation that no table lists, a reserved bit, a split of 3, an undefined SUB, accesses that are not aligned, and a program counter
outside every page. -/
def lRsv : Line := { ln with rsv := 1 }
def lSplit : Line := { ln with split := 3 }
def lStray : Line := { ln with stray := 4 }
def lUnlisted : Line := { ln with unlisted := 1 }
def noCode : State :=
  { ctxs := [(0, ctxA)], presses := [(0, { st := .running, run := some 0, cur := { pc := 0x50000 } })] }
def checksB (s : State) (l : Line) (i : Instr) : Bool :=
  decide (l.core = .press 0) && !l.more && decide ((s.press 0).st = .running) && decide ((s.press 0).run ≠ none) &&
    decide ((s.press 0).gathered = []) && s.lineReady 0 l (lineSlots l [i]) && !(lineSlots l [i]).any (s.rowWrong 0) && quietB s &&
    !s.listsWait (s.lc 0 l) (lineSlots l [i]) &&
    decide ((s.ctx (s.runCtx 0)).st = .active) && decide ((s.ctx (s.runCtx 0)).faultPress = none)

theorem witness_LineFaults :
    ([(on {}, lRsv, .alu lRsv (fA 0)), (on {}, lSplit, .alu lSplit (fA 0)), (on {}, ln, .alu ln (fA 24)), (on {}, ln, .lw ln (fB 2)),
      (on {}, ln, .sd ln (fS 4)), (noCode, ln, .alu ln (fA 0)), (on {}, lStray, .tmNop lStray (fT 0 0)),
      (on {}, lUnlisted, .scalarNop lUnlisted .s0 0)] : List (State × Line × Instr)).all
      (fun e => checksB e.1 e.2.1 e.2.2) = true ∧
    (on {}).rangeFault 0 .ex 0x10000 64 = none ∧ (noCode.rangeFault 0 .ex 0x50000 64).isSome = true ∧
    ((on {}).lineFault ((on {}).lc 0 ln) (lineSlots ln [.lw ln (fB 2)])).isSome = true ∧ 24 ≤ (fA 24).sub.toNat ∧
    ((on {}).x 0 1 + (2 : BitVec 13).signExtend 64).toNat % 4 ≠ 0 := by decide +kernel
theorem test_line_faults : ([.lw ln (fB 2), .alu ln (fA 24), .tmNop lStray (fT 0 0), .scalarNop lUnlisted .s0 0].map fun i =>
    after i (on {}) fun t => ((t.ctx 0).st, (t.ctx 0).endStatus, (t.ctx 0).fault.va, (t.ctx 0).fault.slot)) =
    [some (.teardown, St.misaligned, 2, 0), some (.teardown, St.illegalOpcode, 0, 0), some (.teardown, St.rsvNonzero, 0, 2),
      some (.teardown, St.illegalOpcode, 0, 0)] := by decide +kernel

/-- A command that stores, run as the first of the queue, on a memory in the canonical form. -/
def stepS : State := { mg with mem := [(0x200008, 9)], pending := [.writeMem 3 5 0 0x20000 [1, 2]] }

theorem witness_StepKeepsMemory : Memory.wf stepS.mem ∧ (match step stepS with
    | .next t => t.mem == [(0x200000, 1), (0x200001, 2), (0x200008, 9)] && t.pending == []
    | _ => false) = true := by decide +kernel
theorem test_idle : (match step mg with | .next t => t == mg | _ => false) = true := by decide +kernel

end Sys2Proof.Tests
end

/-! SUPPORT. Fields of a word, the registers of control space under writes and reads (R4 to R8, R30, R469), and what an access
that reaches nothing leaves. -/

namespace Sys2Proof.Machine

/-! ### Fields of a word -/

theorem testBit_fld (v : W64) (lo w j : Nat) (hw : 1 ≤ w) :
    (fld v (lo + w - 1) lo).testBit j = (decide (j < w) && v.getLsbD (lo + j)) := by
  have h : lo + w - 1 + 1 - lo = w := by omega
  simp [fld, bits, h, Nat.testBit_mod_two_pow, Nat.testBit_shiftRight, BitVec.testBit_toNat]

theorem getLsbD_putFld (v : W64) (lo w x k : Nat) (hk : k < 64) :
    (putFld v lo w x).getLsbD k = if lo ≤ k ∧ k < lo + w then x.testBit (k - lo) else v.getLsbD k := by
  have hb (y : Nat) : (BitVec.ofNat 64 (y <<< lo)).getLsbD k = (decide (lo ≤ k) && y.testBit (k - lo)) := by
    rw [BitVec.getLsbD_ofNat]
    simp [hk, Nat.testBit_shiftLeft]
  simp only [putFld, BitVec.getLsbD_or, BitVec.getLsbD_and, BitVec.getLsbD_not, hk, decide_true, Bool.true_and, hb,
    Nat.testBit_two_pow_sub_one]
  by_cases h1 : lo ≤ k
  · by_cases h2 : k < lo + w
    · have : k - lo < w := by omega
      simp [h1, h2, this]
    · have : ¬ k - lo < w := by omega
      simp [h1, h2, this]
  · simp [h1]

theorem fld_putFld_same (v : W64) (lo w x : Nat) (hw : 1 ≤ w) (hl : lo + w ≤ 64) :
    fld (putFld v lo w x) (lo + w - 1) lo = x % 2 ^ w := by
  refine Nat.eq_of_testBit_eq fun j => ?_
  rw [testBit_fld _ _ _ _ hw, Nat.testBit_mod_two_pow]
  by_cases hj : j < w
  · rw [getLsbD_putFld _ _ _ _ _ (by omega), if_pos (by omega), Nat.add_sub_cancel_left]
  · simp [hj]

theorem fld_putFld_apart (v : W64) (lo w x lo' w' : Nat) (hw : 1 ≤ w') (hl : lo' + w' ≤ 64)
    (h : lo + w ≤ lo' ∨ lo' + w' ≤ lo) : fld (putFld v lo w x) (lo' + w' - 1) lo' = fld v (lo' + w' - 1) lo' := by
  refine Nat.eq_of_testBit_eq fun j => ?_
  rw [testBit_fld _ _ _ _ hw, testBit_fld _ _ _ _ hw]
  by_cases hj : j < w'
  · rw [getLsbD_putFld _ _ _ _ _ (by omega), if_neg (by omega)]
  · simp [hj]

theorem fld_lt (v : W64) (lo w : Nat) (hw : 1 ≤ w) : fld v (lo + w - 1) lo < 2 ^ w := by
  have h : lo + w - 1 + 1 - lo = w := by omega
  simpa [fld, bits, h] using Nat.mod_lt _ (Nat.two_pow_pos w)

/-! ### Registers -/

theorem State.reg_setReg_ne (s : State) (b b' : Block) (i i' o o' : Nat) (v : W64) (h : regAddr b' i' o' ≠ regAddr b i o) :
    (s.setReg b i o v).reg b' i' o' = s.reg b' i' o' := by
  unfold State.setReg State.reg mset
  split
  · exact mget_mdel_ne _ _ _ _ h
  · rw [mget_mput, if_neg (Ne.symm h)]

/-- Nothing of the state changes but its registers, and of those only the one at an address. -/
structure OnlyReg (s t : State) (a : Nat) : Prop where
  rest : { t with regs := s.regs } = s
  others : ∀ b i o, regAddr b i o ≠ a → t.reg b i o = s.reg b i o

theorem onlyReg_refl (s : State) (a : Nat) : OnlyReg s s a := ⟨rfl, fun _ _ _ _ => rfl⟩

theorem OnlyReg.trans {s t u : State} {a : Nat} (h : OnlyReg s t a) (k : OnlyReg t u a) : OnlyReg s u a := by
  obtain ⟨h1, h2⟩ := h
  obtain ⟨k1, k2⟩ := k
  refine ⟨?_, fun b i o ha => (k2 b i o ha).trans (h2 b i o ha)⟩
  calc { u with regs := s.regs } = { ({ u with regs := t.regs } : State) with regs := s.regs } := rfl
    _ = s := by rw [k1, h1]

theorem onlyReg_setReg (s : State) (b : Block) (i o : Nat) (v : W64) : OnlyReg s (s.setReg b i o v) (regAddr b i o) :=
  ⟨rfl, fun _ _ _ h => s.reg_setReg_ne _ _ _ _ _ _ v h⟩

theorem State.regFld_setFld_same (s : State) (b : Block) (i o lo w v : Nat) (hw : 1 ≤ w) (hl : lo + w ≤ 64) :
    (s.setFld b i o lo w v).regFld b i o lo w = v % 2 ^ w := by
  simp [State.setFld, State.regFld, fld_putFld_same _ _ _ _ hw hl]

theorem State.regFld_setFld_apart (s : State) (b : Block) (i o lo w v lo' w' : Nat) (hw : 1 ≤ w') (hl : lo' + w' ≤ 64)
    (h : lo + w ≤ lo' ∨ lo' + w' ≤ lo) : (s.setFld b i o lo w v).regFld b i o lo' w' = s.regFld b i o lo' w' := by
  simp [State.setFld, State.regFld, fld_putFld_apart _ _ _ _ _ _ hw hl h]

theorem State.reg_setFld_ne (s : State) (b b' : Block) (i i' o o' lo w v : Nat) (h : regAddr b' i' o' ≠ regAddr b i o) :
    (s.setFld b i o lo w v).reg b' i' o' = s.reg b' i' o' := s.reg_setReg_ne _ _ _ _ _ _ _ h

theorem State.regFld_setFld_ne (s : State) (b b' : Block) (i i' o o' lo w v lo' w' : Nat)
    (h : regAddr b' i' o' ≠ regAddr b i o) : (s.setFld b i o lo w v).regFld b' i' o' lo' w' = s.regFld b' i' o' lo' w' := by
  simp only [State.regFld, State.reg_setFld_ne _ _ _ _ _ _ _ _ _ _ h]

/-! ### The fields of a register written one by one -/

/-- The value of a field of a word. -/
def fieldOf (w : W64) (f : Field) : Nat := fld w (f.lo + f.w - 1) f.lo

/-- A field that lies within 64 bits. -/
def Fits (f : Field) : Prop := 1 ≤ f.w ∧ f.lo + f.w ≤ 64

/-- Two fields without a common bit. -/
def Apart (f g : Field) : Prop := f.lo + f.w ≤ g.lo ∨ g.lo + g.w ≤ f.lo

theorem apart_of_ne {fs : List Field} (hp : fs.Pairwise Apart) {f g : Field} (hf : f ∈ fs) (hg : g ∈ fs) (h : f ≠ g) :
    Apart f g :=
  have : Std.Symm Apart := ⟨fun _ _ h => h.symm⟩
  hp.forall hf hg h

theorem fieldOf_putFld_same (w : W64) (f : Field) (x : Nat) (hf : Fits f) : fieldOf (putFld w f.lo f.w x) f = x % 2 ^ f.w :=
  fld_putFld_same _ _ _ _ hf.1 hf.2

theorem fieldOf_putFld_apart (w : W64) (f e : Field) (x : Nat) (he : Fits e) (h : Apart f e) :
    fieldOf (putFld w f.lo f.w x) e = fieldOf w e :=
  fld_putFld_apart _ _ _ _ _ _ he.1 he.2 h

theorem fieldOf_lt (w : W64) (f : Field) (hf : Fits f) : fieldOf w f < 2 ^ f.w := fld_lt _ _ _ hf.1

/-- `g` rewrites one field of a word: its value becomes `val` of what it was, and fields apart from it stay. -/
structure FieldWise (g : W64 → Field → W64) (val : Nat → Field → Nat) : Prop where
  value : ∀ w f, Fits f → fieldOf (g w f) f = val (fieldOf w f) f
  apart : ∀ w f e, Fits e → Apart f e → fieldOf (g w f) e = fieldOf w e

section
variable {g : W64 → Field → W64} {val : Nat → Field → Nat} (hg : FieldWise g val)
include hg

theorem fieldOf_foldl_apart (e : Field) (he : Fits e) (fs : List Field) (w : W64) (h : ∀ f ∈ fs, Apart f e) :
    fieldOf (fs.foldl g w) e = fieldOf w e := by
  induction fs generalizing w with
  | nil => rfl
  | cons f fs ih =>
    rw [List.foldl_cons, ih _ fun x hx => h x (List.mem_cons_of_mem _ hx), hg.apart w f e he (h f (List.mem_cons_self ..))]

theorem fieldOf_foldl_mem (fs : List Field) (hp : fs.Pairwise Apart) (hfit : ∀ f ∈ fs, Fits f) (w : W64) (e : Field)
    (he : e ∈ fs) : fieldOf (fs.foldl g w) e = val (fieldOf w e) e := by
  induction fs generalizing w with
  | nil => cases he
  | cons f fs ih =>
    obtain ⟨hf, hp'⟩ := List.pairwise_cons.1 hp
    have fits := hfit e he
    rw [List.foldl_cons]
    rcases List.mem_cons.1 he with rfl | he
    · rw [fieldOf_foldl_apart hg e fits fs _ fun x hx => (hf x hx).symm, hg.value w e fits]
    · rw [ih hp' (fun x hx => hfit x (List.mem_cons_of_mem _ hx)) _ he, hg.apart w f e fits (hf e he)]

end

/-- What a write of `x` leaves in a field under its access code (R5). -/
def written (acc : Acc) (w old x : Nat) : Nat :=
  match acc with
  | .rw => x | .wo => x | .ro => old | .rc => old
  | .w1c => old &&& (2 ^ w - 1 - x) | .w1s => old ||| x

theorem fieldWise_writeField (v : W64) :
    FieldWise (fun w f => writeField w v f) (fun old f => written f.acc f.w old (fieldOf v f)) where
  value w f hf := by
    have hx : fieldOf v f % 2 ^ f.w = fieldOf v f := Nat.mod_eq_of_lt (fieldOf_lt v f hf)
    have put (y : Nat) (hy : y < 2 ^ f.w) : fieldOf (putFld w f.lo f.w y) f = y := by
      rw [fieldOf_putFld_same w f y hf, Nat.mod_eq_of_lt hy]
    have hw := fieldOf_lt w f hf
    have hv := fieldOf_lt v f hf
    unfold writeField written
    cases f.acc with
    | rw => exact put _ hv
    | wo => exact put _ hv
    | ro => rfl
    | rc => rfl
    | w1c => exact put _ (Nat.lt_of_le_of_lt Nat.and_le_left hw)
    | w1s => exact put _ (Nat.or_lt_two_pow hw hv)
  apart w f e he h := by
    unfold writeField
    cases f.acc with
    | rw => exact fieldOf_putFld_apart _ _ _ _ he h
    | wo => exact fieldOf_putFld_apart _ _ _ _ he h
    | ro => rfl
    | rc => rfl
    | w1c => exact fieldOf_putFld_apart _ _ _ _ he h
    | w1s => exact fieldOf_putFld_apart _ _ _ _ he h

theorem fieldWise_zero : FieldWise (fun w f => putFld w f.lo f.w 0) (fun _ _ => 0) where
  value w f hf := by rw [fieldOf_putFld_same w f 0 hf, Nat.zero_mod]
  apart w f e he h := fieldOf_putFld_apart _ _ _ _ he h

theorem State.regFld_setReg_same (s : State) (b : Block) (i o : Nat) (v : W64) (f : Field) :
    (s.setReg b i o v).regFld b i o f.lo f.w = fieldOf v f := by
  unfold State.regFld
  rw [State.reg_setReg_same]
  rfl

/-! ### Control-space writes -/

/-- Of a block that stands once, an address names the first. -/
theorem blockOf_single (a : Nat) (b : Block) (i o : Nat) (h : blockOf a = some (b, i, o)) (hc : b ≠ .chase) (hp : b ≠ .press) :
    i = 0 := by
  unfold blockOf at h
  simp only at h
  split at h
  · cases h; exact absurd rfl hc
  · split at h
    · cases h; exact absurd rfl hp
    · split at h
      · cases h; rfl
      · cases h

/-- A write whose values are all codes of their fields changes one register, field by field. -/
theorem plainWrite_codes (s : State) (b : Block) (i o : Nat) (v : W64) (fs : List Field) (hfs : fieldsAt b o = some fs)
    (hok : ∀ f ∈ fs, codeOk b o f (fieldOf v f) = true) :
    s.plainWrite b i o v = s.setReg b i o (fs.foldl (fun w f => writeField w v f) (s.reg b i o)) := by
  have all (f : Field) (hf : f ∈ fs) : (f.acc != .rw || codeOk b o f (fld v (f.lo + f.w - 1) f.lo)) = true := by
    rw [show codeOk b o f (fld v (f.lo + f.w - 1) f.lo) = true from hok f hf, Bool.or_true]
  simp only [State.plainWrite, hfs, List.filter_eq_self.2 all, List.all_eq_true.2 all, if_true]

/-- The write of a register that does nothing but change its fields is a plain one. -/
theorem writeAt_plain (s : State) (a : Nat) (b : Block) (i o : Nat) (v : W64) (ha : blockOf a = some (b, i, o))
    (h : PlainReg s b i o) : s.writeAt b i o v = s.plainWrite b i o v := by
  rcases h with rfl | rfl | rfl | ⟨rfl, hu⟩ | ⟨rfl, ho⟩ | ⟨rfl, ho⟩ | ⟨rfl, ho⟩
  · rfl
  · rfl
  · rfl
  · simp [State.writeAt, State.ignores, hu]
  · obtain rfl := blockOf_single a _ i o ha (by decide) (by decide)
    simp [State.writeAt, State.ignores, ho]
  · obtain rfl := blockOf_single a _ i o ha (by decide) (by decide)
    simp [State.writeAt, State.ignores, ho]
  · obtain rfl := blockOf_single a _ i o ha (by decide) (by decide)
    simp [State.writeAt, State.ignores, ho]

/-- An aligned write that its path permits reaches its register. -/
theorem regWrite_permitted (s : State) (path : RegPath) (a : Nat) (v : W64) (b : Block) (i o : Nat) (ha : a % 8 = 0)
    (hb : blockOf a = some (b, i, o)) (hp : s.pathWrites path b o = true) :
    s.regWrite path a v = s.writeAt b i o v := by
  simp [State.regWrite, ha, hb, hp]

theorem exec_registerWrite (path : RegPath) (a : Nat) (v : W64) (s : State) :
    exec (.registerWrite path a v) s = .next (s.regWrite path a v) := rfl

/-- Settles O15: the write is a fold of the rewritings of the fields, each of which touches its own bits alone. -/
theorem registerWrites : Obligations.RegisterWrites := by
  intro s path a v b i o fs ha hb hp hfs hapart
  rw [exec_registerWrite, regWrite_permitted s path a v b i o ha hb hp]
  refine ⟨?_, fun hplain hok => ?_⟩
  · rintro rfl; rfl
  · refine ⟨_, rfl, ?_⟩
    rw [writeAt_plain s a b i o v hb hplain, plainWrite_codes s b i o v fs hfs hok]
    obtain ⟨hrest, hothers⟩ := onlyReg_setReg s b i o (fs.foldl (fun w f => writeField w v f) (s.reg b i o))
    refine ⟨hrest, hothers, fun f hf => ?_⟩
    have key := fieldOf_foldl_mem (fieldWise_writeField v) fs hapart.1 hapart.2 (s.reg b i o) f hf
    exact (s.regFld_setReg_same b i o _ f).trans key

/-! ### Reads that clear -/

/-- A field that a read clears (R5). -/
def Field.clears (f : Field) : Bool := decide (f.acc = .rc)

/-- A read of a register sets its read-clears fields to zero and leaves the others. -/
theorem clearRc_fields (s : State) (b : Block) (i o : Nat) (fs : List Field) (hfs : fieldsAt b o = some fs)
    (hp : FieldsApart fs) : OnlyReg s (s.clearRc b i o) (regAddr b i o) ∧
      ∀ f ∈ fs, (s.clearRc b i o).regFld b i o f.lo f.w = if f.acc = .rc then 0 else s.regFld b i o f.lo f.w := by
  obtain ⟨hpair, hfit⟩ := hp
  by_cases hany : fs.any Field.clears = true
  · have heq : s.clearRc b i o =
        s.setReg b i o ((fs.filter Field.clears).foldl (fun w f => putFld w f.lo f.w 0) (s.reg b i o)) := by
      simp only [State.clearRc, hfs]
      exact if_pos hany
    rw [heq]
    refine ⟨onlyReg_setReg .., fun f hf => ?_⟩
    rw [State.regFld_setReg_same]
    split
    · next hrc =>
      exact fieldOf_foldl_mem fieldWise_zero _ (hpair.sublist List.filter_sublist)
        (fun e he => hfit e (List.mem_filter.1 he).1) _ f (List.mem_filter.2 ⟨hf, by simp [Field.clears, hrc]⟩)
    · next hrc =>
      refine fieldOf_foldl_apart fieldWise_zero f (hfit f hf) _ _ fun e he => ?_
      obtain ⟨hmem, hc⟩ := List.mem_filter.1 he
      have hne : e ≠ f := fun h => hrc (by simpa [Field.clears, h] using hc)
      exact apart_of_ne hpair hmem hf hne
  · have heq : s.clearRc b i o = s := by
      simp only [State.clearRc, hfs]
      exact if_neg hany
    rw [heq]
    refine ⟨onlyReg_refl .., fun f hf => ?_⟩
    have hrc : f.acc ≠ .rc := fun h => hany (List.any_eq_true.2 ⟨f, hf, by simp [Field.clears, h]⟩)
    rw [if_neg hrc]

theorem countInRc_none (s : State) (b : Block) (i o k : Nat) (fs : List Field) (hfs : fieldsAt b o = some fs)
    (h : fs.find? Field.clears = none) : s.countInRc b i o k = s := by
  simp only [State.countInRc, hfs, Option.getD_some]
  rw [show fs.find? (fun f => decide (f.acc = .rc)) = none from h]

theorem countInRc_first (s : State) (b : Block) (i o k : Nat) (fs : List Field) (f : Field) (hfs : fieldsAt b o = some fs)
    (h : fs.find? Field.clears = some f) : s.countInRc b i o k = s.setFld b i o f.lo f.w (k % 2 ^ f.w) := by
  simp only [State.countInRc, hfs, Option.getD_some]
  rw [show fs.find? (fun f => decide (f.acc = .rc)) = some f from h]

/-- The state that a read of a register leaves, but for its answer: the fields cleared, then the event counted (R7). -/
def State.afterRead (s : State) (b : Block) (i o : Nat) (event : Option Nat) : State :=
  match event with
  | some k => (s.clearRc b i o).countInRc b i o k
  | none => s.clearRc b i o

/-- An aligned read of a register by another path than I3C answers the value and leaves `afterRead`. -/
theorem readClear_register (s : State) (path : RegPath) (a : Nat) (b : Block) (i o : Nat) (fs : List Field) (v : W64)
    (event : Option Nat) (ha : a % 8 = 0) (hb : blockOf a = some (b, i, o)) (hp : path ≠ .i3c)
    (hfs : fieldsAt b o = some fs) (hv : s.readReg b i o = (v, s)) :
    s.readClear path a event = (s.afterRead b i o event).emit (.regData v) := by
  have hread : s.readAt b i o = (v, s.clearRc b i o) := by
    unfold State.readAt
    rw [hfs]
    simp only [hv]
  cases event <;> simp [State.readClear, State.afterRead, ha, hb, hp, hread]

/-- After a read the count of its event stands in the first read-clears field, and zero in the others. -/
theorem afterRead_fields (s : State) (b : Block) (i o : Nat) (fs : List Field) (event : Option Nat)
    (hfs : fieldsAt b o = some fs) (hp : FieldsApart fs) :
    OnlyReg s (s.afterRead b i o event) (regAddr b i o) ∧ ∀ f ∈ fs, (s.afterRead b i o event).regFld b i o f.lo f.w =
      if f.acc ≠ .rc then s.regFld b i o f.lo f.w
      else if fs.find? Field.clears = some f then event.getD 0 % 2 ^ f.w else 0 := by
  obtain ⟨honly, hclear⟩ := clearRc_fields s b i o fs hfs hp
  obtain ⟨hpair, hfit⟩ := hp
  cases event with
  | none =>
    refine ⟨honly, fun f hf => (hclear f hf).trans ?_⟩
    by_cases hrc : f.acc = .rc <;> simp [hrc]
  | some k =>
    cases hfind : fs.find? Field.clears with
    | none =>
      rw [State.afterRead, countInRc_none _ b i o k fs hfs hfind]
      refine ⟨honly, fun f hf => (hclear f hf).trans ?_⟩
      by_cases hrc : f.acc = .rc <;> simp [hrc]
    | some e =>
      have he : e ∈ fs := List.mem_of_find?_eq_some hfind
      have hrce : e.acc = .rc := by simpa [Field.clears] using List.find?_some hfind
      rw [State.afterRead, countInRc_first _ b i o k fs e hfs hfind]
      refine ⟨honly.trans (onlyReg_setReg ..), fun f hf => ?_⟩
      obtain ⟨hw, hl⟩ := hfit f hf
      by_cases hfe : f = e
      · subst hfe
        rw [State.regFld_setFld_same _ _ _ _ _ _ _ hw hl]
        simp [hrce]
      · rw [State.regFld_setFld_apart _ _ _ _ _ _ _ _ _ hw hl (apart_of_ne hpair he hf (Ne.symm hfe)), hclear f hf]
        by_cases hrc : f.acc = .rc <;> simp [hrc, Ne.symm hfe]

theorem exec_readClear (path : RegPath) (a : Nat) (event : Option Nat) (s : State) :
    exec (.readClear path a event) s = .next (s.readClear path a event) := rfl

theorem readsClear : Claims.ReadsClear := by
  intro s path a b i o fs v event ha hb hpath hfs hp hv
  obtain ⟨⟨hrest, hothers⟩, hfld⟩ := afterRead_fields s b i o fs event hfs hp
  rw [exec_readClear, readClear_register s path a b i o fs v event ha hb hpath hfs hv]
  generalize s.afterRead b i o event = t at *
  have hout : t.out = s.out := by rw [← hrest]
  refine ⟨_, rfl, by simp [State.emit, hout], ?_, hothers, fun f hf hrc => ?_, fun f hf => ?_⟩
  · rw [← hrest]; rfl
  · exact (hfld f hf).trans (if_pos hrc)
  · have hmem : f ∈ fs := List.mem_of_find?_eq_some hf
    have hrc : f.acc = .rc := by simpa using List.find?_some hf
    refine ⟨?_, fun g hg hne hgrc => ?_⟩
    · refine (hfld f hmem).trans ?_
      rw [if_neg (not_not.2 hrc)]
      exact if_pos hf
    · refine (hfld g hg).trans ?_
      rw [if_neg (not_not.2 hgrc)]
      refine if_neg fun h => hne ?_
      exact (Option.some.inj (h.symm.trans hf))

/-! ### Accesses that are not performed -/

/-- An access error writes two registers: the count of CORRECTED errors, and the head of the ring. -/
theorem reg_accessError (s : State) (a : Nat) (b : Block) (i o : Nat) (h : regAddr b i o ≠ regAddr .ras 0 0x48) :
    (s.accessError a).reg b i o = (s.bump .ras 0 0 0 32 1).reg b i o :=
  (State.reg_setFld_ne _ .ras b 0 i 0x48 o 32 32 _ h).trans (State.reg_setFld_ne _ .ras b 0 i 0x48 o 0 12 _ h)

theorem accessError_out (s : State) (a : Nat) : (s.accessError a).out = s.out := rfl

theorem accessError_recorded (s : State) (a : Nat) : AccessError s (s.accessError a) a := by
  have hcount : regAddr .ras 0 0 ≠ regAddr .ras 0 0x48 := by decide
  refine ⟨⟨_, rfl, rfl, rfl, rfl⟩, ?_, fun b i o h0 h48 => ?_, rfl⟩
  · rw [State.regFld, reg_accessError s a _ _ _ hcount]
    exact (State.regFld_setFld_same _ _ _ _ _ _ _ (by decide) (by decide)).trans (Nat.mod_mod ..)
  · rw [reg_accessError s a b i o h48, State.bump, State.reg_setFld_ne _ _ _ _ _ _ _ _ _ _ h0]

/-- What an access that is not performed leaves: the error, and all ones as the answer of a read. -/
def NotPerformed (s t : State) (a : Nat) (write : Bool) : Prop :=
  AccessError s t a ∧ t.out = if write then s.out else .regData (BitVec.allOnes 64) :: s.out

theorem notPerformed_read (s : State) (a : Nat) :
    NotPerformed s ((s.accessError a).emit (.regData (BitVec.allOnes 64))) a false :=
  ⟨accessError_recorded s a, rfl⟩

theorem notPerformed_write (s : State) (a : Nat) : NotPerformed s (s.accessError a) a true :=
  ⟨accessError_recorded s a, rfl⟩

theorem notPerformed_either (s : State) (a : Nat) (write : Bool) : NotPerformed s (s.notPerformed write a) a write := by
  cases write
  · exact notPerformed_read s a
  · exact notPerformed_write s a

theorem exec_controlAccessMisaligned (s : State) (write : Bool) (a size : Nat) (h : size ≠ 8 ∨ a % 8 ≠ 0) :
    exec (.controlAccessMisaligned write a size) s = .next (s.notPerformed write a) :=
  if_neg (by omega)

theorem exec_unmappedAccess (s : State) (write : Bool) (a : Nat) (h : inMap a = false) :
    exec (.unmappedAccess write a) s = .next (s.notPerformed write a) :=
  if_neg (by simp [h])

/-- An address at which no access by another path than I3C is performed. -/
theorem lookup_none (a : Nat) (h : a % 8 ≠ 0 ∨ blockOf a = none) : (if a % 8 = 0 then blockOf a else none) = none := by
  split
  · next h8 => exact h.resolve_left (not_not.2 h8)
  · rfl

theorem regWrite_notPerformed (s : State) (path : RegPath) (a : Nat) (v : W64) (hp : path ≠ .i3c)
    (h : a % 8 ≠ 0 ∨ blockOf a = none) : s.regWrite path a v = s.accessError a := by
  unfold State.regWrite
  split
  · rfl
  · next h8 => rw [h.resolve_left h8]

theorem readClear_notPerformed (s : State) (path : RegPath) (a : Nat) (event : Option Nat) (hp : path ≠ .i3c)
    (h : a % 8 ≠ 0 ∨ blockOf a = none) :
    s.readClear path a event = (s.accessError a).emit (.regData (BitVec.allOnes 64)) := by
  simp [State.readClear, lookup_none a h, hp]

theorem accessesNotPerformed : Claims.AccessesNotPerformed := by
  intro s a write
  refine ⟨fun size h => ?_, fun h => ?_, fun path hp h => ⟨fun v => ?_, fun event => ?_⟩⟩
  · exact ⟨_, exec_controlAccessMisaligned s write a size h, notPerformed_either s a write⟩
  · exact ⟨_, exec_unmappedAccess s write a h, notPerformed_either s a write⟩
  · have hw := notPerformed_write s a
    rw [← regWrite_notPerformed s path a v hp h] at hw
    exact ⟨_, exec_registerWrite path a v s, hw⟩
  · have hr := notPerformed_read s a
    rw [← readClear_notPerformed s path a event hp h] at hr
    exact ⟨_, exec_readClear path a event s, hr⟩

/-- Settles O57: what a read clears, and what an access that reaches nothing leaves. -/
theorem registerEffects : Obligations.RegisterEffects := ⟨readsClear, accessesNotPerformed⟩

end Sys2Proof.Machine


/-! SUPPORT. Lines of one scalar slot: what the slot's effect leaves of the device, and the state registers (R79, R84). -/

namespace Sys2Proof.Machine

/-! ### A Line of one scalar slot (R78, R79) -/

/-- A command of a scalar slot, with the operation that it makes and whether others may go on after it. -/
structure IsScalar (i : Instr) (d : SlotDef) (sl : ScalarSlot) (op : Regs → Scal) : Prop where
  slot : slotOf i = some d
  number : d.slot = slotNo sl
  plain : d.sub = none
  always : d.cond = none
  act : d.act = (scalarSlot sl op [] [] none false false).act

theorem slotNo_lt (sl : ScalarSlot) : slotNo sl < 6 := by cases sl <;> decide

/-- What a scalar slot of a Line does on a press outside a region: the state and the conditions. -/
def State.slotEffect (s : State) (n : Nat) (sl : ScalarSlot) (op : Regs → Scal) : State × Flags :=
  s.scalarDo n (s.pc n) (slotNo sl) false false (s.pc n).dropLatch (op (s.pc n).regs).eff

/-- The Line of a press retired: its program counter at the next Line. -/
def State.retireLine (s : State) (n : Nat) (next : W64) : State := s.modPc n fun p => p.retire next

/-- A scalar slot that raises no condition: its effect, the Line retired, and what waits looked at again where it wakes. -/
theorem issue_scalar {s t : State} {n : Nat} {l : Line} {i : Instr} {d : SlotDef} {sl : ScalarSlot} {op : Regs → Scal}
    (h : OneSlot s n l i) (hi : IsScalar i d sl op) (he : s.slotEffect n sl op = (t, 0)) :
    issue l i s = .next (if d.wakes then (t.retireLine n (s.nextLine n)).settle else t.retireLine n (s.nextLine n)) := by
  obtain ⟨hslot, hnum, hsub, hcond, hact⟩ := hi
  have hrow : s.rowWrong n d = false := by simp [State.rowWrong, hsub]
  have hlive : d.live (s.lc n l) = true := by simp [SlotDef.live, hcond]
  have hdo : d.act (s.lc n l) s false s = { s := t, fl := 0 } := by
    have := h.outside
    simp only [State.slotEffect] at he
    simp [hact, scalarSlot, State.lc, this, he]
  rw [issue_one s n l i d h hslot (hnum ▸ slotNo_lt sl) hrow, lineEffect_one s (s.lc n l) d h.outside hlive, hdo]
  rfl

/-- As `issue_scalar`, where nothing is looked at again. -/
theorem issue_silent {s t : State} {n : Nat} {l : Line} {i : Instr} {d : SlotDef} {sl : ScalarSlot} {op : Regs → Scal}
    (h : OneSlot s n l i) (hi : IsScalar i d sl op) (hw : d.wakes = false) (he : s.slotEffect n sl op = (t, 0)) :
    issue l i s = .next (t.retireLine n (s.nextLine n)) := by
  rw [issue_scalar h hi he, hw]
  rfl

theorem pc_modPc (s : State) (n : Nat) (f : PressCtx → PressCtx) : (s.modPc n f).pc n = f (s.pc n) := by
  simp [State.modPc]

/-- A slot that changes the press's state of its context alone, with the Line retired. -/
theorem onlyPress_retired (s : State) (n : Nat) (f : PressCtx → PressCtx) (next : W64) :
    OnlyPress s ((s.modPc n f).retireLine n next) n ((f (s.pc n)).retire next) := by
  have := onlyPress_twice s n (f (s.pc n)) ((f (s.pc n)).retire next)
  unfold State.retireLine
  rw [State.modPc, pc_modPc]
  exact this

/-- A silent scalar slot whose effect is `f` on the press's state does `f`. -/
theorem does_of_slotEffect {s : State} {n : Nat} {l : Line} {i : Instr} {d : SlotDef} {sl : ScalarSlot} {op : Regs → Scal}
    {f : PressCtx → PressCtx} (h : OneSlot s n l i) (hx : exec i s = issue l i s) (hi : IsScalar i d sl op)
    (hw : d.wakes = false) (he : s.slotEffect n sl op = (s.modPc n f, 0)) : Does s n i f (s.nextLine n) := by
  exact ⟨_, hx.trans (issue_silent h hi hw he), onlyPress_retired s n f _⟩

theorem Does.congr {s : State} {n : Nat} {i : Instr} {f g : PressCtx → PressCtx} {next : W64} (h : Does s n i f next)
    (hfg : f (s.pc n) = g (s.pc n)) : Does s n i g next := by
  unfold Does at *
  rwa [← hfg]

/-- A command of a press that completes: its Line has gone by, memory and every other press are as they were. -/
def Completes (s : State) (n : Nat) (i : Instr) : Prop :=
  ∃ t, exec i s = .next t ∧ (t.pc n).pc = s.nextLine n ∧ t.mem = s.mem ∧ ∀ j, j ≠ n → t.press j = s.press j

theorem completes_of_onlyPress {s s' t : State} {n : Nat} {i : Instr} {p : PressCtx} (hx : exec i s = .next t)
    (ho : OnlyPress s' t n (p.retire (s.nextLine n))) (hm : s'.mem = s.mem) (hp : s'.presses = s.presses) :
    Completes s n i := by
  obtain ⟨hn, hothers, hrest⟩ := ho
  refine ⟨t, hx, ?_, ?_, fun j hj => (hothers j hj).trans ?_⟩
  · rw [State.pc, hn]; rfl
  · rw [← hm, ← hrest]
  · rw [State.press, hp]; rfl

theorem Does.completes {s : State} {n : Nat} {i : Instr} {f : PressCtx → PressCtx} (h : Does s n i f (s.nextLine n)) :
    Completes s n i := by
  obtain ⟨t, hx, ho⟩ := h
  exact completes_of_onlyPress hx ho rfl rfl

/-! ### State registers of a press (R84) -/

theorem isScalar_rdcsr (l : Line) (b : FormB) : IsScalar (.rdcsr l b)
    (scalarSlot b.slot (fun r => opRdcsr r b) [b.rd.toNat] [] (some b.rd.toNat) false false) b.slot (fun r => opRdcsr r b) :=
  ⟨rfl, rfl, rfl, rfl, rfl⟩

theorem isScalar_wrcsr (l : Line) (b : FormB) :
    IsScalar (.wrcsr l b) (slotBread b opWrcsr) b.slot (fun r => opWrcsr r b) := ⟨rfl, rfl, rfl, rfl, rfl⟩

theorem isScalar_tset (l : Line) (b : FormB) :
    IsScalar (.tset l b) { slotBread b opTset with ts := [b.rd.toNat % 32] } b.slot (fun r => opTset r b) :=
  ⟨rfl, rfl, rfl, rfl, rfl⟩

theorem isScalar_tget (l : Line) (b : FormB) : IsScalar (.tget l b)
    { scalarSlot b.slot (fun r => opTget r b) [b.rd.toNat] [] (some b.rd.toNat) false false with
      ts := [b.rs1.toNat % 32] } b.slot (fun r => opTget r b) := ⟨rfl, rfl, rfl, rfl, rfl⟩

section
variable {s : State} {n : Nat} {l : Line} {b : FormB}

/-- RDCSR of another register than CYCLE writes the register's value. -/
theorem rdcsr_does (h : OneSlot s n l (.rdcsr l b)) (hk : b.imm.toNat ≠ 0) :
    Does s n (.rdcsr l b) (·.setX b.rd.toNat (s.csr n 0 (s.pc n) b.imm.toNat)) (s.nextLine n) :=
  does_of_slotEffect h rfl (isScalar_rdcsr l b) rfl (by simp [State.slotEffect, opRdcsr, State.scalarDo, hk])

/-- RDCSR of CYCLE writes a fresh free word. -/
theorem rdcsr_cycle (h : OneSlot s n l (.rdcsr l b)) (hk : b.imm.toNat = 0) :
    ∃ t, exec (.rdcsr l b) s = .next t ∧ t.free = s.free + 1 ∧ OnlyPress { s with free := s.free + 1 } t n
      (((s.pc n).setX b.rd.toNat (Config.freeWord s.free)).retire (s.nextLine n)) := by
  have he : s.slotEffect n b.slot (fun r => opRdcsr r b) =
      (({ s with free := s.free + 1 } : State).modPc n (·.setX b.rd.toNat (Config.freeWord s.free)), 0) := by
    simp [State.slotEffect, opRdcsr, State.scalarDo, hk, State.freshWord, State.csr]
  exact ⟨_, issue_silent h (isScalar_rdcsr l b) rfl he, rfl, onlyPress_retired { s with free := s.free + 1 } n _ _⟩

theorem wrcsr_does (h : OneSlot s n l (.wrcsr l b)) :
    Does s n (.wrcsr l b) (·.wrcsr b.imm.toNat (s.x n b.rs1)) (s.nextLine n) :=
  does_of_slotEffect h rfl (isScalar_wrcsr l b) rfl rfl

theorem tset_does (h : OneSlot s n l (.tset l b)) : Does s n (.tset l b) (·.setT (b.rd.toNat % 32)
    (setDword ((s.pc n).getT (b.rd.toNat % 32)) (b.imm.toNat % 8) (s.x n b.rs1))) (s.nextLine n) :=
  does_of_slotEffect h rfl (isScalar_tset l b) rfl rfl

theorem tget_does (h : OneSlot s n l (.tget l b)) : Does s n (.tget l b) (·.setX b.rd.toNat
    (dword ((s.pc n).getT (b.rs1.toNat % 32)) (b.imm.toNat % 8))) (s.nextLine n) :=
  does_of_slotEffect h rfl (isScalar_tget l b) rfl rfl

theorem rdcsr_completes (h : OneSlot s n l (.rdcsr l b)) : Completes s n (.rdcsr l b) := by
  by_cases hk : b.imm.toNat = 0
  · obtain ⟨t, hx, -, ho⟩ := rdcsr_cycle h hk
    exact completes_of_onlyPress hx ho rfl rfl
  · exact (rdcsr_does h hk).completes

end

/-- A flag as a word. -/
theorem wn_b2n (c : Bool) : wn (b2n c) = if c then 1 else 0 := by cases c <;> rfl

/-- The counters of the numeric conditions (R84). -/
theorem csr_count (s : State) (n : Nat) (cyc : W64) (c : PressCtx) (k : Nat) (h1 : 0x018 ≤ k) (h2 : k ≤ 0x01F) :
    s.csr n cyc c k = (mget 0 c.numCount (k - 0x018)).setWidth 64 := by
  unfold State.csr
  split
  iterate 12 omega
  exact if_pos (by simp [h1, h2])

/-- A register that the table of R84 does not list reads zero. -/
theorem csr_unlisted (s : State) (n : Nat) (cyc : W64) (c : PressCtx) (k : Nat)
    (h : 5 ≤ k ∧ k ≤ 0x00F ∨ k = 0x017 ∨ 0x020 ≤ k) : s.csr n cyc c k = 0 := by
  have hc : ¬ (decide (0x018 ≤ k) && decide (k ≤ 0x01F)) = true := by simp; omega
  unfold State.csr
  split
  iterate 12 omega
  exact if_neg hc

/-- WRCSR of another number changes nothing. -/
theorem wrcsr_other (c : PressCtx) (k : Nat) (v : W64) (h : k ≠ 0x010 ∧ k ≠ 0x011 ∧ k ≠ 0x012 ∧ k ≠ 0x015) :
    c.wrcsr k v = c := by
  unfold PressCtx.wrcsr
  split
  iterate 4 omega
  rfl

theorem wrcsr_proof (c : PressCtx) (v : W64) :
    c.wrcsr 0x012 v = { c with proofMis := c.proofMis && !v.getLsbD 0 } := by
  change (if v.getLsbD 0 then { c with proofMis := false } else c) = _
  cases v.getLsbD 0 <;> simp

theorem wrcsr_roller (c : PressCtx) (v : W64) :
    c.wrcsr 0x015 v = { c with rlRange := c.rlRange && !v.getLsbD 0 } := by
  change (if v.getLsbD 0 then { c with rlRange := false } else c) = _
  cases v.getLsbD 0 <;> simp

/-- TSET: the bits of the named word are the register's, the others stay. -/
theorem getLsbD_setDword (d : Desc) (j : Nat) (v : W64) (i : Nat) (hi : i < 512) :
    (setDword d j v).getLsbD i = if i / 64 = j then v.getLsbD (i % 64) else d.getLsbD i := by
  have hmask : (((BitVec.allOnes 64).setWidth 512 : Desc) <<< (64 * j)).getLsbD i = decide (i / 64 = j) := by
    simp only [BitVec.getLsbD_shiftLeft, BitVec.getLsbD_setWidth, BitVec.getLsbD_allOnes]
    grind
  have hval : ((v.setWidth 512 : Desc) <<< (64 * j)).getLsbD i = (decide (i / 64 = j) && v.getLsbD (i % 64)) := by
    simp only [BitVec.getLsbD_shiftLeft, BitVec.getLsbD_setWidth]
    by_cases h : i / 64 = j
    · have h1 : i - 64 * j = i % 64 := by omega
      have h2 : ¬ i < 64 * j := by omega
      have h3 : i % 64 < 512 := by omega
      simp [h, h1, h2, h3, hi]
    · have h1 : i < 64 * j ∨ 64 ≤ i - 64 * j := by omega
      rcases h1 with h1 | h1
      · simp [h, h1]
      · simp [h, BitVec.getLsbD_of_ge _ _ h1]
  simp only [setDword, BitVec.getLsbD_or, BitVec.getLsbD_and, BitVec.getLsbD_not, hmask, hval, hi]
  by_cases h : i / 64 = j <;> simp [h]

/-! ### State registers of a compositor (R82, R84) -/

/-- An instruction of a compositor that nothing holds up and that passes its checks: its effect. -/
theorem issue_comp {s : State} {m : Nat} {l : Line} {i : Instr} {d : SlotDef} {op : Regs → Scal} (hm : m < 64)
    (hc : l.core = .comp m) (hu : l.unlisted = 0) (hf : (s.comp m).fault.valid = false) (hst : (s.comp m).stall = [])
    (hr : s.requests = []) (hd : slotOf i = some d) (hop : d.scal = some op) (hw : d.wakes = false)
    (hp : scalarChk s (s.comp m).ctx false (op (s.comp m).regs) = {}) :
    issue l i s = .next (s.compDo m d.lis (op (s.comp m).regs).eff) := by
  have hclear : clear d.xs [] = true := by simp [clear]
  simp [issue, hc, Nat.not_le.mpr hm, hd, hop, State.issueComp, hf, hst, hr, hclear, hp, hu, hw, firstOf, failIf]

/-- A compositor changed and no other unit, free words aside. -/
def OnlyComp (s t : State) (m : Nat) (z : Comp) : Prop :=
  t.comp m = z ∧ (∀ j, j ≠ m → t.comp j = s.comp j) ∧ { t with comps := s.comps, free := s.free } = s

theorem onlyComp_setComp (s s' : State) (m : Nat) (y z : Comp) (h : s' = { s.setComp m y with free := s'.free }) :
    OnlyComp s (s'.setComp m z) m z := by
  have hc : s'.comps = (s.setComp m y).comps := by rw [h]
  refine ⟨by simp, fun j hj => ?_, ?_⟩
  · rw [State.comp_setComp, if_neg (Ne.symm hj), State.comp, hc]
    exact (State.comp_setComp s m j y).trans (if_neg (Ne.symm hj))
  · rw [h]; rfl

section
variable {s : State} {m : Nat} {l : Line} {b : FormB} (hm : m < 64) (hc : l.core = .comp m) (hu : l.unlisted = 0)
  (hf : (s.comp m).fault.valid = false) (hst : (s.comp m).stall = []) (hr : s.requests = [])
include hm hc hu hf hst hr

theorem comp_rdcsr : exec (.rdcsr l b) s = .next (s.compDo m false (.rdcsr b.rd.toNat b.imm.toNat)) :=
  issue_comp hm hc hu hf hst hr (isScalar_rdcsr l b).slot rfl rfl rfl

theorem comp_wrcsr : exec (.wrcsr l b) s = .next (s.compDo m false (.wrcsr b.imm.toNat ((s.comp m).getX b.rs1.toNat))) :=
  issue_comp hm hc hu hf hst hr (isScalar_wrcsr l b).slot rfl rfl rfl

end

/-- A compositor whose program counter has moved on to its next instruction. -/
def Comp.next (x : Comp) : Comp := { x with pc := x.pc + 4 }

theorem compDo_rdcsr (s : State) (m rd k : Nat) (v : W64)
    (h : k = 0 ∧ v = Config.freeWord s.free ∨ k = 2 ∧ v = wn (128 + m) ∨ k = 3 ∧ v = wn s.myId ∨ k = 4 ∧ v = wn (s.comp m).ctx) :
    OnlyComp s (s.compDo m false (.rdcsr rd k)) m ((s.comp m).next.setX rd v) := by
  have go (s' : State) (hs : s' = { s.setComp m (s.comp m).next with free := s'.free }) :
      OnlyComp s (s'.setComp m ((s'.comp m).setX rd v)) m ((s.comp m).next.setX rd v) := by
    have hc : s'.comp m = (s.comp m).next := by
      rw [hs]; exact (State.comp_setComp s m m _).trans (if_pos rfl)
    rw [hc]
    exact onlyComp_setComp s s' m _ _ hs
  rcases h with ⟨rfl, rfl⟩ | ⟨rfl, rfl⟩ | ⟨rfl, rfl⟩ | ⟨rfl, rfl⟩
  · exact go { s.setComp m (s.comp m).next with free := s.free + 1 } rfl
  · exact go (s.setComp m (s.comp m).next) rfl
  · exact go (s.setComp m (s.comp m).next) rfl
  · exact go (s.setComp m (s.comp m).next) rfl

theorem compDo_wrcsr (s : State) (m k : Nat) (v : W64) : OnlyComp s (s.compDo m false (.wrcsr k v)) m (s.comp m).next :=
  ⟨by simp [State.compDo, Comp.next, compNext], fun j hj => by simp [State.compDo, Ne.symm hj], rfl⟩

/-- Settles O3: RDCSR, WRCSR, TSET and TGET on a press and on a compositor. -/
theorem stateRegisters : Obligations.StateRegisters := by
  intro s n m l b
  refine ⟨?_, fun h => ?_, fun h => ?_, fun h => ?_, fun h => ?_, fun hm hc hu hf hst hr => ?_⟩
  · rintro i (rfl | rfl | rfl | rfl) h
    · exact rdcsr_completes h
    · exact (wrcsr_does h).completes
    · exact (tset_does h).completes
    · exact (tget_does h).completes
  · have reads {v : W64} (k : Nat) (h0 : k ≠ 0) (hv : s.csr n 0 (s.pc n) k = v) (hk : b.imm.toNat = k) :
        Does s n (.rdcsr l b) (·.setX b.rd.toNat v) (s.nextLine n) := by
      subst hk hv
      exact rdcsr_does h h0
    exact ⟨rdcsr_cycle h, reads 0x001 (by decide) rfl, reads 0x002 (by decide) rfl, reads 0x003 (by decide) rfl,
      reads 0x004 (by decide) rfl, reads 0x010 (by decide) rfl, reads 0x011 (by decide) rfl,
      reads 0x012 (by decide) (wn_b2n _), reads 0x013 (by decide) rfl, reads 0x014 (by decide) rfl,
      reads 0x015 (by decide) (wn_b2n _), reads 0x016 (by decide) rfl,
      fun h1 h2 => reads _ (by omega) (csr_count _ _ _ _ _ h1 h2) rfl,
      fun hu => reads _ (by omega) (csr_unlisted _ _ _ _ _ hu) rfl⟩
  · have writes {f : PressCtx → PressCtx} (k : Nat) (hf : (s.pc n).wrcsr k (s.x n b.rs1) = f (s.pc n)) (hk : b.imm.toNat = k) :
        Does s n (.wrcsr l b) f (s.nextLine n) := by
      subst hk
      exact (wrcsr_does h).congr hf
    exact ⟨writes 0x010 rfl, writes 0x011 rfl, writes 0x012 (wrcsr_proof _ _), writes 0x015 (wrcsr_roller _ _),
      fun h10 h11 h12 h15 => writes _ (wrcsr_other _ _ _ ⟨h10, h11, h12, h15⟩) rfl⟩
  · refine ⟨_, fun i hi => ?_, tset_does h⟩
    exact getLsbD_setDword _ _ _ i hi
  · exact tget_does h
  · have rd {v : W64} (hv) := (⟨_, comp_rdcsr (b := b) hm hc hu hf hst hr, compDo_rdcsr s m b.rd.toNat b.imm.toNat v hv⟩ :
      ∃ t, exec (.rdcsr l b) s = .next t ∧ OnlyComp s t m ((s.comp m).next.setX b.rd.toNat v))
    exact ⟨fun hk => rd (.inl ⟨hk, rfl⟩), fun hk => rd (.inr (.inl ⟨hk, rfl⟩)), fun hk => rd (.inr (.inr (.inl ⟨hk, rfl⟩))),
      fun hk => rd (.inr (.inr (.inr ⟨hk, rfl⟩))), _, comp_wrcsr hm hc hu hf hst hr, compDo_wrcsr s m _ _⟩

end Sys2Proof.Machine


/-! SUPPORT. A device in which nothing waits: what looks again at everything that waits finds nothing to do. -/

namespace Sys2Proof.Machine

/-! ### Sparse arrays and folds -/

theorem mem_mput {α : Type} (m : Map α) (k : Nat) (v : α) (e : Nat × α) (h : e ∈ mput m k v) : e ∈ m ∨ e = (k, v) := by
  induction m with
  | nil => exact .inr (by simpa [mput] using h)
  | cons f m ih =>
    obtain ⟨k', v'⟩ := f
    by_cases h1 : k < k'
    · rw [mput, if_pos h1] at h
      rcases List.mem_cons.1 h with rfl | h
      · exact .inr rfl
      · exact .inl h
    · by_cases h2 : k = k'
      · rw [mput, if_neg h1, if_pos h2] at h
        rcases List.mem_cons.1 h with rfl | h
        · exact .inr rfl
        · exact .inl (List.mem_cons_of_mem _ h)
      · rw [mput, if_neg h1, if_neg h2] at h
        rcases List.mem_cons.1 h with rfl | h
        · exact .inl (List.mem_cons_self ..)
        · exact (ih h).imp (List.mem_cons_of_mem _) id

theorem mem_mdel {α : Type} (m : Map α) (k : Nat) (e : Nat × α) (h : e ∈ mdel m k) : e ∈ m := by
  induction m with
  | nil => exact h
  | cons f m ih =>
    obtain ⟨k', v'⟩ := f
    by_cases h1 : k' = k
    · rw [mdel, if_pos h1] at h
      exact List.mem_cons_of_mem _ (ih h)
    · rw [mdel, if_neg h1] at h
      rcases List.mem_cons.1 h with rfl | h
      · exact List.mem_cons_self ..
      · exact List.mem_cons_of_mem _ (ih h)

/-- The entries of a sparse array after a write. -/
theorem mem_mset {α : Type} [DecidableEq α] (d : α) (m : Map α) (k : Nat) (v : α) (e : Nat × α) (h : e ∈ mset d m k v) :
    e ∈ m ∨ e = (k, v) := by
  unfold mset at h
  split at h
  · exact .inl (mem_mdel m k e h)
  · exact mem_mput m k v e h

/-- What a read of a sparse array gives is the default or one of its entries. -/
theorem mget_mem {α : Type} (d : α) (m : Map α) (k : Nat) : mget d m k = d ∨ (k, mget d m k) ∈ m := by
  induction m with
  | nil => exact .inl rfl
  | cons e m ih =>
    obtain ⟨k', v⟩ := e
    by_cases h : k' = k
    · subst h; exact .inr (by simp [mget])
    · rw [mget, if_neg h]
      exact ih.imp id (List.mem_cons_of_mem _)

/-- A fold whose every step leaves its state. -/
theorem foldl_same {σ α : Type} (f : σ → α → σ) (s : σ) (l : List α) (h : ∀ x ∈ l, f s x = s) : l.foldl f s = s := by
  induction l with
  | nil => rfl
  | cons x l ih =>
    rw [List.foldl_cons, h x (List.mem_cons_self ..)]
    exact ih fun y hy => h y (List.mem_cons_of_mem _ hy)

/-- What every step of a fold keeps, the fold keeps. -/
theorem foldl_rel {σ α : Type} {R : σ → σ → Prop} (hr : ∀ a, R a a) (ht : ∀ {a b c}, R a b → R b c → R a c) (f : σ → α → σ)
    (l : List α) (h : ∀ s, ∀ x ∈ l, R s (f s x)) (s : σ) : R s (l.foldl f s) := by
  induction l generalizing s with
  | nil => exact hr s
  | cons x l ih => exact ht (h s x (List.mem_cons_self ..)) (ih (fun s y hy => h s y (List.mem_cons_of_mem _ hy)) _)

theorem mmap_same {α : Type} (f : Nat → α → α) (m : Map α) (h : ∀ e ∈ m, f e.1 e.2 = e.2) : mmap f m = m := by
  refine (List.map_congr_left (g := id) fun e he => ?_).trans (List.map_id m)
  rw [h e he]; rfl

/-! ### Presses that wait for nothing -/

/-- What `Quiet` says of one press. -/
structure PressQuiet (p : Press) : Prop where
  here : p.cur.away = false
  hold : p.cur.hold.quiet
  watch : p.cur.watch = none
  saved : ∀ x ∈ p.slotA.toList ++ p.slotB.toList, x.st.away = false

/-- Whether a control operation is the add of an RSIGNAL. -/
def CtOp.adds (o : CtOp) : Bool := match o with | .rsignal _ _ _ _ => true | _ => false

theorem away_iff (p : PressCtx) :
    p.away = false ↔ p.stall = [] ∧ (∀ o ∈ p.tmRun, o.done = true) ∧ ∀ o ∈ p.ctRun, o.adds = false := by
  change (!p.stall.isEmpty || (p.tmRun.any fun o => !o.done) || p.ctRun.any CtOp.adds) = false ↔ _
  simp [and_assoc]

section
variable {s : State} (hq : Quiet s)
include hq

theorem Quiet.press (n : Nat) : PressQuiet (s.press n) := by
  rcases mget_mem ({} : Press) s.presses n with h | h
  · rw [State.press, h]
    exact ⟨rfl, trivial, rfl, by simp⟩
  · obtain ⟨h1, h2, h3, h4⟩ := hq.presses _ h
    exact ⟨h1, h2, h3, h4⟩

theorem Quiet.comp (m : Nat) : (s.comp m).stall = [] := by
  rcases mget_mem ({} : Comp) s.comps m with h | h
  · rw [State.comp, h]
  · exact hq.comps _ h

theorem Quiet.area (e : Nat) : (s.entry e).asked = true ∨ ((s.entry e).poison = false ∧ (s.entry e).move ≠ some .fetch) := by
  rcases mget_mem ({} : PlaceEnt) s.placed e with h | h
  · rw [State.entry, h]
    exact .inr ⟨rfl, by simp⟩
  · exact hq.areas _ h

/-- The state of a context on a press, wherever it stands, has nothing away. -/
theorem Quiet.pcOf (n c : Nat) (p : PressCtx) (h : s.pcOf n c = some p) : p.away = false := by
  obtain ⟨hhere, -, -, hsaved⟩ := hq.press n
  unfold State.pcOf at h
  generalize s.press n = x at *
  simp only at h
  by_cases hr : x.run = some c
  · rw [if_pos hr] at h
    cases h; exact hhere
  · rw [if_neg hr] at h
    cases ha : x.slotA with
    | none => cases hb : x.slotB with
      | none => simp [ha, hb] at h
      | some b =>
        simp only [ha, hb, Option.ite_none_right_eq_some, Option.some.injEq] at h
        exact h.2 ▸ hsaved b (by simp [hb])
    | some a =>
      have haq := hsaved a (by simp [ha])
      cases hb : x.slotB with
      | none =>
        simp only [ha, hb, Option.ite_none_right_eq_some, Option.some.injEq] at h
        exact h.2 ▸ haq
      | some b =>
        have hbq := hsaved b (by simp [hb])
        simp only [ha, hb] at h
        split at h
        · cases h; exact haq
        · split at h
          · cases h; exact hbq
          · cases h

theorem retryStalls_quiet (n c fuel : Nat) : retryStalls n c fuel s = s := by
  cases fuel with
  | zero => rfl
  | succ fuel =>
    unfold retryStalls
    simp only
    split
    · rfl
    · next x rest heq =>
      exfalso
      split at heq
      · split at heq
        · next p hp => simp [((away_iff p).1 (hq.pcOf n c p hp)).1] at heq
        · cases heq
      · simp [hq.comp] at heq

theorem tryTms_quiet (n : Nat) : s.tryTms n = s := by
  unfold State.tryTms
  split
  · refine foldl_same _ _ _ fun op hop => ?_
    have hdone := ((away_iff _).1 (hq.press n).here).2.1 op hop
    simp [State.tryTm, hdone]
  · rfl

theorem retryAdds_quiet (n c : Nat) : s.retryAdds n c = s := by
  unfold State.retryAdds
  split
  · rfl
  · next p hp =>
    refine foldl_same _ _ _ fun o ho => ?_
    have hno := ((away_iff p).1 (hq.pcOf n c p hp)).2.2 o ho
    split
    · cases hno
    · rfl

theorem settleAway_quiet (n c : Nat) : s.settleAway n c = s := by
  rw [State.settleAway, tryTms_quiet hq, retryStalls_quiet hq, retryAdds_quiet hq]

theorem settleHold_quiet (n : Nat) : s.settleHold n = s := by
  have hh : (s.pc n).hold.quiet := (hq.press n).hold
  unfold State.settleHold
  split
  iterate 5 (next h => rw [h] at hh; cases hh)
  rfl

theorem settlePress_quiet (n : Nat) : s.settlePress n = s := by
  have hsaved := (hq.press n).saved
  unfold State.settlePress
  split
  · refine foldl_same _ _ _ fun x hx => ?_
    simp [hsaved x hx]
  · simp only [settleAway_quiet hq, settleHold_quiet hq, ite_self]
    refine foldl_same _ _ _ fun x hx => ?_
    simp [hsaved x hx]

theorem settleHost_quiet : s.settleHost = s := by
  have hh := hq.hosts
  rw [State.settleHost, hh, List.foldl_nil, ← hh]

theorem flushFailed_quiet : s.flushFailed = s := by
  rw [State.flushFailed, hq.requests, List.foldl_nil]

theorem askAreas_quiet : s.askAreas = s := by
  refine foldl_same _ _ _ fun e he => ?_
  rcases hq.area e.1 with ha | ⟨hp, hm⟩
  · simp [ha]
  · simp [hp, hm]

theorem pumpLoads_quiet : s.pumpLoads = s := by
  refine foldl_same _ _ _ fun e he => ?_
  have hk := hq.loads e he
  split
  · next i t h => exact absurd h (hk i t)
  · rfl

/-- In a device in which nothing waits, looking at everything again changes nothing. -/
theorem settle_quiet : s.settle = s := by
  have hpresses : s.presses.foldl (fun s e => s.settlePress e.1) s = s :=
    foldl_same _ _ _ fun e _ => settlePress_quiet hq e.1
  have hcomps : s.comps.foldl (fun s e => retryStalls (128 + e.1) e.2.ctx 16 s) s = s :=
    foldl_same _ _ _ fun e _ => retryStalls_quiet hq _ _ _
  simp only [State.settle, settleHost_quiet hq, hpresses, hcomps, flushFailed_quiet hq, askAreas_quiet hq,
    pumpLoads_quiet hq]

theorem watchWords_quiet : s.watchWords = s := by
  unfold State.watchWords
  rw [mmap_same]
  intro e he
  obtain ⟨-, -, hw, -⟩ := hq.presses e he
  simp only [hw]

/-- A write wakes nobody in a device in which nothing waits. -/
theorem wrote_quiet : s.wrote = s := by
  rw [State.wrote, watchWords_quiet hq]
  refine foldl_same _ _ _ fun e he => ?_
  rw [hq.jobs e he, List.foldl_nil]

end

/-! ### What leaves a quiet device quiet -/

/-- The parts of the state in which something may wait. -/
structure SameWaits (s t : State) : Prop where
  presses : t.presses = s.presses
  comps : t.comps = s.comps
  hosts : t.hostq = s.hostq
  requests : t.requests = s.requests
  parts : t.parts = s.parts
  placed : t.placed = s.placed
  longops : t.longops = s.longops

theorem Quiet.same {s t : State} (hq : Quiet s) (h : SameWaits s t) : Quiet t := by
  obtain ⟨h1, h2, h3, h4, h5, h6, h7⟩ := h
  exact ⟨h1 ▸ hq.presses, h2 ▸ hq.comps, h3 ▸ hq.hosts, h4 ▸ hq.requests, h5 ▸ hq.jobs, h6 ▸ hq.areas, h7 ▸ hq.loads⟩

theorem Quiet.setPress {s : State} (hq : Quiet s) (n : Nat) (p : Press) (hp : PressQuiet p) : Quiet (s.setPress n p) where
  presses e he := by
    rcases mem_mset _ _ _ _ _ he with he | rfl
    · exact hq.presses e he
    · exact ⟨hp.here, hp.hold, hp.watch, hp.saved⟩
  comps := hq.comps
  hosts := hq.hosts
  requests := hq.requests
  jobs := hq.jobs
  areas := hq.areas
  loads := hq.loads

/-- A change of the state of a context on a press that lets nothing wait. -/
theorem Quiet.modPc {s : State} (hq : Quiet s) (n : Nat) (f : PressCtx → PressCtx) (ha : (f (s.pc n)).away = (s.pc n).away)
    (hh : (f (s.pc n)).hold = (s.pc n).hold) (hw : (f (s.pc n)).watch = (s.pc n).watch) : Quiet (s.modPc n f) := by
  obtain ⟨h1, h2, h3, h4⟩ := hq.press n
  exact hq.setPress n _ ⟨ha.trans h1, hh ▸ h2, hw.trans h3, h4⟩

end Sys2Proof.Machine


/-! SUPPORT. Scalar loads and stores (R79, R124): what an access through the cabinet leaves, the bytes of a word, and the
Lines of LDC, STC, the loads and the stores. -/

namespace Sys2Proof.Machine

/-! ### The cabinet (R236, R237) -/

/-- Nothing of the state changes but the cabinets with their counts, and the unit buffers. -/
def CabOnly (s t : State) : Prop :=
  { t with chases := s.chases, regs := s.regs, useClock := s.useClock, unitBufs := s.unitBufs } = s

theorem cabOnly_refl (s : State) : CabOnly s s := rfl

theorem CabOnly.trans {s t u : State} (h : CabOnly s t) (k : CabOnly t u) : CabOnly s u := by
  unfold CabOnly at *
  calc { u with chases := s.chases, regs := s.regs, useClock := s.useClock, unitBufs := s.unitBufs }
      = { ({ u with chases := t.chases, regs := t.regs, useClock := t.useClock, unitBufs := t.unitBufs } : State) with
          chases := s.chases, regs := s.regs, useClock := s.useClock, unitBufs := s.unitBufs } := rfl
    _ = s := by rw [k, h]

theorem cabOnly_setChase (s : State) (c : Nat) (x : Chase) : CabOnly s (s.setChase c x) := rfl
theorem cabOnly_bump (s : State) (b : Block) (i o lo w k : Nat) : CabOnly s (s.bump b i o lo w k) := rfl

theorem cabOnly_unitRead (s : State) (pa : Nat) : CabOnly s (s.unitRead pa) := by
  unfold State.unitRead
  split
  · rfl
  · split <;> rfl

theorem cabOnly_unitWritten (s : State) (pa : Nat) : CabOnly s (s.unitWritten pa) := by
  unfold State.unitWritten
  split
  · rfl
  · split <;> rfl

theorem cabOnly_lineRead (s : State) (k : Nat) : CabOnly s (s.lineRead k) := by
  unfold State.lineRead
  split
  · exact cabOnly_unitRead s _
  · rfl

theorem cabOnly_lineWritten (s : State) (k : Nat) : CabOnly s (s.lineWritten k) := by
  unfold State.lineWritten
  split
  · exact cabOnly_unitWritten s _
  · rfl

theorem warm_memory (s : State) (k : Nat) (hk : k < 2 ^ 60) : s.warm k = s := if_pos (.inl hk)

theorem cabOnly_yieldLine (s : State) (c line : Nat) : CabOnly s (s.yieldLine c line) := by
  refine foldl_rel cabOnly_refl CabOnly.trans _ _ (fun s d _ => ?_) s
  split
  · exact cabOnly_setChase s d _
  · rfl

/-- A line of memory counted and read into a cabinet that has taken it. -/
theorem cabOnly_filled (s : State) (c line : Nat) (x : Chase) (hl : line < 2 ^ 60) :
    CabOnly s ((((s.setChase c x).bump .chase c 0xC00 0 32 1).lineRead line).warm line) := by
  rw [warm_memory _ _ hl]
  exact ((cabOnly_setChase s c x).trans (cabOnly_bump _ _ _ _ _ _ _)).trans (cabOnly_lineRead _ line)

/-- A line of memory put into a cabinet. -/
theorem cabOnly_fillLine (s : State) (c line : Nat) (dirty : Bool) (hl : line < 2 ^ 60) :
    CabOnly s (s.fillLine c line dirty) := by
  have clock : CabOnly s { s with useClock := s.useClock + 1 } := rfl
  unfold State.fillLine
  refine clock.trans ?_
  generalize ({ s with useClock := s.useClock + 1 } : State) = u
  extract_lets u' x mates oldest
  split
  next cab wb _ =>
    have filled := cabOnly_filled u c line { x with cabinet := { addr := line, dirty, stamp := u.useClock } :: cab } hl
    cases wb with
    | none => exact filled
    | some o => exact filled.trans ((cabOnly_bump _ _ _ _ _ _ _).trans (cabOnly_lineWritten _ o))

/-- An access to a line of memory. -/
theorem cabOnly_cabAccess (s : State) (c k : Nat) (write : Bool) (hk : k < 2 ^ 60) : CabOnly s (s.cabAccess c k write) := by
  have hl : k / 256 * 256 < 2 ^ 60 := by omega
  unfold State.cabAccess
  simp only
  have hy : CabOnly s (if write || s.dirtyElsewhere c (k / 256 * 256) then s.yieldLine c (k / 256 * 256) else s) := by
    split
    · exact cabOnly_yieldLine ..
    · rfl
  refine hy.trans ?_
  generalize (if write || s.dirtyElsewhere c (k / 256 * 256) then s.yieldLine c (k / 256 * 256) else s) = u
  split
  · rfl
  · have hs : u.slugLines c (k / 256 * 256) = [] := if_pos (.inl hl)
    rw [hs, List.foldl_nil]
    exact cabOnly_fillLine _ _ _ _ hl

theorem cabOnly_cabRange (s : State) (c k len : Nat) (write : Bool) (hk : k + len ≤ 2 ^ 60) :
    CabOnly s (s.cabRange c k len write) := by
  unfold State.cabRange
  split
  · rfl
  · refine foldl_rel cabOnly_refl CabOnly.trans _ _ (fun s i hi => ?_) s
    have := List.mem_range.1 hi
    exact cabOnly_cabAccess _ _ _ _ (by omega)

/-! ### The bytes of a word (R3) -/

theorem length_toBytes (n v : Nat) : (toBytes n v).length = n := by simp [toBytes]

theorem ofBytes_lt (bs : List Byte) : ofBytes bs < 2 ^ (8 * bs.length) := by
  induction bs with
  | nil => simp [ofBytes]
  | cons b bs ih =>
    have hb := b.isLt
    have : 2 ^ (8 * (b :: bs).length) = 256 * 2 ^ (8 * bs.length) := by
      rw [List.length_cons, Nat.mul_add, Nat.pow_add]; omega
    rw [ofBytes, this]
    omega

theorem length_cells (m : List Host.Cell) (a n : Nat) : (cells m a n).length = n := by simp [cells, span]

/-- Byte `j` of a word. -/
theorem getElem_toBytes (n : Nat) (v : W64) (j : Nat) (hj : j < (toBytes n v.toNat).length) :
    (toBytes n v.toNat)[j] = v.extractLsb' (8 * j) 8 := by
  simp [toBytes, BitVec.extractLsb']

/-- A word written to memory: its bytes, and no other. -/
theorem cells_written (m : List Host.Cell) (a n : Nat) (v : W64) :
    (∀ j < n, cell (putCells m a (toBytes n v.toNat)) (a + j) = v.extractLsb' (8 * j) 8) ∧
      ∀ b, b < a ∨ a + n ≤ b → cell (putCells m a (toBytes n v.toNat)) b = cell m b := by
  refine ⟨fun j hj => ?_, fun b hb => cell_putCells_outside _ _ _ _ (by rwa [length_toBytes])⟩
  have hj' : j < (toBytes n v.toNat).length := by rwa [length_toBytes]
  rw [cell_putCells_inside _ _ _ _ hj', getElem_toBytes]

/-- The sign extension of the low `w` bits of a number. -/
theorem w64_sext (w v : Nat) : w64 (sext w v) = (BitVec.ofNat w v).signExtend 64 := by
  have h : sext w v = (BitVec.ofNat w v).toInt := by
    rw [BitVec.toInt_eq_toNat_cond, BitVec.toNat_ofNat]
    unfold sext
    simp only
    cases w with
    | zero => simp [Nat.mod_one]
    | succ w =>
      have : (2 * (v % 2 ^ (w + 1)) < 2 ^ (w + 1)) ↔ (v % 2 ^ (w + 1) < 2 ^ (w + 1 - 1)) := by
        rw [Nat.add_sub_cancel, Nat.pow_succ]; omega
      simp only [this]
  rw [h, w64, BitVec.signExtend]

theorem extend_eq (signed : Bool) (size v : Nat) : extend signed size v =
    if signed then (BitVec.ofNat (8 * size) v).signExtend 64 else BitVec.ofNat 64 (v % 2 ^ (8 * size)) := by
  cases signed
  · rfl
  · exact w64_sext _ _

/-! ### The case (R79) -/

theorem isScalar_ldc (l : Line) (b : FormB) : IsScalar (.ldc l b) (slotB b opLdc) b.slot (fun r => opLdc r b) :=
  ⟨rfl, rfl, rfl, rfl, rfl⟩

theorem isScalar_stc (l : Line) (c : FormS) : IsScalar (.stc l c)
    (scalarSlot c.slot (fun r => opStc r c) [c.rs2.toNat, c.rs1.toNat] [] none false false) c.slot (fun r => opStc r c) :=
  ⟨rfl, rfl, rfl, rfl, rfl⟩

theorem caseAccess : Claims.CaseAccess := by
  intro s n l
  refine ⟨fun b h => does_of_slotEffect h rfl (isScalar_ldc l b) rfl rfl, fun c h => ?_⟩
  refine ⟨_, issue_silent h (isScalar_stc l c) rfl rfl, onlyPress_setPc _ n _, ?_⟩
  exact cells_written s.mem _ 8 (s.x n c.rs2)

/-! ### Accesses of plain memory -/

theorem CabOnly.presses {s u : State} (h : CabOnly s u) : u.presses = s.presses := by rw [← h]
theorem CabOnly.mem {s u : State} (h : CabOnly s u) : u.mem = s.mem := by rw [← h]

theorem CabOnly.press {s u : State} (h : CabOnly s u) (n : Nat) : u.press n = s.press n := by
  rw [State.press, h.presses]; rfl

/-- A write to the state of the context that runs on a press. -/
theorem modOf_running (s : State) (n c : Nat) (f : PressCtx → PressCtx) (h : (s.press n).run = some c) :
    s.modOf n c f = s.modPc n f := by
  simp [State.modOf, h, State.modPc, State.setPc, State.pc]

theorem seenBytes_memory (s : State) (pa n : Nat) (h : pa + n ≤ 2 ^ 60) : s.seenBytes none pa n = cells s.mem pa n := by
  refine List.map_congr_left fun k hk => ?_
  obtain ⟨i, hi, rfl⟩ := List.mem_map.1 hk
  have := List.mem_range.1 hi
  exact if_pos (by omega)

theorem putBytes_memory (s : State) (pa : Nat) (bs : List Byte) (h : pa + bs.length ≤ 2 ^ 60) :
    s.putBytes none pa bs = { s with mem := putCells s.mem pa bs } := by
  induction bs generalizing s pa with
  | nil => rfl
  | cons b bs ih =>
    rw [List.length_cons] at h
    have hput : s.putByte none pa b = { s with mem := putCell s.mem pa b } := if_pos (by omega)
    rw [State.putBytes, hput, ih _ _ (by omega)]
    rfl

/-- What a window take shares does not depend on the contents of memory or of the cabinets. -/
theorem sharedRuns_written {s u : State} (h : CabOnly s u) (m : List Host.Cell) (n c : Nat) :
    ({ u with mem := m } : State).sharedRuns n c = s.sharedRuns n c := by
  conv_rhs => rw [← h]
  rfl

section
variable {s : State} {n : Nat} {va : W64} {pa size : Nat} (hn : n < 128)
include hn

/-- A load of a word of plain memory: the line enters the cabinet, and the register receives the value (R79). -/
theorem access_load (hrun : (s.press n).run ≠ none) (hp : PlainWord s n (some (chaseOf n)) .rd va pa size) (signed : Bool)
    (rd : Nat) (pc : W64) (slot : Nat) :
    s.access n (s.runCtx n) (.load va size signed rd false pc slot) =
      (s.cabRange (chaseOf n) pa size false).modPc n fun p =>
        p.setX rd (extend signed size (ofBytes (cells s.mem pa size))) := by
  obtain ⟨hplace, hin, hflows, hgood, hidle⟩ := hp
  have hfit : pa + size ≤ 2 ^ 60 := by omega
  have hcab := cabOnly_cabRange s (chaseOf n) pa size false hfit
  have hctx : ((s.cabRange (chaseOf n) pa size false).press n).run = some (s.runCtx n) := by
    rw [hcab.press, State.runCtx]
    cases hr : (s.press n).run with
    | none => exact absurd hr hrun
    | some c => rfl
  have hchase : coreChase n = chaseOf n := if_pos hn
  have hflows' : s.waits (some (chaseOf n)) (.mem pa) size false = false := hflows
  have hread : s.badRead? none pa size = false := hgood
  have hput (v : W64) : (s.cabRange (chaseOf n) pa size false).putX n (s.runCtx n) rd v =
      (s.cabRange (chaseOf n) pa size false).modPc n fun p => p.setX rd v := by
    rw [State.putX, if_pos hn, modOf_running _ _ _ _ hctx]
  simp [State.access, State.coreBusy, hn, hidle, State.scalarLoad, hplace, hchase, hflows', Loc.key?, hread,
    seenBytes_memory s pa size hfit, hput]

/-- A store to a word of plain memory that nothing else watches: the line enters the cabinet, and the bytes are written. -/
theorem access_store (hq : Quiet s) (hp : PlainWord s n (some (chaseOf n)) .wr va pa size)
    (hs : overlaps [(pa, size)] (s.sharedRuns n (s.runCtx n)) = []) (v pc : W64) (slot : Nat) :
    ∃ u, CabOnly s u ∧ s.access n (s.runCtx n) (.store va size v false pc slot) =
      { u with mem := putCells s.mem pa (toBytes size v.toNat) } := by
  obtain ⟨hplace, hin, hflows, hgood, hidle⟩ := hp
  have hfit : pa + size ≤ 2 ^ 60 := by omega
  have hcab := cabOnly_cabRange s (chaseOf n) pa size true hfit
  refine ⟨s.cabRange (chaseOf n) pa size true, hcab, ?_⟩
  have hchase : coreChase n = chaseOf n := if_pos hn
  have hflows' : s.waits (some (chaseOf n)) (.mem pa) size true = false := hflows
  have hwrite (u : State) (hu : CabOnly s u) :
      ((u.putBytes none pa (toBytes size v.toNat)).blur n (s.runCtx n) none [(pa, size)]).wrote =
        { u with mem := putCells s.mem pa (toBytes size v.toNat) } := by
    rw [putBytes_memory _ _ _ (by rwa [length_toBytes]), hu.mem]
    rw [State.blur, sharedRuns_written hu, hs, List.foldl_nil]
    refine wrote_quiet (hq.same ?_)
    constructor <;> (conv_rhs => rw [← hu])
  simp [State.access, State.coreBusy, hn, hidle, State.scalarStore, hplace, hchase, hflows', Loc.key?, hwrite _ hcab]

end

/-! ### Lines of a load or a store -/

theorem ofNat_cells_mod (m : List Host.Cell) (pa size : Nat) :
    ofBytes (cells m pa size) % 2 ^ (8 * size) = ofBytes (cells m pa size) := by
  have := ofBytes_lt (cells m pa size)
  rw [length_cells] at this
  exact Nat.mod_eq_of_lt this

section
variable {s : State} {n : Nat} {l : Line} {i : Instr} {pa size : Nat}

theorem pc_retireLine (t : State) (next : W64) : (t.retireLine n next).pc n = (t.pc n).retire next := pc_modPc _ _ _

theorem press_modPc_ne (t : State) (f : PressCtx → PressCtx) {m : Nat} (hm : m ≠ n) : (t.modPc n f).press m = t.press m := by
  simp [State.modPc, State.setPc, Ne.symm hm]

theorem isScalar_load {b : FormB} {op : Regs → FormB → Scal} (hd : slotOf i = some (slotLoad b op)) :
    IsScalar i (slotLoad b op) b.slot (fun r => op r b) := ⟨hd, rfl, rfl, rfl, rfl⟩

theorem isScalar_store {c : FormS} {op : Regs → FormS → Scal} (hd : slotOf i = some (slotS c op)) :
    IsScalar i (slotS c op) c.slot (fun r => op r c) := ⟨hd, rfl, rfl, rfl, rfl⟩

/-- The Line of a load of plain memory: the register has the value, memory and the other presses stay. -/
theorem load_line {b : FormB} {op : Regs → FormB → Scal} {signed : Bool} (h : OneSlot s n l i) (hx : exec i s = issue l i s)
    (hd : slotOf i = some (slotLoad b op)) (hop : op = fun r b => loadOp r b size signed)
    (hp : PlainWord s n (some (chaseOf n)) .rd (s.x n b.rs1 + b.imm.signExtend 64) pa size) :
    ∃ t, exec i s = .next t ∧
      t.pc n = ((s.pc n).setX b.rd.toNat (extend signed size (ofBytes (cells s.mem pa size)))).retire (s.nextLine n) ∧
      t.mem = s.mem ∧ ∀ m, m ≠ n → t.press m = s.press m := by
  subst hop
  have hcab := cabOnly_cabRange s (chaseOf n) pa size false (by have := hp.inDevice; omega)
  have he : s.slotEffect n b.slot (fun r => loadOp r b size signed) =
      ((s.cabRange (chaseOf n) pa size false).modPc n fun p =>
        p.setX b.rd.toNat (extend signed size (ofBytes (cells s.mem pa size))), 0) :=
    congrArg (·, (0 : Flags)) (access_load h.press h.bound hp signed b.rd.toNat (s.pc n).pc (slotNo b.slot))
  refine ⟨_, hx.trans (issue_silent h (isScalar_load hd) rfl he), ?_, hcab.mem, fun m hm => ?_⟩
  · refine (pc_retireLine _ _).trans ?_
    rw [pc_modPc, State.pc, hcab.press]
    rfl
  · exact (press_modPc_ne _ _ hm).trans ((press_modPc_ne _ _ hm).trans (hcab.press m))

/-- The Line of a store whose slot leaves a quiet device: what waits is looked at again in vain. -/
theorem store_line {c : FormS} {op : Regs → FormS → Scal} {u : State} (h : OneSlot s n l i) (hx : exec i s = issue l i s)
    (hd : slotOf i = some (slotS c op)) (he : s.slotEffect n c.slot (fun r => op r c) = (u, 0))
    (hq : Quiet u) (hu : u.presses = s.presses) :
    ∃ t, exec i s = .next t ∧ t.pc n = (s.pc n).retire (s.nextLine n) ∧ (∀ m, m ≠ n → t.press m = s.press m) ∧
      t.mem = u.mem := by
  have hpress (m : Nat) : u.press m = s.press m := by rw [State.press, hu]; rfl
  have hsettle : (u.retireLine n (s.nextLine n)).settle = u.retireLine n (s.nextLine n) :=
    settle_quiet (hq.modPc n _ rfl rfl rfl)
  refine ⟨u.retireLine n (s.nextLine n), (hx.trans (issue_scalar h (isScalar_store hd) he)).trans (congrArg _ hsettle), ?_, fun m hm => ?_, rfl⟩
  · rw [pc_retireLine, State.pc, hpress]
    rfl
  · exact (press_modPc_ne _ _ hm).trans (hpress m)

/-- The Line of a store to plain memory: its bytes are written, or none where the claim drops them (R124). -/
theorem store_plain {c : FormS} {op : Regs → FormS → Scal} (hq : Quiet s) (h : OneSlot s n l i) (hx : exec i s = issue l i s)
    (hd : slotOf i = some (slotS c op)) (hop : op = fun r c => storeOp r c size)
    (hp : PlainWord s n (some (chaseOf n)) .wr (s.x n c.rs1 + c.imm.signExtend 64) pa size)
    (hs : overlaps [(pa, size)] (s.sharedRuns n (s.runCtx n)) = []) :
    ∃ t, exec i s = .next t ∧ t.pc n = (s.pc n).retire (s.nextLine n) ∧ (∀ m, m ≠ n → t.press m = s.press m) ∧
      ((s.pc n).dropLatch = true → t.mem = s.mem) ∧
      ((s.pc n).dropLatch = false → t.mem = putCells s.mem pa (toBytes size (s.x n c.rs2).toNat)) := by
  subst hop
  cases hdrop : (s.pc n).dropLatch with
  | true =>
    have he : s.slotEffect n c.slot (fun r => storeOp r c size) = (s, 0) := by
      unfold State.slotEffect
      rw [hdrop]; rfl
    obtain ⟨t, hxt, hpc, hothers, hmem⟩ := store_line h hx hd he hq rfl
    exact ⟨t, hxt, hpc, hothers, fun _ => hmem, nofun⟩
  | false =>
    obtain ⟨u, hu, ha⟩ := access_store h.press hq hp hs (s.x n c.rs2) (s.pc n).pc (slotNo c.slot)
    have he : s.slotEffect n c.slot (fun r => storeOp r c size) =
        ({ u with mem := putCells s.mem pa (toBytes size (s.x n c.rs2).toNat) }, 0) := by
      unfold State.slotEffect
      rw [hdrop]
      exact congrArg (·, (0 : Flags)) ha
    have hquiet : Quiet { u with mem := putCells s.mem pa (toBytes size (s.x n c.rs2).toNat) } := by
      refine hq.same ?_
      constructor <;> (conv_rhs => rw [← hu])
    obtain ⟨t, hxt, hpc, hothers, hmem⟩ := store_line h hx hd he hquiet hu.presses
    exact ⟨t, hxt, hpc, hothers, nofun, fun _ => hmem⟩

end

/-- The value that a load of `size` bytes at an address of memory writes. -/
def loaded (s : State) (pa size : Nat) (signed : Bool) : W64 :=
  if signed then (BitVec.ofNat (8 * size) (ofBytes (cells s.mem pa size))).signExtend 64
  else BitVec.ofNat 64 (ofBytes (cells s.mem pa size))

theorem extend_cells (s : State) (pa size : Nat) (signed : Bool) :
    extend signed size (ofBytes (cells s.mem pa size)) = loaded s pa size signed := by
  rw [extend_eq, ofNat_cells_mod, loaded]

theorem loadResults : Claims.LoadResults := by
  intro s n l b pa
  have go {i : Instr} {size : Nat} {signed : Bool} (op : Regs → FormB → Scal) (hx : exec i s = issue l i s)
      (hd : slotOf i = some (slotLoad b op)) (hop : op = fun r b => loadOp r b size signed) (h : OneSlot s n l i)
      (hp : PlainWord s n (some (chaseOf n)) .rd (s.x n b.rs1 + b.imm.signExtend 64) pa size) :
      ∃ t, exec i s = .next t ∧ t.pc n = ((s.pc n).setX b.rd.toNat (loaded s pa size signed)).retire (s.nextLine n) ∧
        t.mem = s.mem ∧ ∀ m, m ≠ n → t.press m = s.press m :=
    extend_cells s pa size signed ▸ load_line h hx hd hop hp
  exact ⟨go opLb rfl rfl rfl, go opLh rfl rfl rfl, go opLw rfl rfl rfl, go opLd rfl rfl rfl, go opLbu rfl rfl rfl,
    go opLhu rfl rfl rfl, go opLwu rfl rfl rfl⟩

theorem storeResults : Claims.StoreResults := by
  intro s n l c pa hq
  have go {i : Instr} {size : Nat} (op : Regs → FormS → Scal) (hx : exec i s = issue l i s)
      (hd : slotOf i = some (slotS c op)) (hop : op = fun r c => storeOp r c size) (h : OneSlot s n l i)
      (hp : PlainWord s n (some (chaseOf n)) .wr (s.x n c.rs1 + c.imm.signExtend 64) pa size)
      (hs : overlaps [(pa, size)] (s.sharedRuns n (s.runCtx n)) = []) :
      ∃ t, exec i s = .next t ∧ t.pc n = (s.pc n).retire (s.nextLine n) ∧ (∀ m, m ≠ n → t.press m = s.press m) ∧
        ((s.pc n).dropLatch = true → t.mem = s.mem) ∧ ((s.pc n).dropLatch = false →
          (∀ j < size, cell t.mem (pa + j) = (s.x n c.rs2).extractLsb' (8 * j) 8) ∧
            ∀ a, a < pa ∨ pa + size ≤ a → cell t.mem a = cell s.mem a) := by
    obtain ⟨t, hxt, hpc, hothers, hdrop, hwrite⟩ := store_plain hq h hx hd hop hp hs
    exact ⟨t, hxt, hpc, hothers, hdrop, fun hd => hwrite hd ▸ cells_written s.mem pa size (s.x n c.rs2)⟩
  exact ⟨go opSb rfl rfl rfl, go opSh rfl rfl rfl, go opSw rfl rfl rfl, go opSd rfl rfl rfl⟩

/-- Settles O48: the case, loads and stores on a press. -/
theorem scalarAccess : Obligations.ScalarAccess := ⟨caseAccess, loadResults, storeResults⟩

end Sys2Proof.Machine


/-! SUPPORT. The answers to requests (R85, R98, R375): a teardown leaves a quiet device quiet and the context in TEARDOWN, and a
request that ends lets nothing else go on. -/

namespace Sys2Proof.Machine

/-! ### Operations that let nothing wait -/

/-- The contexts stay, and a quiet device stays quiet. -/
def KeepsQuiet (s t : State) : Prop := t.ctxs = s.ctxs ∧ (Quiet s → Quiet t)

theorem keepsQuiet_refl (s : State) : KeepsQuiet s s := ⟨rfl, id⟩

theorem KeepsQuiet.trans {s t u : State} (h : KeepsQuiet s t) (k : KeepsQuiet t u) : KeepsQuiet s u :=
  ⟨k.1.trans h.1, k.2 ∘ h.2⟩

theorem keepsQuiet_foldl {α : Type} (f : State → α → State) (l : List α) (h : ∀ s x, KeepsQuiet s (f s x)) (s : State) :
    KeepsQuiet s (l.foldl f s) := foldl_rel keepsQuiet_refl KeepsQuiet.trans f l (fun s x _ => h s x) s

/-- A fold that counts beside the state. -/
theorem keepsQuiet_foldl_count {α : Type} (f : State × Nat → α → State × Nat) (l : List α)
    (h : ∀ a x, KeepsQuiet a.1 (f a x).1) (a : State × Nat) : KeepsQuiet a.1 (l.foldl f a).1 :=
  foldl_rel (R := fun a b => KeepsQuiet a.1 b.1) (fun a => keepsQuiet_refl a.1) KeepsQuiet.trans f l (fun a x _ => h a x) a

/-- An operation on parts of the state in which nothing waits. -/
theorem keepsQuiet_same {s t : State} (hc : t.ctxs = s.ctxs) (h : SameWaits s t) : KeepsQuiet s t := ⟨hc, fun hq => hq.same h⟩

theorem keepsQuiet_setFolio (s : State) (f : Nat) (x : Folio) : KeepsQuiet s (s.setFolio f x) :=
  keepsQuiet_same rfl ⟨rfl, rfl, rfl, rfl, rfl, rfl, rfl⟩
theorem keepsQuiet_setKstream (s : State) (h : Nat) (k : KStream) : KeepsQuiet s (s.setKstream h k) :=
  keepsQuiet_same rfl ⟨rfl, rfl, rfl, rfl, rfl, rfl, rfl⟩
theorem keepsQuiet_setGset (s : State) (k : Nat) (x : GSet) : KeepsQuiet s (s.setGset k x) :=
  keepsQuiet_same rfl ⟨rfl, rfl, rfl, rfl, rfl, rfl, rfl⟩
theorem keepsQuiet_setGentry (s : State) (h : Nat) (e : GEntry) : KeepsQuiet s (s.setGentry h e) :=
  keepsQuiet_same rfl ⟨rfl, rfl, rfl, rfl, rfl, rfl, rfl⟩
theorem keepsQuiet_bump (s : State) (b : Block) (i o lo w k : Nat) : KeepsQuiet s (s.bump b i o lo w k) :=
  keepsQuiet_same rfl ⟨rfl, rfl, rfl, rfl, rfl, rfl, rfl⟩

theorem Quiet.setPart {s : State} (hq : Quiet s) (p : Nat) (x : Part) (h : x.jobs = (s.part p).jobs) :
    Quiet (s.setPart p x) where
  presses := hq.presses
  comps := hq.comps
  hosts := hq.hosts
  requests := hq.requests
  jobs e he := by
    rcases mem_mset _ _ _ _ _ he with he | rfl
    · exact hq.jobs e he
    · refine h.trans ?_
      rcases mget_mem ({} : Part) s.parts p with hp | hp
      · rw [State.part, hp]
      · exact hq.jobs _ hp
  areas := hq.areas
  loads := hq.loads

theorem keepsQuiet_poolGive (s : State) (p i n : Nat) : KeepsQuiet s (s.poolGive p i n) :=
  ⟨rfl, fun hq => hq.setPart p _ rfl⟩

/-! ### Folios and galley sets returned (R171, R194) -/

theorem keepsQuiet_freeFolio (s : State) (f : Nat) : KeepsQuiet s (s.freeFolio f) := by
  unfold State.freeFolio
  simp only
  split
  · exact keepsQuiet_setFolio ..
  · split
    · exact (keepsQuiet_setFolio ..).trans (keepsQuiet_poolGive ..)
    · exact KeepsQuiet.trans (t := { s with folios := mdel s.folios f })
        (keepsQuiet_same rfl ⟨rfl, rfl, rfl, rfl, rfl, rfl, rfl⟩) (keepsQuiet_poolGive ..)

theorem keepsQuiet_dropRef (fuel : Nat) (s : State) (f : Nat) : KeepsQuiet s (dropRef fuel s f).1 := by
  induction fuel generalizing s f with
  | zero => exact keepsQuiet_refl s
  | succ fuel ih =>
    unfold dropRef
    simp only
    split
    · exact keepsQuiet_setFolio ..
    · refine KeepsQuiet.trans ?_ (keepsQuiet_freeFolio ..)
      exact keepsQuiet_foldl_count (fun a e => ((dropRef fuel a.1 e.2).1, a.2 + (dropRef fuel a.1 e.2).2)) (s.folio f).kids
        (fun a e => ih a.1 e.2) (s, 0)

theorem keepsQuiet_dropFolio (s : State) (f : Nat) : KeepsQuiet s (s.dropFolio f).1 := keepsQuiet_dropRef 4 s f

theorem keepsQuiet_releaseStream (s : State) (h : Nat) : KeepsQuiet s (s.releaseStream h).1 :=
  (keepsQuiet_dropFolio s (s.kstream h).root).trans (keepsQuiet_same rfl ⟨rfl, rfl, rfl, rfl, rfl, rfl, rfl⟩)

theorem keepsQuiet_freeSet (s : State) (k : Nat) : KeepsQuiet s (s.freeSet k) := by
  unfold State.freeSet
  simp only
  split
  · exact keepsQuiet_setGset ..
  · exact KeepsQuiet.trans (t := { s with gsets := mdel s.gsets k })
      (keepsQuiet_same rfl ⟨rfl, rfl, rfl, rfl, rfl, rfl, rfl⟩) (keepsQuiet_poolGive ..)

theorem keepsQuiet_dropSet (s : State) (k : Nat) : KeepsQuiet s (s.dropSet k).1 := by
  unfold State.dropSet
  simp only
  split
  · exact keepsQuiet_setGset ..
  · split
    · exact keepsQuiet_setGset ..
    · exact keepsQuiet_setGset ..

theorem keepsQuiet_swapSets (s : State) (h : Nat) : KeepsQuiet s (s.swapSets h) := by
  unfold State.swapSets
  simp only
  split
  · exact ((keepsQuiet_setGset ..).trans (keepsQuiet_dropSet ..)).trans (keepsQuiet_setGentry ..)
  · exact keepsQuiet_refl s

/-- The steps of `State.returnSets`: a set given back, the current set dropped, the swap slot given back. -/
def giveSet (a : State × Nat) (k : Option Nat) : State × Nat :=
  match k with
  | some k => (a.1.freeSet k, a.2 + 1)
  | none => a
def dropCurrent (e : GEntry) (a : State × Nat) : State × Nat :=
  match e.cur with
  | some k => giveSet ((a.1.dropSet k).1, a.2) (a.1.dropSet k).2
  | none => a
def giveSlot (e : GEntry) (s : State) : State :=
  match e.slot with
  | some k =>
    ({ s with gslots := mdel s.gslots k }).poolGive (mget ({} : GSlot) s.gslots k).part Pool.swap
      (mget ({} : GSlot) s.gslots k).units
  | none => s

theorem returnSets_steps (s : State) (h : Nat) : (s.returnSets h).1 =
    (giveSlot (s.gentry h) ((s.gentry h).extra.foldl (fun a k => giveSet a (some k))
      (dropCurrent (s.gentry h) (giveSet (s, 0) (s.gentry h).spare))).1).setGentry h
        { s.gentry h with cur := none, spare := none, extra := [], slot := none } := rfl

theorem keepsQuiet_giveSet (a : State × Nat) (k : Option Nat) : KeepsQuiet a.1 (giveSet a k).1 := by
  cases k with
  | none => exact keepsQuiet_refl _
  | some k => exact keepsQuiet_freeSet _ k

theorem keepsQuiet_dropCurrent (e : GEntry) (a : State × Nat) : KeepsQuiet a.1 (dropCurrent e a).1 := by
  unfold dropCurrent
  split
  · exact (keepsQuiet_dropSet ..).trans (keepsQuiet_giveSet ..)
  · exact keepsQuiet_refl _

theorem keepsQuiet_giveSlot (e : GEntry) (s : State) : KeepsQuiet s (giveSlot e s) := by
  unfold giveSlot
  split
  · exact KeepsQuiet.trans (t := { s with gslots := mdel s.gslots _ })
      (keepsQuiet_same rfl ⟨rfl, rfl, rfl, rfl, rfl, rfl, rfl⟩) (keepsQuiet_poolGive ..)
  · exact keepsQuiet_refl _

theorem keepsQuiet_returnSets (s : State) (h : Nat) : KeepsQuiet s (s.returnSets h).1 := by
  rw [returnSets_steps]
  refine KeepsQuiet.trans ?_ (keepsQuiet_setGentry ..)
  refine KeepsQuiet.trans ?_ (keepsQuiet_giveSlot ..)
  refine KeepsQuiet.trans ?_ (keepsQuiet_foldl_count _ _ (fun a k => keepsQuiet_giveSet a (some k)) _)
  exact (keepsQuiet_giveSet (s, 0) _).trans (keepsQuiet_dropCurrent ..)

theorem keepsQuiet_dropEntry (s : State) (h : Nat) : KeepsQuiet s (s.dropEntry h) := by
  unfold State.dropEntry
  simp only
  split
  · exact keepsQuiet_same rfl ⟨rfl, rfl, rfl, rfl, rfl, rfl, rfl⟩
  · exact keepsQuiet_setGentry ..

theorem keepsQuiet_releaseGalley (s : State) (h : Nat) : KeepsQuiet s (s.releaseGalley h).1 :=
  ((keepsQuiet_returnSets s h).trans (keepsQuiet_setGentry ..)).trans (keepsQuiet_dropEntry ..)

/-! ### Regions rejected (R229, R230) -/

theorem keepsQuiet_undoKern (s : State) (b : KBind) : KeepsQuiet s (s.undoKern b) := by
  unfold State.undoKern
  split
  · exact keepsQuiet_refl s
  · split
    · exact keepsQuiet_releaseStream ..
    · exact (keepsQuiet_dropFolio ..).trans (keepsQuiet_setKstream ..)

theorem keepsQuiet_inSlot (s : State) (k : Nat) (x : GSlot) : KeepsQuiet s { s with gslots := mput s.gslots k x } :=
  keepsQuiet_same rfl ⟨rfl, rfl, rfl, rfl, rfl, rfl, rfl⟩

theorem keepsQuiet_restoreGalley (s : State) (h : Nat) (g : GSnap) : KeepsQuiet s (s.restoreGalley h g) := by
  unfold State.restoreGalley
  refine KeepsQuiet.trans ?_ (keepsQuiet_setGentry ..)
  split
  · exact keepsQuiet_refl s
  · split
    · exact keepsQuiet_inSlot ..
    · exact keepsQuiet_inSlot ..
    · split
      · exact (keepsQuiet_setGset ..).trans (keepsQuiet_swapSets ..)
      · exact keepsQuiet_refl s

theorem keepsQuiet_unbindGalley (s : State) (h : Nat) : KeepsQuiet s (s.unbindGalley h) := by
  unfold State.unbindGalley
  split
  · exact keepsQuiet_setGentry ..
  · exact keepsQuiet_refl s

theorem keepsQuiet_undoGalley (s : State) (b : GBind) : KeepsQuiet s (s.undoGalley b) := by
  unfold State.undoGalley
  split
  · exact keepsQuiet_refl s
  · split
    · exact keepsQuiet_releaseGalley ..
    · refine KeepsQuiet.trans ?_ (keepsQuiet_unbindGalley ..)
      split
      · exact keepsQuiet_restoreGalley ..
      · exact keepsQuiet_refl s

/-- A change of a press's state of a context that lets nothing wait. -/
structure Gentle (f : PressCtx → PressCtx) : Prop where
  away : ∀ p, p.away = false → (f p).away = false
  hold : ∀ p, p.hold.quiet → (f p).hold.quiet
  watch : ∀ p, p.watch = none → (f p).watch = none

/-- A save slot with its press state changed where it is a context's. -/
def changeSlot (c : Nat) (f : PressCtx → PressCtx) (o : Option Slot) : Option Slot :=
  match o with
  | some x => if x.ctx = c then some { x with st := f x.st } else some x
  | none => none

theorem changeSlot_away {f : PressCtx → PressCtx} (hf : Gentle f) (c : Nat) (o : Option Slot)
    (h : ∀ x ∈ o.toList, x.st.away = false) : ∀ x ∈ (changeSlot c f o).toList, x.st.away = false := by
  cases o with
  | none => exact h
  | some y =>
    have hy := h y (by simp)
    by_cases hc : y.ctx = c <;> simp [changeSlot, hc, hf.away _ hy, hy]

theorem PressQuiet.change {f : PressCtx → PressCtx} (hf : Gentle f) {p : Press} (hp : PressQuiet p) :
    PressQuiet { p with cur := f p.cur } :=
  ⟨hf.away _ hp.here, hf.hold _ hp.hold, hf.watch _ hp.watch, hp.saved⟩

theorem PressQuiet.changeSlots {f : PressCtx → PressCtx} (hf : Gentle f) (c : Nat) {p : Press} (hp : PressQuiet p) :
    PressQuiet { p with slotA := changeSlot c f p.slotA, slotB := changeSlot c f p.slotB } := by
  obtain ⟨hhere, hhold, hwatch, hsaved⟩ := hp
  refine ⟨hhere, hhold, hwatch, fun x hx => ?_⟩
  rcases List.mem_append.1 hx with hx | hx
  · exact changeSlot_away hf c _ (fun y hy => hsaved y (List.mem_append_left _ hy)) x hx
  · exact changeSlot_away hf c _ (fun y hy => hsaved y (List.mem_append_right _ hy)) x hx

theorem keepsQuiet_modOf (s : State) (n c : Nat) {f : PressCtx → PressCtx} (hf : Gentle f) : KeepsQuiet s (s.modOf n c f) := by
  unfold State.modOf
  simp only
  split
  · exact ⟨rfl, fun hq => hq.setPress n _ ((hq.press n).change hf)⟩
  · exact ⟨rfl, fun hq => hq.setPress n _ ((hq.press n).changeSlots hf c)⟩

theorem keepsQuiet_leaveRegion (s : State) (c r : Nat) : KeepsQuiet s (s.leaveRegion c r) := by
  refine keepsQuiet_modOf s _ _ ⟨fun p hp => ?_, fun p hp => ?_, fun p hp => ?_⟩
  · split <;> exact hp
  · split
    · simp only
      split
      · trivial
      · exact hp
    · exact hp
  · split <;> exact hp

theorem keepsQuiet_setChase (s : State) (c : Nat) (x : Chase) : KeepsQuiet s (s.setChase c x) :=
  keepsQuiet_same rfl ⟨rfl, rfl, rfl, rfl, rfl, rfl, rfl⟩

theorem keepsQuiet_closeRegion (s : State) (c r : Nat) : KeepsQuiet s (s.closeRegion c r) := by
  unfold State.closeRegion
  extract_lets x s'
  have hgive : KeepsQuiet s s' := (keepsQuiet_poolGive s _ _ _).trans (keepsQuiet_poolGive _ _ _ _)
  exact hgive.trans (keepsQuiet_setChase s' ..)

theorem keepsQuiet_rejectRegion (s : State) (c r : Nat) : KeepsQuiet s (s.rejectRegion c r) := by
  unfold State.rejectRegion
  refine KeepsQuiet.trans ?_ (keepsQuiet_bump ..)
  refine KeepsQuiet.trans ?_ (keepsQuiet_closeRegion ..)
  refine KeepsQuiet.trans ?_ (keepsQuiet_leaveRegion ..)
  exact (keepsQuiet_foldl _ _ (fun s b => keepsQuiet_undoKern s b) _).trans
    (keepsQuiet_foldl _ _ (fun s b => keepsQuiet_undoGalley s b) _)

/-! ### The steps of a teardown (R315) -/

theorem keepsQuiet_endRegions (s : State) (c : Nat) : KeepsQuiet s (s.endRegions c) := by
  refine keepsQuiet_foldl _ _ (fun s ch => keepsQuiet_foldl _ _ (fun s e => ?_) s) s
  split
  · exact keepsQuiet_rejectRegion ..
  · exact keepsQuiet_refl s

theorem gentle_discard : Gentle PressCtx.discard := ⟨fun _ _ => rfl, fun _ h => h, fun _ _ => rfl⟩

/-- A press of a context stopped. -/
def stopPress (c : Nat) (p : Press) : Press :=
  let p := { p with slotA := changeSlot c PressCtx.discard p.slotA, slotB := changeSlot c PressCtx.discard p.slotB }
  if p.run = some c then { p with st := .zeroizing, cur := p.cur.discard, gathered := [] } else p

theorem stopPresses_eq (s : State) (c : Nat) :
    s.stopPresses c = { s with presses := mmap (fun _ p => stopPress c p) s.presses } := by
  have hslot (o : Option Slot) :
      (o.map fun x => if x.ctx = c then { x with st := x.st.discard } else x) = changeSlot c PressCtx.discard o := by
    cases o with
    | none => rfl
    | some x => by_cases hx : x.ctx = c <;> simp [changeSlot, hx]
  simp only [State.stopPresses, stopPress, hslot]

theorem PressQuiet.stop (c : Nat) {p : Press} (hp : PressQuiet p) : PressQuiet (stopPress c p) := by
  have hs := hp.changeSlots gentle_discard c
  unfold stopPress
  simp only
  split
  · obtain ⟨h1, h2, h3, h4⟩ := hs.change gentle_discard
    exact ⟨h1, h2, h3, h4⟩
  · exact hs

theorem Quiet.withPresses {s : State} (hq : Quiet s) (m : Map Press) (h : ∀ e ∈ m, PressQuiet e.2) :
    Quiet { s with presses := m } where
  presses e he := by
    obtain ⟨h1, h2, h3, h4⟩ := h e he
    exact ⟨h1, h2, h3, h4⟩
  comps := hq.comps
  hosts := hq.hosts
  requests := hq.requests
  jobs := hq.jobs
  areas := hq.areas
  loads := hq.loads

theorem keepsQuiet_stopPresses (s : State) (c : Nat) : KeepsQuiet s (s.stopPresses c) := by
  rw [stopPresses_eq]
  refine ⟨rfl, fun hq => hq.withPresses _ fun e he => ?_⟩
  obtain ⟨e', he', rfl⟩ := List.mem_map.1 he
  obtain ⟨h1, h2, h3, h4⟩ := hq.presses _ he'
  exact PressQuiet.stop c ⟨h1, h2, h3, h4⟩

theorem keepsQuiet_endStreams (s : State) (c : Nat) : KeepsQuiet s (s.endStreams c) := by
  refine (keepsQuiet_foldl _ _ (fun s e => ?_) s).trans (keepsQuiet_foldl _ _ (fun s e => ?_) _)
  · split
    · exact keepsQuiet_releaseStream ..
    · exact keepsQuiet_refl s
  · split
    · exact (keepsQuiet_returnSets ..).trans (keepsQuiet_same rfl ⟨rfl, rfl, rfl, rfl, rfl, rfl, rfl⟩)
    · exact keepsQuiet_refl s

theorem keepsQuiet_setTakes (s : State) (m : Map Take) : KeepsQuiet s { s with takes := m } :=
  keepsQuiet_same rfl ⟨rfl, rfl, rfl, rfl, rfl, rfl, rfl⟩

theorem keepsQuiet_send (s : State) (n : Nat) (m : Msg) : KeepsQuiet s (s.send n m) := by
  unfold State.send
  simp only
  split
  · exact keepsQuiet_same rfl ⟨rfl, rfl, rfl, rfl, rfl, rfl, rfl⟩
  · exact keepsQuiet_refl s

theorem keepsQuiet_freshWord (s : State) : KeepsQuiet s s.freshWord.2 :=
  keepsQuiet_same rfl ⟨rfl, rfl, rfl, rfl, rfl, rfl, rfl⟩

theorem keepsQuiet_postRecord (s : State) (q : Nat) (r : Completion) : KeepsQuiet s (s.postRecord q r) := by
  unfold State.postRecord
  simp only
  split
  · exact keepsQuiet_send ..
  · exact keepsQuiet_same rfl ⟨rfl, rfl, rfl, rfl, rfl, rfl, rfl⟩

theorem keepsQuiet_recordTake (s : State) (k press : Nat) (fault : Option FaultRec) (gen : W32) :
    KeepsQuiet s (s.recordTake k press fault gen) := by
  unfold State.recordTake
  split
  · exact keepsQuiet_refl s
  · exact ((keepsQuiet_freshWord s).trans (keepsQuiet_setTakes ..)).trans (keepsQuiet_postRecord ..)

/-- A take marked and its record written. -/
theorem keepsQuiet_endTake (s : State) (k press : Nat) (t : Take) (fault : Option FaultRec) (gen : W32) :
    KeepsQuiet s ({ s with takes := mput s.takes k t }.recordTake k press fault gen) :=
  KeepsQuiet.trans (t := { s with takes := mput s.takes k t }) (keepsQuiet_setTakes ..) (keepsQuiet_recordTake ..)

theorem keepsQuiet_endTakes (s : State) (c : Nat) : KeepsQuiet s (s.endTakes c) := by
  unfold State.endTakes
  extract_lets x hit
  refine keepsQuiet_foldl _ _ (fun s e => ?_) s
  split
  · split
    · exact keepsQuiet_endTake ..
    · exact keepsQuiet_endTake ..
  · exact keepsQuiet_refl s

theorem keepsQuiet_wipe (s : State) (m : Map Byte) : KeepsQuiet s { s with mem := m } :=
  keepsQuiet_same rfl ⟨rfl, rfl, rfl, rfl, rfl, rfl, rfl⟩

/-- A saved slot given up where it is a context's. -/
def dropSlot (c : Nat) (o : Option Slot) : Option Slot :=
  match o with
  | some x => if x.ctx = c then none else some x
  | none => none

theorem dropSlot_away (c : Nat) (o : Option Slot) (x : Slot) (h : x ∈ (dropSlot c o).toList) : x ∈ o.toList := by
  cases o with
  | none => exact h
  | some y =>
    by_cases hc : y.ctx = c
    · simp [dropSlot, hc] at h
    · simpa [dropSlot, hc] using h

theorem PressQuiet.dropSlots (c : Nat) {p : Press} (hp : PressQuiet p) :
    PressQuiet { p with slotA := dropSlot c p.slotA, slotB := dropSlot c p.slotB } := by
  obtain ⟨hhere, hhold, hwatch, hsaved⟩ := hp
  refine ⟨hhere, hhold, hwatch, fun x hx => hsaved x ?_⟩
  rcases List.mem_append.1 hx with hx | hx
  · exact List.mem_append_left _ (dropSlot_away c _ x hx)
  · exact List.mem_append_right _ (dropSlot_away c _ x hx)

theorem keepsQuiet_zeroPress (s : State) (n : Nat) : KeepsQuiet s (s.zeroPress n) := by
  refine (keepsQuiet_wipe s _).trans ⟨rfl, fun hq => hq.setPress n _ ?_⟩
  obtain ⟨-, -, -, hsaved⟩ := hq.press n
  exact ⟨rfl, trivial, rfl, hsaved⟩

theorem keepsQuiet_dropSlots (s : State) (n c : Nat) : KeepsQuiet s (s.setPress n { s.press n with
    slotA := dropSlot c (s.press n).slotA, slotB := dropSlot c (s.press n).slotB }) :=
  ⟨rfl, fun hq => hq.setPress n _ ((hq.press n).dropSlots c)⟩

theorem keepsQuiet_fewerComps (s : State) (p : Nat × Comp → Bool) : KeepsQuiet s { s with comps := s.comps.filter p } :=
  ⟨rfl, fun hq =>
    { presses := hq.presses, comps := fun e he => hq.comps e (List.mem_filter.1 he).1, hosts := hq.hosts
      requests := hq.requests, jobs := hq.jobs, areas := hq.areas, loads := hq.loads }⟩

theorem keepsQuiet_endSubs (s : State) (m : Map SubTake) (ch : Map Chase) :
    KeepsQuiet s { s with subs := m, chases := ch } := keepsQuiet_same rfl ⟨rfl, rfl, rfl, rfl, rfl, rfl, rfl⟩

theorem keepsQuiet_endPresses (s : State) (c : Nat) : KeepsQuiet s (s.endPresses c) := by
  unfold State.endPresses
  extract_lets drop u v
  have hu : KeepsQuiet s u := by
    refine keepsQuiet_foldl _ _ (fun s n => ?_) s
    have hslots : KeepsQuiet s (if (s.press n).slotA.isSome || (s.press n).slotB.isSome then
        s.setPress n { s.press n with slotA := dropSlot c (s.press n).slotA, slotB := dropSlot c (s.press n).slotB }
        else s) := by
      split
      · exact keepsQuiet_dropSlots ..
      · exact keepsQuiet_refl s
    simp only
    split
    · exact hslots.trans (keepsQuiet_zeroPress ..)
    · exact hslots
  have hv : KeepsQuiet u v := keepsQuiet_fewerComps u _
  clear_value v
  exact (hu.trans hv).trans (keepsQuiet_endSubs v _ _)

theorem keepsQuiet_loseMember (s : State) (c : Nat) : KeepsQuiet s (s.loseMember c) := by
  unfold State.loseMember
  simp only
  split
  · exact keepsQuiet_refl s
  · exact keepsQuiet_same rfl ⟨rfl, rfl, rfl, rfl, rfl, rfl, rfl⟩

theorem keepsQuiet_sweepFolios (s : State) : KeepsQuiet s s.sweepFolios :=
  keepsQuiet_same rfl ⟨rfl, rfl, rfl, rfl, rfl, rfl, rfl⟩

theorem keepsQuiet_teardownRest (s : State) (c : Nat) : KeepsQuiet s (s.teardownRest c) :=
  ((((keepsQuiet_endStreams s c).trans (keepsQuiet_endTakes ..)).trans (keepsQuiet_endPresses ..)).trans
    (keepsQuiet_sweepFolios _)).trans (keepsQuiet_loseMember ..)

/-! ### Error records (R445 to R447) -/

theorem keepsQuiet_wideEvent (s : State) (st : Status) (d : W64) (k : W32) : KeepsQuiet s (s.wideEvent st d k) := by
  unfold State.wideEvent
  simp only
  refine (keepsQuiet_freshWord s).trans ?_
  split
  · exact keepsQuiet_send ..
  · exact keepsQuiet_same rfl ⟨rfl, rfl, rfl, rfl, rfl, rfl, rfl⟩

theorem keepsQuiet_rasError (s : State) (cls : Nat) (st : Status) (x : ErrAt) : KeepsQuiet s (s.rasError cls st x) := by
  unfold State.rasError State.rasErrorAs
  simp only
  split
  · refine KeepsQuiet.trans ?_ (keepsQuiet_wideEvent ..)
    split
    · exact keepsQuiet_same rfl ⟨rfl, rfl, rfl, rfl, rfl, rfl, rfl⟩
    · exact keepsQuiet_same rfl ⟨rfl, rfl, rfl, rfl, rfl, rfl, rfl⟩
  · split
    · exact keepsQuiet_same rfl ⟨rfl, rfl, rfl, rfl, rfl, rfl, rfl⟩
    · exact keepsQuiet_same rfl ⟨rfl, rfl, rfl, rfl, rfl, rfl, rfl⟩

/-! ### A teardown begun by a fault found after issue (R98, R314) -/

/-- A quiet device in which the teardown of a context has begun, with its status. -/
structure TornDown (t : State) (c : Nat) (st : Status) : Prop where
  quiet : Quiet t
  state : (t.ctx c).st = .teardown
  status : (t.ctx c).endStatus = st

theorem KeepsQuiet.ctx {s t : State} (h : KeepsQuiet s t) (c : Nat) : t.ctx c = s.ctx c := congrArg (mget ({} : Ctx) · c) h.1

theorem TornDown.keeps {s t : State} {c : Nat} {st : Status} (h : TornDown s c st) (k : KeepsQuiet s t) : TornDown t c st :=
  ⟨k.2 h.quiet, by rw [k.ctx, h.state], by rw [k.ctx, h.status]⟩

theorem Quiet.setCtx {s : State} (hq : Quiet s) (c : Nat) (x : Ctx) : Quiet (s.setCtx c x) :=
  hq.same ⟨rfl, rfl, rfl, rfl, rfl, rfl, rfl⟩

theorem teardown_active {s : State} {c : Nat} (hq : Quiet s) (ha : (s.ctx c).st = .active) (st : Status) :
    TornDown (s.teardown c st) c st := by
  have hset : TornDown (s.setCtx c { s.ctx c with st := .teardown, endStatus := st }) c st :=
    ⟨hq.setCtx _ _, by simp, by simp⟩
  have hstop := hset.keeps ((keepsQuiet_stopPresses _ c).trans (keepsQuiet_endRegions _ c))
  unfold State.teardown
  simp only [ha]
  rw [if_neg (by simp)]
  split
  · exact hstop
  · exact hstop.keeps (keepsQuiet_teardownRest _ c)

theorem gentle_fail (async : Bool) (st : Status) (slot : BitVec 3) (pc va : W64) :
    Gentle fun p => p.fail async st slot pc va := by
  refine ⟨fun p hp => ?_, fun p hp => ?_, fun p hp => ?_⟩ <;> unfold PressCtx.fail <;> split <;> exact hp

theorem faultOn_active {s : State} {c : Nat} (hq : Quiet s) (ha : (s.ctx c).st = .active) (n : Nat) (async : Bool)
    (st : Status) (slot : BitVec 3) (pc va : W64) : TornDown (s.faultOn n c async st slot pc va) c st := by
  have hf := keepsQuiet_modOf s n c (gentle_fail async st slot pc va)
  unfold State.faultOn
  extract_lets s' x s''
  have hx : x.st = .active := (congrArg Ctx.st (hf.ctx c)).trans ha
  have hs'' : Quiet s'' ∧ (s''.ctx c).st = .active := by
    unfold s''
    split
    · exact ⟨(hf.2 hq).setCtx _ _, by simp [hx]⟩
    · exact ⟨hf.2 hq, hx⟩
  exact teardown_active hs''.1 hs''.2 st

theorem late_active {s : State} {c : Nat} (hq : Quiet s) (ha : (s.ctx c).st = .active) (n : Nat)
    (st : Status) (slot : BitVec 3) (pc va : W64) : TornDown (s.late n c st slot pc va) c st := by
  simp only [State.late, ha, if_true]
  exact (faultOn_active hq ha n true st slot pc va).keeps (keepsQuiet_rasError ..)

/-! ### The end of the one request outstanding -/

/-- The one request of a device in which nothing else waits, of an active context that runs on press `n`. -/
structure OneRequest (s : State) (tag : Nat) (q : Request) (n : Nat) : Prop where
  core : n < 128
  only : s.requests = [(tag, q)]
  quiet : Quiet { s with requests := [] }
  sent : q.held = none
  whole : q.failed = none
  active : (s.ctx q.ctx).st = .active
  running : (s.press n).run = some q.ctx

/-- The state after the request has ended, before anything lands. -/
def State.ended (s : State) (c : Nat) : State :=
  ({ s with requests := [] }).setCtx c { s.ctx c with remoteOut := (s.ctx c).remoteOut - 1 }

theorem ended_remoteOut (s : State) (c : Nat) : ((s.ended c).ctx c).remoteOut = (s.ctx c).remoteOut - 1 := by
  simp [State.ended]

section
variable {s : State} {tag n : Nat} {q : Request} (h : OneRequest s tag q n)
include h

theorem retire_only (hown : q.cause.own = false) : s.retire tag q = s.ended q.ctx := by
  have hend : s.endRequest tag = { s with requests := [] } := by
    rw [State.endRequest, h.only, mdel, if_pos rfl]; rfl
  rw [State.retire, hend, hown]; rfl

theorem ended_quiet : Quiet (s.ended q.ctx) := h.quiet.setCtx _ _

theorem ended_active : ((s.ended q.ctx).ctx q.ctx).st = .active := by simp [State.ended, h.active]

theorem quoinRequest_only {tag' : W32} (ht : tag'.toNat = tag) {kind : Nat} (hk : q.kind = kind) :
    s.quoinRequest tag' kind = some q := by
  simp [State.quoinRequest, State.request?, h.only, ht, mfind?, hk, h.sent, h.whole]

/-- The data of a read reaches the register of the load that asked. -/
theorem endRead_load {rd size : Nat} {signed : Bool} (hc : q.cause = .load n rd size signed) (bs : List Byte) :
    s.endRead tag q bs = (s.ended q.ctx).modPc n fun p => p.setX rd (extend signed size (ofBytes bs)) := by
  have hput : (s.ended q.ctx).landData q bs =
      (s.ended q.ctx).modPc n fun p => p.setX rd (extend signed size (ofBytes bs)) := by
    simp only [State.landData, hc, Cause.own, ended_active h]
    exact (if_pos h.core).trans (modOf_running _ n q.ctx _ h.running)
  rw [State.endRead, retire_only h (by rw [hc]; rfl), hput]
  refine settle_quiet ((ended_quiet h).modPc n _ ?_ ?_ ?_) <;> unfold PressCtx.setX <;> split <;> rfl

theorem endWrite_store (hc : q.cause = .store n) : s.endWrite tag q = s.ended q.ctx := by
  rw [State.endWrite, retire_only h (by rw [hc]; rfl), State.landDone, hc]
  exact settle_quiet (ended_quiet h)

theorem endWrite_signal (hc : q.cause = .signal n) :
    s.endWrite tag q = (s.ended q.ctx).modPc n fun p => p.signal q.mark := by
  have hland : (s.ended q.ctx).landDone q = (s.ended q.ctx).modPc n fun p => p.signal q.mark := by
    simp only [State.landDone, hc, ended_active h, if_true]
    exact modOf_running (s.ended q.ctx) n q.ctx _ h.running
  rw [State.endWrite, retire_only h (by rw [hc]; rfl), hland]
  refine settle_quiet ((ended_quiet h).modPc n _ ?_ ?_ ?_) <;> cases q.mark <;> rfl

/-- A request of press `n` that fails is a fault found after issue. -/
theorem endFail_tearsDown (hc : (∃ rd size signed, q.cause = .load n rd size signed) ∨ q.cause = .store n ∨
    q.cause = .signal n) (st : Status) : TornDown (s.endFail tag q st) q.ctx st := by
  have hlate : (s.ended q.ctx).coreLate n q.ctx st (BitVec.ofNat 3 q.slot) q.pc q.va =
      (s.ended q.ctx).late n q.ctx st (BitVec.ofNat 3 q.slot) q.pc q.va := if_pos h.core
  have htorn := late_active (ended_quiet h) (ended_active h) n st (BitVec.ofNat 3 q.slot) q.pc q.va
  rcases hc with ⟨rd, size, signed, hc⟩ | hc | hc
  all_goals
    simp only [State.endFail, retire_only h (hc ▸ rfl : q.cause.own = false), State.requestFault, hc, hlate,
      settle_quiet htorn.quiet]
    exact htorn

end

/-! ### A packet taken from a link -/

/-- The state in which a packet that has come whole is read (R368, R371). -/
def State.delivered (s : State) (l : Nat) (p : Packet) : State :=
  (s.setLink l ((s.link l).deliver p)).noteSeq l p

theorem onPacket_delivered {s : State} {l typ : Nat} {p : Packet} (hd : Delivered s l p typ) (f : State → State) :
    onPacket l p typ s false f = .next (f (s.delivered l p)) := by
  obtain ⟨hl, hup, htyp, hzero, hossel, hfirst, hmine⟩ := hd
  have hin : s.packetIn l p f = f (s.delivered l p) := by
    have hdest : (p.dest = ((s.setLink l ((s.link l).deliver p)).noteSeq l p).myId) := hmine
    simp [State.packetIn, hzero, hossel, State.taken?, hfirst, ← hdest, State.delivered]
  simp [onPacket, htyp, hup, hin]
  omega

/-- Taking a packet changes the links alone. -/
theorem delivered_links (s : State) (l : Nat) (p : Packet) : ∃ m, s.delivered l p = { s with links := m } := ⟨_, rfl⟩

theorem OneRequest.delivered {s : State} {tag n : Nat} {q : Request} (h : OneRequest s tag q n) (l : Nat) (p : Packet) :
    OneRequest (s.delivered l p) tag q n := by
  obtain ⟨m, hm⟩ := delivered_links s l p
  rw [hm]
  exact ⟨h.core, h.only, h.quiet.same ⟨rfl, rfl, rfl, rfl, rfl, rfl, rfl⟩, h.sent, h.whole, h.active, h.running⟩

/-! ### O36 -/

theorem exec_rdResp (l : Nat) (p : Packet) (s : State) : exec (.rdResp l p) s = execRdResp l p s := rfl
theorem exec_wrAck (l : Nat) (p : Packet) (s : State) : exec (.wrAck l p) s = execWrAck l p s := rfl
theorem exec_atomAck (l : Nat) (p : Packet) (s : State) : exec (.atomAck l p) s = execAtomAck l p s := rfl
theorem exec_timeout (tag : W32) (s : State) : exec (.requestTimeout tag) s = .next (s.timeout tag) := rfl

section
variable {s : State} {l n : Nat} {p : Packet} {q : Request} (h : OneRequest s p.tag.toNat q n)
include h

theorem exec_rdResp_ok (hd : Delivered s l p 2) (hk : q.kind = 0) (hlen : p.data.length = q.len) (hst : p.status = 0) :
    exec (.rdResp l p) s = .next ((s.delivered l p).endRead p.tag.toNat q p.data) := by
  refine (onPacket_delivered hd _).trans ?_
  simp [State.readAnswer, quoinRequest_only (h.delivered l p) rfl hk, hst, hlen]

theorem exec_rdResp_failed (hd : Delivered s l p 2) (hk : q.kind = 0) (hst : p.status ≠ 0) :
    exec (.rdResp l p) s =
      .next ((s.delivered l p).endFail p.tag.toNat q (St.passOn St.remoteUnreachable p.status)) := by
  rw [exec_rdResp, execRdResp, onPacket_delivered hd, State.readAnswer, quoinRequest_only (h.delivered l p) rfl hk]
  exact congrArg Host.Outcome.next (if_pos hst)

theorem onWrite_ok {typ kind : Nat} (hd : Delivered s l p typ) (hk : q.kind = kind) (hst : p.status = 0) :
    onPacket l p typ s false (fun s => s.writeAnswer p kind) =
      .next ((s.delivered l p).endWrite p.tag.toNat q) := by
  rw [onPacket_delivered hd, State.writeAnswer, quoinRequest_only (h.delivered l p) rfl hk]
  exact congrArg Host.Outcome.next (if_neg (not_not.2 hst))

theorem onWrite_failed {typ kind : Nat} (hd : Delivered s l p typ) (hk : q.kind = kind) (hst : p.status ≠ 0) :
    onPacket l p typ s false (fun s => s.writeAnswer p kind) =
      .next ((s.delivered l p).endFail p.tag.toNat q (St.passOn St.remoteUnreachable p.status)) := by
  rw [onPacket_delivered hd, State.writeAnswer, quoinRequest_only (h.delivered l p) rfl hk]
  exact congrArg Host.Outcome.next (if_pos hst)

theorem exec_requestTimeout (hk : q.kind < 3) :
    exec (.requestTimeout p.tag) s = .next (s.endFail p.tag.toNat q St.remoteUnreachable) := by
  simp [exec_timeout, State.timeout, State.request?, h.only, mfind?, hk, h.sent]

end

/-- What the end of the request leaves: no request, memory as it was, REMOTE_OUT lowered. -/
structure Ended (s t : State) (c : Nat) : Prop where
  requests : t.requests = []
  mem : t.mem = s.mem
  remoteOut : (t.ctx c).remoteOut = (s.ctx c).remoteOut - 1

theorem ended_delivered (s : State) (l : Nat) (p : Packet) (c : Nat) : Ended s ((s.delivered l p).ended c) c := by
  obtain ⟨m, hm⟩ := delivered_links s l p
  rw [hm]
  exact ⟨rfl, rfl, ended_remoteOut { s with links := m } c⟩

theorem presses_ended_delivered (s : State) (l : Nat) (p : Packet) (c : Nat) :
    ((s.delivered l p).ended c).presses = s.presses := by
  obtain ⟨m, hm⟩ := delivered_links s l p
  rw [hm]
  rfl

theorem Ended.modPc {s t : State} {c : Nat} (h : Ended s t c) (n : Nat) (f : PressCtx → PressCtx) : Ended s (t.modPc n f) c :=
  ⟨h.requests, h.mem, h.remoteOut⟩

/-- Settles O36: with one request outstanding its end leaves a quiet device, in which nothing else is looked at again. -/
theorem requestsEnd : Obligations.RequestsEnd := by
  intro s q l p n hn honly hquiet hheld hfailed hactive hrun fails ends
  have h : OneRequest s p.tag.toNat q n := ⟨hn, honly, hquiet, hheld, hfailed, hactive, hrun⟩
  have hd := h.delivered l p
  have hend := ended_delivered s l p q.ctx
  have hpresses := presses_ended_delivered s l p q.ctx
  have hpc : ((s.delivered l p).ended q.ctx).pc n = s.pc n := by rw [State.pc, State.press, hpresses]; rfl
  have hfails {i : Instr} {t : State} {st : Status} (he : exec i s = .next t) (ht : TornDown t q.ctx st) : fails i st :=
    ⟨t, he, ht.state, ht.status, ht.quiet.requests⟩
  have hends {i : Instr} {t : State} {P : State → Prop} (he : exec i s = .next t) (ht : Ended s t q.ctx) (hp : P t) :
      ends i P := ⟨t, he, ht.requests, ht.mem, ht.remoteOut, hp⟩
  refine ⟨fun rd size signed hdel hk hc hlen => ⟨fun hst hsize => ?_, fun hst => ?_⟩,
    fun hdel hk hc => ⟨fun hst => ?_, fun hst => ?_⟩, fun hdel hk hc => ⟨fun hst => ?_, fun hst => ?_⟩, fun hk hc => ?_⟩
  · have he := exec_rdResp_ok h hdel hk (hsize.trans hlen.symm) hst
    rw [endRead_load hd hc, extend_eq] at he
    exact hends he (hend.modPc n _) (by rw [pc_modPc, hpc])
  · exact hfails (exec_rdResp_failed h hdel hk hst) (endFail_tearsDown hd (.inl ⟨rd, size, signed, hc⟩) _)
  · have he := (exec_wrAck l p s).trans <| onWrite_ok h hdel hk hst
    rw [endWrite_store hd hc] at he
    exact hends he hend hpresses
  · exact hfails ((exec_wrAck l p s).trans (onWrite_failed h hdel hk hst)) (endFail_tearsDown hd (.inr (.inl hc)) _)
  · have he := (exec_atomAck l p s).trans <| onWrite_ok h hdel hk hst
    rw [endWrite_signal hd hc] at he
    exact hends he (hend.modPc n _) (by rw [pc_modPc, hpc])
  · exact hfails ((exec_atomAck l p s).trans (onWrite_failed h hdel hk hst)) (endFail_tearsDown hd (.inr (.inr hc)) _)
  · exact hfails (exec_requestTimeout h hk) (endFail_tearsDown h (.inr (.inl hc)) _)

end Sys2Proof.Machine


/-! SUPPORT. Temperature, RESET_N and the sideband targets (R464, R465, R483 to R489): what the end of a run leaves, the
steps of the dies as their temperatures give them, and the accesses of the I3C target. -/

namespace Sys2Proof.Machine

/-! ### The end of a run (R448, R463, R483) -/

/-- What reports leave as it was: fuses, the count of starts and of failed ones, the queue of commands, and memory. -/
structure SameRun (s t : State) : Prop where
  sec : t.sec = s.sec
  fails : t.ledger.fails = s.ledger.fails
  pending : t.pending = s.pending
  mem : t.mem = s.mem

theorem sameRun_refl (s : State) : SameRun s s := ⟨rfl, rfl, rfl, rfl⟩

theorem SameRun.trans {s t u : State} (h : SameRun s t) (k : SameRun t u) : SameRun s u :=
  ⟨k.sec.trans h.sec, k.fails.trans h.fails, k.pending.trans h.pending, k.mem.trans h.mem⟩

theorem sameRun_setFld (s : State) (b : Block) (i o lo w v : Nat) : SameRun s (s.setFld b i o lo w v) := ⟨rfl, rfl, rfl, rfl⟩

theorem sameRun_send (s : State) (n : Nat) (m : Msg) : SameRun s (s.send n m) := by
  unfold State.send
  simp only
  split
  · exact ⟨rfl, rfl, rfl, rfl⟩
  · exact sameRun_refl s

theorem sameRun_wideEvent (s : State) (st : Status) (d : W64) (k : W32) : SameRun s (s.wideEvent st d k) := by
  have hfresh : SameRun s s.freshWord.2 := ⟨rfl, rfl, rfl, rfl⟩
  unfold State.wideEvent
  simp only
  refine hfresh.trans ?_
  split
  · exact sameRun_send ..
  · exact ⟨rfl, rfl, rfl, rfl⟩

theorem sameRun_rasError (s : State) (cls : Nat) (st : Status) (x : ErrAt) : SameRun s (s.rasError cls st x) := by
  unfold State.rasError State.rasErrorAs
  simp only
  split
  · refine SameRun.trans ?_ (sameRun_wideEvent ..)
    split
    · exact ⟨rfl, rfl, rfl, rfl⟩
    · exact ⟨rfl, rfl, rfl, rfl⟩
  · split
    · exact ⟨rfl, rfl, rfl, rfl⟩
    · exact ⟨rfl, rfl, rfl, rfl⟩

theorem bootStep_setPwr {s : State} (o : Nat) (h : o < 0x10000) (v : W64) (hb : s.bootStep = 0) :
    (s.setReg .pwr 0 o v).bootStep = 0 := by
  rw [State.bootStep, State.regFld, State.reg_setReg_ne]
  · exact hb
  · simp only [regAddr, blockBase]; omega

theorem RunEnded.setPwr {s t : State} {k : Nat} (h : RunEnded s t k) (o : Nat) (ho : o < 0x10000) (v : W64) :
    RunEnded s (t.setReg .pwr 0 o v) k := by
  obtain ⟨hctxs, hsessions, hstep, hrest⟩ := h
  exact ⟨hctxs, hsessions, bootStep_setPwr o ho v hstep, hrest⟩

/-- The limit is kept in one register. -/
theorem setLimit_reg (s : State) : ∃ v, s.setLimit = s.setReg .pwr 0 0x08 v := ⟨_, rfl⟩

theorem RunEnded.setLimit {s t : State} {k : Nat} (h : RunEnded s t k) : RunEnded s t.setLimit k := by
  obtain ⟨v, hv⟩ := setLimit_reg t
  exact hv ▸ RunEnded.setPwr h 0x08 (by decide) v

theorem RunEnded.setPower {s t : State} {k : Nat} (h : RunEnded s t k) (p : Power) : RunEnded s { t with power := p } k := h

theorem RunEnded.setAlert {s t : State} {k : Nat} (h : RunEnded s t k) : RunEnded s t.setAlert k := h

theorem fails_fence (l : Ledger) (cs : BitVec 16) : (l.fence cs).fails = l.fails := by
  unfold Ledger.fence; split <;> rfl

theorem fails_modRec (l : Ledger) (f : StartRec → StartRec) : (l.modRec f).fails = l.fails := by
  unfold Ledger.modRec; split <;> rfl

theorem endRun_ended (s : State) : RunEnded s s.endRun s.ledger.fails := by
  unfold State.endRun
  extract_lets l fl t t'
  have ht : RunEnded s t s.ledger.fails := ⟨rfl, rfl, rfl, rfl, rfl, rfl, fails_fence .., rfl⟩
  refine RunEnded.setAlert (RunEnded.setLimit ?_)
  unfold t'
  split
  · exact RunEnded.setPwr ht 0 (by decide) _
  · exact ht

theorem RunEnded.of_same {s u t : State} (h : SameRun s u) (hu : RunEnded u t u.ledger.fails) :
    RunEnded s t s.ledger.fails := by
  obtain ⟨h1, h2, h3, h4, h5, h6, h7, h8⟩ := hu
  exact ⟨h1, h2, h3, h4, h5.trans (congrArg (·.fuses) h.sec), h6.trans (congrArg (·.startCount) h.sec), h7.trans h.fails,
    h8.trans h.pending⟩

theorem interrupt_same (s : State) : SameRun s s.interrupt := by
  unfold State.interrupt
  split
  · exact ⟨rfl, fails_modRec .., rfl, rfl⟩
  · exact sameRun_refl s

theorem shedRecord_ended (s : State) (st : Status) : RunEnded s (s.shedRecord st) s.ledger.fails := by
  unfold State.shedRecord
  extract_lets u p v
  have hras : SameRun s.dropSessions u := sameRun_rasError ..
  have hv : SameRun s (v.writeLedger id) := ⟨hras.sec, hras.fails, hras.pending, hras.mem⟩
  exact RunEnded.of_same (hv.trans (interrupt_same _)) (endRun_ended _)

/-! ### What a report leaves -/

/-- What the records and messages of a thermal event leave as it was: the run and the temperatures shown. -/
structure Reports (s t : State) : Prop where
  run : SameRun s t
  temps : ∀ o, 0x40 ≤ o → t.reg .pwr 0 o = s.reg .pwr 0 o

theorem reports_refl (s : State) : Reports s s := ⟨sameRun_refl s, fun _ _ => rfl⟩

theorem Reports.trans {s t u : State} (h : Reports s t) (k : Reports t u) : Reports s u :=
  ⟨h.run.trans k.run, fun o ho => (k.temps o ho).trans (h.temps o ho)⟩

theorem Reports.setPower {s t : State} (h : Reports s t) (p : Power) : Reports s { t with power := p } :=
  ⟨⟨h.run.sec, h.run.fails, h.run.pending, h.run.mem⟩, h.temps⟩

theorem Reports.of_regs {s t : State} (h : SameRun s t) (hr : t.regs = s.regs) : Reports s t :=
  ⟨h, fun o _ => by rw [State.reg, hr]; rfl⟩

theorem regs_send (s : State) (n : Nat) (m : Msg) : (s.send n m).regs = s.regs := by
  unfold State.send
  simp only
  split <;> rfl

theorem regs_wideEvent (s : State) (st : Status) (d : W64) (k : W32) : (s.wideEvent st d k).regs = s.regs := by
  unfold State.wideEvent
  simp only
  split
  · exact regs_send ..
  · rfl

theorem temp_apart {o o' : Nat} (h : o < 0x40) (ho : 0x40 ≤ o') : regAddr .pwr 0 o' ≠ regAddr .pwr 0 o := by
  simp only [regAddr, blockBase]; omega

theorem reports_setFld (s : State) (o lo w v : Nat) (ho : o < 0x40) : Reports s (s.setFld .pwr 0 o lo w v) :=
  ⟨sameRun_setFld .., fun _ h => State.reg_setFld_ne _ _ _ _ _ _ _ _ _ _ (temp_apart ho h)⟩

theorem reports_raiseFlag (s : State) : Reports s (s.raiseFlag 0x0D .pwr 0x10 2 .pwr 0x20 0 32) :=
  ((reports_setFld s 0x10 2 1 1 (by decide)).trans (reports_setFld _ 0x20 0 32 _ (by decide))).trans
    (Reports.of_regs ⟨rfl, rfl, rfl, rfl⟩ rfl)

theorem reports_enterStep (s : State) (k : Sensor) (cur next : Nat) (ts : List (BitVec 16)) :
    Reports s (s.enterStep k cur next ts) := by
  unfold State.enterStep
  split
  · exact reports_refl s
  · exact (reports_raiseFlag s).trans (Reports.of_regs (sameRun_wideEvent ..) (regs_wideEvent ..))

theorem reports_setLimit (s : State) : Reports s s.setLimit := by
  obtain ⟨v, hv⟩ := setLimit_reg s
  rw [hv]
  exact ⟨⟨rfl, rfl, rfl, rfl⟩, fun _ h => State.reg_setReg_ne _ _ _ _ _ _ _ _ (temp_apart (by decide) h)⟩

theorem reg_setAlert (s : State) (b : Block) (i o : Nat) : s.setAlert.reg b i o = s.reg b i o := rfl

/-! ### The temperatures shown -/

/-- A sensor's sample as PWR.TEMP holds it. -/
theorem temp_low (x : BitVec 16) : (w64 (sext 16 x.toNat)).toNat % 2 ^ 16 = x.toNat := by
  rw [w64_sext, BitVec.ofNat_toNat, BitVec.setWidth_eq]
  have h : (x.signExtend 64).setWidth 16 = x := by
    refine BitVec.eq_of_getElem_eq fun i hi => ?_
    simp [BitVec.getLsbD_signExtend, hi]
    omega
  exact (BitVec.toNat_setWidth 16 _).symm.trans (congrArg BitVec.toNat h)

theorem temp_setTemp_same (s : State) (ts : List (BitVec 16)) (held : Bool) (i : Nat) :
    (s.setTemp ts held i).regFld .pwr 0 (0x40 + 8 * i) 0 16 = (nth (0 : BitVec 16) ts i).toNat := by
  simp only [State.setTemp]
  rw [State.regFld_setFld_apart _ _ _ _ _ _ _ _ _ (by decide) (by decide) (by decide),
    State.regFld_setFld_apart _ _ _ _ _ _ _ _ _ (by decide) (by decide) (by decide),
    State.regFld_setFld_same _ _ _ _ _ _ _ (by decide) (by decide)]
  exact temp_low _

theorem temp_setTemp_ne (s : State) (ts : List (BitVec 16)) (held : Bool) {i j : Nat} (h : i ≠ j) :
    (s.setTemp ts held j).regFld .pwr 0 (0x40 + 8 * i) 0 16 = s.regFld .pwr 0 (0x40 + 8 * i) 0 16 := by
  have hne : regAddr .pwr 0 (0x40 + 8 * i) ≠ regAddr .pwr 0 (0x40 + 8 * j) := by simp only [regAddr, blockBase]; omega
  simp only [State.setTemp]
  rw [State.regFld_setFld_ne _ _ _ _ _ _ _ _ _ _ _ _ hne, State.regFld_setFld_ne _ _ _ _ _ _ _ _ _ _ _ _ hne,
    State.regFld_setFld_ne _ _ _ _ _ _ _ _ _ _ _ _ hne]

theorem temp_setTemps (ts : List (BitVec 16)) (held : Bool) (l : List Nat) (s : State) (i : Nat) :
    (l.foldl (fun s j => s.setTemp ts held j) s).regFld .pwr 0 (0x40 + 8 * i) 0 16 =
      if i ∈ l then (nth (0 : BitVec 16) ts i).toNat else s.regFld .pwr 0 (0x40 + 8 * i) 0 16 := by
  induction l generalizing s with
  | nil => simp
  | cons j l ih =>
    rw [List.foldl_cons, ih]
    by_cases hl : i ∈ l
    · simp [hl]
    · by_cases hj : i = j
      · subst hj; simp [hl, temp_setTemp_same]
      · simp [hl, hj, temp_setTemp_ne]

/-! ### The steps of the compute dies (R464) -/

theorem le_foldl_max (l : List Nat) (a n : Nat) : n ≤ l.foldl max a ↔ n ≤ a ∨ ∃ x ∈ l, n ≤ x := by
  induction l generalizing a with
  | nil => simp
  | cons x l ih => simp [ih, or_assoc]

theorem sensorsOf_compute : sensorsOf .compute = List.range 16 := by decide

/-- The step that the compute dies have reached, with the entry temperatures lowered by `d`. -/
def computeStep (ts : List (BitVec 16)) (d : Int) : Nat :=
  min (topStep .compute) (((sensorsOf .compute).map fun i => reached .compute d (tempOf ts i)).foldl max 0)

theorem kindStep_compute (cur : Nat) (ts : List (BitVec 16)) (held : Bool) :
    kindStep .compute cur ts held = nextStep cur (computeStep ts 0) (computeStep ts (5 * 16)) held := rfl

theorem reached_compute (d t : Int) : reached .compute d t =
    b2n (decide (95 * 16 - d ≤ t)) + b2n (decide (100 * 16 - d ≤ t)) + b2n (decide (105 * 16 - d ≤ t)) +
      b2n (decide (115 * 16 - d ≤ t)) := by
  simp only [reached, entries, ← List.countP_eq_length_filter, List.countP_cons, List.countP_nil, b2n]
  omega

theorem le_reached {n : Nat} (h1 : 1 ≤ n) (h3 : n ≤ 3) (d t : Int) :
    n ≤ reached .compute d t ↔ (90 + 5 * n : Int) * 16 ≤ t + d := by
  have hn : n = 1 ∨ n = 2 ∨ n = 3 := by omega
  rw [reached_compute]
  simp only [b2n, decide_eq_true_eq]
  rcases hn with rfl | rfl | rfl <;> split_ifs <;> omega

theorem le_computeStep {n : Nat} (h1 : 1 ≤ n) (h3 : n ≤ 3) (ts : List (BitVec 16)) (d : Int) :
    n ≤ computeStep ts d ↔ ∃ i < 16, (90 + 5 * n : Int) * 16 ≤ tempOf ts i + d := by
  have htop : topStep .compute = 3 := rfl
  simp only [computeStep, sensorsOf_compute, htop, le_min_iff, le_foldl_max, List.mem_map, List.mem_range,
    exists_exists_and_eq_and, le_reached h1 h3]
  constructor
  · rintro ⟨-, h | h⟩
    · omega
    · exact h
  · exact fun h => ⟨h3, .inr h⟩

theorem atShutdown_compute {ts : List (BitVec 16)} {i : Nat} (hi : i < 16) (h : 115 * 16 ≤ tempOf ts i) :
    atShutdown ts i = true := by
  have hk : sensorOf i = .compute := if_pos hi
  have hr : reached .compute 0 (tempOf ts i) = 4 := by
    rw [reached_compute]
    simp only [b2n, decide_eq_true_eq]
    split_ifs <;> omega
  simp [atShutdown, hk, hr, topStep, entries]

/-! ### THERMAL_SAMPLE -/

/-- The temperatures of a sample shown. -/
def State.setTemps (s : State) (ts : List (BitVec 16)) (held : Bool) : State :=
  (upTo 28).foldl (fun s i => s.setTemp ts held i) s

theorem sameRun_setTemp (s : State) (ts : List (BitVec 16)) (held : Bool) (i : Nat) : SameRun s (s.setTemp ts held i) :=
  ((sameRun_setFld s .pwr 0 _ _ _ _).trans (sameRun_setFld _ .pwr 0 _ _ _ _)).trans (sameRun_setFld _ .pwr 0 _ _ _ _)

theorem sameRun_setTemps (s : State) (ts : List (BitVec 16)) (held : Bool) : SameRun s (s.setTemps ts held) :=
  foldl_rel sameRun_refl SameRun.trans _ _ (fun s i _ => sameRun_setTemp s ts held i) s

/-- A sample at shutdown: the run ends, and the device waits to cool (R465). -/
def State.coolDown (u : State) : State :=
  let v := u.shedRecord St.thermalShutdown
  ({ v with power := { v.power with thermalHold := true } }.setLimit).setAlert

/-- The steps in force after a sample. -/
def Power.sampled (p : Power) (ts : List (BitVec 16)) (held : Bool) : Power :=
  { p with
    dieStep := kindStep .compute p.dieStep ts held, hbmStep := kindStep .hbm p.hbmStep ts held
    ioStep := kindStep .io p.ioStep ts held, convStep := kindStep .conv p.convStep ts held
    thermalHold := p.thermalHold && !cool ts }

/-- The steps that a sample enters, reported. -/
def State.enterSteps (s : State) (p q : Power) (ts : List (BitVec 16)) : State :=
  (((s.enterStep .compute p.dieStep q.dieStep ts).enterStep .hbm p.hbmStep q.hbmStep ts).enterStep .io p.ioStep q.ioStep
    ts).enterStep .conv p.convStep q.convStep ts

theorem reports_enterSteps (s : State) (p q : Power) (ts : List (BitVec 16)) : Reports s (s.enterSteps p q ts) :=
  (((reports_enterStep s ..).trans (reports_enterStep ..)).trans (reports_enterStep ..)).trans (reports_enterStep ..)

/-- The state after a sample has been shown and reported, before it acts. -/
def State.sampled (s : State) (ts : List (BitVec 16)) (held : Bool) : State :=
  { (s.setTemps ts held).enterSteps s.power (s.power.sampled ts held) ts with power := s.power.sampled ts held }

theorem thermalSample_eq (s : State) (ts : List (BitVec 16)) (held : Bool) :
    s.thermalSample ts held = if (upTo 28).any (atShutdown ts) && !s.power.thermalHold then
      (s.sampled ts held).coolDown else (s.sampled ts held).setLimit.setAlert := by
  unfold State.thermalSample State.coolDown State.sampled State.enterSteps State.setTemps Power.sampled
  rfl

theorem sampled_same (s : State) (ts : List (BitVec 16)) (held : Bool) : SameRun s (s.sampled ts held) :=
  (sameRun_setTemps s ts held).trans ((reports_enterSteps ..).setPower _).run

theorem temp_sampled (s : State) (ts : List (BitVec 16)) (held : Bool) {i : Nat} (hi : i < 28) :
    (s.sampled ts held).setLimit.setAlert.regFld .pwr 0 (0x40 + 8 * i) 0 16 = (nth (0 : BitVec 16) ts i).toNat := by
  have ho : 0x40 ≤ 0x40 + 8 * i := Nat.le_add_right ..
  have hreg : (s.sampled ts held).setLimit.reg .pwr 0 (0x40 + 8 * i) = (s.setTemps ts held).reg .pwr 0 (0x40 + 8 * i) :=
    (((reports_enterSteps (s.setTemps ts held) ..).setPower _).trans (reports_setLimit _)).temps _ ho
  rw [State.regFld, reg_setAlert, hreg]
  exact (temp_setTemps ts held (upTo 28) s i).trans (if_pos (List.mem_range.2 hi))

theorem sameRun_setAlert (s : State) : SameRun s s.setAlert := ⟨rfl, rfl, rfl, rfl⟩

theorem power_limited (t : State) : t.setLimit.setAlert.power = t.power := by
  simp only [State.setAlert, State.setLimit, State.setReg]

theorem power_sampled (s : State) (ts : List (BitVec 16)) (held : Bool) :
    (s.sampled ts held).setLimit.setAlert.power = s.power.sampled ts held := power_limited _

theorem coolDown_ended (u : State) : RunEnded u u.coolDown u.ledger.fails ∧ u.coolDown.power.thermalHold = true ∧
    u.coolDown.pins.alertN = false :=
  ⟨RunEnded.setAlert (RunEnded.setLimit (RunEnded.setPower (shedRecord_ended u _) _)), rfl, by
    simp [State.coolDown, State.setAlert, State.alertLow, State.setLimit, State.setReg]⟩

theorem dieStep_reaches {s : State} {n : Nat} (h1 : 1 ≤ n) (h3 : n ≤ 3) (ts : List (BitVec 16)) (held : Bool)
    (h : ∃ i < 16, (90 + 5 * n : Int) * 16 ≤ tempOf ts i) : n ≤ (s.power.sampled ts held).dieStep := by
  have hnow := (le_computeStep h1 h3 ts 0).2 (by simpa using h)
  exact le_trans hnow (le_max_left _ _)

theorem dieStep_stays (p : Power) (ts : List (BitVec 16)) : p.dieStep ≤ (p.sampled ts false).dieStep := le_max_right _ _

theorem dieStep_below {p : Power} {n : Nat} (h1 : 1 ≤ n) (h3 : n ≤ 3) (ts : List (BitVec 16)) (held : Bool)
    (h : ∀ i < 16, tempOf ts i < (90 + 5 * n : Int) * 16) (hp : p.dieStep < n) : (p.sampled ts held).dieStep < n := by
  have hnow : computeStep ts 0 < n := by
    refine Nat.lt_of_not_le fun hle => ?_
    obtain ⟨i, hi, hle⟩ := (le_computeStep h1 h3 ts 0).1 hle
    have := h i hi
    omega
  refine max_lt hnow ?_
  split
  · exact lt_of_le_of_lt (min_le_left _ _) hp
  · exact hp

theorem dieStep_released (p : Power) (ts : List (BitVec 16)) (h : ∀ i < 16, tempOf ts i < 90 * 16) :
    (p.sampled ts true).dieStep = 0 := by
  have hnone (d : Int) (hd : d ≤ 5 * 16) : computeStep ts d = 0 := by
    refine Nat.eq_zero_of_not_pos fun hpos => ?_
    obtain ⟨i, hi, hle⟩ := (le_computeStep le_rfl (by decide) ts d).1 hpos
    have := h i hi
    omega
  change nextStep p.dieStep (computeStep ts 0) (computeStep ts (5 * 16)) true = 0
  rw [nextStep, hnone 0 (by decide), hnone (5 * 16) le_rfl]
  simp

/-! ### RESET_N (R483) -/

theorem endRun_resetN (s : State) : s.endRun.pins.resetN = s.pins.resetN := by
  unfold State.endRun
  extract_lets l fl t t'
  have ht : t'.pins = s.pins := by
    unfold t'
    split <;> rfl
  exact congrArg (·.resetN) ht

theorem resetAssert_ended (s : State) : RunEnded s s.resetAssert s.ledger.fails ∧ s.resetAssert.pins.resetN = false := by
  unfold State.resetAssert
  extract_lets u p
  have hu : SameRun s { u with pins := p } := by
    obtain ⟨hsec, hfails, hpending, hmem⟩ := interrupt_same s
    exact ⟨hsec, hfails, hpending, hmem⟩
  exact ⟨RunEnded.of_same hu (endRun_ended _), endRun_resetN _⟩

/-- A start that is to go no further than step 0 stays where it begins. -/
theorem runStart_held (rs : List StepReport) (fuel : Nat) (s : State) (h : 1 ≤ s.bootStep) : runStart rs 0 fuel s = s := by
  cases fuel with
  | zero => rfl
  | succ fuel =>
    have hno : ¬ s.bootStep = 0 := by omega
    simp [runStart, hno]

theorem bootStep_setBootStep (s : State) (k : Nat) : (s.setBootStep k).bootStep = k % 2 ^ 5 :=
  State.regFld_setFld_same _ _ _ _ _ _ _ (by decide) (by decide)

theorem resetRelease_begins (s : State) (hr : s.pins.resetN = false) (hp : s.power.inputOff = false) :
    ∃ t, exec (.resetNDeassert [] 0) s = .next t ∧ t.pins.resetN = true ∧ t.pins.earlyFail = false ∧ t.bootStep = 2 := by
  let u := ({ s with pins := { s.pins with resetN := true, earlyFail := false } }).setAlert.setBootStep 2
  have hu : u.bootStep = 2 := bootStep_setBootStep _ 2
  have hrelease : s.resetRelease [] 0 = u := by
    refine (if_neg (by simp [hr])).trans ((if_neg (c := s.power.inputOff = true) (by simp [hp])).trans ?_)
    exact runStart_held [] 24 u (by omega)
  exact ⟨u, congrArg Host.Outcome.next hrelease, rfl, rfl, hu⟩

/-! ### The I3C target (R485 to R488) -/

section
variable (s : State) (a v : W64)

/-- The pointer of the I3C target set. -/
def State.pointTo (s : State) (a : W64) : State := { s with pins := { s.pins with i3cPtr := a } }

theorem i3cTransfer_off (h : s.bootStep < 6) (bs : List Byte) : s.i3cTransfer bs = s := by
  have hoff : ¬ 6 ≤ s.bootStep := by omega
  simp [State.i3cTransfer, State.i3cOn, hoff]

theorem i3cRead_off (h : s.bootStep < 6) : s.i3cRead = s := by
  have hoff : ¬ 6 ≤ s.bootStep := by omega
  simp [State.i3cRead, State.i3cOn, hoff]

theorem i3cTransfer_ignored {bs : List Byte} (h8 : bs.length ≠ 8) (h16 : bs.length ≠ 16) : s.i3cTransfer bs = s := by
  simp [State.i3cTransfer, State.i3cOn, h8, h16]

variable {s} (hon : 6 ≤ s.bootStep)
include hon

theorem i3cTransfer_pointer {bs : List Byte} (h : bs.length = 8) : s.i3cTransfer bs = s.pointTo (wn (ofBytes bs)) := by
  have htake : bs.take 8 = bs := List.take_of_length_le h.le
  simp [State.i3cTransfer, State.i3cOn, hon, h, htake, State.pointTo]

theorem i3cTransfer_write {bs : List Byte} (h : bs.length = 16) :
    s.i3cTransfer bs = (s.pointTo (wn (ofBytes (bs.take 8)))).i3cWrite (wn (ofBytes (bs.take 8))) (wn (ofBytes (bs.drop 8))) := by
  simp [State.i3cTransfer, State.i3cOn, hon, h, State.pointTo]

theorem i3cRead_on : s.i3cRead = (let t := s.pointTo (s.pins.i3cPtr + 8)
    if s.pins.i3cPtr.toNat % 8 ≠ 0 then (t.accessError s.pins.i3cPtr.toNat).emit (.i3cData (BitVec.allOnes 64))
    else match blockOf s.pins.i3cPtr.toNat with
    | some (b, i, o) =>
      if t.i3cReads b o then (t.readAt b i o).2.emit (.i3cData (t.readAt b i o).1)
      else t.emit (.i3cData (BitVec.allOnes 64))
    | none => t.emit (.i3cData (BitVec.allOnes 64))) := by
  exact if_neg (by simp [State.i3cOn, hon])

end

section
variable {s : State} {a v : W64}

theorem i3cWrite_misaligned (h : a.toNat % 8 ≠ 0) : s.i3cWrite a v = s.accessError a.toNat := if_pos h

theorem i3cWrite_denied (h : a.toNat % 8 = 0)
    (hno : ∀ b i o, blockOf a.toNat = some (b, i, o) → s.pathWrites .i3c b o = false) : s.i3cWrite a v = s := by
  refine (if_neg (not_not.2 h)).trans ?_
  split
  · next b i o hb => exact if_pos (by simp [hno b i o hb])
  · rfl

/-- LEDGER_CTL with CLEAR_FAILS alone. -/
theorem i3cWrite_clearFails (ha : a.toNat = regAddr .boot 0 0x18) (hlife : s.sec.fuses.lifecycle ≠ 4) (h0 : flag v 0 = true)
    (h1 : flag v 1 = false) : s.i3cWrite a v = s.clearFails := by
  have hblock : blockOf a.toNat = some (.boot, 0, 0x18) := by rw [ha]; decide
  have halign : a.toNat % 8 = 0 := by rw [ha]; decide
  simp [State.i3cWrite, halign, hblock, State.pathWrites, hlife, State.writeLedgerCtl, h0, h1]

end

/-- CLEAR_FAILS by the I3C target changes the ledger and the pointer alone. -/
theorem clearFails_pointTo (s : State) (a : W64) : (s.pointTo a).clearFails.ledger.fails = 0 ∧
    (s.pointTo a).clearFails.pins = { s.pins with i3cPtr := a } ∧
    { (s.pointTo a).clearFails with ledger := s.ledger, pins := s.pins } = s := by
  simp only [State.clearFails, State.writeLedger, State.pointTo, and_self]

/-- A read of BOOT.STATUS clears nothing. -/
theorem readAt_bootStatus (s : State) : s.readAt .boot 0 0 = (putFld (s.reg .boot 0 0) 8 8 s.ledger.fails, s) := by
  have hfields : fieldsAt .boot 0 = some fBootStatus := rfl
  have hclear : s.clearRc .boot 0 0 = s := by simp [State.clearRc, hfields, fBootStatus]
  have hread : s.readAt .boot 0 0 = (putFld (s.reg .boot 0 0) 8 8 s.ledger.fails, s.clearRc .boot 0 0) := rfl
  rw [hread, hclear]

/-- An answer leaves an access error recorded. -/
theorem AccessError.emit {s t : State} {a : Nat} (h : AccessError s t a) (o : Out) : AccessError s (t.emit o) a := by
  obtain ⟨hring, hcount, hregs, hrest⟩ := h
  exact ⟨hring, hcount, hregs, hrest⟩

theorem emit_out (s : State) (o : Out) : (s.emit o).out = o :: s.out := rfl

/-! ### O41 -/

theorem exec_thermalSample (ts : List (BitVec 16)) (held : Bool) (s : State) :
    exec (.thermalSample ts held) s = .next (s.thermalSample ts held) := rfl
theorem exec_resetNAssert (s : State) : exec .resetNAssert s = .next s.resetAssert := rfl
theorem exec_i3cPointerWrite (bs : List Byte) (s : State) : exec (.i3cPointerWrite bs) s = .next (s.i3cTransfer bs) := rfl
theorem exec_i3cRegisterWrite (bs : List Byte) (s : State) : exec (.i3cRegisterWrite bs) s = .next (s.i3cTransfer bs) := rfl
theorem exec_i3cRead (s : State) : exec .i3cRead s = .next s.i3cRead := rfl
theorem exec_i3cDynamicAddress (a : BitVec 7) (s : State) : exec (.i3cDynamicAddress a) s = .next (s.i3cDynamic a) := rfl

theorem shutdown_any (ts : List (BitVec 16)) : (upTo 28).any (atShutdown ts) = true ↔ ∃ i < 28, atShutdown ts i = true := by
  simp [upTo]

/-- A sample at shutdown ends the run. -/
theorem thermalSample_shut {s : State} {ts : List (BitVec 16)} (h : ∃ i < 28, atShutdown ts i = true)
    (hp : s.power.thermalHold = false) (held : Bool) : s.thermalSample ts held = (s.sampled ts held).coolDown := by
  rw [thermalSample_eq, (shutdown_any ts).2 h, hp]; rfl

/-- A sample below shutdown sets the steps and the limit. -/
theorem thermalSample_runs {s : State} {ts : List (BitVec 16)} (h : ¬ ∃ i < 28, atShutdown ts i = true) (held : Bool) :
    s.thermalSample ts held = (s.sampled ts held).setLimit.setAlert := by
  have hany : (upTo 28).any (atShutdown ts) = false := Bool.eq_false_iff.2 fun ha => h ((shutdown_any ts).1 ha)
  rw [thermalSample_eq, hany]; rfl

/-- Settles O41: each clause is a lemma about the end of a run, the steps of the dies, or an access of a sideband target. -/
theorem temperatureAndSideband : Obligations.TemperatureAndSideband := by
  intro s go
  refine ⟨fun ts held => ⟨?_, fun hshut hp => ?_, fun hrun => ?_⟩, ?_, fun hr rs k => ?_, resetRelease_begins s, fun hoff => ?_,
    fun hon => ⟨fun bs h8 => ?_, fun bs h8 h16 => ?_, fun bs h16 => ⟨fun ha hlife h0 h1 => ?_, fun ha hno => ?_, fun ha => ?_⟩,
      ⟨fun b i o ha hb hno => ?_, fun ha hb => ?_, fun ha => ?_, fun ha hlife => ?_⟩, fun a => ?_⟩, fun ir => ?_, rfl⟩
  · rintro ⟨i, hi, hle⟩
    exact ⟨i, by omega, atShutdown_compute hi hle⟩
  · obtain ⟨hended, hhold, halert⟩ := coolDown_ended (s.sampled ts held)
    exact ⟨_, (exec_thermalSample ts held s).trans (congrArg _ (thermalSample_shut hshut hp held)),
      RunEnded.of_same (sampled_same s ts held) hended, hhold, halert⟩
  · refine ⟨_, (exec_thermalSample ts held s).trans (congrArg _ (thermalSample_runs hrun held)), ?_⟩
    have hsame := (sampled_same s ts held).trans ((reports_setLimit _).run.trans (sameRun_setAlert _))
    have hpower := power_sampled s ts held
    refine ⟨hsame.mem, fun n h1 h3 h => ?_, fun hheld => ?_, fun n h1 h3 h hp => ?_, fun hheld h => ?_,
      fun i hi => temp_sampled s ts held hi⟩ <;> rw [hpower]
    · lift n to ℕ using by omega
      exact_mod_cast dieStep_reaches (by omega) (by omega) ts held h
    · exact hheld ▸ dieStep_stays s.power ts
    · lift n to ℕ using by omega
      exact_mod_cast dieStep_below (by omega) (by omega) ts held h (by exact_mod_cast hp)
    · exact hheld ▸ dieStep_released s.power ts h
  · exact ⟨s.resetAssert, exec_resetNAssert s, resetAssert_ended s⟩
  · exact congrArg Host.Outcome.next (if_pos hr)
  · have hi3c : s.i3cOn = false := decide_eq_false (by omega)
    refine ⟨fun bs => ⟨?_, ?_⟩, ?_, fun a => ?_⟩
    · rw [exec_i3cPointerWrite, i3cTransfer_off s hoff]
    · rw [exec_i3cRegisterWrite, i3cTransfer_off s hoff]
    · rw [exec_i3cRead, i3cRead_off s hoff]
    · rw [exec_i3cDynamicAddress, State.i3cDynamic, hi3c]; rfl
  · rw [exec_i3cPointerWrite, i3cTransfer_pointer hon h8]; rfl
  · rw [exec_i3cPointerWrite, exec_i3cRegisterWrite, i3cTransfer_ignored s h8 h16]
    exact ⟨rfl, rfl⟩
  · exact ⟨_, (exec_i3cRegisterWrite bs s).trans (congrArg _ ((i3cTransfer_write hon h16).trans
      (i3cWrite_clearFails ha hlife h0 h1))), clearFails_pointTo ..⟩
  · exact (exec_i3cRegisterWrite bs s).trans (congrArg _ ((i3cTransfer_write hon h16).trans (i3cWrite_denied ha hno)))
  · exact ⟨_, (exec_i3cRegisterWrite bs s).trans (congrArg _ ((i3cTransfer_write hon h16).trans (i3cWrite_misaligned ha))),
      accessError_recorded .., accessError_out ..⟩
  · have hno' : (s.pointTo (s.pins.i3cPtr + 8)).i3cReads b o = false := hno
    rw [exec_i3cRead, i3cRead_on hon]
    simp only [ha, hb, hno']
    rfl
  · rw [exec_i3cRead, i3cRead_on hon]
    simp only [ha, hb]
    rfl
  · exact ⟨_, (exec_i3cRead s).trans (congrArg _ ((i3cRead_on hon).trans (if_pos ha))),
      AccessError.emit (accessError_recorded (s.pointTo (s.pins.i3cPtr + 8)) _) _,
      (emit_out ..).trans (congrArg (_ :: ·) (accessError_out (s.pointTo (s.pins.i3cPtr + 8)) _))⟩
  · have hblock : blockOf s.pins.i3cPtr.toNat = some (.boot, 0, 0) := by rw [ha]; decide
    have halign : s.pins.i3cPtr.toNat % 8 = 0 := by rw [ha]; decide
    have hreads : (s.pointTo (s.pins.i3cPtr + 8)).i3cReads .boot 0 = true := if_neg hlife
    refine ⟨(s.pointTo (s.pins.i3cPtr + 8)).emit (.i3cData (putFld (s.reg .boot 0 0) 8 8 s.ledger.fails)), ?_, rfl, rfl⟩
    rw [exec_i3cRead, i3cRead_on hon]
    simp only [halign, hblock, hreads, readAt_bootStatus]
    rfl
  · rw [exec_i3cDynamicAddress, State.i3cDynamic, State.i3cOn, decide_eq_true hon]; rfl
  · intro lc may
    have hmay : s.jtagOk ir = true ↔ may := by cases ir <;> simp [may, lc, State.jtagOk]
    refine ⟨_, rfl, rfl, ?_, rfl⟩
    rw [← hmay]
    cases s.jtagOk ir <;> simp

end Sys2Proof.Machine


/-! SUPPORT. The sending side of a session (R326, R328 to R333): what a session's step leaves of the device, what a packet number
taken leaves of the session, and what each step makes of the session. -/

namespace Sys2Proof.Machine

/-! ### Steps of one session -/

/-- A step of session `n`: what it makes of the session, what has left the device, and what it leaves. -/
structure SessionStep (s t : State) (n : Nat) (y : Session) (out : List Out) : Prop where
  session : t.session n = y
  others : ∀ m, m ≠ n → t.session m = s.session m
  mem : t.mem = s.mem
  regs : t.regs = s.regs
  out : t.out = out

theorem sessionStep_set (s : State) (n : Nat) (y : Session) : SessionStep s (s.setSession n y) n y s.out :=
  ⟨by simp, fun m hm => by simp [Ne.symm hm], rfl, rfl, rfl⟩

section
variable {s t : State} {n : Nat} {y : Session} {out : List Out} (h : SessionStep s t n y out)
include h

theorem SessionStep.set (z : Session) : SessionStep s (t.setSession n z) n z out :=
  ⟨by simp, fun m hm => by simpa [Ne.symm hm] using h.others m hm, h.mem, h.regs, h.out⟩

theorem SessionStep.emit (o : Out) : SessionStep s (t.emit o) n y (o :: out) :=
  ⟨h.session, h.others, h.mem, h.regs, congrArg (o :: ·) h.out⟩

theorem SessionStep.payload (k : Nat) (o : Out) : SessionStep s (t.emitPayload k o) n y (o :: out) :=
  ⟨h.session, h.others, h.mem, h.regs, congrArg (o :: ·) h.out⟩

theorem SessionStep.takes (m : Map Take) : SessionStep s { t with takes := m } n y out :=
  ⟨h.session, h.others, h.mem, h.regs, h.out⟩

theorem SessionStep.queues (m : Map CmdQueue) : SessionStep s { t with queues := m } n y out :=
  ⟨h.session, h.others, h.mem, h.regs, h.out⟩

theorem SessionStep.fold {α : Type} (f : State → α → State)
    (hf : ∀ u a, SessionStep s u n y out → SessionStep s (f u a) n y out) (l : List α) :
    SessionStep s (l.foldl f t) n y out := by
  induction l generalizing t with
  | nil => exact h
  | cons a l ih => exact ih (hf t a h)

theorem SessionStep.recordsSent (rs : List Completion) : SessionStep s (t.recordsSent rs) n y out :=
  h.fold _ (fun _ _ hu => hu.takes _) rs

theorem SessionStep.sweepQueue (q : Nat) : SessionStep s (t.sweepQueue q) n y out := by
  unfold State.sweepQueue
  simp only
  split
  · exact h.queues _
  · exact h

theorem SessionStep.freePlaces (rs : List Completion) : SessionStep s (t.freePlaces rs) n y out := by
  refine h.fold _ (fun u r hu => ?_) rs
  simp only
  split
  · exact ((hu.queues _).takes _).sweepQueue r.queue
  · exact hu

/-- A segment of the session put in flight with the next packet number. -/
theorem SessionStep.sendSegment (g : SentSeg) : SessionStep s (t.sendSegment n g) n
    { y with flight := y.flight ++ [{ g with pn := y.txPn }] }.takePn
    (.segment (y.headOf n { g with pn := y.txPn }) (packetBytes y (y.headOf n { g with pn := y.txPn }) g.payload) :: out) := by
  unfold State.sendSegment
  rw [h.session]
  exact (h.set _).payload ..

end

/-! ### Packet numbers -/

/-- A packet number taken changes that number and, in a key update, the keys. -/
theorem takePn_eq (x : Session) : ∃ k o p f, x.takePn =
    { x with txPn := (x.txPn + 1) % 2 ^ 32, keys := k, oldKeys := o, phase := p, authFails := f } := by
  unfold Session.takePn
  simp only
  split
  · exact ⟨_, _, _, _, rfl⟩
  · exact ⟨_, _, _, _, rfl⟩

/-- A packet number seen changes the numbers seen and, in a key update, the keys. -/
theorem seePn_eq (x : Session) (pn : Nat) (flips : Bool) : ∃ k o p f r, x.seePn pn flips =
    { x with keys := k, oldKeys := o, phase := p, authFails := f, rxPns := r } := by
  unfold Session.seePn
  simp only
  split
  · exact ⟨_, _, _, _, _, rfl⟩
  · exact ⟨_, _, _, _, _, rfl⟩

/-! ### Segments sent (R329 to R332) -/

section
variable {s : State} {n : Nat}

theorem segmentSend_window (hw : (s.session n).cwnd ≤ ((s.session n).flight.length : Rat)) : s.segmentSend n = s := by
  simp [State.segmentSend, hw]

theorem segmentSend_credit (hl : (s.session n).lost = []) (hc : (s.session n).limit ≤ (s.session n).txNew) :
    s.segmentSend n = s := by
  simp [State.segmentSend, hl, hc]

variable (hopen : (s.session n).st = .isOpen) (hw : ((s.session n).flight.length : Rat) < (s.session n).cwnd)
include hopen hw

theorem segmentSend_lost {g : SentSeg} {rest : List SentSeg} (hl : (s.session n).lost = g :: rest) :
    s.segmentSend n = (s.setSession n { s.session n with lost := rest }).sendSegment n g := by
  simp [State.segmentSend, hopen, not_le.2 hw, hl]

theorem segmentSend_new (hl : (s.session n).lost = []) (hc : (s.session n).txNew < (s.session n).limit) :
    s.segmentSend n = s.sendNew n := by
  simp [State.segmentSend, hopen, not_le.2 hw, hl, not_le.2 hc]

end

/-- Bytes of a message of a session as it travels (R357). -/
def State.sentLen (s : State) (n : Nat) (m : Msg) : Nat := msgLen m + if s.sealedSession n then 32 else 0

/-- The one segment of a message that fits one. -/
def State.wholeSeg (s : State) (n : Nat) (m : Msg) : SentSeg :=
  { msn := (s.session n).txMsn, off := 0, cls := m.cls, mlen := s.sentLen n m, sealed := s.sealedSession n, last := true
    len := s.sentLen n m, payload := slice (s.cutOf n m).body 0 (s.sentLen n m) }

/-- A message about to be cut: nothing of it has been sent. -/
theorem cutOf_eq (s : State) (n : Nat) (m : Msg) : ∃ body, s.cutOf n m =
      { msn := (s.session n).txMsn, cls := m.cls, sealed := s.sealedSession n, mlen := s.sentLen n m, body := body, sent := 0 } ∧
    (s.sealedSession n = false → body = m.body) := by
  cases hs : s.sealedSession n with
  | true => exact ⟨_, by simp [State.cutOf, State.sentLen, hs]; rfl, by simp⟩
  | false => exact ⟨m.body, by simp [State.cutOf, State.sentLen, hs], by simp⟩

/-- The completion records of a message. -/
def Msg.records : Msg → List Completion
  | .complete rs => rs
  | _ => []

/-- A session once the whole message at the head of its queue has been taken from it. -/
def Session.wholeTaken (x : Session) (m : Msg) (rest : List Msg) (encrypted : Bool) : Session :=
  { x with
    txNew := x.txNew + 1, txRseq := if encrypted then x.txRseq + 1 else x.txRseq, cut := none, queue := rest
    txMsn := (x.txMsn + 1) % 2 ^ 32
    unackedRecs := if m.records.isEmpty then x.unackedRecs else mput x.unackedRecs x.txMsn m.records }

/-- A message that fits one segment leaves the queue with that segment. -/
theorem sendNew_whole {s : State} {n : Nat} {m : Msg} {rest : List Msg} (hq : (s.session n).queue = m :: rest)
    (hc : (s.session n).cut = none) (hlen : s.sentLen n m ≤ (s.session n).mss) : s.sendNew n =
      (((s.setSession n ((s.session n).wholeTaken m rest (s.sealedSession n))).sendSegment n
        (s.wholeSeg n m)).recordsSent m.records).emit (.taosh n m) := by
  obtain ⟨body, hcut, -⟩ := cutOf_eq s n m
  simp only [State.sendNew, hq, hc, Option.getD_none, State.wholeSeg, hcut, Nat.sub_zero, Nat.min_eq_right hlen,
    Nat.zero_add, le_refl, decide_true, if_true, Option.isNone_none, Bool.true_and, Session.wholeTaken]
  cases m <;> rfl

/-! ### What an acknowledgement makes of a session -/

/-- The segments in flight that an acknowledgement does not cover. -/
def Session.uncovered (x : Session) (a : AckBody) : List SentSeg := x.flight.filter fun g => !ackCovers a g.pn

/-- The segments that an acknowledgement shows lost. -/
def Session.newlyLost (x : Session) (a : AckBody) : List SentSeg := (x.uncovered a).filter fun g => ackPasses a g.pn

/-- The credit that an acknowledgement brings. -/
def Session.credit (x : Session) (a : AckBody) : Nat := (a.creditLimit.toNat + 2 ^ 32 - x.limit % 2 ^ 32) % 2 ^ 32

/-- A session after an acknowledgement. -/
def Session.acked (x : Session) (a : AckBody) (rtoMin : Nat) : Session :=
  let loss := !(x.newlyLost a).isEmpty && !x.halved
  let y := { x with
    flight := (x.uncovered a).filter fun g => !ackPasses a g.pn
    lost := x.lost ++ x.newlyLost a
    cwnd := if loss then max 2 (x.cwnd / 2) else x.cwnd
    halved := x.halved || loss
    limit := if x.credit a < 2 ^ 31 then x.limit + x.credit a else x.limit
    rtoUs := if (x.flight.filter fun g : SentSeg => ackCovers a g.pn).isEmpty then x.rtoUs else rtoMin }
  { y with unackedRecs := x.unackedRecs.filter fun e => (y.flight ++ y.lost).any fun g => g.msn == e.1 }

theorem acked_noLoss (x : Session) (a : AckBody) (rtoMin : Nat) (h : x.newlyLost a = []) :
    (x.acked a rtoMin).cwnd = x.cwnd := by
  simp [Session.acked, h]

theorem acked_loss (x : Session) (a : AckBody) (rtoMin : Nat) (h : x.newlyLost a ≠ []) (hh : x.halved = false) :
    (x.acked a rtoMin).cwnd = max 2 (x.cwnd / 2) := by
  simp [Session.acked, h, hh]

theorem ackIn_session {s t : State} {n : Nat} {y : Session} {out : List Out} (h : SessionStep s t n y out) (a : AckBody) :
    SessionStep s (t.ackIn n a) n (y.acked a t.rtoMin) out := by
  unfold State.ackIn
  rw [h.session]
  exact (h.set _).freePlaces _

/-- An acknowledgement of a session: the steps in order. -/
theorem ack_session (s : State) (n pn : Nat) (a : AckBody) :
    SessionStep s (((s.takePayload 64).setSession n ((s.session n).seePn pn false)).ackIn n a) n
      (((s.session n).seePn pn false).acked a s.rtoMin) s.out := by
  have h : SessionStep s ((s.takePayload 64).setSession n ((s.session n).seePn pn false)) n ((s.session n).seePn pn false) s.out :=
    ⟨by simp, fun m hm => by simp [Ne.symm hm, State.takePayload]; rfl, rfl, rfl, rfl⟩
  exact ackIn_session h a

/-! ### O22 -/

theorem onSession_next {n : Nat} (hn : n < 1024) (s : State) (f : State → State) : onSession n s f = .next (f s) :=
  if_neg (not_le.2 hn)

section
variable {s : State} {n : Nat} (hn : n < 1024)
include hn

theorem exec_segmentSend : exec (.segmentSend n) s = .next (s.segmentSend n) :=
  onSession_next hn s (·.segmentSend n)

theorem exec_retransmitTimeout : exec (.retransmitTimeout n) s = .next (s.retransmit n) :=
  onSession_next hn s (·.retransmit n)

theorem exec_ackTimer_idle (hu : (s.session n).unacked = 0) : exec (.ackTimer n) s = .next s :=
  (onSession_next hn s _).trans (congrArg _ (if_neg (by simp [hu])))

variable (hopen : (s.session n).st = .isOpen)
include hopen

theorem exec_cwndUpdate (acked marked : Nat) :
    exec (.cwndUpdate n acked marked) s = .next (s.setSession n ((s.session n).cwndUpdate acked marked)) :=
  (onSession_next hn s _).trans (congrArg _ (if_pos hopen))

theorem exec_ack (pn : Nat) (a : AckBody) : exec (.ack n pn a) s =
    .next (((s.takePayload 64).setSession n ((s.session n).seePn pn false)).ackIn n a) :=
  (onSession_next hn s _).trans (congrArg _ (if_pos hopen))

theorem exec_ackTimer (hu : (s.session n).unacked ≠ 0) : exec (.ackTimer n) s = .next (s.sendAck n) :=
  (onSession_next hn s _).trans (congrArg _ (if_pos (by simp [hopen, hu])))

end

/-- A lost segment goes first, with a new packet number and without a credit. -/
theorem lost_sent {s : State} {n : Nat} {g : SentSeg} {rest : List SentSeg} (hopen : (s.session n).st = .isOpen)
    (hw : ((s.session n).flight.length : Rat) < (s.session n).cwnd) (hl : (s.session n).lost = g :: rest) :
    SessionStep s (s.segmentSend n) n
      { s.session n with
        lost := rest, flight := (s.session n).flight ++ [{ g with pn := (s.session n).txPn }] }.takePn
      (.segment ((s.session n).headOf n { g with pn := (s.session n).txPn })
        (packetBytes (s.session n) ((s.session n).headOf n g) g.payload) :: s.out) := by
  rw [segmentSend_lost hopen hw hl]
  exact (sessionStep_set s n _).sendSegment g

/-- A message that fits one segment is sent whole, with a credit. -/
theorem whole_sent {s : State} {n : Nat} {m : Msg} {rest : List Msg} (hopen : (s.session n).st = .isOpen)
    (hw : ((s.session n).flight.length : Rat) < (s.session n).cwnd) (hl : (s.session n).lost = [])
    (hcredit : (s.session n).txNew < (s.session n).limit) (hq : (s.session n).queue = m :: rest)
    (hc : (s.session n).cut = none) (hlen : s.sentLen n m ≤ (s.session n).mss) :
    SessionStep s (s.segmentSend n) n
      { (s.session n).wholeTaken m rest (s.sealedSession n) with
        flight := (s.session n).flight ++ [{ s.wholeSeg n m with pn := (s.session n).txPn }] }.takePn
      (.taosh n m :: .segment ((s.session n).headOf n { s.wholeSeg n m with pn := (s.session n).txPn })
        (packetBytes (s.session n) ((s.session n).headOf n (s.wholeSeg n m)) (s.wholeSeg n m).payload) :: s.out) := by
  rw [segmentSend_new hopen hw hl hcredit, sendNew_whole hq hc hlen]
  exact (((sessionStep_set s n _).sendSegment _).recordsSent _).emit _

/-- An expiry of the retransmission timer. -/
theorem retransmit_session {s : State} {n : Nat} (hopen : (s.session n).st = .isOpen) :
    SessionStep s (s.retransmit n) n
      { s.session n with
        flight := [], lost := (s.session n).lost ++ (s.session n).flight, cwnd := 2
        rtoUs := min 10000 (2 * max 1 (s.session n).rtoUs) } s.out := by
  rw [show s.retransmit n = _ from if_neg (not_not.2 hopen)]
  exact sessionStep_set ..

/-- An acknowledgement owed is sent. -/
theorem sendAck_session (s : State) (n : Nat) :
    let x := s.session n
    let a := (s.ackBody n).1
    SessionStep s (s.sendAck n) n { x with unacked := 0, rxLimit := x.w + x.rxDone }.takePn
      (.ackPacket n a (packetBytes x { phase := x.phase, session := n, pn := x.txPn, len := 64 } (ackBytes a)) :: s.out) := by
  have h : SessionStep s (s.ackBody n).2 n (s.session n) s.out := ⟨rfl, fun _ _ => rfl, rfl, rfl, rfl⟩
  exact (h.set _).payload ..

theorem cwndUpdate_alpha (x : Session) {acked : Nat} (h : 0 < acked) (marked : Nat) :
    (x.cwndUpdate acked marked).alpha = 15 / 16 * x.alpha + 1 / 16 * ((marked : Rat) / acked) := by
  simp only [Session.cwndUpdate, if_neg h.ne']
  ring

theorem cwndUpdate_unmarked (x : Session) {acked : Nat} (h : 0 < acked) :
    (x.cwndUpdate acked 0).cwnd = min 512 (x.cwnd + 1) := by
  simp [Session.cwndUpdate, h.ne']

theorem cwndUpdate_marked (x : Session) {acked marked : Nat} (h : 0 < acked) (hm : 0 < marked) :
    (x.cwndUpdate acked marked).cwnd = max 2 (x.cwnd * (1 - (x.cwndUpdate acked marked).alpha / 2)) := by
  have hpos : (0 : Rat) < (marked : Rat) / acked := div_pos (by exact_mod_cast hm) (by exact_mod_cast h)
  simp only [Session.cwndUpdate, if_neg h.ne', if_pos hpos]

/-- Settles O22: each clause is one step of the session, and a packet number taken or seen leaves its windows and lists. -/
theorem transportSends : Obligations.TransportSends := by
  intro s n hn hopen x others go
  have hgo {i : Instr} {t : State} {y : Session} {out : List Out} {P : State → Session → Prop} (he : exec i s = .next t)
      (h : SessionStep s t n y out) (hp : t.out = out → P t y) : go i P :=
    ⟨t, he, ⟨h.others, h.mem, h.regs⟩, by rw [h.session]; exact hp h.out⟩
  clear_value go
  refine ⟨fun hw => ?_, fun hl hc => ?_, fun hw => ⟨fun g rest hl => ?_, fun m rest hl hcredit hq hc => ?_⟩, ?_,
    fun acked marked ha hm => ?_, fun pn a => ?_, exec_ackTimer_idle hn, fun hu => ?_⟩
  · rw [exec_segmentSend hn, segmentSend_window hw]
  · rw [exec_segmentSend hn, segmentSend_credit hl hc]
  · obtain ⟨k, o, p, f, htake⟩ := takePn_eq { x with lost := rest, flight := x.flight ++ [{ g with pn := x.txPn }] }
    refine hgo (exec_segmentSend hn) (lost_sent hopen hw hl) fun hout => ?_
    rw [htake]
    exact ⟨rfl, rfl, rfl, rfl, rfl, hout⟩
  · intro len hlen
    obtain ⟨k, o, p, f, htake⟩ := takePn_eq { x.wholeTaken m rest (s.sealedSession n) with
      flight := x.flight ++ [{ s.wholeSeg n m with pn := x.txPn }] }
    obtain ⟨body, hcut, hplain⟩ := cutOf_eq s n m
    refine hgo (exec_segmentSend hn) (whole_sent hopen hw hl hcredit hq hc hlen) fun hout => ?_
    rw [htake]
    refine ⟨hl, rfl, rfl, rfl, rfl, _, rfl, rfl, rfl, rfl, rfl, rfl, rfl, rfl, rfl, fun hs => ?_, hout⟩
    simp only [State.wholeSeg, hcut, hplain hs]
    rfl
  · exact hgo (exec_retransmitTimeout hn) (retransmit_session hopen) fun hout => ⟨rfl, rfl, rfl, rfl, rfl, hout⟩
  · refine hgo (exec_cwndUpdate hn hopen acked marked) (sessionStep_set s n _)
      fun hout => ⟨cwndUpdate_alpha x ha marked, hout, ?_, cwndUpdate_marked x ha⟩
    rintro rfl
    exact cwndUpdate_unmarked x ha
  · intro rest credit
    obtain ⟨k, o, p, f, r, hsee⟩ := seePn_eq x pn false
    refine hgo (exec_ack hn hopen pn a) (ack_session s n pn a) fun hout => ?_
    generalize State.ackIn _ _ _ = t at hout ⊢
    rw [hsee]
    refine ⟨rfl, rfl, rfl, fun hsame => ?_, fun hlost hhalved => ?_, fun hc => if_pos hc, fun hc => if_neg (not_lt.2 hc), hout⟩
    · exact acked_noLoss _ a _ (List.append_right_eq_self.1 hsame)
    · exact acked_loss _ a _ (fun hnone => hlost (List.append_right_eq_self.2 hnone)) hhalved
  · obtain ⟨k, o, p, f, htake⟩ := takePn_eq { x with unacked := 0, rxLimit := x.w + x.rxDone }
    refine hgo (exec_ackTimer hn hopen hu) (sendAck_session s n) fun hout => ?_
    rw [htake]
    exact ⟨rfl, rfl, rfl, _, _, hout, rfl, rfl, rfl, rfl, rfl, rfl⟩

end Sys2Proof.Machine

/-! # Memory keeps its canonical form

The form of memory (`Memory.wf`, R28, log 4) is kept by the one operation that lists a byte, `putCell`, and by `wipe` and
`restore`, which take bytes away or put listed ones back. Every other function of the model reaches memory through
these. So there is one lemma for each function of the model that answers a state, named after it and in the order of the
model: `State.Inv.f` says that `f` keeps the form, and its proof composes the lemmas of the functions that `f` calls, with
`.ite` for a choice, `.foldl` for a run, `.of_mem` for an update of other fields, and a case for each branch of a match.
`Kept` says the same of a command's outcome. -/

namespace Sys2Proof.Machine

variable {s : State}

/-- A choice between two states. -/
theorem State.Inv.ite {c : Prop} [Decidable c] {s t : State} (h : s.Inv) (k : t.Inv) : (if c then s else t).Inv := by
  split
  · exact h
  · exact k

/-- An update of fields other than memory. -/
theorem State.Inv.of_mem {t : State} (h : s.Inv) (e : t.mem = s.mem) : t.Inv :=
  (congrArg Memory.wf e).trans h

/-- A run of operations, each of which keeps the form. -/
theorem State.Inv.foldl {α : Type} {f : State → α → State} {l : List α} (hf : ∀ s x, s.Inv → (f s x).Inv) (h : s.Inv) :
    (l.foldl f s).Inv := by
  induction l generalizing s with
  | nil => exact h
  | cons x l ih => exact ih (hf s x h)

theorem State.Inv.foldl_fst {α β : Type} {f : State × β → α → State × β} {l : List α} {p : State × β}
    (hf : ∀ p x, p.1.Inv → (f p x).1.Inv) (h : p.1.Inv) : (l.foldl f p).1.Inv := by
  induction l generalizing p with
  | nil => exact h
  | cons x l ih => exact ih (hf p x h)

theorem State.Inv.foldl_snd {α β : Type} {f : β × State → α → β × State} {l : List α} {p : β × State}
    (hf : ∀ p x, p.2.Inv → (f p x).2.Inv) (h : p.2.Inv) : (l.foldl f p).2.Inv := by
  induction l generalizing p with
  | nil => exact h
  | cons x l ih => exact ih (hf p x h)

/-- The state of a pair that an operation answers. -/
theorem State.Inv.fst {α : Type} {t : State} {a : α} {p : State × α} (e : p = (t, a)) (h : p.1.Inv) : t.Inv := by
  subst e
  exact h

theorem State.Inv.snd {α : Type} {t : State} {a : α} {p : α × State} (e : p = (a, t)) (h : p.2.Inv) : t.Inv := by
  subst e
  exact h

/-! ### Bytes, registers and units -/

theorem State.Inv.setPress {n p} (h : s.Inv) : (s.setPress n p).Inv := h

theorem State.Inv.setPc {n c} (h : s.Inv) : (s.setPc n c).Inv := .setPress h

theorem State.Inv.modPc {n f} (h : s.Inv) : (s.modPc n f).Inv := .setPc h

theorem State.Inv.setComp {n c} (h : s.Inv) : (s.setComp n c).Inv := h

theorem State.Inv.setChase {n c} (h : s.Inv) : (s.setChase n c).Inv := h

theorem State.Inv.setCtx {n c} (h : s.Inv) : (s.setCtx n c).Inv := h

theorem State.Inv.setPart {n p} (h : s.Inv) : (s.setPart n p).Inv := h

theorem State.Inv.setSession {n p} (h : s.Inv) : (s.setSession n p).Inv := h

theorem State.Inv.setLink {n l} (h : s.Inv) : (s.setLink n l).Inv := h

theorem State.Inv.emit {o} (h : s.Inv) : (s.emit o).Inv := h

/-! ### Error records -/

theorem State.Inv.setReg {b i o v} (h : s.Inv) : (s.setReg b i o v).Inv := h

theorem State.Inv.setFld {b i o lo w v} (h : s.Inv) : (s.setFld b i o lo w v).Inv := .setReg h

theorem State.Inv.bump {b i o lo w k} (h : s.Inv) : (s.bump b i o lo w k).Inv := .setFld h

theorem State.Inv.tallies {uu k} (h : s.Inv) : (s.tallies uu k).Inv := .ite h h

theorem State.Inv.tally {uu} (h : s.Inv) : (s.tally uu).Inv := .tallies h

theorem State.Inv.raiseFlag {uu b o bit cb co lo w} (h : s.Inv) : (s.raiseFlag uu b o bit cb co lo w).Inv :=
  .tally (.bump (.setFld h))

theorem State.Inv.freshWord (h : s.Inv) : s.freshWord.2.Inv := h

theorem State.Inv.choose {n} (h : s.Inv) : (s.choose n).2.Inv := h

theorem State.Inv.send {n m} (h : s.Inv) : (s.send n m).Inv := .ite (.setSession h) h

theorem State.Inv.wideEvent {st detail count} (h : s.Inv) : (s.wideEvent st detail count).Inv :=
  .ite (.send (.freshWord h)) h

theorem State.Inv.ctxEvent {c st detail count} (h : s.Inv) : (s.ctxEvent c st detail count).Inv := by
  unfold State.ctxEvent
  split
  · dsimp only
    split
    · exact .send (.snd ‹_› (.freshWord h))
    · exact .setCtx (.snd ‹_› (.freshWord h))

theorem State.Inv.rasErrorAs {cls st x detail} (h : s.Inv) : (s.rasErrorAs cls st x detail).Inv := by
  unfold State.rasErrorAs
  extract_lets s0
  split
  have h1 : State.Inv _ := .snd ‹_› (.freshWord (s := s0) h)
  extract_lets r s1 s2 s3 ledger s4
  have h3 : s3.Inv := h1
  have h4 : s4.Inv := .ite h3 h3
  exact .ite (.wideEvent h4) h4

theorem State.Inv.rasError {cls st x} (h : s.Inv) : (s.rasError cls st x).Inv := .rasErrorAs h

/-! ### The map of the HBM -/

theorem State.Inv.setPcState {pc v} (h : s.Inv) : (s.setPcState pc v).Inv := .setFld h

theorem State.Inv.unitRead {pa} (h : s.Inv) : (s.unitRead pa).Inv := by
  unfold State.unitRead
  refine .ite h ?_
  split
  · exact h
  · exact h

theorem State.Inv.unitWritten {pa} (h : s.Inv) : (s.unitWritten pa).Inv := by
  unfold State.unitWritten
  refine .ite h ?_
  split
  · exact h
  · exact h

/-! ### Pools of numbers and folios -/

theorem State.Inv.poolTake {p i n} (h : s.Inv) : (s.poolTake p i n).Inv := .setPart h

theorem State.Inv.poolGive {p i n} (h : s.Inv) : (s.poolGive p i n).Inv := .setPart h

theorem State.Inv.setFolio {f x} (h : s.Inv) : (s.setFolio f x).Inv := h

theorem State.Inv.newFolio {p code f} {t : State} (h : s.Inv) (e : s.newFolio p code = some (f, t)) : t.Inv := by
  unfold State.newFolio at e
  split at e
  · cases e
  · split at e
    · cases e
    · cases e
      exact .setFolio (.poolTake h)

theorem State.Inv.freeFolio {f} (h : s.Inv) : (s.freeFolio f).Inv :=
  .ite (.setFolio h) (.ite (.poolGive (.setFolio h)) (.poolGive h))

theorem State.Inv.sweepFolios (h : s.Inv) : s.sweepFolios.Inv := h

theorem State.Inv.dropRef {fuel f} (h : s.Inv) : (dropRef fuel s f).1.Inv := by
  induction fuel generalizing s f with
  | zero => exact h
  | succ fuel ih =>
    unfold Machine.dropRef
    dsimp only
    split
    · exact .setFolio h
    · exact .freeFolio (.foldl_fst (fun _ _ h' => ih h') h)

theorem State.Inv.dropFolio {f} (h : s.Inv) : (s.dropFolio f).1.Inv := .dropRef h

theorem State.Inv.addRef {f} (h : s.Inv) : (s.addRef f).Inv := .setFolio h

theorem State.Inv.copyRoot {root n new} (h : s.Inv) : (s.copyRoot root n new).Inv :=
  .foldl (fun _ _ h' => .addRef h') (.setFolio h)

theorem State.Inv.ownList {k li cs l} {t : State} (h : s.Inv) (e : s.ownList k li = .ok t cs l) : t.Inv := by
  unfold State.ownList at e
  split at e
  · split at e
    · cases e
    · cases e
      exact .setFolio (.newFolio h ‹_›)
  · split at e
    · cases e
      exact h
    · split at e
      · cases e
      · split at e
        · cases e
        · cases e
          exact .dropFolio (.setFolio (.foldl (fun _ _ h' => .addRef h') (.setFolio (.newFolio h ‹_›))))

theorem State.Inv.ownData {k len d cs f} {t : State} (h : s.Inv) (e : s.ownData k len d = .ok t cs f) : t.Inv := by
  unfold State.ownData at e
  split at e
  · cases e
  · cases e
  · have hl : State.Inv _ := .ownList h ‹_›
    dsimp only at e
    split at e
    · split at e
      · split at e
        · cases e
          exact hl
        · split at e
          · cases e
          · cases e
            exact .dropFolio (.setFolio (.newFolio hl ‹_›))
      · split at e
        · cases e
        · cases e
          exact .dropFolio (.setFolio (.newFolio hl ‹_›))
    · split at e
      · cases e
      · cases e
        exact .setFolio (.newFolio hl ‹_›)

theorem State.Inv.reserve {k len n pos} {r : Reserve} (h : r.s.Inv) : (reserve k len n pos r).s.Inv := by
  induction n generalizing len pos r with
  | zero => exact h
  | succ n ih =>
    unfold Machine.reserve
    split
    · exact h
    · exact h
    · exact ih (.ownData h ‹_›)

theorem State.Inv.trimStream {k n} (h : s.Inv) : (s.trimStream k n).1.Inv := by
  unfold State.trimStream
  refine .foldl_fst (fun _ _ h' => ?_) h
  split
  · exact .dropFolio (.setFolio h')
  · split
    · refine .foldl_fst (fun _ _ h'' => ?_) h'
      split
      · exact .dropFolio (.setFolio h'')
      · exact h''
    · exact h'

theorem State.Inv.setKstream {hd k} (h : s.Inv) : (s.setKstream hd k).Inv := h

theorem State.Inv.releaseStream {hd} (h : s.Inv) : (s.releaseStream hd).1.Inv := .of_mem (.dropFolio h) rfl

theorem State.Inv.setGentry {hd e} (h : s.Inv) : (s.setGentry hd e).Inv := h

theorem State.Inv.setGset {k x} (h : s.Inv) : (s.setGset k x).Inv := h

theorem State.Inv.twoSets {p cls a b} {t : State} (h : s.Inv) (e : s.twoSets p cls = some (a, b, t)) : t.Inv := by
  unfold State.twoSets at e
  split at e
  · cases e
  · split at e
    · cases e
    · split at e
      · cases e
      · cases e
        exact .setGset (.setGset (.poolTake h))

theorem State.Inv.freeSet {k} (h : s.Inv) : (s.freeSet k).Inv := .ite (.setGset h) (.poolGive h)

theorem State.Inv.dropSet {k} (h : s.Inv) : (s.dropSet k).1.Inv := by
  unfold State.dropSet
  dsimp only
  split
  · exact .setGset h
  · split
    · exact .setGset h
    · exact .setGset h

theorem State.Inv.swapSets {hd} (h : s.Inv) : (s.swapSets hd).Inv := by
  unfold State.swapSets
  dsimp only
  split
  · exact .setGentry (.dropSet (.setGset h))
  · exact h

theorem State.Inv.returnSets {hd} (h : s.Inv) : (s.returnSets hd).1.Inv := by
  unfold State.returnSets
  extract_lets e give
  have hgive {p : State × Nat} (k : Option Nat) (h : p.1.Inv) : (give p k).1.Inv := by
    cases k with
    | none => exact h
    | some k => exact .freeSet h
  clear_value give
  split
  have h1 : State.Inv _ := .fst ‹_› (hgive _ h)
  split
  have h2 : State.Inv _ := .fst ‹_› (show State.Inv _ by
    split
    · split
      exact hgive _ (.fst ‹_› (.dropSet h1))
    · exact h1)
  split
  have h3 : State.Inv _ := .fst ‹_› (.foldl_fst (fun _ _ h' => hgive _ h') h2)
  refine .setGentry ?_
  split
  · exact .poolGive h3
  · exact h3

theorem State.Inv.dropEntry {hd} (h : s.Inv) : (s.dropEntry hd).Inv := .ite h (.setGentry h)

/-! ### Translation and accesses -/

theorem State.Inv.setEntry {e x} (h : s.Inv) : (s.setEntry e x).Inv := h

theorem State.Inv.setHome {k b} (h : s.Inv) : (s.setHome k b).Inv :=
  .ite (Memory.wf_putCell _ _ _ h) (.ite (Memory.wf_putCell _ _ _ (State.Inv.setEntry h)) (.setEntry (.setEntry h)))

theorem State.Inv.setHomes {k bs} (h : s.Inv) : (s.setHomes k bs).Inv := by
  induction bs generalizing s k with
  | nil => exact h
  | cons b bs ih => exact ih (.setHome h)

theorem State.Inv.setRegion {c r x} (h : s.Inv) : (s.setRegion c r x).Inv := .setChase h

theorem State.Inv.putByte {n k b} (h : s.Inv) : (s.putByte n k b).Inv := by
  unfold State.putByte
  split
  · exact .setHome h
  · split
    · exact .setHome h
    · exact .setRegion h

theorem State.Inv.putBytes {n k bs} (h : s.Inv) : (s.putBytes n k bs).Inv := by
  induction bs generalizing s k with
  | nil => exact h
  | cons b bs ih => exact ih (.putByte h)

theorem State.Inv.lineRead {k} (h : s.Inv) : (s.lineRead k).Inv := by
  unfold State.lineRead
  split
  · exact .unitRead h
  · exact h

theorem State.Inv.lineWritten {k} (h : s.Inv) : (s.lineWritten k).Inv := by
  unfold State.lineWritten
  split
  · exact .unitWritten h
  · exact h

theorem State.Inv.recall {keep line} (h : s.Inv) : (s.recall keep line).Inv := by
  unfold State.recall
  refine .foldl (fun _ _ h' => .ite h' ?_) h
  split
  · exact h'
  · exact .ite (.lineWritten (.bump (.setChase h'))) (.setChase h')

theorem State.Inv.warm {k} (h : s.Inv) : (s.warm k).Inv := .ite h (.setEntry h)

theorem State.Inv.yieldLine {c line} (h : s.Inv) : (s.yieldLine c line).Inv :=
  .foldl (fun _ _ h' => .ite (.setChase h') h') h

theorem State.Inv.fillLine {c line dirty} (h : s.Inv) : (s.fillLine c line dirty).Inv := by
  unfold State.fillLine
  extract_lets s1 x mates oldest new
  split
  extract_lets s2 s3
  have h3 : s3.Inv := .warm (.lineRead (.bump (.setChase h)))
  split
  · exact .lineWritten (.bump h3)
  · exact h3

theorem State.Inv.cabAccess {c k write} (h : s.Inv) : (s.cabAccess c k write).Inv := by
  unfold State.cabAccess
  dsimp only
  split
  · exact .setChase (.of_mem (.ite (.yieldLine h) h) rfl)
  · exact .fillLine (.foldl (fun _ _ h' => .fillLine h') (.ite (.yieldLine h) h))

theorem State.Inv.cabRange {c k len write} (h : s.Inv) : (s.cabRange c k len write).Inv :=
  .ite h (.foldl (fun _ _ h' => .cabAccess h') h)

theorem State.Inv.rekeyShadows {old new n} (h : s.Inv) : (s.rekeyShadows old new n).Inv := h

theorem State.Inv.rekeyLines {old new n} (h : s.Inv) : (s.rekeyLines old new n).Inv := h

theorem State.Inv.provoke {l write} (h : s.Inv) : (s.provoke l write).Inv := by
  unfold State.provoke
  split
  · exact .ite h (.ite (.setEntry h) (.ite (.setEntry h) h))
  · exact h

theorem State.Inv.clearBad {a n} (h : s.Inv) : (s.clearBad a n).Inv := h

theorem State.Inv.watchWords (h : s.Inv) : s.watchWords.Inv := h

theorem State.Inv.streamPromote {p e} (h : s.Inv) : (s.streamPromote p e).Inv :=
  .ite h (.ite (.setEntry h) (.ite (.bump h) (.setEntry h)))

theorem State.Inv.slideJob {p i j} (h : s.Inv) : (s.slideJob p i j).Inv := by
  unfold State.slideJob
  split
  · exact h
  · exact .setPart (.foldl (fun _ _ h' => .streamPromote (.setEntry h')) (.foldl (fun _ _ h' => .setEntry h') h))

theorem State.Inv.slideJobs (h : s.Inv) : s.slideJobs.Inv :=
  .foldl (fun _ _ h' => .foldl (fun _ _ h'' => .slideJob h'') h') h

theorem State.Inv.wrote (h : s.Inv) : s.wrote.Inv := .slideJobs (.watchWords h)

/-! ### Requests to other devices -/

theorem State.Inv.setLinkState {l v} (h : s.Inv) : (s.setLinkState l v).Inv := .setFld h

theorem State.Inv.launch {l p seq k} (h : s.Inv) : (s.launch l p seq k).Inv := .emit (.bump (.setLink h))

theorem State.Inv.sendOn {l p} (h : s.Inv) : (s.sendOn l p).Inv := .ite (.launch (.setLink h)) (.setLink h)

theorem State.Inv.inject {p} (h : s.Inv) : (s.inject p).1.Inv := by
  unfold State.inject
  split
  · exact h
  · exact .sendOn h

theorem State.Inv.askQuoin {r p} (h : s.Inv) : (s.askQuoin r p).Inv := by
  unfold State.askQuoin
  extract_lets tag s1 p1
  refine .ite h ?_
  split
  have h2 : State.Inv _ := .fst ‹_› (.inject (s := s1) h)
  exact h2

theorem State.Inv.serveToken (h : s.Inv) : s.serveToken.Inv := by
  unfold State.serveToken
  split
  · exact h
  · split
    · exact h
    · exact .ite h (.of_mem (.inject h) rfl)

theorem State.Inv.endRequest {tag} (h : s.Inv) : (s.endRequest tag).Inv := .serveToken h

theorem State.Inv.remoteOut {c} (h : s.Inv) : (s.remoteOut c).Inv := .setCtx h

theorem State.Inv.sendBlocks {id hd b n bs} (h : s.Inv) : (s.sendBlocks id hd b n bs).Inv := .send (.setSession h)

theorem State.Inv.tellHost {id hd off len data} (h : s.Inv) : (s.tellHost id hd off len data).Inv := by
  unfold State.tellHost
  split
  · refine .ite ?_ ?_
    · split
      · exact .send h
      · exact .send h
    · split
      · exact .ite (.sendBlocks h) (.send h)
      · exact .send h

theorem State.Inv.askHost {r w off len data} (h : s.Inv) : (s.askHost r w off len data).Inv := .tellHost h

theorem State.Inv.askRead {r l len} (h : s.Inv) : (s.askRead r l len).Inv := by
  unfold State.askRead
  split
  · exact .foldl (fun _ _ h' => .askQuoin (.remoteOut h')) h
  · exact .foldl (fun _ _ h' => .askHost (.remoteOut h')) h
  · exact h

theorem State.Inv.askWrite {r l data} (h : s.Inv) : (s.askWrite r l data).Inv := by
  unfold State.askWrite
  split
  · exact .foldl (fun _ _ h' => .askQuoin (.remoteOut h')) h
  · exact .foldl (fun _ _ h' => .askHost (.remoteOut h')) h
  · exact h

theorem State.Inv.askAdd {r d pa addend} (h : s.Inv) : (s.askAdd r d pa addend).Inv := .askQuoin (.remoteOut h)

/-! ### Conditions -/

theorem State.Inv.record {n line fl} (h : s.Inv) : (s.record n line fl).Inv := .ite h (.tallies (.modPc h))

theorem State.Inv.srFor {p n} (h : s.Inv) : (s.srFor p n).2.Inv := by
  unfold State.srFor
  split
  · exact h
  · exact h

theorem State.Inv.spendDraws {p fmt nc n} (h : s.Inv) : (s.spendDraws p fmt nc n).Inv := .ite (.srFor h) h

/-! ### Operands -/

theorem State.Inv.rangeStalls {c write rs} (h : s.Inv) : (s.rangeStalls c write rs).2.Inv := by
  unfold State.rangeStalls
  refine .foldl_snd (fun _ _ h' => .foldl_snd (fun _ _ h'' => ?_) h') h
  split
  · split
    · exact .provoke h''
    · exact h''
  · exact h''

theorem State.Inv.putCase {n off bs} (h : s.Inv) : (s.putCase n off bs).Inv := Memory.wf_putCells _ _ _ h

theorem State.Inv.putLocal {e runs} (h : s.Inv) : (s.putLocal e runs).Inv := by
  unfold State.putLocal
  refine .foldl (fun _ _ h' => .foldl (fun _ _ h'' => ?_) h') h
  split
  · split
    · exact .putBytes (.ite h'' (.cabRange h''))
    · exact h''
  · exact h''

theorem State.Inv.mixRun {old : State} {v ks} (h : s.Inv) : (old.mixRun v ks s).Inv := by
  induction ks generalizing s with
  | nil => exact h
  | cons k ks ih => exact ih (.ite (.putByte h) h)

theorem State.Inv.blurRun {v ks} (h : s.Inv) : (State.blurRun v ks s).Inv := by
  induction ks generalizing s with
  | nil => exact h
  | cons k ks ih => exact ih (.putByte h)

theorem State.Inv.contend {v mine busy} {old : State} (h : s.Inv) : (s.contend old v mine busy).Inv :=
  .foldl (fun _ _ h' => .mixRun h') h

theorem State.Inv.blur {n c v mine} (h : s.Inv) : (s.blur n c v mine).Inv := .foldl (fun _ _ h' => .blurRun h') h

theorem State.Inv.touch {e rs} (h : s.Inv) : (s.touch e rs).Inv := by
  unfold State.touch
  refine .foldl (fun _ _ h' => .foldl (fun _ _ h'' => ?_) h') h
  split
  · split
    · exact .cabRange h''
    · exact h''
  · exact h''

/-! ### Tensor operations -/

theorem State.Inv.acceptAtomic (h : s.Inv) : s.acceptAtomic.Inv := h

theorem State.Inv.endAtomic {performed} (h : s.Inv) : (s.endAtomic performed).Inv := .ite (.bump h) (.bump h)

theorem State.Inv.countAtomic {performed} (h : s.Inv) : (s.countAtomic performed).Inv := .endAtomic (.acceptAtomic h)

theorem State.Inv.unitMoved {k} (h : s.Inv) : (s.unitMoved k).Inv := .lineWritten (.lineRead h)

theorem State.Inv.add64 {k v} (h : s.Inv) : (s.add64 k v).Inv :=
  .wrote (.setHomes (.unitMoved (.countAtomic (.recall h))))

theorem State.Inv.outsideWrite {k bs} (h : s.Inv) : (s.outsideWrite k bs).Inv :=
  .ite h (.wrote (.setHomes (.foldl (fun _ _ h' => .unitMoved (.recall h')) h)))

theorem State.Inv.modOf {n c f} (h : s.Inv) : (s.modOf n c f).Inv := .ite (.setPress h) (.setPress h)

theorem State.Inv.loadImage {n cs} (h : s.Inv) : (s.loadImage n cs).Inv :=
  Memory.wf_restore _ _ _ (Memory.wf_restore _ _ _ (Memory.wf_wipe _ _ _ (Memory.wf_wipe _ _ _ h)))

theorem State.Inv.inContext {n c} {f : State → State} (h : s.Inv) (hf : ∀ u, u.Inv → (f u).Inv) :
    (s.inContext n c f).Inv := by
  unfold State.inContext
  refine .ite (hf _ h) (.watchWords ?_)
  split
  · refine .ite ?_ ?_
    · dsimp only
      split
      · exact .setPress (.loadImage (hf _ (.setPress (.loadImage h))))
      · exact .setPress (.loadImage (hf _ (.setPress (.loadImage h))))
    · split
      · refine .ite ?_ h
        dsimp only
        split
        · exact .setPress (.loadImage (hf _ (.setPress (.loadImage h))))
        · exact .setPress (.loadImage (hf _ (.setPress (.loadImage h))))
      · exact h
  · refine .ite ?_ h
    dsimp only
    split
    · exact .setPress (.loadImage (hf _ (.setPress (.loadImage h))))
    · exact .setPress (.loadImage (hf _ (.setPress (.loadImage h))))
  · exact h

theorem State.Inv.recordOf {n c line fl} (h : s.Inv) : (s.recordOf n c line fl).Inv := .ite h (.tallies (.modOf h))

theorem State.Inv.sweepQueue {q} (h : s.Inv) : (s.sweepQueue q).Inv := .ite h h

theorem State.Inv.postRecord {q r} (h : s.Inv) : (s.postRecord q r).Inv := by
  unfold State.postRecord
  dsimp only
  split
  · exact .send h
  · exact h

theorem State.Inv.recordTake {k press fault gen} (h : s.Inv) : (s.recordTake k press fault gen).Inv := by
  unfold State.recordTake
  split
  · exact h
  · exact .postRecord h

theorem State.Inv.endTake {k st} (h : s.Inv) : (s.endTake k st).Inv := by
  unfold State.endTake
  split
  · exact h
  · exact .ite h (.recordTake h)

theorem State.Inv.closeRegion {c r} (h : s.Inv) : (s.closeRegion c r).Inv := .setChase (.poolGive (.poolGive h))

theorem State.Inv.unbindKern {hd} (h : s.Inv) : (s.unbindKern hd).Inv := .ite (.setKstream h) h

theorem State.Inv.unbindGalley {hd} (h : s.Inv) : (s.unbindGalley hd).Inv := .ite (.setGentry h) h

theorem State.Inv.releaseGalley {hd} (h : s.Inv) : (s.releaseGalley hd).1.Inv :=
  .dropEntry (.setGentry (.returnSets h))

theorem State.Inv.keepKern {b} (h : s.Inv) : (s.keepKern b).Inv := by
  unfold State.keepKern
  refine .ite (.releaseStream ?_) ?_
  · split
    · exact .dropFolio h
    · exact h
  · split
    · exact .dropFolio h
    · exact h

theorem State.Inv.keepGalley {b} (h : s.Inv) : (s.keepGalley b).Inv := .ite (.releaseGalley h) h

theorem State.Inv.undoKern {b} (h : s.Inv) : (s.undoKern b).Inv := by
  unfold State.undoKern
  refine .ite h ?_
  split
  · exact .releaseStream h
  · exact .setKstream (.dropFolio h)

theorem State.Inv.restoreGalley {hd g} (h : s.Inv) : (s.restoreGalley hd g).Inv := by
  unfold State.restoreGalley
  refine .setGentry (.ite h ?_)
  dsimp only
  split
  · exact h
  · exact h
  · split
    · exact .swapSets (.setGset h)
    · exact h

theorem State.Inv.undoGalley {b} (h : s.Inv) : (s.undoGalley b).Inv := by
  unfold State.undoGalley
  refine .ite h (.ite (.releaseGalley h) (.unbindGalley ?_))
  split
  · exact .restoreGalley h
  · exact h

theorem State.Inv.leaveRegion {c r} (h : s.Inv) : (s.leaveRegion c r).Inv := .modOf h

theorem State.Inv.rejectRegion {c r} (h : s.Inv) : (s.rejectRegion c r).Inv :=
  .bump (.closeRegion (.leaveRegion (.foldl (fun _ _ h' => .undoGalley h') (.foldl (fun _ _ h' => .undoKern h') h))))

theorem State.Inv.endRegions {c} (h : s.Inv) : (s.endRegions c).Inv :=
  .foldl (fun _ _ h' => .foldl (fun _ _ h'' => .ite (.rejectRegion h'') h'') h') h

theorem State.Inv.stopPresses {c} (h : s.Inv) : (s.stopPresses c).Inv := h

theorem State.Inv.endStreams {c} (h : s.Inv) : (s.endStreams c).Inv :=
  .foldl (fun _ _ h' => .ite (.of_mem (.returnSets h') rfl) h') (.foldl (fun _ _ h' => .ite (.releaseStream h') h') h)

theorem State.Inv.endTakes {c} (h : s.Inv) : (s.endTakes c).Inv :=
  .foldl (fun _ _ h' => .ite (.ite (.recordTake h') (.recordTake h')) h') h

theorem State.Inv.zeroPress {n} (h : s.Inv) : (s.zeroPress n).Inv :=
  .setPress (Memory.wf_wipe _ _ _ (Memory.wf_wipe _ _ _ h))

theorem State.Inv.endPresses {c} (h : s.Inv) : (s.endPresses c).Inv := by
  unfold State.endPresses
  extract_lets drop s1 s2
  have h1 : s1.Inv := .foldl (fun _ _ h' => .ite (.zeroPress (.ite (.setPress h') h')) (.ite (.setPress h') h')) h
  clear_value s1
  exact h1

theorem State.Inv.loseMember {c} (h : s.Inv) : (s.loseMember c).Inv := .ite h h

theorem State.Inv.teardownRest {c} (h : s.Inv) : (s.teardownRest c).Inv :=
  .loseMember (.sweepFolios (.endPresses (.endTakes (.endStreams h))))

theorem State.Inv.teardown {c st} (h : s.Inv) : (s.teardown c st).Inv :=
  .ite h (.ite (.endRegions (.stopPresses (.setCtx h))) (.teardownRest (.endRegions (.stopPresses (.setCtx h)))))

theorem State.Inv.faultOn {n c async st slot pc va} (h : s.Inv) : (s.faultOn n c async st slot pc va).Inv :=
  .teardown (.ite (.setCtx (.modOf h)) (.modOf h))

theorem State.Inv.precise {n st slot va} (h : s.Inv) : (s.precise n st slot va).Inv := .faultOn h

theorem State.Inv.late {n c st slot pc va} (h : s.Inv) : (s.late n c st slot pc va).Inv :=
  .ite (.rasError (.faultOn h)) (.faultOn h)

theorem State.Inv.poisonPage {e} (h : s.Inv) : (s.poisonPage e).Inv := .ite h (.rasError (.bump (.setEntry h)))

theorem State.Inv.badRead {n c slot pc va k} (h : s.Inv) : (s.badRead n c slot pc va k).Inv :=
  .ite (.late h) (.poisonPage h)

theorem State.Inv.stageWrite {ch r ctx page runs pc slot line} (h : s.Inv) :
    (s.stageWrite ch r ctx page runs pc slot line).Inv := by
  unfold State.stageWrite
  dsimp only
  split
  · exact .setRegion h
  · exact .setRegion h

theorem State.Inv.issueQueued {c r q} (h : s.Inv) : (s.issueQueued c r q).2.Inv := by
  unfold State.issueQueued
  dsimp only
  split
  · exact .foldl (fun _ _ h' => .askWrite h') h
  · split
    · exact .askAdd h
    · exact .askWrite h
    · split
      · exact .provoke h
      · split
        · split
          · split
            · exact .late (.countAtomic h)
            · exact .poisonPage h
          · exact .add64 h
        · exact h
    · exact .late h

theorem State.Inv.issueRegion {c r fuel} (h : s.Inv) : (issueRegion c r fuel s).Inv := by
  induction fuel generalizing s with
  | zero => exact h
  | succ fuel ih =>
    unfold Machine.issueRegion
    split
    · exact h
    · exact .ite (ih (.setRegion (.issueQueued h))) (.issueQueued h)

theorem State.Inv.finishCommit {c r} (h : s.Inv) : (s.finishCommit c r).Inv :=
  .ite h (.ite (.issueRegion h) (.ite (.teardownRest (.bump (.closeRegion (.leaveRegion (.foldl
    (fun _ _ h' => .unbindGalley h') (.foldl (fun _ _ h' => .unbindKern h') (.issueRegion h))))))) (.bump
    (.closeRegion (.leaveRegion (.foldl (fun _ _ h' => .unbindGalley h') (.foldl (fun _ _ h' => .unbindKern h')
    (.issueRegion h))))))))

theorem State.Inv.commitRegion {c r} (h : s.Inv) : (s.commitRegion c r).Inv :=
  .finishCommit (.wrote (.foldl (fun _ _ h' => .keepGalley h') (.foldl (fun _ _ h' => .keepKern h') (.foldl
    (fun _ _ h' => .setHomes (.recall h')) (.setRegion h)))))

theorem State.Inv.loseWatch {n} (h : s.Inv) : (s.loseWatch n).Inv := by
  unfold State.loseWatch
  split
  · refine .ite h ?_
    split
    · exact .late h
    · exact h
  · exact h

/-! ### The tensor mover -/

theorem State.Inv.setTm {n c line op} (h : s.Inv) : (s.setTm n c line op).Inv := .modOf h

theorem State.Inv.scatterTile {n hd} (h : s.Inv) : (s.scatterTile n hd).Inv := by
  refine .foldl (fun u k h' => ?_) h
  split
  · exact h'
  · extract_lets f words
    clear_value words
    exact Memory.wf_putCells _ _ _ h'

theorem State.Inv.writeAll {n c op runs} (h : s.Inv) : (s.writeAll n c op runs).Inv := by
  unfold State.writeAll
  refine .ite (.foldl (fun _ _ h' => .putCase h') h) (.ite (.scatterTile h) (.ite h (.ite (.wrote (.putLocal h)) ?_)))
  split
  · exact .foldl (fun _ _ h' => .stageWrite h') (.wrote (.putLocal h))
  · exact .foldl (fun _ _ h' => .askWrite h') (.wrote (.putLocal h))

theorem State.Inv.writeRunsOf {n c op runs} (h : s.Inv) : (s.writeRunsOf n c op runs).Inv := by
  unfold State.writeRunsOf
  split
  · exact .writeAll h
  · exact .modOf (.writeAll h)

theorem State.Inv.finishMove {n c op} (h : s.Inv) : (s.finishMove n c op).Inv := .ite h (.writeAll (.setTm h))

theorem State.Inv.doCopy {n c op} (h : s.Inv) : (s.doCopy n c op).Inv :=
  .ite (.writeRunsOf (.spendDraws (.recordOf h))) (.writeRunsOf (.recordOf (.srFor h)))

theorem State.Inv.doFill {n c op} (h : s.Inv) : (s.doFill n c op).Inv :=
  .ite (.writeRunsOf (.spendDraws h)) (.writeRunsOf (.recordOf (.srFor h)))

theorem State.Inv.doPack {n c op} (h : s.Inv) : (s.doPack n c op).Inv := .writeRunsOf (.modOf (.ite (.setPart h) h))

theorem State.Inv.doUnpack {n c op} (h : s.Inv) : (s.doUnpack n c op).Inv := by
  unfold State.doUnpack
  dsimp only
  split
  · exact .late h
  · exact .writeRunsOf (.spendDraws h)

theorem State.Inv.doPrefetch {n c op} (h : s.Inv) : (s.doPrefetch n c op).Inv := .ite (.touch h) h

theorem State.Inv.tmEffect {n c op} (h : s.Inv) : (s.tmEffect n c op).Inv := by
  unfold State.tmEffect
  split
  · exact .modOf h
  · exact .putCase h
  · exact .doCopy (.touch h)
  · exact .doPrefetch h
  · exact .doFill h
  · exact .doPack (.touch h)
  · exact .doUnpack (.touch h)

theorem State.Inv.doTm {n c op} (h : s.Inv) : (s.doTm n c op).Inv := .blur (.contend (.tmEffect h))

theorem State.Inv.tryTm {n c op} (h : s.Inv) : (s.tryTm n c op).Inv := by
  unfold State.tryTm
  refine .ite h (.ite (.foldl (fun _ _ h' => .askRead h') (.setTm h)) (.ite h ?_))
  split
  · split
    · refine .ite (.snd ‹_› ?_) ?_
      · split
        · exact .snd ‹_› (.rangeStalls h)
        · exact .rangeStalls (.snd ‹_› (.rangeStalls h))
      · split
        · refine .badRead (.snd ‹_› ?_)
          split
          · exact .snd ‹_› (.rangeStalls h)
          · exact .rangeStalls (.snd ‹_› (.rangeStalls h))
        · refine .doTm (.setTm (.snd ‹_› ?_))
          split
          · exact .snd ‹_› (.rangeStalls h)
          · exact .rangeStalls (.snd ‹_› (.rangeStalls h))

theorem State.Inv.tryTms {n} (h : s.Inv) : (s.tryTms n).Inv := by
  unfold State.tryTms
  split
  · exact .foldl (fun _ _ h' => .ite (.tryTm h') h') h
  · exact h

theorem State.Inv.tmStart {n stop} (h : s.Inv) : (s.tmStart n stop).Inv := by
  unfold State.tmStart
  split
  · exact h
  · exact .ite h (.tryTm (.modPc h))

/-! ### Waiting that ends -/

theorem State.Inv.putX {n c rd v} (h : s.Inv) : (s.putX n c rd v).Inv := .ite (.modOf h) (.setComp h)

theorem State.Inv.pushStall {n c x} (h : s.Inv) : (s.pushStall n c x).Inv := .ite (.modOf h) (.setComp h)

theorem State.Inv.coreLate {n c st slot pc va} (h : s.Inv) : (s.coreLate n c st slot pc va).Inv :=
  .ite (.late h) (.teardown (.setComp h))

theorem State.Inv.scalarLoad {n c va size signed rd prov pc slot} (h : s.Inv) :
    (s.scalarLoad n c va size signed rd prov pc slot).Inv := by
  unfold State.scalarLoad
  dsimp only
  split
  · exact .coreLate h
  · refine .ite (.pushStall (.provoke h)) ?_
    split
    · exact .ite (.ite (.coreLate h) (.pushStall (.poisonPage h))) (.putX (.cabRange h))
    · exact .askRead h

theorem State.Inv.scalarStore {n c va size v prov pc slot} (h : s.Inv) :
    (s.scalarStore n c va size v prov pc slot).Inv := by
  unfold State.scalarStore
  dsimp only
  split
  · exact .coreLate h
  · exact h
  · refine .ite (.pushStall (.provoke h)) ?_
    split
    · exact .wrote (.blur (.putBytes (.ite h (.cabRange h))))
    · split
      · exact .stageWrite h
      · exact .askWrite h

theorem State.Inv.access {n c x} (h : s.Inv) : (s.access n c x).Inv := by
  unfold State.access
  refine .ite (.pushStall h) ?_
  split
  · exact .scalarLoad h
  · exact .scalarStore h

theorem State.Inv.retryStalls {n c fuel} (h : s.Inv) : (retryStalls n c fuel s).Inv := by
  induction fuel generalizing s with
  | zero => exact h
  | succ fuel ih =>
    have cut (u : State) (hu : u.Inv) : (if n < 128 then u.modOf n c fun p => { p with stall := [] }
        else u.setComp (n - 128) { u.comp (n - 128) with stall := [] }).Inv := .ite (.modOf hu) (.setComp hu)
    unfold Machine.retryStalls
    dsimp only
    split
    · exact h
    · exact .ite h (.ite (.ite (.modOf (.access (cut s h))) (.setComp (.access (cut s h))))
        (ih (.ite (.modOf (.access (cut s h))) (.setComp (.access (cut s h))))))

theorem State.Inv.tryAdd {n c va v mark pc} (h : s.Inv) : (s.tryAdd n c va v mark pc).2.Inv := by
  unfold State.tryAdd
  split
  · exact .late h
  · exact .askAdd h
  · split
    · exact .provoke h
    · split
      · split
        · split
          · exact .late (.countAtomic h)
          · exact .poisonPage h
        · exact .modOf (.add64 h)
      · exact .askWrite h

theorem State.Inv.retryAdds {n c} (h : s.Inv) : (s.retryAdds n c).Inv := by
  unfold State.retryAdds
  split
  · exact h
  · refine .foldl (fun _ _ h' => ?_) h
    split
    · exact .ite (.modOf (.tryAdd h')) (.tryAdd h')
    · exact h'

theorem State.Inv.arriveCbar {n k} (h : s.Inv) : (s.arriveCbar n k).Inv :=
  .ite (.modPc (.setChase h)) (.foldl (fun _ _ h' => .modOf h') (.setChase h))

theorem State.Inv.endFbar {key hd c all} (h : s.Inv) : (s.endFbar key hd c all).Inv :=
  .foldl (fun _ _ h' => .modOf h') h

theorem State.Inv.arriveFbar {n hd xd} (h : s.Inv) : (s.arriveFbar n hd xd).Inv := by
  unfold State.arriveFbar
  split
  · exact h
  · exact .ite (.endFbar (.modPc h)) h

theorem State.Inv.peerNews {hd} (h : s.Inv) : (s.peerNews hd).2.Inv := by
  unfold State.peerNews
  split
  · exact h
  · exact .choose h

theorem State.Inv.peerLost {hd} (h : s.Inv) : (s.peerLost hd).Inv := h

theorem State.Inv.peerFbar {n hd} (h : s.Inv) : (s.peerFbar n hd).Inv := by
  unfold State.peerFbar
  split
  · exact h
  · exact .ite (.peerLost (.peerNews h)) (.ite (.endFbar (.peerNews h)) (.peerNews h))

theorem State.Inv.settleHold {n} (h : s.Inv) : (s.settleHold n).Inv := by
  unfold State.settleHold
  split
  · exact .ite (.modPc h) h
  · exact .ite (.arriveCbar h) h
  · exact .ite (.modPc h) (.ite (.arriveFbar h) h)
  · exact .ite (.modPc h) (.peerFbar h)
  · split
    · exact h
    · exact .ite (.modPc h) (.ite (.modPc h) (.ite (.peerLost (.peerNews h)) (.peerNews h)))
  · exact h

theorem State.Inv.requestFault {r st} (h : s.Inv) : (s.requestFault r st).Inv := by
  unfold State.requestFault
  dsimp only
  split
  · exact .coreLate h
  · exact .coreLate h
  · exact .coreLate h
  · exact .coreLate h
  · exact .coreLate h
  · exact .coreLate h
  · exact .coreLate h
  · exact .late h
  · exact .coreLate h
  · exact .ite (.setEntry h) h
  · split
    · exact .ite h h
    · exact h

theorem State.Inv.retire {tag r} (h : s.Inv) : (s.retire tag r).Inv := .ite (.endRequest h) (.setCtx (.endRequest h))

theorem State.Inv.askOrigin {r m off len} (h : s.Inv) : (s.askOrigin r m off len).Inv :=
  .ite (.foldl (fun _ _ h' => .askQuoin h') h) (.foldl (fun _ _ h' => .send h') h)

theorem State.Inv.askArea {e} (h : s.Inv) : (s.askArea e).Inv := by
  unfold State.askArea
  dsimp only
  split
  · exact h
  · exact .askOrigin (.setEntry h)

theorem State.Inv.askAreas (h : s.Inv) : s.askAreas.Inv := .foldl (fun _ _ h' => .ite (.askArea h') h') h

theorem State.Inv.pumpLoad {i} (h : s.Inv) : (s.pumpLoad i).Inv := by
  unfold State.pumpLoad
  split
  · exact h
  · exact .ite h (.askOrigin h)

theorem State.Inv.pumpLoads (h : s.Inv) : s.pumpLoads.Inv := by
  unfold State.pumpLoads
  refine .foldl (fun _ _ h' => ?_) h
  split
  · exact .ite (.pumpLoad h') h'
  · exact h'

theorem State.Inv.hostWrite {kbs} (h : s.Inv) : (s.hostWrite kbs).Inv :=
  .wrote (.foldl (fun _ _ h' => .setHome h') (.foldl (fun _ _ h' => .unitMoved (.recall h')) h))

theorem State.Inv.tryHost {a} (h : s.Inv) : (s.tryHost a).2.Inv := by
  unfold State.tryHost
  dsimp only
  split
  · exact .send h
  · split
    · exact .foldl (fun _ _ h' => .ite (.provoke h') h') h
    · split
      · exact .send (.hostWrite h)
      · split
        · exact .foldl (fun _ _ h' => .poisonPage h') h
        · split
          · exact .send h
          · exact .send h

theorem State.Inv.settleHost (h : s.Inv) : s.settleHost.Inv :=
  .foldl (fun _ _ h' => .ite h' (.ite (.tryHost h') (.of_mem (.tryHost h') rfl))) h

theorem State.Inv.flushFailed (h : s.Inv) : s.flushFailed.Inv := by
  unfold State.flushFailed
  refine .foldl (fun _ _ h' => ?_) h
  split
  · dsimp only
    split
    · exact .finishCommit (.requestFault (.retire h'))
    · exact .requestFault (.retire h')
  · exact h'

theorem State.Inv.settleAway {n c} (h : s.Inv) : (s.settleAway n c).Inv := .retryAdds (.retryStalls (.tryTms h))

theorem State.Inv.settlePress {n} (h : s.Inv) : (s.settlePress n).Inv := by
  unfold State.settlePress
  refine .foldl (fun _ _ h' => .ite (.inContext h' (fun _ h'' => .settleAway h'')) h') ?_
  split
  · exact h
  · exact .ite (.settleHold (.settleAway h)) (.settleAway h)

theorem State.Inv.settle (h : s.Inv) : s.settle.Inv :=
  .pumpLoads (.askAreas (.settleHost (.flushFailed (.foldl (fun _ _ h' => .retryStalls h') (.foldl
    (fun _ _ h' => .settlePress h') (.foldl (fun _ _ h' => .retryStalls h') (.foldl (fun _ _ h' => .settlePress h')
    (.settleHost h))))))))

/-! ### Scalar operations -/

theorem State.Inv.scalarDo {n old slot kill prov drop e} (h : s.Inv) :
    (s.scalarDo n old slot kill prov drop e).1.Inv := by
  unfold State.scalarDo
  split
  · exact h
  · exact .modPc h
  · exact .modPc h
  · exact .modPc h
  · split
    exact .modPc (.snd ‹_› (.srFor h))
  · exact .access h
  · split
    · exact h
    · exact .access h
  · dsimp only
    exact .modPc h
  · exact .putCase h
  · split
    exact .modPc (.snd ‹_› (by
      split
      · exact .freshWord h
      · exact h))
  · exact .modPc h
  · exact h

theorem State.Inv.compDo {m lis e} (h : s.Inv) : (s.compDo m lis e).Inv := by
  unfold State.compDo
  extract_lets x n put s1
  have h1 : s1.Inv := .setComp h
  clear_value s1
  split
  · exact h1
  · exact .setComp h1
  · exact .setComp h1
  · exact h1
  · split
    exact .setComp (.snd ‹_› (by
      split
      · exact .choose h1
      · exact h1))
  · exact .access h1
  · exact .access h1
  · exact .setComp h1
  · exact .setComp h1
  · split
    exact .setComp (.snd ‹_› (by
      split
      · exact .freshWord h1
      · exact h1))
  · exact h1
  · exact .setComp h1

/-! ### Moves -/

theorem State.Inv.queueTm {n op} (h : s.Inv) : (s.queueTm n op).Inv := .modPc h

theorem State.Inv.doCopyIssue {k f} {s0 : State} (h : s.Inv) : (doCopyIssue k s0 s f).Inv := .queueTm h

theorem State.Inv.doDload {k f} {s0 : State} (h : s.Inv) : (doDload k s0 s f).Inv := .queueTm h

theorem State.Inv.doDstore {k f} {s0 : State} (h : s.Inv) : (doDstore k s0 s f).Inv := .queueTm h

theorem State.Inv.doPrefetchIssue {k f} {s0 : State} (h : s.Inv) : (doPrefetchIssue k s0 s f).Inv := .queueTm h

theorem State.Inv.doFillIssue {k f} {s0 : State} (h : s.Inv) : (doFillIssue k s0 s f).Inv := .queueTm h

theorem State.Inv.doSlugPackIssue {k f} {s0 : State} (h : s.Inv) : (doSlugPackIssue k s0 s f).Inv := .queueTm h

theorem State.Inv.doSlugUnpackIssue {k f} {s0 : State} (h : s.Inv) : (doSlugUnpackIssue k s0 s f).Inv := .queueTm h

/-! ### The platens -/

theorem State.Inv.doWload {k f} (h : s.Inv) : (doWload k s f).Inv := .modPc h

theorem State.Inv.doMm {k f} (h : s.Inv) : (doMm k s f).Inv := .modPc h

theorem State.Inv.doDrain {k f} (h : s.Inv) : (doDrain k s f).Inv := .modPc h

theorem State.Inv.doTzero {k f} (h : s.Inv) : (doTzero k s f).Inv := .modPc h

theorem State.Inv.doTfree {k f} (h : s.Inv) : (doTfree k s f).Inv := .modPc h

theorem State.Inv.doTload {k f} (h : s.Inv) : (doTload k s f).Inv := .modPc h

/-! ### Runs of the platens -/

/-- Runs of bytes written one after the other. -/
theorem Memory.wf_foldl_putCells {α : Type} {at' : α → Nat} {bytes : α → List Byte} {l : List α} {m : List Host.Cell}
    (h : Memory.wf m = true) : Memory.wf (l.foldl (fun m x => putCells m (at' x) (bytes x)) m) = true := by
  induction l generalizing m with
  | nil => exact h
  | cons x l ih => exact ih (Memory.wf_putCells _ _ _ h)

theorem State.Inv.setTile {n p tile l} (h : s.Inv) : (s.setTile n p tile l).Inv := Memory.wf_foldl_putCells h

theorem State.Inv.weightSums {n r} (h : s.Inv) : (s.weightSums n r).Inv := h

theorem State.Inv.runWload {n op} (h : s.Inv) : (s.runWload n op).1.Inv := .weightSums (.modPc h)

theorem State.Inv.addTile {n p op int a} (h : s.Inv) : (s.addTile n p op int a).1.Inv := .modPc (.setTile h)

theorem State.Inv.mmPlaten {n op p} (h : s.Inv) : (s.mmPlaten n op p).1.Inv :=
  .foldl_fst (fun _ _ h' => .addTile h') h

theorem State.Inv.runMm {n op} (h : s.Inv) : (s.runMm n op).1.Inv := .foldl_fst (fun _ _ h' => .mmPlaten h') h

theorem State.Inv.resum {n p tile tag} (h : s.Inv) : (s.resum n p tile tag).Inv := h

theorem State.Inv.runTzero {n op} (h : s.Inv) : (s.runTzero n op).Inv := .foldl (fun _ _ h' => .resum (.setTile h')) h

theorem State.Inv.tloadPlaten {n op p} (h : s.Inv) : (s.tloadPlaten n op p).1.Inv := .resum (.setTile h)

theorem State.Inv.runTload {n op} (h : s.Inv) : (s.runTload n op).1.Inv :=
  .foldl_fst (fun _ _ h' => .tloadPlaten h') h

theorem State.Inv.reportProof {n p handle row col} (h : s.Inv) : (s.reportProof n p handle row col).Inv :=
  .ite (.rasError (.of_mem (.rasError (.ctxEvent (.freshWord (.tally (.modPc h))))) rfl)) (.of_mem (.rasError
    (.ctxEvent (.freshWord (.tally (.modPc h))))) rfl)

theorem State.Inv.drainPlaten {n op p rs} (h : s.Inv) : (s.drainPlaten n op p rs).1.Inv :=
  .foldl_fst (fun _ _ h' => .foldl (fun _ _ h'' => .putCase h'') (.ite h' (.putCase h'))) h

theorem State.Inv.runDrain {n op} (h : s.Inv) : (s.runDrain n op).1.Inv := by
  unfold State.runDrain
  extract_lets fail
  split
  extract_lets r
  have hr : r.1.Inv := .foldl_fst (fun _ _ h' => .drainPlaten h') (.snd ‹_› (.srFor h))
  clear_value r fail
  split
  · exact .reportProof hr
  · exact hr

theorem State.Inv.zeroFresh {n op} (h : s.Inv) : (s.zeroFresh n op).Inv :=
  .foldl (fun _ _ h' => .foldl (fun _ _ h'' => .ite (.modPc (Memory.wf_wipe _ _ _ h'')) h'') h') h

theorem State.Inv.platenEffect {n op} (h : s.Inv) : (s.platenEffect n op).1.Inv := by
  unfold State.platenEffect
  dsimp only
  split
  · exact .runWload (.zeroFresh h)
  · exact .runMm (.zeroFresh h)
  · exact .runDrain (.zeroFresh h)
  · exact .runTzero (.zeroFresh h)
  · exact .runTload (.zeroFresh h)
  · exact .zeroFresh h
  · exact .zeroFresh h

theorem State.Inv.corruptTile {n op l} (h : s.Inv) : (s.corruptTile n op l).Inv :=
  .foldl (fun _ _ h' => .setTile h') h

theorem State.Inv.platenStart {n corrupt} (h : s.Inv) : (s.platenStart n corrupt).Inv := by
  unfold State.platenStart
  dsimp only
  split
  · exact h
  · exact .ite (.setPc h) (.ite h (.record (.corruptTile (.contend (.platenEffect (.setPc h))))))

/-! ### The roller -/

theorem State.Inv.doRoller {k cls f} (h : s.Inv) : (doRoller k s cls f).Inv := .modPc h

theorem State.Inv.putElem {n t c pat} (h : s.Inv) : (s.putElem n t c pat).Inv := .putCase h

theorem State.Inv.putVector {n o d other els} (h : s.Inv) : (s.putVector n o d other els).Inv :=
  .foldl (fun _ _ h' => .ite (.putElem (.freshWord h')) (.putElem h')) h

theorem State.Inv.writeVector {n o d other vals} (h : s.Inv) : (s.writeVector n o d other vals).1.Inv :=
  .putVector (.srFor h)

theorem State.Inv.runElementWise {n o} (h : s.Inv) : (s.runElementWise n o).1.Inv :=
  .putVector (.spendDraws (.writeVector h))

theorem State.Inv.runComparison {n o} (h : s.Inv) : (s.runComparison n o).1.Inv := .modPc h

theorem State.Inv.runTranscendental {n o} (h : s.Inv) : (s.runTranscendental n o).1.Inv := .writeVector h

theorem State.Inv.writeBlocks {n o vals} (h : s.Inv) : (s.writeBlocks n o vals).1.Inv := by
  unfold State.writeBlocks
  extract_lets d bad heads
  split
  extract_lets one
  refine .foldl_fst (fun p x h' => ?_) (.snd ‹_› (.srFor h))
  unfold one
  extract_lets len idx c sa
  split
  extract_lets slot s1
  have h1 : s1.Inv := .foldl (fun u k h'' => by
    unfold slot
    extract_lets ck
    split
    split
    · exact .putElem (.freshWord h'')
    · exact .putElem h'') h'
  clear_value s1
  split
  exact .putCase (.snd ‹_› (by
    split
    · exact .freshWord h1
    · exact h1))

theorem State.Inv.runConversion {n o} (h : s.Inv) : (s.runConversion n o).1.Inv := by
  unfold State.runConversion
  dsimp only
  split
  · exact .writeBlocks h
  · exact .putVector (.srFor h)

theorem State.Inv.runReduction {n o} (h : s.Inv) : (s.runReduction n o).1.Inv :=
  .ite (.putVector (.writeVector h)) (.writeVector h)

theorem State.Inv.runScan {n o} (h : s.Inv) : (s.runScan n o).1.Inv := .writeVector h

theorem State.Inv.runGather {n o} (h : s.Inv) : (s.runGather n o).Inv :=
  .ite (.tally (.modPc (.putVector (.spendDraws h)))) (.putVector (.spendDraws h))

theorem State.Inv.rollerEffect {n o} (h : s.Inv) : (s.rollerEffect n o).1.Inv := by
  unfold State.rollerEffect
  split
  · exact .runElementWise h
  · exact .runTranscendental h
  · exact .runConversion h
  · exact .runComparison h
  · exact .runReduction h
  · exact .runGather h
  · exact .runScan h

theorem State.Inv.rollerStart {n} (h : s.Inv) : (s.rollerStart n).Inv := by
  unfold State.rollerStart
  dsimp only
  split
  · exact h
  · exact .ite h (.record (.contend (.rollerEffect (.setPc h))))

/-! ### Control -/

theorem State.Inv.doCall {k f} (h : s.Inv) : (doCall k s f).1.Inv := .modPc h

theorem State.Inv.doDbnz {k f} (h : s.Inv) : (doDbnz k s f).1.Inv := .modPc h

theorem State.Inv.doFence {k} (h : s.Inv) : (doFence k s).Inv := .modPc h

theorem State.Inv.setBarrier {ch b x} (h : s.Inv) : (s.setBarrier ch b x).Inv := .setChase h

theorem State.Inv.setCounter {ch w x} (h : s.Inv) : (s.setCounter ch w x).Inv := .setChase h

theorem State.Inv.doCbarinit {k f} (h : s.Inv) : (doCbarinit k s f).Inv := .setBarrier h

theorem State.Inv.doCbar {k f} (h : s.Inv) : (doCbar k s f).Inv := .modPc h

theorem State.Inv.doWcinit {k f} (h : s.Inv) : (doWcinit k s f).Inv := .setCounter h

theorem State.Inv.doWcfa {k f} (h : s.Inv) : (doWcfa k s f).Inv :=
  .ite (.modPc (.setCounter h)) (.modPc (.setCounter h))

theorem State.Inv.doFbar {k f} (h : s.Inv) : (doFbar k s f).Inv := .modPc h

theorem State.Inv.doRsignal {k f} (h : s.Inv) : (doRsignal k s f).Inv := by
  unfold Machine.doRsignal
  refine .ite h ?_
  split
  · exact .setRegion h
  · exact .ite (.tryAdd (.modPc h)) (.modPc (.tryAdd (.modPc h)))

theorem State.Inv.doRwait {k f} (h : s.Inv) : (doRwait k s f).Inv := by
  unfold Machine.doRwait
  dsimp only
  split
  · exact .badRead h
  · exact .ite (.modPc h) (.modPc h)

theorem State.Inv.doPopen {k f} (h : s.Inv) : (doPopen k s f).Inv := by
  unfold Machine.doPopen
  dsimp only
  split
  · exact .modPc (.setRegion h)
  · split
    · exact .ite (.modPc (.setRegion (.poolTake (.poolTake h)))) (.modPc (.bump h))
    · exact .modPc (.bump h)

theorem State.Inv.doPcommit {k f} (h : s.Inv) : (doPcommit k s f).Inv := .modPc (.setRegion h)

theorem State.Inv.doPreject {k f} (h : s.Inv) : (doPreject k s f).Inv := .modPc (.setRegion h)

theorem State.Inv.doEnd {k} (h : s.Inv) : (doEnd k s).Inv := .modPc h

/-! ### Kern streams -/

theorem State.Inv.kernBind {k hd} (h : s.Inv) : (s.kernBind k hd).Inv := by
  unfold State.kernBind
  dsimp only
  split
  · exact .setKstream (.setRegion (.copyRoot (.setFolio h)))
  · exact h

theorem State.Inv.kernBorn {k hd} (h : s.Inv) : (s.kernBorn k hd).Inv := by
  unfold State.kernBorn
  split
  · exact h
  · exact .setKstream (.setRegion h)

theorem State.Inv.queueKern {k c} (h : s.Inv) : (s.queueKern k c).Inv := .modPc h

theorem State.Inv.doKernOpen {k f} {s0 : State} (h : s.Inv) : (doKernOpen k s0 s f).Inv := by
  unfold Machine.doKernOpen
  dsimp only
  split
  · exact .queueKern h
  · split
    · exact .queueKern h
    · exact .queueKern (.kernBorn (.setKstream (.newFolio h ‹_›)))

theorem State.Inv.doKernAppend {k f} {s0 : State} (h : s.Inv) : (doKernAppend k s0 s f).Inv :=
  .queueKern (.setKstream (.reserve (.kernBind h)))

theorem State.Inv.doKernFork {k f} {s0 : State} (h : s.Inv) : (doKernFork k s0 s f).Inv := by
  unfold Machine.doKernFork
  dsimp only
  split
  · exact .queueKern (.kernBind h)
  · split
    · exact .queueKern (.kernBind h)
    · exact .queueKern (.kernBorn (.setKstream (.copyRoot (.newFolio (.kernBind h) ‹_›))))

theorem State.Inv.doKernTruncate {k f} {s0 : State} (h : s.Inv) : (doKernTruncate k s0 s f).Inv :=
  .queueKern (.setKstream (.trimStream (.kernBind h)))

theorem State.Inv.doKernRelease {k f} {s0 : State} (h : s.Inv) : (doKernRelease k s0 s f).Inv := by
  unfold Machine.doKernRelease
  dsimp only
  split
  · exact .queueKern (.releaseStream (.kernBind h))
  · exact .ite (.queueKern (.releaseStream (.setRegion (.kernBind h)))) (.queueKern (.setRegion (.kernBind h)))

theorem State.Inv.doKernAttend {k f} {s0 : State} (h : s.Inv) : (doKernAttend k s0 s f).Inv :=
  .queueKern (.kernBind h)

/-! ### Runs of kern commands -/

theorem State.Inv.putFolio {f off bs} (h : s.Inv) : (s.putFolio f off bs).Inv := .setFolio h

theorem State.Inv.kernResult {n c value} (h : s.Inv) : (s.kernResult n c value).Inv := .putCase h

theorem State.Inv.folioLines {n f off len write} (h : s.Inv) : (s.folioLines n f off len write).Inv := .cabRange h

theorem State.Inv.runAppend {n c} (h : s.Inv) : (s.runAppend n c).Inv :=
  .foldl (fun _ _ h' => .folioLines (.putFolio h')) (.foldl (fun _ _ h' => .folioLines (.folioLines
    (.setFolio h'))) h)

theorem State.Inv.setKern {n c} (h : s.Inv) : (s.setKern n c).Inv := .modPc h

theorem State.Inv.runAttend {n c stop} (h : s.Inv) : (s.runAttend n c stop).Inv :=
  .ite (.setKern (.foldl (fun _ _ h' => .folioLines h') (.ite h h))) (.kernResult (.record (.ite (.putCase (.foldl
    (fun _ _ h' => .putCase h') (.srFor (.setKern (.foldl (fun _ _ h' => .folioLines h') (.ite h h)))))) (.foldl
    (fun _ _ h' => .putCase h') (.srFor (.setKern (.foldl (fun _ _ h' => .folioLines h') (.ite h h))))))))

theorem State.Inv.startControl {n idx o} (h : s.Inv) : (s.startControl n idx o).Inv := .modPc h

theorem State.Inv.kernExecute {n idx c} (h : s.Inv) : (s.kernExecute n idx c).Inv :=
  .ite h (.sweepFolios (.kernResult (.ite (.runAppend (.startControl h)) (.startControl h))))

theorem State.Inv.attendExecute {n idx c stop} (h : s.Inv) : (s.attendExecute n idx c stop).Inv :=
  .ite h (.sweepFolios (.runAttend (.startControl h)))

/-! ### The galley -/

theorem State.Inv.galleyBind {k hd} (h : s.Inv) : (s.galleyBind k hd).Inv := by
  unfold State.galleyBind
  dsimp only
  split
  · exact .setGentry (.setRegion h)
  · exact h

theorem State.Inv.galleyBorn {k hd} (h : s.Inv) : (s.galleyBorn k hd).Inv := by
  unfold State.galleyBorn
  split
  · exact h
  · exact .setGentry (.setRegion h)

theorem State.Inv.queueGalley {k c} (h : s.Inv) : (s.queueGalley k c).Inv := .modPc h

theorem State.Inv.holdEntry {hd} (h : s.Inv) : (s.holdEntry hd).Inv := .setGentry h

theorem State.Inv.acceptGalley {k c} (h : s.Inv) : (s.acceptGalley k c).Inv :=
  .queueGalley (.holdEntry (.galleyBind h))

theorem State.Inv.doGalleyCreate {k f} {s0 : State} (h : s.Inv) : (doGalleyCreate k s0 s f).Inv := by
  unfold Machine.doGalleyCreate
  dsimp only
  split
  · exact .queueGalley (.galleyBorn (.setGentry (.setGset (.twoSets h ‹_›))))
  · exact .queueGalley h

theorem State.Inv.doGalleyFork {k f} {s0 : State} (h : s.Inv) : (doGalleyFork k s0 s f).Inv := by
  unfold Machine.doGalleyFork
  dsimp only
  split
  · exact .acceptGalley (.galleyBorn (.setGentry (.twoSets h ‹_›)))
  · exact .acceptGalley h

theorem State.Inv.doGalleyReset {k f} {s0 : State} (h : s.Inv) : (doGalleyReset k s0 s f).Inv :=
  .setGentry (.acceptGalley h)

theorem State.Inv.doGalleySwapOut {k f} {s0 : State} (h : s.Inv) : (doGalleySwapOut k s0 s f).Inv := .acceptGalley h

theorem State.Inv.doGalleySwapIn {k f} {s0 : State} (h : s.Inv) : (doGalleySwapIn k s0 s f).Inv := .acceptGalley h

theorem State.Inv.doGalleyRelease {k f} {s0 : State} (h : s.Inv) : (doGalleyRelease k s0 s f).Inv := by
  unfold Machine.doGalleyRelease
  dsimp only
  split
  · exact .setGentry (.acceptGalley h)
  · exact .ite (.setGentry (.setRegion (.acceptGalley h))) (.setRegion (.acceptGalley h))

theorem State.Inv.doGalleyQuery {k f} {s0 : State} (h : s.Inv) : (doGalleyQuery k s0 s f).Inv := .acceptGalley h

theorem State.Inv.doGalleyLoad {k f} {s0 : State} (h : s.Inv) : (doGalleyLoad k s0 s f).Inv :=
  .setGentry (.acceptGalley h)

theorem State.Inv.doGalleyStore {k f} {s0 : State} (h : s.Inv) : (doGalleyStore k s0 s f).Inv := .acceptGalley h

theorem State.Inv.doGalleyStick {k f} {s0 : State} (h : s.Inv) : (doGalleyStick k s0 s f).Inv := .acceptGalley h

/-! ### Runs of galley commands -/

theorem State.Inv.galleyResult {n c st value} (h : s.Inv) : (s.galleyResult n c st value).Inv := .putCase h

theorem State.Inv.setRunning {n c} (h : s.Inv) : (s.setRunning n c).Inv := .modPc h

theorem State.Inv.setGalley {n c} (h : s.Inv) : (s.setGalley n c).Inv := .modPc h

theorem State.Inv.takeSnap {c} (h : s.Inv) : (s.takeSnap c).Inv := by
  unfold State.takeSnap
  dsimp only
  split
  · exact h
  · exact .ite h (.setRegion h)

theorem State.Inv.galleyWrite {n c env t nc vs} (h : s.Inv) : (s.galleyWrite n c env t nc vs).1.Inv := by
  unfold State.galleyWrite
  split
  · split
    · refine .ite (.foldl (fun _ _ h' => .putCase h') (.snd ‹_› (.srFor h))) ?_
      dsimp only
      split
      · exact .foldl (fun _ _ h' => .stageWrite h') (.wrote (.putLocal (.snd ‹_› (.srFor h))))
      · exact .foldl (fun _ _ h' => .askWrite h') (.wrote (.putLocal (.snd ‹_› (.srFor h))))

theorem State.Inv.runStick {n c env stop} (h : s.Inv) : (s.runStick n c env stop).Inv := by
  unfold State.runStick
  extract_lets e k0 stick k cur h0 base s0 s1 past
  have h1 : s1.Inv := .ite h h
  clear_value s1 s0
  split
  extract_lets ys f0 fl last vals done s2 s3 e3
  have h2 : s2.Inv := by
    unfold s2
    split
    · exact .swapSets (.setGset h1)
    · exact h1
  have h3 : s3.Inv := .setRunning h2
  clear_value s3
  split
  extract_lets s4
  have h4 : s4.Inv := h3
  clear_value s4
  split
  · exact .setRunning (show State.Inv _ by
      split
      · exact .setGset h1
      · exact h1)
  · split
    have h5 : State.Inv _ := .fst ‹_› (show State.Inv _ by
      split
      · exact .galleyWrite h4
      · exact h4)
    split
    have h6 : State.Inv _ := .fst ‹_› (show State.Inv _ by
      split
      · exact .galleyWrite h5
      · exact h5)
    exact .galleyResult (.record h6)

theorem State.Inv.beginSwapOut {hd} (h : s.Inv) : (s.beginSwapOut hd).2.Inv := by
  unfold State.beginSwapOut
  dsimp only
  split
  · split
    · exact .setGentry h
    · exact h
  · exact h

theorem State.Inv.beginSwapIn {hd who} (h : s.Inv) : (s.beginSwapIn hd who).Inv :=
  .ite (.bump (.setGentry h)) (.setGentry h)

theorem State.Inv.endSwapOut {hd} (h : s.Inv) : (s.endSwapOut hd).Inv := by
  unfold State.endSwapOut
  refine .ite h (.setGentry ?_)
  split
  · split
    · refine .freeSet (.fst ‹_› (.dropSet ?_))
      split
      · exact .freeSet h
      · exact h
    · refine .fst ‹_› (.dropSet ?_)
      split
      · exact .freeSet h
      · exact h
  · split
    · exact .freeSet h
    · exact h

theorem State.Inv.autoswap {part cls fuel} (h : s.Inv) : (autoswap part cls fuel s).Inv := by
  induction fuel generalizing s with
  | zero => exact h
  | succ fuel ih =>
    unfold Machine.autoswap
    refine .ite h ?_
    split
    · exact h
    · split
      · exact ih (.bump (.snd ‹_› (.beginSwapOut h)))
      · exact .snd ‹_› (.beginSwapOut h)

theorem State.Inv.endSwapIn {hd good} (h : s.Inv) : (s.endSwapIn hd good).Inv := by
  unfold State.endSwapIn
  refine .ite h ?_
  split
  · exact .ite (.autoswap (.ite h (.bump (.setGentry h)))) (.ite h (.bump (.setGentry h)))
  · have h1 : State.Inv _ := .twoSets h ‹_›
    refine .ite (.setGentry (.poolGive h1)) ?_
    split
    · exact .late (.setGentry (.poolGive h1))
    · exact .rasError (.teardown (.setGentry (.poolGive h1)))

theorem State.Inv.needResident {n c} (h : s.Inv) : (s.needResident n c).2.Inv := by
  unfold State.needResident
  split
  · exact h
  · exact .beginSwapIn h
  · exact h

theorem State.Inv.runReset {hd} (h : s.Inv) : (s.runReset hd).Inv := .setGentry h

theorem State.Inv.installState {hd vals} (h : s.Inv) : (s.installState hd vals).Inv := by
  unfold State.installState
  refine .setGentry ?_
  split
  · exact .swapSets (.setGset h)
  · exact h

theorem State.Inv.runFork {hd g} (h : s.Inv) : (s.runFork hd g).Inv := by
  unfold State.runFork
  dsimp only
  split
  · exact .setGentry (.setGset h)
  · exact h

theorem State.Inv.runRelease {hd} (h : s.Inv) : (s.runRelease hd).1.Inv := by
  unfold State.runRelease
  dsimp only
  split
  · exact h
  · exact .returnSets h

theorem State.Inv.runGalley {n c env} (h : s.Inv) : (s.runGalley n c env).Inv := by
  unfold State.runGalley
  dsimp only
  split
  · exact .ite (.galleyResult h) (.galleyResult h)
  · exact .ite (.galleyResult h) (.galleyResult (.runFork h))
  · exact .galleyResult (.runReset h)
  · exact .galleyResult (.installState (.record h))
  · exact .galleyResult (.record (.galleyWrite h))
  · exact .galleyResult (.beginSwapOut h)
  · exact .galleyResult (.ite (.beginSwapIn h) h)
  · exact .galleyResult (.runRelease h)
  · exact .galleyResult (.putCase h)

theorem State.Inv.galleyReady {n c} (h : s.Inv) : (s.galleyReady n c).2.Inv := by
  unfold State.galleyReady
  extract_lets e far s1
  split
  · exact .foldl (fun _ _ h' => .askRead h') (State.Inv.setGalley h)
  · split
    · exact h
    · split
      split
      have h2 : State.Inv _ := .snd ‹_› (.rangeStalls (.snd ‹_› (.rangeStalls h)))
      split
      · exact h2
      · split
        · exact .badRead h2
        · exact h2

theorem State.Inv.startGalley {n idx c} (h : s.Inv) : (s.startGalley n idx c).Inv :=
  .ite (.setGentry (.of_mem (.ite (.startControl h) (.takeSnap (.startControl h))) rfl)) (.of_mem (.ite
    (.startControl h) (.takeSnap (.startControl h))) rfl)

theorem State.Inv.galleyExecute {n idx c} (h : s.Inv) : (s.galleyExecute n idx c).Inv := by
  unfold State.galleyExecute
  refine .ite h ?_
  split
  · refine .ite (.snd ‹_› ?_) ?_
    · split
      · exact .needResident h
      · exact h
    · split
      · refine .ite (.runGalley (.startGalley (.touch (.snd ‹_› (.galleyReady (.snd ‹_› ?_)))))) (.snd ‹_›
          (.galleyReady (.snd ‹_› ?_)))
        · split
          · exact .needResident h
          · exact h
        · split
          · exact .needResident h
          · exact h

theorem State.Inv.stickExecute {n idx c stop} (h : s.Inv) : (s.stickExecute n idx c stop).Inv :=
  .ite h (.ite (.needResident h) (.ite (.bump (.galleyResult (.startGalley (.needResident h)))) (.ite (.runStick
    (.startGalley (.touch (.galleyReady (.needResident h))))) (.galleyReady (.needResident h)))))

theorem State.Inv.bumpAgen {hd} (h : s.Inv) : (s.bumpAgen hd).Inv := .setGentry h

theorem State.Inv.loadSlot {hd k vals} (h : s.Inv) : (s.loadSlot hd k vals).Inv := .setGentry h

theorem State.Inv.runAct {hd a} (h : s.Inv) : (s.runAct hd a).Inv := by
  unfold State.runAct
  dsimp only
  split
  · exact .beginSwapOut h
  · exact .bumpAgen (.runReset h)
  · refine .bumpAgen ?_
    split
    · exact .installState h
    · exact .installState h
    · exact .loadSlot h
    · exact h

theorem State.Inv.askAct {hd a} (h : s.Inv) : (s.askAct hd a).Inv := .ite (.setGentry h) (.runAct h)

theorem State.Inv.runActs {hd} (h : s.Inv) : (s.runActs hd).Inv :=
  .ite h (.ite h (.foldl (fun _ _ h' => .runAct h') (.setGentry h)))

/-! ### Lines and compositors -/

theorem State.Inv.gather {n i} (h : s.Inv) : (s.gather n i).Inv := .setPress h

theorem State.Inv.askLists {k ds} (h : s.Inv) : (s.askLists k ds).Inv :=
  .ite (.rangeStalls h) (.foldl (fun _ _ h' => .askRead h') (.modPc (.rangeStalls h)))

theorem State.Inv.takeNeeds {k ds} {s0 : State} (h : s.Inv) : (s.takeNeeds s0 k ds).Inv := by
  unfold State.takeNeeds
  split
  · exact h
  · exact .setRegion h

theorem State.Inv.placeEntries {k ds} (h : s.Inv) : (s.placeEntries k ds).Inv := by
  unfold State.placeEntries
  split
  · exact h
  · exact .ite h (.setRegion h)

/-- A slot whose effect keeps memory's form. -/
def SlotDef.Keeps (d : SlotDef) : Prop :=
  ∀ k s0 kill s, s.Inv → (d.act k s0 kill s).s.Inv

theorem SlotDef.Keeps.scalar {sl op xs ps xd mem store} : (scalarSlot sl op xs ps xd mem store).Keeps :=
  fun _ _ _ _ h => .scalarDo h

/-- Keeping the form is a matter of the effect alone. -/
theorem SlotDef.Keeps.of_act {d e : SlotDef} (h : d.Keeps) (he : e.act = d.act) : e.Keeps :=
  fun k s0 kill s hs => he ▸ h k s0 kill s hs

theorem SlotDef.Keeps.of_slotOf {i d} (e : slotOf i = some d) : d.Keeps := by
  cases i <;> cases e
  case scalarNop | alu | addi | andi | ori | xori | slli | srli | srai | slti | lb | lh | lw | ld | lbu |
      lhu | lwu | sb | sh | sw | sd | ldc | stc | cmp | plog | pget | pset | fadd | fsub | fmul | fdiv | fsqrt |
      fmin | fmax | fcmp | fcvt | bnz | bz | jal | jalr | rdcsr | wrcsr =>
    exact .scalar
  case lis l b => exact .of_act (d := scalarSlot b.slot (fun r => opLis r l b) [] [] none false false) .scalar rfl
  case tset _ b => exact .of_act (d := slotBread b opTset) .scalar rfl
  case tget _ b => exact .of_act (d := scalarSlot b.slot (fun r => opTget r b) [] [] none false false) .scalar rfl
  case tmNop | plNop | ctNop | br | brx =>
    exact fun _ _ _ _ h => h
  case elementWiseArithmetic | transcendental | conversion | comparison | reduction | scan | segmentedScan |
      permutationGather =>
    exact fun _ _ _ _ h => .doRoller h
  case copy => exact fun _ _ _ _ h => .doCopyIssue h
  case dload => exact fun _ _ _ _ h => .doDload h
  case dstore => exact fun _ _ _ _ h => .doDstore h
  case prefetch => exact fun _ _ _ _ h => .doPrefetchIssue h
  case fill => exact fun _ _ _ _ h => .doFillIssue h
  case slugPack => exact fun _ _ _ _ h => .doSlugPackIssue h
  case slugUnpack => exact fun _ _ _ _ h => .doSlugUnpackIssue h
  case wload => exact fun _ _ _ _ h => .doWload h
  case mm => exact fun _ _ _ _ h => .doMm h
  case drain => exact fun _ _ _ _ h => .doDrain h
  case tzero => exact fun _ _ _ _ h => .doTzero h
  case tfree => exact fun _ _ _ _ h => .doTfree h
  case tload => exact fun _ _ _ _ h => .doTload h
  case call => exact fun _ _ _ _ h => .doCall h
  case dbnz => exact fun _ _ _ _ h => .doDbnz h
  case fence => exact fun _ _ _ _ h => .doFence h
  case cbarinit => exact fun _ _ _ _ h => .doCbarinit h
  case cbar => exact fun _ _ _ _ h => .doCbar h
  case wcinit => exact fun _ _ _ _ h => .doWcinit h
  case wcfa => exact fun _ _ _ _ h => .doWcfa h
  case fbar => exact fun _ _ _ _ h => .doFbar h
  case rsignal => exact fun _ _ _ _ h => .doRsignal h
  case rwait => exact fun _ _ _ _ h => .doRwait h
  case popen => exact fun _ _ _ _ h => .doPopen h
  case pcommit => exact fun _ _ _ _ h => .doPcommit h
  case preject => exact fun _ _ _ _ h => .doPreject h
  case endTake => exact fun _ _ _ _ h => .doEnd h
  case kernOpen => exact fun _ _ _ _ h => .doKernOpen h
  case kernAppend => exact fun _ _ _ _ h => .doKernAppend h
  case kernAttend => exact fun _ _ _ _ h => .doKernAttend h
  case kernFork => exact fun _ _ _ _ h => .doKernFork h
  case kernTruncate => exact fun _ _ _ _ h => .doKernTruncate h
  case kernRelease => exact fun _ _ _ _ h => .doKernRelease h
  case galleyCreate => exact fun _ _ _ _ h => .doGalleyCreate h
  case galleyStick => exact fun _ _ _ _ h => .doGalleyStick h
  case galleyFork => exact fun _ _ _ _ h => .doGalleyFork h
  case galleyReset => exact fun _ _ _ _ h => .doGalleyReset h
  case galleyLoad => exact fun _ _ _ _ h => .doGalleyLoad h
  case galleyStore => exact fun _ _ _ _ h => .doGalleyStore h
  case galleySwapOut => exact fun _ _ _ _ h => .doGalleySwapOut h
  case galleySwapIn => exact fun _ _ _ _ h => .doGalleySwapIn h
  case galleyRelease => exact fun _ _ _ _ h => .doGalleyRelease h
  case galleyQuery => exact fun _ _ _ _ h => .doGalleyQuery h

theorem SlotDef.Keeps.of_lineSlots {l is d} (e : d ∈ lineSlots l is) : d.Keeps := by
  obtain ⟨j, -, e⟩ := List.mem_filterMap.mp e
  split at e
  · cases e
    exact fun _ _ _ _ h => h
  · split at e
    · cases e
      exact fun _ _ _ _ h => h
    · obtain ⟨i, -, e⟩ := List.mem_filterMap.mp (List.mem_reverse.mp (List.mem_of_find?_eq_some e))
      exact .of_slotOf e

theorem State.Inv.actAll {k} {s0 : State} {ds r} (hd : ∀ d ∈ ds, SlotDef.Keeps d) (h : r.s.Inv) :
    (actAll k s0 ds r).s.Inv := by
  induction ds generalizing r with
  | nil => exact h
  | cons d ds ih => exact ih (fun e m => hd e (.tail _ m)) (hd d (.head _) _ _ _ _ h)

theorem State.Inv.lineEffect {k ds} (hd : ∀ d ∈ ds, SlotDef.Keeps d) (h : s.Inv) : (s.lineEffect k ds).Inv := by
  have hr := State.Inv.actAll (k := k) (s0 := s) (ds := ds.filter fun d => d.live k)
    (fun d m => hd d (List.mem_of_mem_filter m)) (r := { s := s.placeEntries k (ds.filter fun d => d.live k) })
    (.placeEntries h)
  exact .ite (.settle (.modPc (.record (.takeNeeds hr)))) (.modPc (.record (.takeNeeds hr)))

theorem State.Inv.issueLine {n l is} (h : s.Inv) : (s.issueLine n l is).Inv := by
  unfold State.issueLine
  refine .ite (.modPc h) (.ite (.modPc (.askLists h)) ?_)
  split
  · exact .settle (.precise h)
  · exact .ite (.lineEffect (fun _ m => .of_lineSlots m) h) (.modPc h)

theorem State.Inv.compFault {m st slot va} (h : s.Inv) : (s.compFault m st slot va).Inv :=
  .settle (.teardown (.setComp h))

theorem State.Inv.issueComp {m l d op} (h : s.Inv) : (s.issueComp m l d op).Inv := by
  unfold State.issueComp
  refine .ite h ?_
  dsimp only
  split
  · exact .compFault h
  · exact .ite (.settle (.compDo h)) (.compDo h)

/-- An outcome whose next state, if it has one, has memory in its form. -/
def Kept (o : Host.Outcome State Fault Refusal) : Prop :=
  ∀ t, o = .next t → t.Inv

theorem Kept.next (h : s.Inv) : Kept (.next s) := by
  rintro _ ⟨⟩
  exact h

theorem Kept.fault {e} : Kept (.fault e) := by
  rintro _ ⟨⟩

theorem Kept.ite {c : Prop} [Decidable c] {a b} (ha : Kept a) (hb : Kept b) : Kept (if c then a else b) := by
  split
  · exact ha
  · exact hb

theorem Kept.issue {l i} (h : s.Inv) : Kept (issue l i s) := by
  unfold Machine.issue
  split
  · exact .ite .fault (.ite .fault (.ite (.next (.gather h)) (.ite .fault (.next (.issueLine (.ite h
      (.setPress h)))))))
  · refine .ite .fault ?_
    split
    · split
      · exact .next (.issueComp h)
      · exact .fault
    · exact .fault

/-! ### The engines -/

theorem State.Inv.completeTm {n idx} (h : s.Inv) : (s.completeTm n idx).Inv := by
  unfold State.completeTm
  split
  · exact .ite (.setPc (.finishMove h)) (.finishMove h)
  · exact h

theorem State.Inv.completePl {n idx} (h : s.Inv) : (s.completePl n idx).Inv := by
  unfold State.completePl
  dsimp only
  split
  · exact .setPc h
  · exact h

theorem State.Inv.completeRl {n idx} (h : s.Inv) : (s.completeRl n idx).Inv := by
  unfold State.completeRl
  dsimp only
  split
  · exact .setPc h
  · exact h

theorem State.Inv.dropCommand {c} (h : s.Inv) : (s.dropCommand c).Inv :=
  .foldl (fun _ _ h' => .runActs h') (.foldl (fun _ _ h' => .ite (.dropEntry h') h') h)

theorem State.Inv.finishControl {n idx} (h : s.Inv) : (s.finishControl n idx).Inv := by
  unfold State.finishControl
  split
  · exact .ite h (.runAttend h)
  · exact .ite (.runStick h) h
  · exact h

theorem State.Inv.completeCt {n idx} (h : s.Inv) : (s.completeCt n idx).Inv := by
  unfold State.completeCt
  dsimp only
  split
  · exact .sweepFolios (.setPc (.finishControl h))
  · exact .ite (.finishControl h) (.dropCommand (.setPc (.finishControl h)))
  · exact .finishControl h

theorem State.Inv.completeHere {n e idx} (h : s.Inv) : (s.completeHere n e idx).Inv := by
  unfold State.completeHere
  split
  · exact .completeTm h
  · exact .completePl h
  · exact .completeRl h
  · exact .completeCt h

theorem State.Inv.completeSaved {n e xs i} (h : s.Inv) : (State.complete.go s n e xs i).Inv := by
  induction xs generalizing i with
  | nil => exact h
  | cons x xs ih =>
    unfold State.complete.go
    exact .ite (.ite h (.inContext h fun _ h' => .completeHere h')) ih

theorem State.Inv.complete {n e idx} (h : s.Inv) :
    (s.complete n e idx).Inv := .ite (.completeHere h) (.completeSaved h)

theorem Kept.onPress {n} {f : State → State} (h : (f s).Inv) : Kept (onPress n s f) :=
  .ite .fault (.ite .fault (.next h))

theorem Kept.execTmEngineStart {o} (h : s.Inv) : Kept (execTmEngineStart o s) := .onPress (.settle (.tmStart h))

theorem Kept.execPlatenStart {press corrupt} (h : s.Inv) : Kept (execPlatenStart press corrupt s) :=
  .onPress (.platenStart h)

theorem Kept.execRollerStart {press} (h : s.Inv) : Kept (execRollerStart press s) := .onPress (.rollerStart h)

theorem Kept.execOperationComplete {press e idx} (h : s.Inv) : Kept (execOperationComplete press e idx s) :=
  .ite .fault (.ite .fault (.next (.settle (.complete h))))

theorem Kept.execKernExecute {press idx} (h : s.Inv) : Kept (execKernExecute press idx s) := by
  unfold Machine.execKernExecute
  split
  · exact .ite .fault (.onPress (.kernExecute h))
  · exact .fault

theorem Kept.execAttendExecute {press o} (h : s.Inv) : Kept (execAttendExecute press o s) := by
  unfold Machine.execAttendExecute
  split
  · exact .ite (.onPress (.attendExecute h)) .fault
  · exact .fault

theorem Kept.execGalleyExecute {press idx} (h : s.Inv) : Kept (execGalleyExecute press idx s) := by
  unfold Machine.execGalleyExecute
  split
  · exact .ite .fault (.onPress (.settle (.galleyExecute h)))
  · exact .fault

theorem Kept.execStickExecute {press o} (h : s.Inv) : Kept (execStickExecute press o s) := by
  unfold Machine.execStickExecute
  split
  · exact .ite (.onPress (.settle (.stickExecute h))) .fault
  · exact .fault

theorem Kept.execSwapOutEnd {stream} (h : s.Inv) : Kept (execSwapOutEnd stream s) :=
  .ite (.next (.endSwapOut h)) .fault

theorem Kept.execSwapInEnd {stream slotGood} (h : s.Inv) : Kept (execSwapInEnd stream slotGood s) :=
  .ite (.next (.settle (.endSwapIn h))) .fault

theorem State.Inv.commitStalls {x} (h : s.Inv) : (s.commitStalls x).2.Inv := by
  unfold State.commitStalls
  refine .foldl_snd (fun _ _ h' => ?_) h
  dsimp only
  split
  · exact .provoke h'
  · exact h'

theorem State.Inv.commitEngine {c r} (h : s.Inv) : (s.commitEngine c r).Inv :=
  .ite (.finishCommit h) (.ite h (.ite (.commitStalls (.setRegion h)) (.commitRegion (.commitStalls (.setRegion h)))))

theorem State.Inv.rejectEngine {c r} (h : s.Inv) : (s.rejectEngine c r).Inv := .ite h (.ite h (.rejectRegion h))

theorem Kept.execProofCommitEngine {chase region} (h : s.Inv) : Kept (execProofCommitEngine chase region s) :=
  .ite (.next (.settle (.commitEngine h))) .fault

theorem Kept.execProofRejectEngine {chase region} (h : s.Inv) : Kept (execProofRejectEngine chase region s) :=
  .ite (.next (.settle (.rejectEngine h))) .fault

/-! ### Control space -/

theorem State.Inv.readReg {b i o} (h : s.Inv) : (s.readReg b i o).2.Inv := by
  unfold State.readReg
  split
  · exact h
  · exact h
  · exact h
  · exact h
  · exact h
  · split
    · exact h
    · split
      · exact h
      · split
        · exact .freshWord h
        · exact h
  · split
    · exact h
    · split
      · exact h
      · split
        · exact h
        · exact h
  · split
    · exact h
    · split
      · exact h
      · split
        · exact h
        · split
          · exact h
          · exact h
  · split
    · exact h
    · exact h
  · exact h
  · split
    · exact h
    · exact h
  · exact h

theorem State.Inv.clearRc {b i o} (h : s.Inv) : (s.clearRc b i o).Inv := by
  unfold State.clearRc
  split
  · exact .ite (.setReg h) h
  · exact h

theorem State.Inv.readAt {b i o} (h : s.Inv) : (s.readAt b i o).2.Inv := by
  unfold State.readAt
  split
  · exact h
  · exact .clearRc (.readReg h)

theorem State.Inv.accessError {a} (h : s.Inv) : (s.accessError a).Inv := .rasError h

theorem State.Inv.badEnum (h : s.Inv) : s.badEnum.Inv := .raiseFlag h

theorem State.Inv.plainWrite {b i o v} (h : s.Inv) : (s.plainWrite b i o v).Inv := by
  unfold State.plainWrite
  split
  · exact h
  · exact .ite (.setReg h) (.badEnum (.setReg h))

/-! ### Management requests -/

theorem State.Inv.reply {r st items} (h : s.Inv) : (s.reply r st items).Inv := .send h

theorem State.Inv.refuse {r st} (h : s.Inv) : (s.refuse r st).Inv := .reply h

theorem State.Inv.done {r} (h : s.Inv) : (s.done r).Inv := .reply h

theorem Kept.manage {o r} {f : State → State} (h : s.Inv) (hf : (f s).Inv) : Kept (manage o r s f) := by
  refine .ite .fault (.ite (.next h) ?_)
  split
  · exact .next (.refuse h)
  · exact .next hf

theorem State.Inv.startLong {r k ctx} {f : Nat → State → State} (h : s.Inv) (hf : ∀ x0 u, u.Inv → (f x0 u).Inv) :
    (s.startLong r k ctx f).Inv := by
  unfold State.startLong
  split
  · exact .refuse h
  · exact hf _ _ (.send h)

theorem State.Inv.setLongop {hd o} (h : s.Inv) : (s.setLongop hd o).Inv := h

theorem State.Inv.postLong {hd st items last} (h : s.Inv) : (s.postLong hd st items last).Inv := by
  unfold State.postLong
  dsimp only
  split
  · split
    · exact .send h
    · exact .setCtx h
  · exact .send h

theorem State.Inv.endLong {hd st items} (h : s.Inv) : (s.endLong hd st items).Inv := .postLong (.setLongop h)

/-! ### Formes and takes -/

theorem State.Inv.installForme {r body} (h : s.Inv) : (s.installForme r body).Inv := by
  unfold State.installForme
  refine .ite (.refuse h) (.ite (.refuse h) ?_)
  split
  · exact .of_mem (.refuse h) rfl
  · exact .done h

theorem Kept.execFormeInstall {r body} (h : s.Inv) : Kept (execFormeInstall r body s) := .manage h (.installForme h)

theorem Kept.execFormeRelease {r} (h : s.Inv) : Kept (execFormeRelease r s) :=
  .manage h (.ite (.refuse h) (.ite (.refuse h) (.ite (.refuse h) (.done h))))

theorem State.Inv.giveSub {k t i p} (h : s.Inv) : (s.giveSub k t i p).Inv := by
  unfold State.giveSub
  dsimp only
  split
  · exact .ite (.setPress h) h
  · exact h

theorem State.Inv.openBarriers {k ps} (h : s.Inv) : (s.openBarriers k ps).Inv := h

theorem State.Inv.impose {k t} (h : s.Inv) : (s.impose k t).Inv := by
  unfold State.impose
  refine .ite (.endTake h) (.ite (.endTake h) (.ite (.endTake h) (.ite (.endTake h) (.foldl (fun _ _ h' => ?_)
    (.openBarriers h)))))
  split
  · exact h'
  · exact .ite (.giveSub h') (.emit h')

theorem State.Inv.imposeQueue {q} (h : s.Inv) : (s.imposeQueue q).Inv := by
  unfold State.imposeQueue
  split
  · exact h
  · split
    · exact h
    · exact .impose h

theorem Kept.execImposerSplit {queue} (h : s.Inv) : Kept (execImposerSplit queue s) :=
  .ite (.next (.imposeQueue h)) .fault

theorem State.Inv.subDone {k member st} (h : s.Inv) : (s.subDone k member st).Inv := by
  unfold State.subDone
  split
  · exact h
  · exact .ite (.endTake h) h

theorem State.Inv.leavePress {n c} (h : s.Inv) : (s.leavePress n c).Inv := .ite (.setPress h) (.zeroPress h)

theorem State.Inv.finishSub {n} (h : s.Inv) : (s.finishSub n).Inv := by
  unfold State.finishSub
  dsimp only
  split
  · exact h
  · refine .ite h ?_
    split
    · exact h
    · exact .subDone (.of_mem (.leavePress h) rfl)

theorem Kept.execSubtakeComplete {press} (h : s.Inv) : Kept (execSubtakeComplete press s) := .onPress (.finishSub h)

theorem State.Inv.publish {k t} (h : s.Inv) : (s.publish k t).Inv := by
  unfold State.publish
  split
  · exact h
  · exact .ite h (.recordTake (.ite h h))

theorem Kept.execFencePublish {queue seq} (h : s.Inv) : Kept (execFencePublish queue seq s) := by
  unfold Machine.execFencePublish
  split
  · exact .next (.publish h)
  · exact .fault

/-! ### Contexts and dispatch -/

theorem State.Inv.createCtx {r} (h : s.Inv) : (s.createCtx r).Inv := by
  unfold State.createCtx
  split
  · exact .refuse h
  · split
    · exact .refuse h
    · exact .reply (.setCtx h)

theorem Kept.execContextCreate {r} (h : s.Inv) : Kept (execContextCreate r s) := .manage h (.createCtx h)

theorem Kept.execContextDestroy {r} (h : s.Inv) : Kept (execContextDestroy r s) := .manage h (.done (.teardown h))

theorem State.Inv.startSub {n k x} (h : s.Inv) : (s.startSub n k x).Inv := .setPress h

theorem State.Inv.park {n} (h : s.Inv) : (s.park n).Inv := by
  unfold State.park
  dsimp only
  split
  · exact h
  · exact .setPress (.zeroPress h)

theorem State.Inv.unslot {n x} (h : s.Inv) : (s.unslot n x).Inv := .setPress (.loadImage h)

theorem State.Inv.unpark {n} (h : s.Inv) : (s.unpark n).Inv := by
  unfold State.unpark
  split
  · exact h
  · exact .setPress (.unslot h)

theorem State.Inv.resume {n x} (h : s.Inv) : (s.resume n x).Inv :=
  .ite (.foldl (fun _ _ h' => .finishMove h') (.loseWatch (.watchWords (.setPress (.unslot h))))) (.loseWatch
    (.watchWords (.setPress (.unslot h))))

theorem State.Inv.takeNext {n} (h : s.Inv) : (s.takeNext n).Inv := by
  unfold State.takeNext
  dsimp only
  split
  · exact .startSub (.ite h (.unpark h))
  · refine .ite h ?_
    split
    · exact .resume (.park h)
    · split
      · exact .startSub (.park h)
      · exact h

theorem Kept.execPressDispatch {press} (h : s.Inv) : Kept (execPressDispatch press s) :=
  .ite .fault (.ite (.next (.settle (.takeNext h))) (.next h))

theorem State.Inv.countPreempt {c cycles} (h : s.Inv) : (s.countPreempt c cycles).Inv :=
  .ite (.bump (.ite (.setFld (.bump (.setCtx h))) (.bump (.setCtx h)))) (.ite (.setFld (.bump (.setCtx h))) (.bump
    (.setCtx h)))

theorem State.Inv.completeAll {n e fuel} (h : s.Inv) : (completeAll n e fuel s).Inv := by
  induction fuel generalizing s with
  | zero => exact h
  | succ fuel ih => exact ih (.completeHere h)

theorem State.Inv.quiesce {n} (h : s.Inv) : (s.quiesce n).Inv :=
  .foldl (fun _ _ h' => .completeHere h') (.modPc (.completeAll (.completeAll h)))

theorem State.Inv.preemptSave {n cycles} (h : s.Inv) : (s.preemptSave n cycles).Inv := by
  unfold State.preemptSave
  dsimp only
  split
  · split
    · exact .setPress h
    · exact .ite h (.settle (.countPreempt (.startSub (.unpark (.setPress (.zeroPress (.quiesce h)))))))
  · exact .setPress h

theorem Kept.execPreemptSave {press cycles} (h : s.Inv) : Kept (execPreemptSave press cycles s) :=
  .ite .fault (.next (.preemptSave h))

theorem Kept.execAsyncFault {press status slot pc va} (h : s.Inv) : Kept (execAsyncFault press status slot pc va s) :=
  .ite (.onPress (.settle (.late h))) .fault

/-! ### The HBM -/

theorem State.Inv.retirePc {pc} (h : s.Inv) : (s.retirePc pc).Inv :=
  .ite h (.foldl (fun _ _ h' => .ite (.teardown h') h') (.foldl (fun _ _ h' => .ite (.poisonPage h') h')
    (.rasError h)))

theorem State.Inv.hourly {n} (h : s.Inv) : (s.hourly n).2.Inv := by
  unfold State.hourly
  split
  · exact h
  · exact .choose (n := n + 1) h

theorem State.Inv.hbmCorrected {pc pa lane} (h : s.Inv) : (s.hbmCorrected pc pa lane).Inv :=
  .rasError (.bump (.of_mem (.hourly h) rfl))

theorem State.Inv.hbmUncorrected {pc k tag} (h : s.Inv) : (s.hbmUncorrected pc k tag).Inv := by
  unfold State.hbmUncorrected
  extract_lets s1
  split
  have h2 : State.Inv _ := .snd ‹_› (.hourly (s := s1) h)
  extract_lets s3 s4
  have h3 : s3.Inv := h2
  have h4 : s4.Inv := .ite (.poisonPage h3) (by
    split
    · exact .poisonPage h3
    · exact .ite (.ite h3 h3) (.ite h3 h3))
  exact .ite (.retirePc h4) h4

theorem State.Inv.readAltered {pa cipher tag} (h : s.Inv) : (s.readAltered pa cipher tag).2.Inv := by
  unfold State.readAltered
  split
  · split
    · exact Memory.wf_foldl_putCells h
    · exact h
  · exact Memory.wf_putCells _ _ _ h

theorem State.Inv.performAtomic {k op fmt vs} (h : s.Inv) : (s.performAtomic k op fmt vs).Inv :=
  .wrote (.setHomes (.endAtomic (.unitMoved (.recall h))))

theorem State.Inv.respond {typ dest tag st data} (h : s.Inv) : (s.respond typ dest tag st data).Inv := .inject h

theorem State.Inv.atomEnd {src atomic st pa} (h : s.Inv) : (s.atomEnd src atomic st pa).Inv := by
  unfold State.atomEnd
  split
  · exact .ite h (.late h)
  · exact .respond h
  · exact h

theorem State.Inv.atomNow {pc hd} (h : s.Inv) : (s.atomNow pc hd).Inv := by
  unfold State.atomNow
  refine .ite (.atomEnd (.ite (.endAtomic (.hbmUncorrected h)) (.hbmUncorrected h))) (.ite (.atomEnd (.ite
    (.endAtomic (.hbmUncorrected h)) (.hbmUncorrected h))) ?_)
  split
  · split
    · exact .atomEnd (.performAtomic h)
    · exact .atomEnd (.outsideWrite h)
  · split
    · exact .atomEnd (.performAtomic (.hbmCorrected h))
    · exact .atomEnd (.outsideWrite (.hbmCorrected h))
  · exact .atomEnd (.ite (.endAtomic (.hbmUncorrected h)) (.hbmUncorrected h))
  · split
    · refine .ite ?_ (.atomEnd (.ite (.endAtomic (.hbmUncorrected (.snd ‹_› (.readAltered h)))) (.hbmUncorrected
        (.snd ‹_› (.readAltered h)))))
      split
      · exact .atomEnd (.performAtomic (.snd ‹_› (.readAltered h)))
      · exact .atomEnd (.outsideWrite (.snd ‹_› (.readAltered h)))

theorem State.Inv.memoryAtomic {pc hd} (h : s.Inv) : (s.memoryAtomic pc hd).Inv := by
  unfold State.memoryAtomic
  dsimp only
  split
  · exact .settle (.atomEnd h)
  · refine .ite (.settle (.provoke h)) (.ite (.of_mem ?_ rfl) (.settle (.atomNow ?_)))
    · split
      · exact .acceptAtomic h
      · exact h
    · split
      · exact .acceptAtomic h
      · exact h

theorem Kept.execMemoryAtomic {src pa body ecc} (h : s.Inv) : Kept (execMemoryAtomic src pa body ecc s) := by
  unfold Machine.execMemoryAtomic
  split
  · exact .next (.memoryAtomic h)
  · exact .fault

theorem State.Inv.admitted {p cls q} (h : s.Inv) : (s.admitted p cls q).Inv :=
  .foldl (fun _ _ h' => .ite (.unitWritten h') (.unitRead h')) h

theorem State.Inv.drainIngress {p fuel} (h : s.Inv) : (drainIngress p fuel s).Inv := by
  induction fuel generalizing s with
  | zero => exact h
  | succ fuel ih =>
    unfold Machine.drainIngress
    dsimp only
    split
    · exact h
    · exact .ite h (.ite (ih (.admitted h)) (.ite (ih (.admitted (.bump h))) h))

theorem State.Inv.admitReq {p src q cycles served} (h : s.Inv) : (s.admitReq p src q cycles served).Inv :=
  .ite (.admitted h) (.ite (.drainIngress (.setPart h)) (.bump (.drainIngress (.setPart h))))

theorem Kept.execRegulatorAdmit {part src q cycles served} (h : s.Inv) :
    Kept (execRegulatorAdmit part src q cycles served s) :=
  .ite .fault (.next (.admitReq h))

theorem State.Inv.hbmReject (h : s.Inv) : s.hbmReject.Inv := .raiseFlag h

theorem State.Inv.writeHbmReg {p v} (h : s.Inv) : (s.writeHbmReg p v).Inv := .ite (.hbmReject h) (.plainWrite h)

theorem Kept.regWriteBy {path b o} {f : State → State} (h : s.Inv) (hf : (f s).Inv) :
    Kept (regWriteBy path b o s f) :=
  .ite (.next hf) (.next h)

theorem Kept.execHbmRegWrite {path p v} (h : s.Inv) : Kept (execHbmRegWrite path p v s) :=
  .ite .fault (.regWriteBy h (.writeHbmReg h))

theorem State.Inv.patrol {pc pa ecc} (h : s.Inv) : (s.patrol pc pa ecc).Inv := by
  unfold State.patrol
  split
  · exact h
  · exact .hbmCorrected h
  · exact .hbmUncorrected h
  · exact .ite (.readAltered h) (.hbmUncorrected (.readAltered h))

theorem State.Inv.markLine {a} (h : s.Inv) : (s.markLine a).Inv := h

theorem State.Inv.cabEcc {c l ecc} (h : s.Inv) : (s.cabEcc c l ecc).Inv := by
  unfold State.cabEcc
  split
  · exact h
  · exact .rasError (.bump h)
  · exact .ite (.rasError (.bump (.fillLine (.setChase h)))) (.ite (.poisonPage (.bump (.setChase h))) (.rasError
      (.markLine (.lineWritten (.bump (.bump (.setChase h)))))))

theorem Kept.execHbmPatrol {pc addr ecc} (h : s.Inv) : Kept (execHbmPatrol pc addr ecc s) := by
  unfold Machine.execHbmPatrol
  refine .ite .fault ?_
  split
  · split
    · exact .next (.cabEcc h)
    · exact .next h
  · exact .next (.patrol h)

theorem State.Inv.switchLane {pc lane} (h : s.Inv) : (s.switchLane pc lane).Inv := by
  unfold State.switchLane
  dsimp only
  split
  · exact h
  · exact h

theorem State.Inv.openWindow {pc} (h : s.Inv) : (s.openWindow pc).Inv := by
  unfold State.openWindow
  refine .ite h ?_
  extract_lets s0 s1 l s2
  have h2 : s2.Inv := .foldl (fun _ _ h' => .switchLane h') (show s1.Inv from h)
  clear_value s2
  exact h2

theorem Kept.execHbmRetrainWindow {stack k} (h : s.Inv) : Kept (execHbmRetrainWindow stack k s) :=
  .ite .fault (.next (.openWindow h))

theorem State.Inv.closeWindow {pc failed} (h : s.Inv) : (s.closeWindow pc failed).Inv := by
  unfold State.closeWindow
  refine .ite h ?_
  extract_lets s0 s1 n s2 s3 hs s4
  have h2 : s2.Inv := h
  have h3 : s3.Inv := .ite (.retirePc h2) h2
  clear_value s3
  exact .settle (.foldl (fun _ _ h' => .atomNow h') h3)

theorem Kept.execRetrainingWindowEnd {pc failed} (h : s.Inv) : Kept (execRetrainingWindowEnd pc failed s) :=
  .ite .fault (.next (.closeWindow h))

theorem State.Inv.loopback {r k res} (h : s.Inv) (hr : ∀ t, res = .ok t → t.Inv) : (s.loopback r k res).Inv := by
  unfold State.loopback
  split
  · exact .refuse h
  · have ht := hr _ rfl
    exact ht

theorem State.Inv.answerLoop {k v} (h : s.Inv) : (s.answerLoop k v).Inv := by
  unfold State.answerLoop
  split
  · exact h
  · exact .send h

theorem State.Inv.overwritten {hit} (h : s.Inv) : (s.overwritten hit).Inv := by
  unfold State.overwritten
  refine .foldl (fun _ _ h' => ?_) h
  split
  · exact .ite (Memory.wf_putCell _ _ _ (State.Inv.freshWord h')) h'
  · exact h'

theorem State.Inv.startHbmLoop {v} {t : State} (h : s.Inv) (e : s.startHbmLoop v = .ok t) : t.Inv := by
  unfold State.startHbmLoop at e
  extract_lets pc depth s1 s2 at e
  have h1 : s1.Inv := .setReg h
  clear_value s1
  have h2 : s2.Inv := .setPcState h1
  clear_value s2
  split at e
  · cases e
  · split at e
    · cases e
    · cases e
      exact .ite (.foldl (fun _ _ h' => .setPart h') (.overwritten h2)) h2

theorem Kept.execHbmLoopbackStart {r} (h : s.Inv) : Kept (execHbmLoopbackStart r s) :=
  .manage h (.ite (.loopback h (fun _ e => .startHbmLoop h e)) (.refuse h))

theorem State.Inv.endHbmLoop {pass signature} (h : s.Inv) : (s.endHbmLoop pass signature).Inv :=
  .ite h (.answerLoop (.setPcState (.ite (.setFld (.setFld (.setFld h))) (.setFld (.setFld h)))))

theorem Kept.execHbmLoopbackEnd {pass signature} (h : s.Inv) : Kept (execHbmLoopbackEnd pass signature s) :=
  .next (.endHbmLoop h)

/-! ### Frames -/

theorem State.Inv.takeFrame {p a n} (h : s.Inv) : (s.takeFrame p a n).Inv := .clearBad (Memory.wf_wipe _ _ _ h)

theorem State.Inv.takePoolFrame {p a} (h : s.Inv) : (s.takePoolFrame p a).Inv := .clearBad (Memory.wf_wipe _ _ _ h)

theorem State.Inv.freeFrame {a} (h : s.Inv) : (s.freeFrame a).Inv := by
  unfold State.freeFrame
  split
  · exact h
  · exact h

theorem State.Inv.loseFrame {a} (h : s.Inv) : (s.loseFrame a).Inv := by
  unfold State.loseFrame
  dsimp only
  split
  · exact h
  · exact h

theorem State.Inv.freeHeap {e} (h : s.Inv) : (s.freeHeap e).Inv := .setEntry (.poolGive h)

theorem State.Inv.loseHeap {e} (h : s.Inv) : (s.loseHeap e).Inv := .ite h (.setEntry (.setPart h))

/-! ### Placement -/

theorem State.Inv.dropLines {lo n} (h : s.Inv) : (s.dropLines lo n).Inv :=
  .foldl (fun _ _ h' => .ite (.ite (.setChase h') h') (.bump (.ite (.setChase h') h'))) h

/-- Bytes written one after the other. -/
theorem Memory.wf_foldl_putCell {α : Type} {at' : α → Nat} {byte : α → Byte} {l : List α} {m : List Host.Cell}
    (h : Memory.wf m = true) : Memory.wf (l.foldl (fun m x => putCell m (at' x) (byte x)) m) = true := by
  induction l generalizing m with
  | nil => exact h
  | cons x l ih => exact ih (Memory.wf_putCell _ _ _ h)

theorem State.Inv.fillFrame {a bs} (h : s.Inv) : (s.fillFrame a bs).Inv := Memory.wf_foldl_putCell h

theorem State.Inv.rekeyBad {old new n} (h : s.Inv) : (s.rekeyBad old new n).Inv := h

theorem State.Inv.rename {old new n} (h : s.Inv) : (s.rename old new n).Inv :=
  .rekeyBad (.rekeyShadows (.rekeyLines h))

theorem State.Inv.startMove {e m} (h : s.Inv) : (s.startMove e m).Inv := .setEntry h

theorem State.Inv.stayPut {e} (h : s.Inv) : (s.stayPut e).Inv := .ite h (.setEntry h)

theorem State.Inv.countMove {p o lo w} (h : s.Inv) : (s.countMove p o lo w).Inv := .bump h

theorem State.Inv.promoteInto {e a} (h : s.Inv) : (s.promoteInto e a).Inv :=
  .countMove (.setEntry (.freeHeap (.fillFrame (.dropLines h))))

theorem State.Inv.endPromote {e} (h : s.Inv) : (s.endPromote e).Inv := by
  unfold State.endPromote
  dsimp only
  split
  · exact h
  · exact .promoteInto (.takePoolFrame h)

theorem State.Inv.endDemote {e used} (h : s.Inv) : (s.endDemote e used).Inv := by
  unfold State.endDemote
  refine .ite (.setEntry (.stayPut (.countMove h))) ?_
  split
  · exact .stayPut (.countMove h)
  · exact .setEntry (.poolTake (.freeFrame (.dropLines (.countMove h))))

theorem State.Inv.endFetch {e good} (h : s.Inv) : (s.endFetch e good).Inv := by
  unfold State.endFetch
  refine .ite h (.ite (.setEntry h) ?_)
  dsimp only
  split
  · exact .poisonPage (.stayPut h)
  · split
    · exact h
    · exact .ite (.countMove (.setEntry (.poolTake h))) (.streamPromote (.countMove (.setEntry (.poolTake h))))

theorem State.Inv.endMove {e used good} (h : s.Inv) : (s.endMove e used good).Inv := by
  unfold State.endMove
  refine .ite (.stayPut h) ?_
  split
  · exact .endDemote h
  · exact .ite (.endPromote h) (.poisonPage (.stayPut h))
  · exact .endFetch h
  · exact h

theorem Kept.execPageMoveComplete {entry used good} (h : s.Inv) : Kept (execPageMoveComplete entry used good s) :=
  .ite (.next (.settle (.endMove h))) .fault

theorem State.Inv.refillReserve {p} (h : s.Inv) : (s.refillReserve p).Inv := .foldl (fun _ _ h' => .startMove h') h

theorem State.Inv.evict {p e} (h : s.Inv) : (s.evict p e).Inv := .countMove (.setEntry (.freeHeap (.dropLines h)))

theorem State.Inv.epochPromote {p} {a : Epoch} (h : a.2.Inv) : (epochPromote p a).2.Inv := by
  refine .foldl_snd (fun a e h' => ?_) h
  split
  · exact h'
  · split
    · exact .countMove h'
    · exact .startMove h'

theorem State.Inv.epochDemote {p} {a : Epoch} (h : a.2.Inv) : (epochDemote p a).2.Inv := by
  refine .foldl_snd (fun a e h' => ?_) h
  split
  · exact h'
  · exact .startMove h'

theorem State.Inv.epochEvict {p} {a : Epoch} (h : a.2.Inv) : (epochEvict p a).2.Inv := by
  unfold Machine.epochEvict
  extract_lets high low above
  split
  · exact h
  · refine .foldl_snd (fun a e h' => ?_) h
    split
    · exact h'
    · exact .evict h'

theorem State.Inv.epoch {p} (h : s.Inv) : (s.epoch p).Inv := by
  unfold State.epoch
  extract_lets moves s1
  have h1 : s1.Inv := .epochEvict (.epochDemote (.epochPromote (a := (moves, _)) (.refillReserve h)))
  clear_value s1
  exact .ite h h1

theorem Kept.execPlacementEpoch {part} (h : s.Inv) : Kept (execPlacementEpoch part s) :=
  .ite .fault (.next (.epoch h))

theorem State.Inv.tearPoisoned {e c} (h : s.Inv) : (s.tearPoisoned e c).Inv := by
  unfold State.tearPoisoned
  split
  · exact .coreLate h
  · split
    · exact .late h
    · exact .ite (.rasError (.teardown h)) h

theorem State.Inv.retireStorage {e} (h : s.Inv) : (s.retireStorage e).Inv := by
  unfold State.retireStorage
  refine .ite h ?_
  dsimp only
  split
  · exact .setEntry (.ite (.loseFrame h) (.loseHeap h))
  · exact .of_mem (.ite (.loseFrame h) (.loseHeap h)) rfl

theorem State.Inv.endPoison {e} (h : s.Inv) : (s.endPoison e).Inv :=
  .retireStorage (.foldl (fun _ _ h' => .tearPoisoned h') (.countMove (.setEntry h)))

theorem State.Inv.repaired {e t} (h : s.Inv) : (s.repaired e t).Inv := .rasError (.countMove (.setEntry h))

theorem State.Inv.repairPage {e used bs} (h : s.Inv) : (s.repairPage e used bs).Inv := by
  unfold State.repairPage
  dsimp only
  split
  · exact .ite h (.endPoison h)
  · refine .ite ?_ (.repaired (.setEntry (.poolTake (.loseHeap h))))
    split
    · exact h
    · exact .repaired (.setEntry (.loseFrame (.fillFrame (.takePoolFrame h))))

theorem State.Inv.failRepair {e} (h : s.Inv) : (s.failRepair e).Inv := .ite (.endPoison h) (.setEntry h)

theorem State.Inv.repair {e good} (h : s.Inv) : (s.repair e good).Inv := by
  unfold State.repair
  refine .ite (.ite h (.endPoison h)) (.ite (.failRepair h) (.ite h (.ite (.failRepair h) ?_)))
  split
  · exact .failRepair h
  · exact .repairPage h

theorem Kept.execPoisonRepair {entry good} (h : s.Inv) : Kept (execPoisonRepair entry good s) :=
  .ite (.next (.settle (.repair h))) .fault

theorem State.Inv.removePlaced {e} (h : s.Inv) : (s.removePlaced e).Inv :=
  .of_mem (.ite (.ite (.loseFrame (.dropLines h)) (.freeFrame (.dropLines h))) (.ite (.loseHeap (.dropLines h))
    (.freeHeap (.dropLines h)))) rfl

theorem State.Inv.setLarge {c k p} (h : s.Inv) : (s.setLarge c k p).Inv := .setCtx h

theorem State.Inv.placeRegister {r} (h : s.Inv) : (s.placeRegister r).Inv := by
  unfold State.placeRegister
  dsimp only
  split
  · split
    · exact .ite (.refuse h) (.done (.setLarge (.setEntry (.rename h))))
    · exact .refuse h
  · exact .refuse h

theorem Kept.execPlaceRegister {r} (h : s.Inv) : Kept (execPlaceRegister r s) :=
  .manage h (.ite (.placeRegister h) (.refuse h))

theorem State.Inv.placeEnd {r} (h : s.Inv) : (s.placeEnd r).Inv := by
  unfold State.placeEnd
  dsimp only
  split
  · split
    · exact .ite (.refuse h) (.ite (.refuse h) (.done (.setLarge (.of_mem (.ite h (.ite (.stayPut h)
        (.endPromote h))) rfl))))
    · exact .refuse h
  · exact .refuse h

theorem Kept.execPlaceEnd {r} (h : s.Inv) : Kept (execPlaceEnd r s) :=
  .manage h (.ite (.settle (.placeEnd h)) (.refuse h))

theorem State.Inv.placePin {r} (h : s.Inv) : (s.placePin r).Inv := by
  unfold State.placePin
  split
  · split
    · exact .ite (.refuse h) (.done (.setEntry h))
    · exact .refuse h
  · exact .refuse h

theorem Kept.execPlacePin {r} (h : s.Inv) : Kept (execPlacePin r s) := .manage h (.ite (.placePin h) (.refuse h))

theorem State.Inv.placeCfg {o v} (h : s.Inv) : (s.placeCfg o v).Inv := .ite (.plainWrite h) (.raiseFlag h)

theorem Kept.execPlaceCfgWrite {path addr v} (h : s.Inv) : Kept (execPlaceCfgWrite path addr v s) := by
  unfold Machine.execPlaceCfgWrite
  split
  · exact .ite (.regWriteBy h (.placeCfg h)) .fault
  · exact .fault

theorem State.Inv.streamCreate {r} (h : s.Inv) : (s.streamCreate r).Inv := by
  unfold State.streamCreate
  refine .ite (.refuse h) ?_
  split
  · exact .refuse h
  · refine .ite (.refuse h) ?_
    split
    · exact .refuse h
    · exact .reply (.slideJob (.setPart h))

theorem Kept.execStreamJobCreate {r} (h : s.Inv) : Kept (execStreamJobCreate r s) :=
  .manage h (.ite (.streamCreate h) (.refuse h))

theorem State.Inv.endJob {p i j} (h : s.Inv) : (s.endJob p i j).Inv :=
  .setPart (.foldl (fun _ _ h' => .ite (.setEntry h') h') h)

theorem State.Inv.streamEnd {r} (h : s.Inv) : (s.streamEnd r).Inv := by
  unfold State.streamEnd
  dsimp only
  split
  · exact .ite (.done (.endJob h)) (.refuse h)
  · exact .refuse h

theorem Kept.execStreamJobEnd {r} (h : s.Inv) : Kept (execStreamJobEnd r s) :=
  .manage h (.ite (.streamEnd h) (.refuse h))

theorem State.Inv.setTset {p k t} (h : s.Inv) : (s.setTset p k t).Inv := .setPart h

theorem State.Inv.tableset {r} (h : s.Inv) : (s.tableset r).Inv :=
  .ite (.refuse h) (.ite (.refuse h) (.ite (.refuse h) (.done (.setTset h))))

theorem Kept.execTableset {r} (h : s.Inv) : Kept (execTableset r s) := .manage h (.tableset h)

theorem State.Inv.placeImagePage {p i tbase t2 org area off e} {t : State} (h : s.Inv)
    (he : s.placeImagePage p i tbase t2 org area off = .ok (e, t)) : t.Inv := by
  unfold State.placeImagePage at he
  dsimp only at he
  split at he
  · cases he
  · split at he
    · cases he
      exact .setEntry h
    · split at he
      · cases he
      · split at he
        · cases he
        · cases he
          exact .setEntry (.poolTake h)

theorem State.Inv.placeImage {p i tbase t2 org bs as es es'} {t : State} (h : s.Inv)
    (e : s.placeImage p i tbase t2 org bs as es = .ok (es', t)) : t.Inv := by
  induction as generalizing s es with
  | nil =>
    cases e
    exact h
  | cons a as ih =>
    unfold State.placeImage at e
    split at e
    · cases e
    · exact ih (.placeImagePage h ‹_›) e

theorem State.Inv.loadModel {i tier bs} {t : State} (h : s.Inv) (e : s.loadModel i tier bs = .ok t) : t.Inv := by
  unfold State.loadModel at e
  extract_lets m at e
  split at e
  · cases e
  · split at e
    · cases e
    · split at e
      · cases e
      · split at e
        · cases e
        · extract_lets s1 at e
          have h1 : s1.Inv := .foldl (fun _ _ h' => .setTset h') h
          split at e
          · cases e
          · have h2 : State.Inv _ := .placeImage h1 ‹_›
            cases e
            exact h2

theorem State.Inv.dropLoad {handle i st} (h : s.Inv) : (s.dropLoad handle i st).Inv := .endLong h

theorem State.Inv.endLoad {handle i tier} (h : s.Inv) : (s.endLoad handle i tier).Inv := by
  unfold State.endLoad
  dsimp only
  split
  · exact .dropLoad h
  · refine .ite h ?_
    split
    · exact .endLong (.loadModel h ‹_›)
    · exact .dropLoad h

theorem State.Inv.modelLoad {r entry} (h : s.Inv) : (s.modelLoad r entry).Inv := by
  unfold State.modelLoad
  refine .ite (.refuse h) ?_
  split
  · exact .refuse h
  · exact .startLong h (fun _ _ h' => .pumpLoad h')

theorem Kept.execModelLoad {r entry} (h : s.Inv) : Kept (execModelLoad r entry s) := .manage h (.modelLoad h)

theorem State.Inv.unload {i} (h : s.Inv) : (s.unload i).Inv := .of_mem (.foldl (fun _ _ h' => .removePlaced h') h) rfl

theorem State.Inv.modelUnload {r} (h : s.Inv) : (s.modelUnload r).Inv := by
  unfold State.modelUnload
  dsimp only
  split
  · exact .refuse h
  · exact .ite (.refuse h) (.ite (.refuse h) (.done (.unload h)))

theorem Kept.execModelUnload {r} (h : s.Inv) : Kept (execModelUnload r s) := .manage h (.modelUnload h)

theorem State.Inv.moveBytes {src dst n} (h : s.Inv) : (s.moveBytes src dst n).Inv := by
  unfold State.moveBytes
  extract_lets s1
  have h1 : s1.Inv := .rekeyBad (.rekeyShadows (.dropLines h))
  clear_value s1
  exact Memory.wf_restore _ _ _ h1

theorem State.Inv.migrateRange {c k} {t : State} (h : s.Inv) (e : s.migrateRange c k = some t) : t.Inv := by
  unfold State.migrateRange at e
  extract_lets x at e
  split at e
  · split at e
    · split at e
      · obtain rfl := Option.some.inj e
        exact .setLarge (.freeFrame (.moveBytes (.takeFrame h)))
      · cases e
        exact h
    · extract_lets fr s2 at e
      have h2 : s2.Inv := State.Inv.takeFrame (p := x.part) h
      clear_value s2
      obtain rfl := Option.some.inj e
      refine .foldl (fun u y h' => ?_) h2
      split
      · extract_lets b u1 u2 z
        have h1 : u1.Inv := .freeFrame (.moveBytes h')
        clear_value u1
        exact h1
      · exact h'
  · cases e

theorem State.Inv.migrateAll {c ks} (h : s.Inv) : (s.migrateAll c ks).1.Inv := by
  induction ks generalizing s with
  | nil => exact h
  | cons k ks ih =>
    unfold State.migrateAll
    split
    · exact h
    · exact ih (.migrateRange h ‹_›)

theorem State.Inv.endMigrate {handle c va pages} (h : s.Inv) : (s.endMigrate handle c va pages).Inv :=
  .endLong (.migrateAll h)

theorem State.Inv.migrate {r} (h : s.Inv) : (s.migrate r).Inv := .ite (.refuse h) (.startLong h (fun _ _ h' => h'))

theorem Kept.execMigrate {r} (h : s.Inv) : Kept (execMigrate r s) := .manage h (.migrate h)

/-! ### Pages -/

theorem State.Inv.mapLocal {c g p ks} {t : State} (h : s.Inv) (e : s.mapLocal c g p ks = some t) : t.Inv := by
  induction ks generalizing s with
  | nil =>
    cases e
    exact h
  | cons k ks ih =>
    unfold State.mapLocal at e
    dsimp only at e
    split at e
    · cases e
    · exact ih (.setCtx (.takeFrame h)) e

theorem State.Inv.mapFar {c g p w} (h : s.Inv) : (s.mapFar c g p w).Inv := .setCtx h

theorem State.Inv.mapImage {c g p es} (h : s.Inv) : (s.mapImage c g p es).Inv := .setCtx h

theorem State.Inv.map {r} (h : s.Inv) : (s.map r).Inv := by
  unfold State.map
  dsimp only
  split
  · exact .refuse h
  · refine .ite (.refuse h) (.ite ?_ (.ite ?_ (.ite (.refuse h) (.done (.mapFar h)))))
    · split
      · exact .refuse h
      · exact .ite (.refuse h) (.done (.mapImage h))
    · split
      · exact .refuse h
      · exact .done (.mapLocal h ‹_›)

theorem Kept.execMap {r} (h : s.Inv) : Kept (execMap r s) := .manage h (.map h)

theorem State.Inv.queueUnmap {r g perm} (h : s.Inv) : (s.queueUnmap r g perm).Inv := by
  unfold State.queueUnmap
  split
  · exact .refuse h
  · exact h

theorem Kept.execUnmap {r} (h : s.Inv) : Kept (execUnmap r s) := by
  unfold Machine.execUnmap
  refine .manage h ?_
  split
  · exact .refuse h
  · exact .ite (.queueUnmap h) (.refuse h)

theorem State.Inv.protect {r} (h : s.Inv) : (s.protect r).Inv := by
  unfold State.protect
  dsimp only
  split
  · exact .refuse h
  · exact .ite (.refuse h) (.ite (.queueUnmap h) (.settle (.done (.setCtx h))))

theorem Kept.execProtect {r} (h : s.Inv) : Kept (execProtect r s) := .manage h (.protect h)

theorem State.Inv.dropPage {c large k} (h : s.Inv) : (s.dropPage c large k).Inv := by
  unfold State.dropPage
  split
  · exact h
  · dsimp only
    split
    · exact .ite (.freeFrame (.dropLines (.setCtx h))) (.setCtx h)
    · exact .ite (.retireStorage (.setCtx h)) (.removePlaced (.setCtx h))
    · exact .setCtx h

theorem State.Inv.endUnmap {i u} (h : s.Inv) : (s.endUnmap i u).Inv := by
  unfold State.endUnmap
  refine .ite h (.settle (.foldl (fun _ _ h' => .ite (.loseWatch h') h') (.send ?_)))
  split
  · exact .setCtx h
  · exact .foldl (fun _ _ h' => .dropPage h') h

theorem Kept.execUnmapComplete {idx} (h : s.Inv) : Kept (execUnmapComplete idx s) := by
  unfold Machine.execUnmapComplete
  split
  · exact .next (.endUnmap h)
  · exact .fault

theorem Kept.onStream {r action} {f : Nat → State → State} (h : s.Inv) (hf : (f (r.num Key.stream) s).Inv) :
    Kept (onStream r action s f) :=
  .manage h (.ite hf (.refuse h))

theorem Kept.execRuntimeSwapOut {r} (h : s.Inv) : Kept (execRuntimeSwapOut r s) := .onStream h (.done (.askAct h))

theorem Kept.execRuntimeSwapIn {r} (h : s.Inv) : Kept (execRuntimeSwapIn r s) :=
  .onStream h (.done (.ite (.beginSwapIn h) h))

theorem State.Inv.setAutoswap {r on} (h : s.Inv) : (s.setAutoswap r on).Inv := .done (.setPart h)

theorem Kept.execAutoswapDisable {r} (h : s.Inv) : Kept (execAutoswapDisable r s) :=
  .manage h (.ite (.setAutoswap h) (.refuse h))

theorem Kept.execAutoswapEnable {r} (h : s.Inv) : Kept (execAutoswapEnable r s) :=
  .manage h (.ite (.setAutoswap h) (.refuse h))

theorem Kept.execRuntimeReset {r} (h : s.Inv) : Kept (execRuntimeReset r s) := .onStream h (.done (.askAct h))

theorem State.Inv.runtimeLoad {r hd} (h : s.Inv) : (s.runtimeLoad r hd).Inv := by
  unfold State.runtimeLoad
  dsimp only
  split
  · exact .refuse h
  · exact .done (.askAct h)

theorem Kept.execRuntimeLoad {r} (h : s.Inv) : Kept (execRuntimeLoad r s) :=
  .onStream h (.ite (.runtimeLoad h) (.refuse h))

theorem State.Inv.idLocked (h : s.Inv) : s.idLocked.Inv := .raiseFlag h

theorem State.Inv.setId {id} (h : s.Inv) : (s.setId id).Inv := by
  unfold State.setId
  generalize wn (id % 65536 + 65536) = w
  exact .ite (.idLocked h) (State.Inv.of_mem (s := s.setReg .mgmt 0 0 w) (.setReg h) rfl)

theorem Kept.execDeviceIdSet {r} (h : s.Inv) : Kept (execDeviceIdSet r s) := .manage h (.done (.setId h))

theorem State.Inv.unsetId (h : s.Inv) : s.unsetId.Inv := .ite h (.idLocked h)

theorem Kept.execMgmtUnset {path} (h : s.Inv) : Kept (execMgmtUnset path s) := .regWriteBy h (.unsetId h)

/-! ### What lands in a case -/

theorem State.Inv.landOrigin {r bs} (h : s.Inv) : (s.landOrigin r bs).Inv := by
  unfold State.landOrigin
  split
  · exact .ite (.setEntry h) h
  · split
    · exact h
    · exact h
  · exact h

theorem State.Inv.landData {r bs} (h : s.Inv) : (s.landData r bs).Inv := by
  unfold State.landData
  refine .ite (.landOrigin h) (.ite h ?_)
  split
  · exact .putX h
  · exact .modOf h
  · exact .modOf h
  · exact .modOf h
  · exact h

theorem State.Inv.landDone {r} (h : s.Inv) : (s.landDone r).Inv := by
  unfold State.landDone
  split
  · exact .ite (.modOf h) h
  · exact .finishCommit h
  · exact h

theorem State.Inv.endRead {tag r bs} (h : s.Inv) : (s.endRead tag r bs).Inv := .settle (.landData (.retire h))

theorem State.Inv.endWrite {tag r} (h : s.Inv) : (s.endWrite tag r).Inv := .settle (.landDone (.retire h))

theorem State.Inv.endFail {tag r st} (h : s.Inv) : (s.endFail tag r st).Inv := by
  unfold State.endFail
  refine .settle ?_
  split
  · exact .finishCommit (.requestFault (.retire h))
  · exact .requestFault (.retire h)

/-! ### TAOSH sessions -/

theorem State.Inv.portLink {up} (h : s.Inv) : (s.portLink up).Inv :=
  .ite (.setFld (.ite (.setFld h) (.setFld h))) (.ite (.bump (.ite (.setFld (.setFld h)) (.setFld h))) (.ite
    (.setFld (.setFld h)) (.setFld h)))

theorem Kept.execPortLinkChange {up} (h : s.Inv) : Kept (execPortLinkChange up s) := .next (.portLink h)

theorem State.Inv.portFallback (h : s.Inv) : s.portFallback.Inv := .ite (.setFld h) h

theorem Kept.execPortFallback (h : s.Inv) : Kept (execPortFallback s) := .next (.portFallback h)

theorem State.Inv.otherDrop (h : s.Inv) : s.otherDrop.Inv := .bump h

theorem Kept.execNeighborRequest {q} (h : s.Inv) : Kept (execNeighborRequest q s) :=
  .next (.ite (.emit h) (.otherDrop h))

theorem Kept.execPacketDiscard {why} (h : s.Inv) : Kept (execPacketDiscard why s) := by
  unfold Machine.execPacketDiscard
  split
  · exact .next h
  · exact .next (.otherDrop h)

theorem State.Inv.takePayload {n} (h : s.Inv) : (s.takePayload n).Inv := h

theorem State.Inv.emitPayload {n o} (h : s.Inv) : (s.emitPayload n o).Inv := .emit h

theorem State.Inv.sendSegment {n g} (h : s.Inv) : (s.sendSegment n g).Inv := .emitPayload (.setSession h)

theorem State.Inv.recordsSent {rs} (h : s.Inv) : (s.recordsSent rs).Inv := .foldl (fun _ _ h' => h') h

theorem State.Inv.sendNew {n} (h : s.Inv) : (s.sendNew n).Inv := by
  unfold State.sendNew
  dsimp only
  split
  · exact h
  · exact .ite (.emit (.recordsSent (.sendSegment (.setSession h)))) (.sendSegment (.setSession h))

theorem State.Inv.segmentSend {n} (h : s.Inv) : (s.segmentSend n).Inv := by
  unfold State.segmentSend
  refine .ite h ?_
  split
  · exact .sendSegment (.setSession h)
  · exact .ite h (.sendNew h)

theorem Kept.onSession {n} {f : State → State} (hf : (f s).Inv) : Kept (onSession n s f) :=
  .ite .fault (.next hf)

theorem Kept.execSegmentSend {session} (h : s.Inv) : Kept (execSegmentSend session s) := .onSession (.segmentSend h)

theorem State.Inv.freePlaces {rs} (h : s.Inv) : (s.freePlaces rs).Inv :=
  .foldl (fun _ _ h' => .ite (.sweepQueue h') h') h

theorem State.Inv.ackIn {n a} (h : s.Inv) : (s.ackIn n a).Inv := .freePlaces (.setSession h)

theorem Kept.execAck {session pn a} (h : s.Inv) : Kept (execAck session pn a s) :=
  .onSession (.ite (.ackIn (.setSession (.takePayload h))) h)

theorem State.Inv.retransmit {n} (h : s.Inv) : (s.retransmit n).Inv := .ite h (.setSession h)

theorem Kept.execRetransmitTimeout {session} (h : s.Inv) : Kept (execRetransmitTimeout session s) :=
  .onSession (.retransmit h)

theorem Kept.execCwndUpdate {session acked marked} (h : s.Inv) : Kept (execCwndUpdate session acked marked s) :=
  .onSession (.ite (.setSession h) h)

theorem State.Inv.ackBody {n} (h : s.Inv) : (s.ackBody n).2.Inv := .freshWord h

theorem State.Inv.sendAck {n} (h : s.Inv) : (s.sendAck n).Inv := by
  unfold State.sendAck
  split
  exact .emitPayload (.setSession (.snd ‹_› (.ackBody h)))

theorem Kept.execAckTimer {session} (h : s.Inv) : Kept (execAckTimer session s) := .onSession (.ite (.sendAck h) h)

theorem State.Inv.takeBack {x} (h : s.Inv) : (s.takeBack x).Inv :=
  .foldl (fun _ _ h' => .ite h' (.setCtx h')) (.foldl (fun _ _ h' => .ite h' h') h)

theorem State.Inv.endSession {n} (h : s.Inv) : (s.endSession n).Inv := .ite h (.settle (.takeBack h))

theorem Kept.execSessionFail {session} (h : s.Inv) : Kept (execSessionFail session s) := .onSession (.endSession h)

theorem State.Inv.answerNow {r st} (h : s.Inv) : (s.answerNow r st).Inv := .emit h

theorem Kept.execClose {r} (h : s.Inv) : Kept (execClose r s) := .manage h (.endSession (.answerNow h))

theorem Kept.execEcho {r body} (h : s.Inv) : Kept (execEcho r body s) := .manage h (.ite (.refuse h) (.send h))

theorem State.Inv.netConfig {r} (h : s.Inv) : (s.netConfig r).Inv :=
  .ite (.refuse h) (.ite (.done h) (.foldl (fun _ _ h' => .endSession h') (.answerNow h)))

theorem Kept.execNetConfig {r} (h : s.Inv) : Kept (execNetConfig r s) := .manage h (.netConfig h)

theorem State.Inv.takeDraw (h : s.Inv) : s.takeDraw.2.Inv := h

theorem State.Inv.ticketIssue {r} (h : s.Inv) : (s.ticketIssue r).Inv := by
  unfold State.ticketIssue
  refine .ite (.refuse h) ?_
  split
  · exact .refuse h
  · exact .reply h

theorem Kept.execTicketIssue {r} (h : s.Inv) : Kept (execTicketIssue r s) := .manage h (.ticketIssue h)

theorem State.Inv.ticketRevoke {r} (h : s.Inv) : (s.ticketRevoke r).Inv := by
  unfold State.ticketRevoke
  dsimp only
  split
  · exact .refuse h
  · exact .done (.foldl (fun _ _ h' => .ite (.endSession h') h') h)

theorem Kept.execTicketRevoke {r} (h : s.Inv) : Kept (execTicketRevoke r s) := .manage h (.ticketRevoke h)

theorem State.Inv.emitFlight {n k pn b} (h : s.Inv) : (s.emitFlight n k pn b).Inv := .emitPayload h

theorem State.Inv.emitRefusal {n pn st} (h : s.Inv) : (s.emitRefusal n pn st).Inv := .emitPayload h

theorem State.Inv.hello1 {hd} (h : s.Inv) : (s.hello1 hd).Inv := by
  unfold State.hello1
  refine .ite h ?_
  split
  · exact .emitRefusal (.takePayload h)
  · dsimp only
    split
    · exact .emitFlight (.setSession (.takePayload h))
    · exact .emitFlight (.setSession (.takeDraw (.takePayload h)))

theorem Kept.execHello1 {hd} (h : s.Inv) : Kept (execHello1 hd s) := .next (.hello1 h)

theorem State.Inv.flushWide (h : s.Inv) : s.flushWide.Inv := .ite (.foldl (fun _ _ h' => .send h') h) h

theorem State.Inv.deploy (h : s.Inv) : s.deploy.Inv := .ite h h

theorem State.Inv.hello3 {n finished edSig mlSig} (h : s.Inv) : (s.hello3 n finished edSig mlSig).Inv := by
  unfold State.hello3
  split
  · exact h
  · exact .ite (.emitRefusal (.takePayload (.setSession h))) (.flushWide (.emitFlight (.ite (.deploy (.setSession
      (.endSession (.takePayload (.setSession h))))) (.setSession (.endSession (.takePayload (.setSession h)))))))

theorem Kept.execHello3 {session finished edSig mlSig} (h : s.Inv) :
    Kept (execHello3 session finished edSig mlSig s) :=
  .onSession (.hello3 h)

theorem Kept.execHelloTimeout {session} (h : s.Inv) : Kept (execHelloTimeout session s) := .onSession (.setSession h)

theorem Kept.execKeyUpdate {session} (h : s.Inv) : Kept (execKeyUpdate session s) :=
  .onSession (.ite (.setSession h) h)

theorem Kept.execOldKeyExpiry {session} (h : s.Inv) : Kept (execOldKeyExpiry session s) := .onSession (.setSession h)

theorem State.Inv.startEthLoop {v} {t : State} (h : s.Inv) (e : s.startEthLoop v = .ok t) : t.Inv := by
  unfold State.startEthLoop at e
  split at e
  · cases e
  · split at e
    · cases e
    · split at e
      · cases e
      · cases e
        exact .setFld (.setFld (.plainWrite h))

theorem Kept.execEthLoopbackStart {r} (h : s.Inv) : Kept (execEthLoopbackStart r s) :=
  .manage h (.ite (.loopback h (fun _ e => .startEthLoop h e)) (.refuse h))

theorem State.Inv.endEthLoop {errors} (h : s.Inv) : (s.endEthLoop errors).Inv :=
  .ite h (.answerLoop (.setFld (.setFld (.setFld h))))

theorem Kept.execEthLoopbackEnd {errors} (h : s.Inv) : Kept (execEthLoopbackEnd errors s) := .next (.endEthLoop h)

theorem State.Inv.writeCcCfg {v} (h : s.Inv) : (s.writeCcCfg v).Inv := .ite (.plainWrite h) (.raiseFlag h)

theorem Kept.execTaoshCcCfgWrite {path v} (h : s.Inv) : Kept (execTaoshCcCfgWrite path v s) :=
  .regWriteBy h (.writeCcCfg h)

/-! ### The host port -/

theorem Kept.onOpen {n} {f : State → State} (h : s.Inv) (hf : (f s).Inv) : Kept (onOpen n s f) :=
  .ite .fault (.ite (.next hf) (.next h))

theorem State.Inv.queueCreate {r} (h : s.Inv) : (s.queueCreate r).Inv := by
  unfold State.queueCreate
  dsimp only
  split
  · exact .refuse h
  · exact .reply h

theorem Kept.execQueueCreate {r} (h : s.Inv) : Kept (execQueueCreate r s) := .manage h (.queueCreate h)

theorem State.Inv.queueDestroy {r} (h : s.Inv) : (s.queueDestroy r).Inv := .ite (.done h) (.refuse h)

theorem Kept.execQueueDestroy {r} (h : s.Inv) : Kept (execQueueDestroy r s) := .manage h (.queueDestroy h)

theorem State.Inv.sendHeld {q} (h : s.Inv) : (s.sendHeld q).Inv := by
  unfold State.sendHeld
  dsimp only
  split
  · exact h
  · split
    · exact .sweepQueue (.foldl (fun _ _ h' => .send h') h)
    · exact .foldl (fun _ _ h' => .send h') (.foldl (fun _ _ h' => .send h') (.setCtx (.sweepQueue (.foldl
        (fun _ _ h' => .send h') h))))

theorem State.Inv.queueBind {r} (h : s.Inv) : (s.queueBind r).Inv := .ite (.done (.sendHeld h)) (.refuse h)

theorem Kept.execQueueBind {r} (h : s.Inv) : Kept (execQueueBind r s) := .manage h (.queueBind h)

theorem State.Inv.acceptTake {q w ds win} (h : s.Inv) : (s.acceptTake q w ds win).Inv := by
  unfold State.acceptTake
  dsimp only
  split
  · exact .ite h (.endTake h)
  · exact h

theorem State.Inv.refuseDesc {n q w st} (h : s.Inv) : (s.refuseDesc n q w st).Inv :=
  .ite (.postRecord (.freshWord h)) (.send (.freshWord h))

theorem State.Inv.submitAll {n q ws} (h : s.Inv) : (s.submitAll n q ws).Inv := by
  induction ws generalizing s with
  | nil => exact h
  | cons w ws ih =>
    unfold State.submitAll
    split
    · exact ih (.acceptTake h)
    · exact .foldl (fun _ _ h' => .refuseDesc h') h

theorem State.Inv.submit {n q headZero descs} (h : s.Inv) : (s.submit n q headZero descs).Inv :=
  .ite (.submitAll h) (.foldl (fun _ _ h' => .refuseDesc h') h)

theorem Kept.execSubmit {session queue headZero descs} (h : s.Inv) :
    Kept (execSubmit session queue headZero descs s) :=
  .onOpen h (.submit h)

theorem State.Inv.bufRegister {r} (h : s.Inv) : (s.bufRegister r).Inv := .ite (.refuse h) (.done h)

theorem Kept.execBufRegister {r} (h : s.Inv) : Kept (execBufRegister r s) := .manage h (.bufRegister h)

theorem State.Inv.bufUnregister {r} (h : s.Inv) : (s.bufUnregister r).Inv := by
  unfold State.bufUnregister
  dsimp only
  split
  · exact .refuse h
  · exact .ite (.refuse h) (.ite (.refuse h) (.done h))

theorem Kept.execBufUnregister {r} (h : s.Inv) : Kept (execBufUnregister r s) := .manage h (.bufUnregister h)

theorem State.Inv.readResp {n id st gen bs} (h : s.Inv) : (s.readResp n id st gen bs).Inv := .send h

theorem State.Inv.readBuf {n id b genReq off len} (h : s.Inv) : (s.readBuf n id b genReq off len).Inv := by
  unfold State.readBuf
  refine .ite (.readResp h) (.ite (.readResp h) (.ite (.readResp h) ?_))
  split
  · exact .readResp h
  · exact .readResp h

theorem Kept.execReadBuf {session reqId buf genReq offset length} (h : s.Inv) :
    Kept (execReadBuf session reqId buf genReq offset length s) :=
  .onOpen h (.readBuf h)

theorem State.Inv.hostAccess {a} (h : s.Inv) : (s.hostAccess a).Inv := .settle h

theorem State.Inv.readMem {n id c va len} (h : s.Inv) : (s.readMem n id c va len).Inv :=
  .ite (.readResp h) (.hostAccess h)

theorem Kept.execReadMem {session reqId ctx vaddr length} (h : s.Inv) :
    Kept (execReadMem session reqId ctx vaddr length s) :=
  .onOpen h (.readMem h)

theorem State.Inv.wakeWord {b} (h : s.Inv) : (s.wakeWord b).Inv := by
  unfold State.wakeWord
  refine .ite h ?_
  split
  · split
    · exact .add64 h
    · exact h
  · exact h

theorem State.Inv.releaseBuf {n id b gen} (h : s.Inv) : (s.releaseBuf n id b gen).Inv :=
  .ite (.readResp h) (.ite (.readResp h) (.ite (.readResp h) (.readResp (.settle (.wakeWord h)))))

theorem Kept.execRelease {session reqId buf gen} (h : s.Inv) : Kept (execRelease session reqId buf gen s) :=
  .onOpen h (.releaseBuf h)

theorem State.Inv.writeMem {n id c addr data} (h : s.Inv) : (s.writeMem n id c addr data).Inv :=
  .ite (.send h) (.hostAccess h)

theorem Kept.execWriteMem {session reqId ctx addr data} (h : s.Inv) :
    Kept (execWriteMem session reqId ctx addr data s) :=
  .onOpen h (.writeMem h)

theorem State.Inv.hostwinMap {r} (h : s.Inv) : (s.hostwinMap r).Inv := by
  unfold State.hostwinMap
  refine .ite (.refuse h) (.ite (.refuse h) ?_)
  split
  · exact .refuse h
  · exact .done h

theorem Kept.execHostwinMap {r} (h : s.Inv) : Kept (execHostwinMap r s) := .manage h (.hostwinMap h)

theorem State.Inv.writeAckIn {n id st} (h : s.Inv) : (s.writeAckIn n id st).Inv := by
  unfold State.writeAckIn
  split
  · exact h
  · exact .ite (.endWrite h) (.endFail h)

theorem Kept.execWriteAck {session reqId status} (h : s.Inv) : Kept (execWriteAck session reqId status s) :=
  .onOpen h (.writeAckIn h)

theorem State.Inv.bounceIn {id r w off data} (h : s.Inv) : (s.bounceIn id r w off data).Inv := by
  unfold State.bounceIn
  extract_lets win
  split
  refine .ite (.endFail h) ?_
  split
  · exact .endFail h
  · exact .endRead h
  · exact State.Inv.sendBlocks (s := { s with requests := _ }) h

theorem State.Inv.pullRespIn {n id st data} (h : s.Inv) : (s.pullRespIn n id st data).Inv := by
  unfold State.pullRespIn
  split
  · exact h
  · refine .ite (.endFail h) ?_
    split
    · exact .bounceIn h
    · exact .ite (.endRead h) (.endFail h)

theorem Kept.execPullResp {session reqId status data} (h : s.Inv) : Kept (execPullResp session reqId status data s) :=
  .onOpen h (.pullRespIn h)

/-! ### Scrubs and self-tests -/

theorem State.Inv.closeSessions {p} (h : s.Inv) : (s.closeSessions p).Inv :=
  .of_mem (.foldl (fun _ _ h' => .ite (.endSession h') h') h) rfl

theorem State.Inv.endLoads {p} (h : s.Inv) : (s.endLoads p).Inv := by
  unfold State.endLoads
  refine .foldl (fun _ _ h' => .ite h' ?_) h
  split
  · exact .ite (.dropLoad h') h'
  · exact h'

theorem State.Inv.beginScrub {p} (h : s.Inv) : (s.beginScrub p).Inv :=
  .foldl (fun _ _ h' => .ite (.teardown h') h') (.endLoads (.closeSessions (.setPart h)))

theorem State.Inv.zeroChase {c} (h : s.Inv) : (s.zeroChase c).Inv :=
  .setChase (.foldl (fun _ _ h' => .setComp h') (.foldl (fun _ _ h' => .setPress (.zeroPress h')) h))

theorem State.Inv.keyScrub {hd} (h : s.Inv) : (s.keyScrub hd).Inv := by
  unfold State.keyScrub
  dsimp only
  split
  · exact .setLongop (.foldl (fun _ _ h' => .zeroChase h') (.setPart h))
  · exact h

theorem State.Inv.zeroFill {a n} (h : s.Inv) : (s.zeroFill a n).Inv := .clearBad (Memory.wf_wipe _ _ _ h)

theorem State.Inv.clearTables {p} (h : s.Inv) : (s.clearTables p).Inv := h

theorem State.Inv.ownGroups {p old new} (h : s.Inv) : (s.ownGroups p old new).Inv :=
  .foldl (fun _ _ h' => .ite (.setFld h') (.ite (.setFld h') h')) h

theorem State.Inv.loadPart {p next st} (h : s.Inv) : (s.loadPart p next st).Inv := by
  unfold State.loadPart
  dsimp only
  split
  · exact .setPart (.setFld (.ownGroups h))
  · exact .setPart h

theorem State.Inv.blow {typ} (h : s.Inv) : (s.blow typ).Inv :=
  .ite (.foldl (fun _ _ h' => .setSession (.endSession h')) (.setFld h)) (.setFld h)

theorem State.Inv.stepTransition {hd} (h : s.Inv) : (s.stepTransition hd).Inv := by
  unfold State.stepTransition
  split
  · exact .ite (.ite (.blow h) h) h
  · exact h

theorem State.Inv.endScrub {hd} (h : s.Inv) : (s.endScrub hd).Inv := by
  unfold State.endScrub
  split
  · exact .ite h (.stepTransition (.endLong (.loadPart (.clearTables (.foldl (fun _ _ h' => .zeroFill h')
      (.keyScrub h))))))
  · exact h

theorem State.Inv.cancelScrub {hd} (h : s.Inv) : (s.cancelScrub hd).Inv := by
  unfold State.cancelScrub
  split
  · refine .ite h (.endLong ?_)
    split
    · exact .ite (.of_mem (.wideEvent (.setPart (.loadPart (.keyScrub h)))) rfl) (.wideEvent (.setPart (.loadPart
        (.keyScrub h))))
    · exact .wideEvent (.setPart (.loadPart (.keyScrub h)))
  · exact h

theorem State.Inv.scrub {r} (h : s.Inv) : (s.scrub r).Inv :=
  .ite (.refuse h) (.ite (.refuse h) (.startLong h (fun _ _ h' => .settle (.beginScrub h'))))

theorem Kept.execScrub {r} (h : s.Inv) : Kept (execScrub r s) := .manage h (.scrub h)

theorem State.Inv.remap {groups} (h : s.Inv) : (s.remap groups).Inv := h

theorem State.Inv.setLayout {fs spread} (h : s.Inv) : (s.setLayout fs spread).Inv := .setFld (.setFld h)

theorem State.Inv.resetPart {r p next} (h : s.Inv) : (s.resetPart r p next).Inv :=
  .ite h (.startLong h (fun _ _ h' => .beginScrub (.ite h' (.setPart h'))))

theorem State.Inv.storeLayout {ps fs spread} (h : s.Inv) : (s.storeLayout ps fs spread).Inv := h

theorem State.Inv.partitionReset {r} (h : s.Inv) : (s.partitionReset r).Inv := by
  unfold State.partitionReset
  split
  · refine .ite (.refuse h) ?_
    dsimp only
    split
    · exact .refuse h
    · exact .settle (.ite (.done (.foldl (fun _ _ h' => .resetPart h') (.storeLayout (.remap (.setLayout h)))))
        (.foldl (fun _ _ h' => .resetPart h') (.storeLayout (.remap (.setLayout h)))))

theorem Kept.execPartitionReset {r} (h : s.Inv) : Kept (execPartitionReset r s) := .manage h (.partitionReset h)

theorem State.Inv.bistPower {watts} (h : s.Inv) : (s.bistPower watts).2.Inv := by
  unfold State.bistPower
  split
  · exact h
  · exact .freshWord h

theorem State.Inv.setBist {hd b} (h : s.Inv) : (s.setBist hd b).Inv := .setLongop h

theorem State.Inv.startChaseTests {hd fuel} (h : s.Inv) : (startChaseTests hd fuel s).Inv := by
  induction fuel generalizing s with
  | zero => exact h
  | succ fuel ih =>
    unfold Machine.startChaseTests
    split
    · split
      · exact h
      · exact .ite h (.ite (ih (.setBist (.bistPower h))) (.bistPower h))
    · exact h

theorem State.Inv.startStackTest {hd} (h : s.Inv) : (s.startStackTest hd).Inv := by
  unfold State.startStackTest
  split
  · split
    · exact h
    · exact .ite h (.ite (.overwritten (.setBist (.bistPower h))) (.bistPower h))
  · exact h

theorem State.Inv.pumpBists (h : s.Inv) : s.pumpBists.Inv := by
  unfold State.pumpBists
  refine .foldl (fun _ _ h' => ?_) h
  split
  · exact .ite (.startStackTest (.startChaseTests h')) h'
  · exact h'

theorem State.Inv.bist {r} (h : s.Inv) : (s.bist r).Inv :=
  .ite (.refuse h) (.ite (.refuse h) (.ite (.refuse h) (.startLong h (fun _ _ h' => .pumpBists (.foldl
    (fun _ _ h'' => .setPart h'') h')))))

theorem Kept.execBist {r} (h : s.Inv) : Kept (execBist r s) := .manage h (.bist h)

theorem State.Inv.fenceLater {c} (h : s.Inv) : (s.fenceLater c).Inv := h

theorem State.Inv.endBist {hd defects} (h : s.Inv) : (s.endBist hd defects).Inv := by
  unfold State.endBist
  split
  · exact .settle (.pumpBists (.ite (.endLong (.setBist (.foldl (fun _ _ h' => .ite (.rasError h') (.ite (.retirePc
      (.rasError h')) (.fenceLater (.rasError h')))) (.foldl (fun _ _ h' => .zeroChase h') h)))) (.setBist (.foldl
      (fun _ _ h' => .ite (.rasError h') (.ite (.retirePc (.rasError h')) (.fenceLater (.rasError h')))) (.foldl
      (fun _ _ h' => .zeroChase h') h)))))
  · exact h

/-! ### Firmware and tokens -/

theorem State.Inv.signatureFail (h : s.Inv) : s.signatureFail.Inv := .of_mem (.rasError h) rfl

theorem State.Inv.fwStage {r slot img} (h : s.Inv) : (s.fwStage r slot img).Inv :=
  .ite (.refuse h) (.startLong h (fun _ _ h' => .ite h' h'))

theorem Kept.execFwStage {r slot img} (h : s.Inv) : Kept (execFwStage r slot img s) := .manage h (.fwStage h)

theorem State.Inv.endStage {hd k n img} (h : s.Inv) : (s.endStage hd k n img).Inv :=
  .ite (.endLong (.ite h h)) (.endLong (.signatureFail h))

theorem State.Inv.transitScrub {r p} (h : s.Inv) : (s.transitScrub r p).1.Inv := by
  unfold State.transitScrub
  split
  · exact h
  · split
    · exact .startLong h (fun _ _ h' => .beginScrub h')
    · exact h

theorem State.Inv.transit {r t} (h : s.Inv) : (s.transit r t).Inv := by
  unfold State.transit
  extract_lets ps sec s1
  refine .ite (.refuse h) (.ite (.refuse h) ?_)
  split
  rename_i u hs e
  have hu : u.Inv := .fst e (.foldl_fst (p := (s1, [])) (fun _ _ h' => .transitScrub h') h)
  exact .ite (.blow (.answerNow hu)) (.settle hu)

theorem State.Inv.applyToken {r i} (h : s.Inv) : (s.applyToken r i).Inv :=
  .ite (.refuse h) (.ite (.refuse h) (.ite (.done h) (.ite (.done h) (.transit h))))

theorem State.Inv.activateToken {r} (h : s.Inv) : (s.activateToken r).Inv := by
  unfold State.activateToken
  split
  · exact .applyToken h
  · exact .refuse h

theorem Kept.tokenRow {t r} (h : s.Inv) : Kept (tokenRow t r s) := by
  unfold Machine.tokenRow
  split
  · exact .ite (.manage h (.ite (.applyToken h) (.refuse h))) .fault
  · exact .manage h (.refuse h)

theorem Kept.execTokenOverride {r} (h : s.Inv) : Kept (execTokenOverride r s) := .tokenRow h

theorem Kept.execTokenReturn {r} (h : s.Inv) : Kept (execTokenReturn r s) := .tokenRow h

theorem Kept.execTokenRedeploy {r} (h : s.Inv) : Kept (execTokenRedeploy r s) := .tokenRow h

theorem Kept.execTokenDecommission {r} (h : s.Inv) : Kept (execTokenDecommission r s) := .tokenRow h

theorem Kept.execTokenDebug {r} (h : s.Inv) : Kept (execTokenDebug r s) := .tokenRow h

theorem State.Inv.svnCommit {r} (h : s.Inv) : (s.svnCommit r).Inv := by
  unfold State.svnCommit
  dsimp only
  split
  · exact .ite (.refuse h) (.ite (.refuse h) (.done h))
  · exact .refuse h

theorem Kept.execSvnCommit {r} (h : s.Inv) : Kept (execSvnCommit r s) := .manage h (.ite (.svnCommit h) (.refuse h))

theorem State.Inv.activateSlot {r slot} (h : s.Inv) : (s.activateSlot r slot).Inv :=
  .ite (.refuse h) (.ite (.refuse h) (.done h))

theorem Kept.execFwActivate {r slot} (h : s.Inv) : Kept (execFwActivate r slot s) :=
  .manage h (.ite (.ite (.refuse h) (.activateToken h)) (.ite (.svnCommit h) (.activateSlot h)))

theorem State.Inv.provision {ownerEd ownerMl} (h : s.Inv) : (s.provision ownerEd ownerMl).Inv := .ite h (.setFld h)

theorem Kept.execProvision {ownerEd ownerMl} (h : s.Inv) : Kept (execProvision ownerEd ownerMl s) :=
  .next (.provision h)

theorem Kept.execColophon {r nonce} (h : s.Inv) : Kept (execColophon r nonce s) :=
  .manage h (.ite (.send h) (.refuse h))

/-! ### The QUOIN links -/

theorem State.Inv.drainWaiting {l} (h : s.Inv) : (s.drainWaiting l).Inv :=
  .foldl (fun _ _ h' => .sendOn h') (.setLink h)

theorem State.Inv.replay {l} (h : s.Inv) : (s.replay l).Inv := by
  unfold State.replay
  refine .foldl_fst (fun _ _ h' => ?_) h
  split
  · exact h'
  · exact .launch h'

theorem State.Inv.retrain {l} (h : s.Inv) : (s.retrain l).Inv :=
  .ite h (.rasError (.setLink (.bump (.setLinkState h))))

theorem State.Inv.countReplay {l} (h : s.Inv) : (s.countReplay l).Inv := .rasError (.bump h)

theorem State.Inv.nakIn {l ack} (h : s.Inv) : (s.nakIn l ack).Inv :=
  .ite h (.ite (.retrain (.countReplay (.setLink h))) (.drainWaiting (.replay (.countReplay (.setLink h)))))

theorem Kept.execNak {link ack} (h : s.Inv) : Kept (execNak link ack s) := .ite .fault (.next (.nakIn h))

theorem State.Inv.sendNak {l} (h : s.Inv) : (s.sendNak l).Inv := .emit (.countReplay (.setLink h))

theorem State.Inv.goodFlit {l f} (h : s.Inv) : (s.goodFlit l f).Inv :=
  .ite (.nakIn (.drainWaiting (.setLink h))) (.ite (.drainWaiting (.setLink h)) (.ite (.setLink (.drainWaiting
    (.setLink h))) (.ite (.drainWaiting (.setLink h)) (.sendNak (.drainWaiting (.setLink h))))))

theorem State.Inv.applyEn {l} (h : s.Inv) : (s.applyEn l).Inv :=
  .ite (.ite (.setLinkState h) h) (.ite (.setLinkState h) h)

theorem State.Inv.flitIn {l f crcGood} (h : s.Inv) : (s.flitIn l f crcGood).Inv :=
  .ite h (.ite (.ite (.applyEn (.goodFlit h)) (.goodFlit h)) (.sendNak h))

theorem Kept.execFlitReceive {link f crcGood} (h : s.Inv) : Kept (execFlitReceive link f crcGood s) :=
  .ite .fault (.next (.flitIn h))

theorem Kept.execFecLockLoss {link} (h : s.Inv) : Kept (execFecLockLoss link s) := .ite .fault (.next (.retrain h))

theorem Kept.execLinkRetrain {r} (h : s.Inv) : Kept (execLinkRetrain r s) :=
  .manage h (.ite (.done (.retrain h)) (.refuse h))

theorem State.Inv.noteSeq {l p} (h : s.Inv) : (s.noteSeq l p).Inv := .setLink h

theorem State.Inv.forward {p} (h : s.Inv) : (s.forward p).Inv := by
  unfold State.forward
  split
  · exact .sendOn h
  · exact .ite (.respond h) h

theorem State.Inv.packetIn {l p} {f : State → State} (h : s.Inv) (hf : ∀ u, u.Inv → (f u).Inv) :
    (s.packetIn l p f).Inv :=
  .ite (.setLink h) (.ite (.bump (.setLink h)) (.ite (.setLink h) (.ite (hf _ (.noteSeq (.setLink h))) (.forward
    (.noteSeq (.setLink h))))))

theorem Kept.onPacket {l p typ busy} {f : State → State} (h : s.Inv) (hf : ∀ u, u.Inv → (f u).Inv) :
    Kept (onPacket l p typ s busy f) :=
  .ite .fault (.ite .fault (.ite (.next h) (.next (.packetIn h hf))))

theorem State.Inv.unitsRead {k n} (h : s.Inv) : (s.unitsRead k n).Inv := .foldl (fun _ _ h' => .lineRead h') h

theorem State.Inv.serveRead {p} (h : s.Inv) : (s.serveRead p).Inv :=
  .ite (.respond h) (.ite (.respond h) (.ite (.respond h) (.respond (.unitsRead h))))

theorem Kept.execRdReq {link p} (h : s.Inv) : Kept (execRdReq link p s) := .onPacket h (fun _ h' => .serveRead h')

theorem State.Inv.serveAt {p body} (h : s.Inv) : (s.serveAt p body).Inv := by
  unfold State.serveAt
  dsimp only
  split
  · exact .memoryAtomic h
  · exact h

theorem State.Inv.serveWrite {p} (h : s.Inv) : (s.serveWrite p).Inv := .ite (.respond h) (.serveAt h)

theorem Kept.execWr {link p} (h : s.Inv) : Kept (execWr link p s) := .onPacket h (fun _ h' => .serveWrite h')

theorem State.Inv.serveAtom {p} (h : s.Inv) : (s.serveAtom p).Inv := by
  unfold State.serveAtom
  refine .ite (.respond h) (.ite (.respond h) ?_)
  split
  · exact .respond h
  · exact .ite (.respond h) (.serveAt h)

theorem Kept.execAtom {link p} (h : s.Inv) : Kept (execAtom link p s) := .onPacket h (fun _ h' => .serveAtom h')

theorem State.Inv.readAnswer {p} (h : s.Inv) : (s.readAnswer p).Inv := by
  unfold State.readAnswer
  split
  · exact h
  · exact .ite (.endFail h) (.ite (.endRead h) h)

theorem Kept.execRdResp {link p} (h : s.Inv) : Kept (execRdResp link p s) := .onPacket h (fun _ h' => .readAnswer h')

theorem State.Inv.writeAnswer {p kind} (h : s.Inv) : (s.writeAnswer p kind).Inv := by
  unfold State.writeAnswer
  split
  · exact h
  · exact .ite (.endFail h) (.endWrite h)

theorem Kept.execWrAck {link p} (h : s.Inv) : Kept (execWrAck link p s) := .onPacket h (fun _ h' => .writeAnswer h')

theorem Kept.execAtomAck {link p} (h : s.Inv) : Kept (execAtomAck link p s) :=
  .onPacket h (fun _ h' => .writeAnswer h')

theorem State.Inv.timeout {tag} (h : s.Inv) : (s.timeout tag).Inv := by
  unfold State.timeout
  split
  · exact .ite (.endFail h) h
  · exact h

theorem Kept.execRequestTimeout {tag} (h : s.Inv) : Kept (execRequestTimeout tag s) := .next (.timeout h)

theorem State.Inv.reissue {l} (h : s.Inv) : (s.reissue l).Inv := by
  unfold State.reissue
  extract_lets x s1 again send s2
  have hsend {u : State} (p : Packet) (hu : u.Inv) : (send u p).Inv := by
    unfold send
    split
    · exact hu
    · exact .sendOn hu
  exact .foldl (fun _ _ h' => hsend _ h') (.foldl (fun _ _ h' => hsend _ h') (show s1.Inv from h))

theorem State.Inv.recordLink {l v} (h : s.Inv) : (s.recordLink l v).Inv := h

theorem State.Inv.trainFail {l} (h : s.Inv) : (s.trainFail l).Inv :=
  .ite (.reissue (.recordLink (.setLinkState (.setLink h)))) (.ite (.setFld (.setLink h)) (.setLink h))

theorem State.Inv.trainGood {l peerId peerLink peerDim peerDir} (h : s.Inv) :
    (s.trainGood l peerId peerLink peerDim peerDir).Inv := by
  unfold State.trainGood
  generalize wn (peerId + (peerLink <<< 16) + (1 <<< 21)) = w
  extract_lets s1 link s2 s3 ok s4 s5
  have h1 : s1.Inv := .ite (.recordLink h) h
  clear_value s1
  have h3 : s3.Inv := .setReg h1
  have h2 : s2.Inv := .setLink (.setLinkState h1)
  clear_value s2 s3
  have h4 : s4.Inv := .setFld h3
  clear_value s4
  have h5 : s5.Inv := .setLink (.setLinkState h4)
  clear_value s5
  exact .ite (.drainWaiting (.replay h2)) (.ite (.setLinkState h1) (.ite (.of_mem h5 rfl) (.setLinkState h4)))

theorem State.Inv.trained {l good peerId peerLink peerDim peerDir} (h : s.Inv) :
    (s.trained l good peerId peerLink peerDim peerDir).Inv :=
  .ite h (.ite (.trainGood h) (.trainFail h))

theorem Kept.execRetrainComplete {link good peerId peerLink peerDim peerDir} (h : s.Inv) :
    Kept (execRetrainComplete link good peerId peerLink peerDim peerDir s) :=
  .ite .fault (.next (.settle (.trained h)))

theorem State.Inv.quoinReject (h : s.Inv) : s.quoinReject.Inv := .raiseFlag h

theorem State.Inv.storeQuoin {k o} (h : s.Inv) : (s.storeQuoin k o).Inv := h

theorem State.Inv.writeTopo {v} (h : s.Inv) : (s.writeTopo v).Inv :=
  .ite (.quoinReject h) (.storeQuoin (.plainWrite h))

theorem Kept.execQuoinTopoWrite {path v} (h : s.Inv) : Kept (execQuoinTopoWrite path v s) :=
  .regWriteBy h (.writeTopo h)

theorem State.Inv.writeLinkCfg {l v} (h : s.Inv) : (s.writeLinkCfg l v).Inv :=
  .ite (.quoinReject (.setFld h)) (.applyEn (.storeQuoin (.plainWrite h)))

theorem Kept.execQuoinLinkCfgWrite {path link v} (h : s.Inv) : Kept (execQuoinLinkCfgWrite path link v s) :=
  .ite .fault (.regWriteBy h (.writeLinkCfg h))

theorem State.Inv.writeQuoinCfg {v} (h : s.Inv) : (s.writeQuoinCfg v).Inv := .ite (.quoinReject h) (.plainWrite h)

theorem Kept.execQuoinCfgWrite {path v} (h : s.Inv) : Kept (execQuoinCfgWrite path v s) :=
  .regWriteBy h (.writeQuoinCfg h)

theorem State.Inv.writeUpdSeed {v} (h : s.Inv) : (s.writeUpdSeed v).Inv := .plainWrite h

theorem State.Inv.startQuoinLoop {v} {t : State} (h : s.Inv) (e : s.startQuoinLoop v = .ok t) : t.Inv := by
  unfold State.startQuoinLoop at e
  dsimp only at e
  split at e
  · cases e
  · split at e
    · cases e
    · split at e
      · cases e
      · cases e
        exact .setLinkState (.setFld (.setFld (.plainWrite h)))

theorem Kept.execQuoinLoopbackStart {r} (h : s.Inv) : Kept (execQuoinLoopbackStart r s) :=
  .manage h (.ite (.loopback h (fun _ e => .startQuoinLoop h e)) (.refuse h))

theorem State.Inv.endQuoinLoop {errors} (h : s.Inv) : (s.endQuoinLoop errors).Inv :=
  .ite h (.answerLoop (.setLinkState (.setFld (.setFld (.setFld h)))))

theorem Kept.execQuoinLoopbackEnd {errors} (h : s.Inv) : Kept (execQuoinLoopbackEnd errors s) :=
  .next (.endQuoinLoop h)

/-! ### Collectives -/

theorem State.Inv.ioWrite {n c pc va bs} (h : s.Inv) : (s.ioWrite n c pc va bs).Inv := by
  unfold State.ioWrite
  split
  · exact .hostWrite h
  · exact .late h

theorem State.Inv.resultWord {n c pc result i v} (h : s.Inv) : (s.resultWord n c pc result i v).Inv := .ioWrite h

theorem State.Inv.doneWord {n c pc done} (h : s.Inv) : (s.doneWord n c pc done).Inv := by
  unfold State.doneWord
  split
  · exact .add64 h
  · exact h
  · exact .late h

theorem State.Inv.endCommand {n c pc result done st value} (h : s.Inv) :
    (s.endCommand n c pc result done st value).Inv :=
  .doneWord (.resultWord h)

theorem State.Inv.refuseCmd {d cmd st} (h : s.Inv) : (s.refuseCmd d cmd st).Inv := .endCommand (.resultWord h)

theorem State.Inv.doneCmd {d cmd} (h : s.Inv) : (s.doneCmd d cmd).Inv := .endCommand (.resultWord h)

theorem State.Inv.readBell {i d} (h : s.Inv) : (s.readBell i d).Inv := by
  unfold State.readBell
  split
  · exact .late h
  · exact .ite h (.refuseCmd h)

theorem Kept.execDoorbell {ctx} (h : s.Inv) : Kept (execDoorbell ctx s) := by
  unfold Machine.execDoorbell
  split
  · exact .next (.settle (.readBell h))
  · exact .fault

theorem Kept.onCommand {ctx op} {f : State → Doorbell → List W64 → State} (h : s.Inv)
    (hf : ∀ u d cmd, u.Inv → (f u d cmd).Inv) : Kept (onCommand ctx op s f) := by
  unfold Machine.onCommand
  split
  · split
    · exact .ite (.next (.settle (hf _ _ _ (.of_mem h rfl)))) .fault
    · exact .fault
  · exact .fault

theorem State.Inv.setUpdEntry {i e} (h : s.Inv) : (s.setUpdEntry i e).Inv := h

theorem State.Inv.updSet {d cmd} (h : s.Inv) : (s.updSet d cmd).Inv :=
  .ite (.refuseCmd h) (.ite (.refuseCmd h) (.ite (.refuseCmd h) (.doneCmd (.setUpdEntry h))))

theorem Kept.execUpdSet {ctx} (h : s.Inv) : Kept (execUpdSet ctx s) := .onCommand h (fun _ _ _ h' => .updSet h')

theorem State.Inv.updFreeze {d cmd} (h : s.Inv) : (s.updFreeze d cmd).Inv :=
  .ite (.refuseCmd h) (.ite (.refuseCmd h) (.doneCmd (.setUpdEntry h)))

theorem Kept.execUpdFreeze {ctx} (h : s.Inv) : Kept (execUpdFreeze ctx s) :=
  .onCommand h (fun _ _ _ h' => .updFreeze h')

theorem State.Inv.updClear {d cmd} (h : s.Inv) : (s.updClear d cmd).Inv :=
  .ite (.refuseCmd h) (.ite (.refuseCmd h) (.ite (.refuseCmd h) (.doneCmd (.setUpdEntry h))))

theorem Kept.execUpdClear {ctx} (h : s.Inv) : Kept (execUpdClear ctx s) := .onCommand h (fun _ _ _ h' => .updClear h')

theorem State.Inv.sendPart {c dev phase off data} (h : s.Inv) : (s.sendPart c dev phase off data).Inv :=
  .foldl (fun _ _ h' => .inject h') h

theorem State.Inv.sendOssel {c dev first n es} (h : s.Inv) : (s.sendOssel c dev first n es).Inv :=
  .foldl (fun _ _ h' => .inject h') h

theorem State.Inv.tellAll {c st data} (h : s.Inv) : (s.tellAll c st data).Inv := .foldl (fun _ _ h' => .inject h') h

theorem State.Inv.endColl {hd c st} (h : s.Inv) : (s.endColl hd c st).Inv := .endLong (.endCommand h)

theorem State.Inv.mismatch {hd c} (h : s.Inv) : (s.mismatch hd c).Inv := .late (.endColl h)

theorem State.Inv.cancelColl {hd c} (h : s.Inv) : (s.cancelColl hd c).Inv := .endColl (.tellAll h)

theorem State.Inv.reduceShard {c r first n es} {t : State} (h : s.Inv)
    (e : s.reduceShard c r first n = some (.ok (es, t))) : t.Inv := by
  unfold State.reduceShard at e
  split at e
  · cases e
  · dsimp only at e
    split at e
    · cases e
    · cases e
      exact h

theorem State.Inv.writeDst {c first es} (h : s.Inv) : (s.writeDst c first es).Inv := by
  unfold State.writeDst
  dsimp only
  split
  · exact .ioWrite h
  · exact .ioWrite h

theorem State.Inv.updDraws {n} (h : s.Inv) : (s.updDraws n).2.Inv := h

theorem State.Inv.stepTensor {c idx gs} (h : s.Inv) : (s.stepTensor c idx gs).Inv := by
  unfold State.stepTensor
  extract_lets e b
  refine .ite (.bump h) ?_
  split
  · exact .late h
  · extract_lets
    split
    exact .bump (.ioWrite (.snd ‹_› (by
      split
      · exact .updDraws h
      · exact h)))

theorem State.Inv.stepTensors {hd r ts} (h : s.Inv) : (stepTensors hd r ts s).Inv := by
  induction ts generalizing s with
  | nil =>
    unfold Machine.stepTensors
    split
    · exact .endColl h
    · exact h
  | cons x ts ih =>
    unfold Machine.stepTensors
    split
    · exact h
    · split
      · exact h
      · exact .late h
      · exact ih (.of_mem (.stepTensor (.reduceShard h ‹_›)) rfl)

theorem State.Inv.sendMine {c} (h : s.Inv) : (s.sendMine c).Inv := by
  unfold State.sendMine
  refine .ite ?_ ?_
  · dsimp only
    split
    · exact .late h
    · exact .foldl (fun _ _ h' => .ite (.sendOssel h') (.sendPart h')) h
  · dsimp only
    split
    · exact .late h
    · exact .foldl (fun _ _ h' => .sendPart h') h

theorem State.Inv.moveColl {hd c} (h : s.Inv) : (s.moveColl hd c).Inv := by
  unfold State.moveColl
  extract_lets r w fail finish gather
  split
  have hfinish {u : State} (hu : u.Inv) : (finish u).Inv := by
    unfold finish
    split
    · exact .endColl hu
    · exact hu
  have hgather {u : State} {c own key off} (hu : u.Inv) : (gather u c own key off).Inv := by
    unfold gather
    split
    · exact hu
    · exact hfinish (.writeDst hu)
  clear_value finish gather
  refine .ite (.stepTensors h) (.ite ?_ (.ite ?_ (.ite ?_ (.ite ?_ ?_))))
  · split
    · exact h
    · exact .late h
    · exact hfinish (.writeDst (.reduceShard h ‹_›))
  · split
    · exact hgather h
    · split
      · exact h
      · exact .late h
      · rename_i es u hes
        have hu : u.Inv := .reduceShard h hes
        exact hgather (.foldl (fun _ _ h' => .sendPart h') (State.Inv.of_mem hu rfl))
  · split
    · exact .late h
    · exact hgather h
  · split
    · exact .late h
    · exact hfinish (.writeDst h)
  · split
    · exact h
    · exact hfinish (.writeDst h)

theorem State.Inv.advanceColl {hd} (h : s.Inv) : (s.advanceColl hd).Inv := by
  unfold State.advanceColl
  split
  · exact h
  · refine .ite h (.ite (.moveColl h) (.ite h (.ite (.mismatch h) ?_)))
    dsimp only
    split
    · exact .moveColl (.sendMine h)
    · exact .sendMine h

theorem State.Inv.control {p} (h : s.Inv) : (s.control p).Inv := by
  unfold State.control
  split
  · exact h
  · exact .ite (.mismatch h) (.advanceColl h)

theorem Kept.execCollCtl {link p} (h : s.Inv) : Kept (execCollCtl link p s) :=
  .onPacket h (fun _ h' => .settle (.control h'))

theorem State.Inv.collPart {p} (h : s.Inv) : (s.collPart p).Inv := by
  unfold State.collPart
  split
  · exact h
  · exact .advanceColl h

theorem Kept.execColl {link p} (h : s.Inv) : Kept (execColl link p s) :=
  .onPacket h (fun _ h' => .settle (.collPart h'))

theorem State.Inv.chunkTimeout {hd c} (h : s.Inv) : (s.chunkTimeout hd c).Inv := .ite (.endColl h) h

theorem Kept.execCollectiveChunkTimeout {handle} (h : s.Inv) : Kept (execCollectiveChunkTimeout handle s) := by
  unfold Machine.execCollectiveChunkTimeout
  split
  · exact .next (.settle (.chunkTimeout h))
  · exact .fault

theorem State.Inv.acceptColl {c} (h : s.Inv) : (s.acceptColl c).Inv := by
  unfold State.acceptColl
  split
  · exact h
  · extract_lets s1 s2 s3 mine early s4
    have h3 : s3.Inv := .tellAll (.resultWord (s := s1) h)
    clear_value s3
    exact .advanceColl (.foldl (fun _ _ h' => .control h') (show s4.Inv from h3))

theorem State.Inv.collective {d cmd} (h : s.Inv) : (s.collective d cmd).Inv := by
  unfold State.collective
  dsimp only
  split
  · exact .refuseCmd h
  · refine .ite (.acceptColl h) ?_
    split
    · exact .late h
    · exact .refuseCmd (.tellAll h)
    · exact .acceptColl h

theorem Kept.execCollective {ctx} (h : s.Inv) : Kept (execCollective ctx s) :=
  .onCommand h (fun _ _ _ h' => .collective h')

/-! ### Long operations -/

theorem State.Inv.longSuspend {r} (h : s.Inv) : (s.longSuspend r).Inv :=
  .ite (.refuse h) (.ite (.refuse h) (.done (.setLongop h)))

theorem State.Inv.longResume {r} (h : s.Inv) : (s.longResume r).Inv :=
  .ite (.refuse h) (.ite (.refuse h) (.settle (.pumpBists (.advanceColl (.done (.setLongop h))))))

theorem State.Inv.cancelTake {r} (h : s.Inv) : (s.cancelTake r).Inv := by
  unfold State.cancelTake
  split
  · exact .refuse h
  · exact .ite (.done (.endTake h)) (.refuse h)

theorem State.Inv.longCancel {r} (h : s.Inv) : (s.longCancel r).Inv :=
  .ite (.cancelTake h) (.ite (.done (.setLongop h)) (.refuse h))

theorem Kept.onLongop {action r} {f : State → State} (h : s.Inv) (hf : (f s).Inv) : Kept (onLongop action r s f) :=
  .manage h (.ite hf (.refuse h))

theorem Kept.execLongopSuspend {r} (h : s.Inv) : Kept (execLongopSuspend r s) := .onLongop h (.longSuspend h)

theorem Kept.execLongopResume {r} (h : s.Inv) : Kept (execLongopResume r s) := .onLongop h (.longResume h)

theorem Kept.execLongopCancel {r} (h : s.Inv) : Kept (execLongopCancel r s) := .onLongop h (.longCancel h)

theorem State.Inv.finishLong {hd defects} (h : s.Inv) : (s.finishLong hd defects).Inv := by
  unfold State.finishLong
  split
  · exact .endLoad h
  · exact .endMigrate h
  · exact h
  · exact .endScrub h
  · exact .endBist h
  · exact .endStage h

theorem State.Inv.suspendLong {hd} (h : s.Inv) : (s.suspendLong hd).Inv := by
  unfold State.suspendLong
  dsimp only
  split
  · exact .ite h (.postLong (.setLongop (.keyScrub h)))
  · exact .postLong (.setLongop h)

theorem State.Inv.cancelLong {hd} (h : s.Inv) : (s.cancelLong hd).Inv := by
  unfold State.cancelLong
  split
  · exact .dropLoad h
  · split
    · exact .cancelColl h
    · exact .endLong h
  · exact .cancelScrub h
  · exact .endLong h
  · exact .pumpBists (.endLong h)
  · exact .endLong h

theorem State.Inv.stopLong {hd defects} (h : s.Inv) : (s.stopLong hd defects).Inv := by
  unfold State.stopLong
  split
  · exact .finishLong h
  · exact .suspendLong h
  · exact .cancelLong h
  · exact h
  · exact h

theorem Kept.execLongopStop {handle defects} (h : s.Inv) : Kept (execLongopStop handle defects s) :=
  .ite (.next (.settle (.stopLong h))) .fault

theorem State.Inv.unmapAll {c} (h : s.Inv) : (s.unmapAll c).Inv :=
  .of_mem (.foldl (fun _ _ h' => .ite (.send h') h') (.foldl (fun _ _ h' => .dropPage h') (.foldl
    (fun _ _ h' => .dropPage h') h))) rfl

theorem State.Inv.cancelOwned {c} (h : s.Inv) : (s.cancelOwned c).Inv :=
  .foldl (fun _ _ h' => .ite (.cancelLong h') h') h

theorem State.Inv.endJobs {c} (h : s.Inv) : (s.endJobs c).Inv := .foldl (fun _ _ h' => .ite (.endJob h') h') h

theorem State.Inv.dropOwned {c} (h : s.Inv) : (s.dropOwned c).Inv := h

theorem State.Inv.freeContext {c} (h : s.Inv) : (s.freeContext c).Inv :=
  .setFld (.bump (.setCtx (.dropOwned (.unmapAll (.endJobs (.cancelOwned h))))))

theorem State.Inv.teardownEnd {c} (h : s.Inv) : (s.teardownEnd c).Inv := .ite (.settle (.freeContext h)) h

theorem Kept.execTeardownComplete {ctx} (h : s.Inv) : Kept (execTeardownComplete ctx s) :=
  .ite .fault (.next (.teardownEnd h))

/-! ### The audit -/

theorem State.Inv.loadAudit {r refused} (h : s.Inv) : (s.loadAudit r refused).Inv := h

theorem State.Inv.startAudit (h : s.Inv) : s.startAudit.Inv := by
  unfold State.startAudit
  dsimp only
  split
  · exact .loadAudit h
  · exact .ite (.loadAudit h) h

theorem State.Inv.writeAudit {v} (h : s.Inv) : (s.writeAudit v).Inv :=
  .ite (.startAudit (.plainWrite h)) (.plainWrite h)

theorem Kept.onAudit {walk path v} (h : s.Inv) : Kept (onAudit walk path v s) :=
  .ite (.regWriteBy h (.writeAudit h)) .fault

theorem Kept.execAuditSnap {path v} (h : s.Inv) : Kept (execAuditSnap path v s) := .onAudit h

theorem Kept.execAuditWalk {path v} (h : s.Inv) : Kept (execAuditWalk path v s) := .onAudit h

theorem State.Inv.auditDone (h : s.Inv) : s.auditDone.Inv := by
  unfold State.auditDone
  split
  · exact .loadAudit h
  · exact h

theorem Kept.execAuditDone (h : s.Inv) : Kept (execAuditDone s) := .next (.auditDone h)

/-! ### The start -/

theorem State.Inv.writeLedger {f} (h : s.Inv) : (s.writeLedger f).Inv := h

theorem State.Inv.setBootStep {k} (h : s.Inv) : (s.setBootStep k).Inv := .setFld h

theorem State.Inv.setLimit (h : s.Inv) : s.setLimit.Inv := .setReg h

theorem State.Inv.setAlert (h : s.Inv) : s.setAlert.Inv := h

/-- A run ends with all memory lost, whatever the state was. -/
theorem State.Inv.endRun : s.endRun.Inv := by
  unfold State.endRun
  extract_lets l flash t t'
  have h : t.Inv := rfl
  have h' : t'.Inv := by
    unfold t'
    split
    · exact .setFld h
    · exact h
  exact .setAlert (.setLimit h')

theorem State.Inv.restart : s.restart.Inv := .endRun

theorem State.Inv.noteStep {k res st ms} (h : s.Inv) : (s.noteStep k res st ms).Inv := .ite h h

theorem State.Inv.stepEvent {k unit st} (h : s.Inv) : (s.stepEvent k unit st).Inv := .rasErrorAs h

theorem State.Inv.markStep {k units} (h : s.Inv) : (s.markStep k units).Inv := by
  unfold State.markStep
  extract_lets ledger s1
  have h1 : s1.Inv := .ite h h
  clear_value s1
  exact .ite h1 h1

theorem State.Inv.openRecord {fresh} (h : s.Inv) : (s.openRecord fresh).Inv := .setAlert (.setFld (.writeLedger h))

theorem State.Inv.startKind {k golden} (h : s.Inv) : (s.startKind k golden).Inv := by
  unfold State.startKind
  dsimp only
  split
  · exact .foldl (fun _ _ h' => .signatureFail h') h
  · exact .setFld (.of_mem (.foldl (fun _ _ h' => .signatureFail h') h) rfl)

theorem State.Inv.checkCombo (h : s.Inv) : s.checkCombo.Inv := .ite h (.ite (.setFld h) (.wideEvent (.setFld h)))

theorem State.Inv.useTokens (h : s.Inv) : s.useTokens.Inv := h

theorem State.Inv.startImages {k} (h : s.Inv) : (s.startImages k).Inv :=
  .ite (.useTokens (.checkCombo (.foldl (fun _ _ h' => .startKind h') h))) (.foldl (fun _ _ h' => .startKind h') h)

theorem State.Inv.applyRetired (h : s.Inv) : s.applyRetired.Inv := .setFld (.foldl (fun _ _ h' => .setPcState h') h)

theorem State.Inv.findPc {pc} (h : s.Inv) : (s.findPc pc).Inv := .ite (.retirePc h) h

theorem State.Inv.trainLanes {lanes} (h : s.Inv) : (s.trainLanes lanes).2.Inv := by
  unfold State.trainLanes
  refine .foldl_snd (fun _ _ h' => ?_) h
  split
  · exact .switchLane h'
  · exact h'

theorem State.Inv.trainHbm {units lanes} (h : s.Inv) : (s.trainHbm units lanes).Inv :=
  .writeLedger (.ite (.foldl (fun _ _ h' => .findPc h') (.trainLanes (.setFld h))) (.trainLanes (.setFld h)))

theorem State.Inv.loadFlash (h : s.Inv) : s.loadFlash.Inv := by
  unfold State.loadFlash
  extract_lets f s1 s2 ps s3 s4 s5 s6 s7 s8
  have h1 : s1.Inv := by
    unfold s1
    split
    · exact .setReg h
    · exact h
  clear_value s1
  have h2 : s2.Inv := .foldl (fun _ _ h' => .setPart h') h1
  have h3 : s3.Inv := .setFld (.setFld h2)
  clear_value s3
  have h4 : s4.Inv := .foldl (fun _ _ h' => .ite (.setFld (.ownGroups h')) h') h3
  clear_value s4
  have h5 : s5.Inv := .foldl (fun _ _ h' => .setReg h') h4
  clear_value s5
  have h6 : s6.Inv := by
    unfold s6
    split
    · exact .setReg h5
    · exact h5
  clear_value s6
  have h7 : s7.Inv := by
    unfold s7
    split
    · exact .setFld h6
    · exact h6
  clear_value s7
  have h8 : s8.Inv := .setLimit h7
  clear_value s8
  exact .of_mem h8 rfl

theorem State.Inv.newKeys (h : s.Inv) : s.newKeys.Inv := .foldl (fun _ _ h' => .ite (.setPart h') h') h

theorem State.Inv.zeroHbm {units} : (s.zeroHbm units).Inv := .foldl (fun _ _ h' => .findPc h') rfl

theorem State.Inv.startChases (h : s.Inv) : s.startChases.Inv :=
  .foldl (fun _ _ h' => .ite h' (.ite (.ownGroups h') (.setPart h'))) (.setFld h)

theorem State.Inv.startLink {units l} (h : s.Inv) : (s.startLink units l).Inv :=
  .ite (.setLinkState h) (.ite (.setLinkState h) (.ite h (.setLinkState (.setFld h))))

theorem State.Inv.startLinks {units} (h : s.Inv) : (s.startLinks units).Inv :=
  .writeLedger (.foldl (fun _ _ h' => .startLink h') h)

theorem State.Inv.startPort {down} (h : s.Inv) : (s.startPort down).Inv := .setFld (.setFld h)

theorem State.Inv.closeRecord {ms} (h : s.Inv) : (s.closeRecord ms).Inv := .setAlert (.setFld (.setFld h))

theorem State.Inv.stepPasses {k units lanes} (h : s.Inv) : (s.stepPasses k units lanes).Inv := by
  unfold State.stepPasses
  split
  · exact h
  · exact .setFld (.setFld h)
  · exact .openRecord h
  · exact .startImages h
  · exact .startImages h
  · exact .startImages h
  · exact .startImages h
  · exact .applyRetired h
  · exact .trainHbm h
  · exact .loadFlash h
  · exact .newKeys h
  · exact .zeroHbm
  · exact .startChases h
  · exact .startLinks h
  · exact .startPort h
  · exact h

theorem State.Inv.stepFails {k st ms units mark} (h : s.Inv) : (s.stepFails k st ms units mark).Inv :=
  .ite (.setAlert h) (.ite (.setBootStep (.writeLedger (.stepEvent (.ite (.markStep (.noteStep (.ite
    (.startLinks h) h))) (.noteStep (.ite (.startLinks h) h)))))) .restart)

theorem State.Inv.runStep {rs} (h : s.Inv) : (s.runStep rs).Inv :=
  .ite (.setBootStep (.noteStep (.freshWord h))) (.ite (.setBootStep (.noteStep (.openRecord (.freshWord h))))
    (.ite (.stepFails (.freshWord h)) (.ite (.stepFails (.foldl (fun _ _ h' => .foldl
    (fun _ _ h'' => .signatureFail h'') h') (.freshWord h))) (.setBootStep (.ite (.closeRecord (.noteStep
    (.stepPasses (.freshWord h)))) (.noteStep (.stepPasses (.freshWord h))))))))

theorem State.Inv.runStart {rs upto fuel} (h : s.Inv) : (runStart rs upto fuel s).Inv := by
  induction fuel generalizing s with
  | zero => exact h
  | succ fuel ih => exact .ite (ih (.runStep h)) h

theorem State.Inv.deviceStart {rs upto} (h : s.Inv) : (s.deviceStart rs upto).Inv :=
  .runStart (.ite (.setBootStep h) h)

theorem Kept.execDeviceStart {steps upto} (h : s.Inv) : Kept (execDeviceStart steps upto s) := .next (.deviceStart h)

theorem State.Inv.stepTimeout {k} (h : s.Inv) : (s.stepTimeout k).Inv := .ite (.runStep (.freshWord h)) h

theorem Kept.execStepTimeout {step} (h : s.Inv) : Kept (execStepTimeout step s) := .next (.stepTimeout h)

theorem State.Inv.writeSkip {v} (h : s.Inv) : (s.writeSkip v).Inv := .writeLedger h

theorem State.Inv.writeAlt {v} (h : s.Inv) : (s.writeAlt v).Inv := .writeLedger h

theorem Kept.execBootSkipWrite {path v} (h : s.Inv) : Kept (execBootSkipWrite path v s) :=
  .regWriteBy h (.writeSkip h)

theorem Kept.execBootAltWrite {path v} (h : s.Inv) : Kept (execBootAltWrite path v s) := .regWriteBy h (.writeAlt h)

theorem State.Inv.clearFails (h : s.Inv) : s.clearFails.Inv := .writeLedger h

theorem Kept.execClearFails {path} (h : s.Inv) : Kept (execClearFails path s) := .regWriteBy h (.clearFails h)

theorem Kept.execRestart {path} (h : s.Inv) : Kept (execRestart path s) := .regWriteBy h .restart

theorem State.Inv.writeLedgerCtl {v} (h : s.Inv) : (s.writeLedgerCtl v).Inv := .ite .restart (.ite (.clearFails h) h)

theorem State.Inv.writeSuspect {k v} (h : s.Inv) : (s.writeSuspect k v).Inv := .writeLedger h

theorem Kept.execSuspectClear {path k v} (h : s.Inv) : Kept (execSuspectClear path k v s) :=
  .ite .fault (.regWriteBy h (.writeSuspect h))

theorem State.Inv.fatal {cause st locKind loc} : (s.fatal cause st locKind loc).Inv := .restart

theorem Kept.execFatalError {cause status locKind loc} : Kept (execFatalError cause status locKind loc s) :=
  .ite (.next .fatal) .fault

theorem State.Inv.ledgerRead {r} (h : s.Inv) : (s.ledgerRead r).Inv := .send h

theorem Kept.execLedgerRead {r} (h : s.Inv) : Kept (execLedgerRead r s) := .manage h (.ledgerRead h)

/-! ### Power and temperature -/

theorem State.Inv.setVin {cv} (h : s.Inv) : (s.setVin cv).Inv := .setFld h

theorem State.Inv.sagResponse (h : s.Inv) : s.sagResponse.Inv := .setLimit (.wideEvent (.raiseFlag h))

theorem State.Inv.inputSag {cv} (h : s.Inv) : (s.inputSag cv).Inv := .ite (.sagResponse h) (.setVin h)

theorem State.Inv.surge {cv} (h : s.Inv) : (s.surge cv).Inv := .ite (.sagResponse h) (.setVin h)

theorem State.Inv.overvolt {cv} (h : s.Inv) : (s.overvolt cv).Inv := .ite (.raiseFlag (.setVin h)) (.setVin h)

theorem State.Inv.currentClamp (h : s.Inv) : s.currentClamp.Inv := .sagResponse h

theorem State.Inv.sagRelease {cv} (h : s.Inv) : (s.sagRelease cv).Inv := .ite (.setLimit h) (.setVin h)

theorem State.Inv.shedRecord {st} : (s.shedRecord st).Inv := .endRun

theorem State.Inv.dropout (h : s.Inv) : s.dropout.Inv := by
  unfold State.dropout
  extract_lets s1
  have h1 : s1.Inv := .shedRecord
  clear_value s1
  exact .ite h1 h

theorem State.Inv.inputRestore {cv} (h : s.Inv) : (s.inputRestore cv).Inv := .ite (.setVin .restart) (.setVin h)

theorem State.Inv.bulkUnder : s.bulkUnder.Inv := .endRun

theorem Kept.execInputSag {centivolts} (h : s.Inv) : Kept (execInputSag centivolts s) := .next (.inputSag h)

theorem Kept.execSurge {centivolts} (h : s.Inv) : Kept (execSurge centivolts s) := .next (.surge h)

theorem Kept.execOvervolt {centivolts} (h : s.Inv) : Kept (execOvervolt centivolts s) := .next (.overvolt h)

theorem Kept.execCurrentClamp (h : s.Inv) : Kept (execCurrentClamp s) := .next (.currentClamp h)

theorem Kept.execSagRelease {centivolts} (h : s.Inv) : Kept (execSagRelease centivolts s) := .next (.sagRelease h)

theorem Kept.execDropout (h : s.Inv) : Kept (execDropout s) := .next (.dropout h)

theorem Kept.execInputRestore {centivolts} (h : s.Inv) : Kept (execInputRestore centivolts s) :=
  .next (.inputRestore h)

theorem Kept.execBulkUndervoltage : Kept (execBulkUndervoltage s) := .next .bulkUnder

theorem State.Inv.throttleOn (h : s.Inv) : s.throttleOn.Inv := .setLimit h

theorem State.Inv.throttleOff (h : s.Inv) : s.throttleOff.Inv := h

theorem State.Inv.throttleRelease (h : s.Inv) : s.throttleRelease.Inv := .ite h (.setLimit h)

theorem Kept.execThrottleInAssert (h : s.Inv) : Kept (execThrottleInAssert s) := .next (.throttleOn h)

theorem Kept.execThrottleInDeassert (h : s.Inv) : Kept (execThrottleInDeassert s) := .next (.throttleOff h)

theorem Kept.execThrottleRelease (h : s.Inv) : Kept (execThrottleRelease s) := .next (.throttleRelease h)

theorem State.Inv.writeCap {v} (h : s.Inv) : (s.writeCap v).Inv :=
  .ite (.setLimit (.of_mem (.plainWrite h) rfl)) (.raiseFlag h)

theorem Kept.execPwrCapWrite {path v} (h : s.Inv) : Kept (execPwrCapWrite path v s) := .regWriteBy h (.writeCap h)

theorem State.Inv.setTemp {ts held i} (h : s.Inv) : (s.setTemp ts held i).Inv := .setFld (.setFld (.setFld h))

theorem State.Inv.enterStep {k cur next ts} (h : s.Inv) : (s.enterStep k cur next ts).Inv :=
  .ite h (.wideEvent (.raiseFlag h))

theorem State.Inv.thermalSample {ts held} (h : s.Inv) : (s.thermalSample ts held).Inv := by
  unfold State.thermalSample
  extract_lets p step s1 s2 s3 s4 s5 s6 s7
  have h5 : s5.Inv := .enterStep (.enterStep (.enterStep (.enterStep (.foldl (fun _ _ h' => .setTemp h') h))))
  clear_value s5
  have h7 : s7.Inv := .shedRecord
  clear_value s7
  exact .ite (.setAlert (State.Inv.setLimit (s := { s7 with power := _ }) h7)) (.setAlert (State.Inv.setLimit
    (s := s6) h5))

theorem Kept.execThermalSample {temps held10ms} (h : s.Inv) : Kept (execThermalSample temps held10ms s) :=
  .next (.thermalSample h)

theorem State.Inv.resetAssert : s.resetAssert.Inv := .endRun

theorem State.Inv.resetRelease {rs upto} (h : s.Inv) : (s.resetRelease rs upto).Inv :=
  .ite h (.ite (.setAlert h) (.runStart (.setBootStep (.setAlert h))))

theorem Kept.execResetNAssert : Kept (execResetNAssert s) := .next .resetAssert

theorem Kept.execResetNDeassert {steps upto} (h : s.Inv) : Kept (execResetNDeassert steps upto s) :=
  .next (.resetRelease h)

theorem State.Inv.i3cRead (h : s.Inv) : s.i3cRead.Inv := by
  unfold State.i3cRead
  refine .ite h (.ite (.emit (.accessError h)) ?_)
  split
  · exact .ite (.emit (.readAt h)) (.emit h)
  · exact .emit h

theorem State.Inv.i3cWrite {a v} (h : s.Inv) : (s.i3cWrite a v).Inv := by
  unfold State.i3cWrite
  refine .ite (.accessError h) ?_
  split
  · exact .ite h (.ite (.writeLedgerCtl h) (.writeCap h))
  · exact h

theorem State.Inv.i3cTransfer {bs} (h : s.Inv) : (s.i3cTransfer bs).Inv := .ite h (.ite (.ite (.i3cWrite h) h) h)

theorem Kept.execI3cPointerWrite {bytes} (h : s.Inv) : Kept (execI3cPointerWrite bytes s) := .next (.i3cTransfer h)

theorem Kept.execI3cRegisterWrite {bytes} (h : s.Inv) : Kept (execI3cRegisterWrite bytes s) := .next (.i3cTransfer h)

theorem Kept.execI3cRead (h : s.Inv) : Kept (execI3cRead s) := .next (.i3cRead h)

theorem State.Inv.i3cDynamic {a} (h : s.Inv) : (s.i3cDynamic a).Inv := .ite h h

theorem Kept.execI3cDynamicAddress {addr} (h : s.Inv) : Kept (execI3cDynamicAddress addr s) := .next (.i3cDynamic h)

theorem Kept.execJtagInstruction {ir} (h : s.Inv) : Kept (execJtagInstruction ir s) := .next h

theorem Kept.execJtagTrst (h : s.Inv) : Kept (execJtagTrst s) := .next h

/-! ### Register requests -/

theorem State.Inv.writeLoop {b o bit v start} (h : s.Inv) (hr : ∀ t, start = .ok t → t.Inv) :
    (s.writeLoop b o bit v start).Inv := by
  unfold State.writeLoop
  refine .ite ?_ (.plainWrite h)
  split
  · exact hr _ rfl
  · exact .plainWrite h

theorem State.Inv.writeDeviceId {v} (h : s.Inv) : (s.writeDeviceId v).Inv := .ite (.unsetId h) (.setId h)

theorem State.Inv.writePortCfg {v} (h : s.Inv) : (s.writePortCfg v).Inv :=
  .of_mem (.ite (.setFld (.plainWrite h)) (.plainWrite h)) rfl

theorem State.Inv.writeBoot {o v} (h : s.Inv) : (s.writeBoot o v).Inv :=
  .ite (.writeSkip h) (.ite (.writeAlt h) (.ite (.writeLedgerCtl h) (.ite (.writeSuspect h) h)))

theorem State.Inv.writeHbm {o v} (h : s.Inv) : (s.writeHbm o v).Inv :=
  .ite (.writeLoop h (fun _ e => .startHbmLoop h e)) (.ite (.writeHbmReg h) (.plainWrite h))

theorem State.Inv.writeQuoin {o v} (h : s.Inv) : (s.writeQuoin o v).Inv :=
  .ite (.writeTopo h) (.ite (.writeQuoinCfg h) (.ite (.writeUpdSeed h) (.ite (.writeLoop h
    (fun _ e => .startQuoinLoop h e)) (.ite (.writeLinkCfg h) (.plainWrite h)))))

theorem State.Inv.writeAt {b i o v} (h : s.Inv) : (s.writeAt b i o v).Inv := by
  unfold State.writeAt
  refine .ite h ?_
  split
  · exact .ite (.writeDeviceId h) (.plainWrite h)
  · exact .writeBoot h
  · exact .writeHbm h
  · exact .writeQuoin h
  · exact .ite (.writePortCfg h) (.ite (.writeLoop h (fun _ e => .startEthLoop h e)) (.plainWrite h))
  · exact .ite (.writeCcCfg h) (.plainWrite h)
  · exact .ite (.writeAudit h) (.plainWrite h)
  · exact .ite (.writeCap h) (.plainWrite h)
  · exact .ite (.placeCfg h) (.plainWrite h)
  · exact .plainWrite h

theorem State.Inv.regWrite {path a v} (h : s.Inv) : (s.regWrite path a v).Inv := by
  unfold State.regWrite
  refine .ite (.accessError h) ?_
  split
  · exact .ite (.writeAt h) h
  · exact .ite h (.accessError h)

theorem Kept.execRegisterWrite {path addr v} (h : s.Inv) : Kept (execRegisterWrite path addr v s) :=
  .next (.regWrite h)

theorem State.Inv.regRead {a} (h : s.Inv) : (s.regRead a).2.Inv := by
  unfold State.regRead
  split
  · exact .readAt h
  · exact .accessError h

theorem State.Inv.countInRc {b i o k} (h : s.Inv) : (s.countInRc b i o k).Inv := by
  unfold State.countInRc
  dsimp only
  split
  · exact .setFld h
  · exact h

theorem State.Inv.readClear {path a event} (h : s.Inv) : (s.readClear path a event).Inv := by
  unfold State.readClear
  split
  · refine .ite (.emit h) ?_
    split
    · refine .emit ?_
      split
      · exact .countInRc (.snd ‹_› (.readAt h))
      · exact .snd ‹_› (.readAt h)
  · exact .emit (.ite h (.accessError h))

theorem Kept.execReadClear {path addr event} (h : s.Inv) : Kept (execReadClear path addr event s) :=
  .next (.readClear h)

theorem State.Inv.notPerformed {write a} (h : s.Inv) : (s.notPerformed write a).Inv :=
  .ite (.accessError h) (.emit (.accessError h))

theorem Kept.execControlAccessMisaligned {write addr size} (h : s.Inv) :
    Kept (execControlAccessMisaligned write addr size s) :=
  .ite .fault (.next (.notPerformed h))

theorem Kept.execUnmappedAccess {write addr} (h : s.Inv) : Kept (execUnmappedAccess write addr s) :=
  .ite .fault (.next (.notPerformed h))

theorem State.Inv.readPairs {l} (h : s.Inv) : (readPairs l s).2.Inv := by
  induction l generalizing s with
  | nil => exact h
  | cons x l ih => exact ih (.readAt h)

theorem State.Inv.telemetry {r} (h : s.Inv) : (s.telemetry r).Inv := by
  unfold State.telemetry
  split
  exact .reply (.snd ‹_› (.readPairs h))

theorem Kept.execTelemetry {r} (h : s.Inv) : Kept (execTelemetry r s) := .manage h (.telemetry h)

theorem State.Inv.readItems {l} (h : s.Inv) : (readItems l s).2.2.Inv := by
  induction l generalizing s with
  | nil => exact h
  | cons x l ih =>
    unfold Machine.readItems
    dsimp only
    split
    · exact .accessError h
    · split
      · exact h
      · exact ih (.regRead h)

theorem State.Inv.regReadOp {r} (h : s.Inv) : (s.regReadOp r).Inv :=
  .ite (.refuse h) (.ite (.reply (.readItems h)) (.refuse (.readItems h)))

theorem Kept.execRegRead {r} (h : s.Inv) : Kept (execRegRead r s) := .manage h (.regReadOp h)

theorem State.Inv.writeItems {r l} (h : s.Inv) : (writeItems r l s).Inv := by
  induction l generalizing s with
  | nil => exact .done h
  | cons x l ih =>
    unfold Machine.writeItems
    exact .ite (.refuse (.accessError h)) (.ite (.refuse h) (.ite (.regWrite (.answerNow h)) (ih (.regWrite h))))

theorem State.Inv.regWriteOp {r} (h : s.Inv) : (s.regWriteOp r).Inv := by
  unfold State.regWriteOp
  split
  · exact .refuse h
  · exact .ite (.refuse h) (.ite (.refuse h) (.writeItems h))

theorem Kept.execRegWrite {r} (h : s.Inv) : Kept (execRegWrite r s) := .manage h (.regWriteOp h)

/-! ### Messages delivered -/

/-- The same of the outcome that a message's operation code selects. -/
def KeptIn (o : Option (Host.Outcome State Fault Refusal)) : Prop :=
  ∀ a, o = some a → Kept a

theorem KeptIn.none : KeptIn none := by
  rintro _ ⟨⟩

theorem KeptIn.some {a} (h : Kept a) : KeptIn (some a) := by
  rintro _ ⟨⟩
  exact h

theorem KeptIn.ite {c : Prop} [Decidable c] {a b} (ha : KeptIn a) (hb : KeptIn b) : KeptIn (if c then a else b) := by
  split
  · exact ha
  · exact hb

theorem KeptIn.manageOp {op r body} (h : s.Inv) : KeptIn (manageOp op r body s) := by
  unfold Machine.manageOp
  dsimp only
  split
  · exact .some (.execDeviceIdSet h)
  · exact .some (.execPartitionReset h)
  · exact .some (.execTicketIssue h)
  · exact .some (.execTicketRevoke h)
  · exact .some (.execColophon h)
  · exact .some (.execFwStage h)
  · exact .some (.execFwActivate h)
  · exact .some (.execScrub h)
  · exact .some (.execBist h)
  · exact .some (.ite (.execQuoinLoopbackStart h) (.ite (.execHbmLoopbackStart h) (.execEthLoopbackStart h)))
  · exact .some (.execTelemetry h)
  · exact .some (.execRegRead h)
  · exact .some (.execRegWrite h)
  · exact .some (.execLedgerRead h)
  · exact .some (.execNetConfig h)
  · exact .some (.execLinkRetrain h)
  · exact .some (.execContextCreate h)
  · exact .some (.execContextDestroy h)
  · exact .some (.execFormeInstall h)
  · exact .some (.execFormeRelease h)
  · exact .some (.execMap h)
  · exact .some (.execUnmap h)
  · exact .some (.execProtect h)
  · exact .some (.execQueueCreate h)
  · exact .some (.execQueueDestroy h)
  · exact .some (.execQueueBind h)
  · exact .some (.execBufRegister h)
  · exact .some (.execBufUnregister h)
  · exact .some (.execHostwinMap h)
  · exact .some (.execModelLoad h)
  · exact .some (.execModelUnload h)
  · exact .ite (.some (.execStreamJobCreate h)) (.ite (.some (.execStreamJobEnd h)) .none)
  · exact .some (.execTableset h)
  · exact .ite (.some (.execRuntimeSwapOut h)) (.ite (.some (.execRuntimeSwapIn h))
      (.ite (.some (.execAutoswapDisable h)) (.ite (.some (.execAutoswapEnable h)) (.ite (.some
        (.execRuntimeReset h)) (.ite (.some (.execRuntimeLoad h)) .none)))))
  · exact .ite (.some (.execLongopSuspend h)) (.ite (.some (.execLongopResume h))
      (.ite (.some (.execLongopCancel h)) .none))
  · exact .some (.execEcho h)
  · exact .some (.execClose h)
  · exact .ite (.some (.execPlaceRegister h)) (.ite (.some (.execPlaceEnd h)) (.ite (.some (.execPlacePin h)) .none))
  · exact .some (.execMigrate h)
  · exact .none

theorem State.Inv.manageMsg {n m} (h : s.Inv) : (s.manageMsg n m).Inv := by
  unfold State.manageMsg
  refine .ite (.refuse h) ?_
  split
  · exact .refuse h
  · split
    · exact KeptIn.manageOp h _ ‹_› _ rfl
    · exact h
    · exact .refuse h

theorem State.Inv.submitMsg {n m} (h : s.Inv) : (s.submitMsg n m).Inv := .submit h

theorem State.Inv.readMsg {n m} (h : s.Inv) : (s.readMsg n m).Inv :=
  .ite (.readResp h) (.ite (.readBuf h) (.ite (.readMem h) (.ite (.releaseBuf h) (.readResp h))))

theorem State.Inv.writeMsg {n m} (h : s.Inv) : (s.writeMsg n m).Inv :=
  .ite (.ite (.writeAckIn h) h) (.ite (.writeMem h) (.send h))

theorem State.Inv.pullMsg {n m} (h : s.Inv) : (s.pullMsg n m).Inv := .ite (.pullRespIn h) h

theorem State.Inv.confRefuse {n cls m} (h : s.Inv) : (s.confRefuse n cls m).Inv := by
  unfold State.confRefuse
  dsimp only
  split
  · exact .foldl (fun _ _ h' => .refuseDesc h') h
  · exact .readResp h
  · exact .ite h (.send h)
  · exact .refuse h
  · exact h

theorem State.Inv.plainMsg {n cls m} (h : s.Inv) : (s.plainMsg n cls m).Inv := by
  unfold State.plainMsg
  split
  · exact .submitMsg h
  · exact .readMsg h
  · exact .writeMsg h
  · exact .pullMsg h
  · exact .manageMsg h
  · exact h

theorem State.Inv.message {n cls isSealed m} (h : s.Inv) : (s.message n cls isSealed m).Inv := by
  unfold State.message
  refine .ite ?_ (.ite (.confRefuse h) (.plainMsg h))
  split
  · exact .plainMsg (.setSession h)
  · exact h

theorem State.Inv.deliver {n fuel} (h : s.Inv) : (s.deliver n fuel).Inv := by
  induction fuel generalizing s with
  | zero => exact h
  | succ fuel ih =>
    unfold State.deliver
    dsimp only
    split
    · exact .ite (.ite (ih (.message (.setSession h))) (.message (.setSession h))) h
    · exact h

theorem State.Inv.authFail {n} (h : s.Inv) : (s.authFail n).Inv :=
  .ite (.endSession (.setSession (.bump h))) (.setSession (.bump h))

theorem State.Inv.ackDue {n} (h : s.Inv) : (s.ackDue n).Inv := .ite (.sendAck h) h

theorem State.Inv.takeSegment {g} (h : s.Inv) : (s.takeSegment g).Inv :=
  .ite (.ackDue (.setSession (.takePayload h))) (.ite (.ackDue (.setSession (.bump (.takePayload h)))) (.ackDue
    (.deliver (.setSession (.takePayload h)))))

theorem State.Inv.segmentReceive {g authGood} (h : s.Inv) : (s.segmentReceive g authGood).Inv :=
  .ite (.otherDrop h) (.ite (.authFail h) (.takeSegment h))

theorem Kept.execSegmentReceive {g authGood} (h : s.Inv) : Kept (execSegmentReceive g authGood s) :=
  .ite .fault (.next (.segmentReceive h))

/-! ### Dispatch -/

theorem Kept.exec (i : Instr) (h : s.Inv) : Kept (exec i s) := by
  cases i
  case scalarNop | alu | addi | andi | ori | xori | slli | srli | srai | slti | lis | lb | lh | lw | ld | lbu | lhu |
      lwu | sb | sh | sw | sd | ldc | stc | cmp | plog | pget | pset | fadd | fsub | fmul | fdiv | fsqrt | fmin |
      fmax | fcmp | fcvt | bnz | bz | jal | jalr | rdcsr | wrcsr | tset | tget | tmNop | copy | dload | dstore |
      prefetch | fill | slugPack | slugUnpack | plNop | wload | mm | drain | tzero | tfree | tload |
      elementWiseArithmetic | transcendental | conversion | comparison | reduction | scan | segmentedScan |
      permutationGather | ctNop | br | brx | call | dbnz | fence | cbarinit | cbar | wcinit | wcfa | fbar | rsignal |
      rwait | popen | pcommit | preject | endTake | kernOpen | kernAppend | kernAttend | kernFork | kernTruncate |
      kernRelease | galleyCreate | galleyStick | galleyFork | galleyReset | galleyLoad | galleyStore |
      galleySwapOut | galleySwapIn | galleyRelease | galleyQuery =>
    exact .issue h
  case registerWrite => exact .execRegisterWrite h
  case controlAccessMisaligned => exact .execControlAccessMisaligned h
  case unmappedAccess => exact .execUnmappedAccess h
  case readClear => exact .execReadClear h
  case formeInstall => exact .execFormeInstall h
  case formeRelease => exact .execFormeRelease h
  case imposerSplit => exact .execImposerSplit h
  case subtakeComplete => exact .execSubtakeComplete h
  case fencePublish => exact .execFencePublish h
  case deviceIdSet => exact .execDeviceIdSet h
  case mgmtUnset => exact .execMgmtUnset h
  case map => exact .execMap h
  case unmap => exact .execUnmap h
  case protect => exact .execProtect h
  case unmapComplete => exact .execUnmapComplete h
  case asyncFault => exact .execAsyncFault h
  case partitionReset => exact .execPartitionReset h
  case tmEngineStart => exact .execTmEngineStart h
  case platenStart => exact .execPlatenStart h
  case rollerStart => exact .execRollerStart h
  case operationComplete => exact .execOperationComplete h
  case proofCommitEngine => exact .execProofCommitEngine h
  case proofRejectEngine => exact .execProofRejectEngine h
  case kernExecute => exact .execKernExecute h
  case attendExecute => exact .execAttendExecute h
  case galleyExecute => exact .execGalleyExecute h
  case stickExecute => exact .execStickExecute h
  case swapOutEnd => exact .execSwapOutEnd h
  case swapInEnd => exact .execSwapInEnd h
  case runtimeSwapOut => exact .execRuntimeSwapOut h
  case runtimeSwapIn => exact .execRuntimeSwapIn h
  case autoswapDisable => exact .execAutoswapDisable h
  case autoswapEnable => exact .execAutoswapEnable h
  case runtimeReset => exact .execRuntimeReset h
  case runtimeLoad => exact .execRuntimeLoad h
  case poisonRepair => exact .execPoisonRepair h
  case placementEpoch => exact .execPlacementEpoch h
  case pageMoveComplete => exact .execPageMoveComplete h
  case placeRegister => exact .execPlaceRegister h
  case placeEnd => exact .execPlaceEnd h
  case placePin => exact .execPlacePin h
  case migrate => exact .execMigrate h
  case streamJobCreate => exact .execStreamJobCreate h
  case streamJobEnd => exact .execStreamJobEnd h
  case modelLoad => exact .execModelLoad h
  case modelUnload => exact .execModelUnload h
  case tableset => exact .execTableset h
  case memoryAtomic => exact .execMemoryAtomic h
  case regulatorAdmit => exact .execRegulatorAdmit h
  case hbmPatrol => exact .execHbmPatrol h
  case hbmRetrainWindow => exact .execHbmRetrainWindow h
  case hbmRegWrite => exact .execHbmRegWrite h
  case hbmLoopbackStart => exact .execHbmLoopbackStart h
  case hbmLoopbackEnd => exact .execHbmLoopbackEnd h
  case contextCreate => exact .execContextCreate h
  case contextDestroy => exact .execContextDestroy h
  case teardownComplete => exact .execTeardownComplete h
  case preemptSave => exact .execPreemptSave h
  case pressDispatch => exact .execPressDispatch h
  case longopSuspend => exact .execLongopSuspend h
  case longopResume => exact .execLongopResume h
  case longopCancel => exact .execLongopCancel h
  case longopStop => exact .execLongopStop h
  case portLinkChange => exact .execPortLinkChange h
  case portFallback => exact .execPortFallback h
  case neighborRequest => exact .execNeighborRequest h
  case packetDiscard => exact .execPacketDiscard h
  case ack => exact .execAck h
  case submit => exact .execSubmit h
  case readBuf => exact .execReadBuf h
  case readMem => exact .execReadMem h
  case release => exact .execRelease h
  case writeMem => exact .execWriteMem h
  case writeAck => exact .execWriteAck h
  case pullResp => exact .execPullResp h
  case hello1 => exact .execHello1 h
  case hello3 => exact .execHello3 h
  case helloTimeout => exact .execHelloTimeout h
  case retransmitTimeout => exact .execRetransmitTimeout h
  case sessionFail => exact .execSessionFail h
  case ackTimer => exact .execAckTimer h
  case cwndUpdate => exact .execCwndUpdate h
  case segmentSend => exact .execSegmentSend h
  case keyUpdate => exact .execKeyUpdate h
  case ticketIssue => exact .execTicketIssue h
  case ticketRevoke => exact .execTicketRevoke h
  case colophon => exact .execColophon h
  case fwStage => exact .execFwStage h
  case fwActivate => exact .execFwActivate h
  case svnCommit => exact .execSvnCommit h
  case tokenOverride => exact .execTokenOverride h
  case tokenReturn => exact .execTokenReturn h
  case tokenRedeploy => exact .execTokenRedeploy h
  case tokenDecommission => exact .execTokenDecommission h
  case tokenDebug => exact .execTokenDebug h
  case provision => exact .execProvision h
  case scrub => exact .execScrub h
  case bist => exact .execBist h
  case telemetry => exact .execTelemetry h
  case regRead => exact .execRegRead h
  case regWrite => exact .execRegWrite h
  case ledgerRead => exact .execLedgerRead h
  case netConfig => exact .execNetConfig h
  case linkRetrain => exact .execLinkRetrain h
  case queueCreate => exact .execQueueCreate h
  case queueDestroy => exact .execQueueDestroy h
  case queueBind => exact .execQueueBind h
  case bufRegister => exact .execBufRegister h
  case bufUnregister => exact .execBufUnregister h
  case hostwinMap => exact .execHostwinMap h
  case echo => exact .execEcho h
  case close => exact .execClose h
  case ethLoopbackStart => exact .execEthLoopbackStart h
  case ethLoopbackEnd => exact .execEthLoopbackEnd h
  case taoshCcCfgWrite => exact .execTaoshCcCfgWrite h
  case flitReceive => exact .execFlitReceive h
  case nak => exact .execNak h
  case rdReq => exact .execRdReq h
  case rdResp => exact .execRdResp h
  case wr => exact .execWr h
  case wrAck => exact .execWrAck h
  case atom => exact .execAtom h
  case atomAck => exact .execAtomAck h
  case coll => exact .execColl h
  case collCtl => exact .execCollCtl h
  case requestTimeout => exact .execRequestTimeout h
  case collectiveChunkTimeout => exact .execCollectiveChunkTimeout h
  case fecLockLoss => exact .execFecLockLoss h
  case retrainComplete => exact .execRetrainComplete h
  case quoinTopoWrite => exact .execQuoinTopoWrite h
  case quoinLinkCfgWrite => exact .execQuoinLinkCfgWrite h
  case quoinCfgWrite => exact .execQuoinCfgWrite h
  case quoinLoopbackStart => exact .execQuoinLoopbackStart h
  case quoinLoopbackEnd => exact .execQuoinLoopbackEnd h
  case doorbell => exact .execDoorbell h
  case collective => exact .execCollective h
  case updSet => exact .execUpdSet h
  case updFreeze => exact .execUpdFreeze h
  case updClear => exact .execUpdClear h
  case auditSnap => exact .execAuditSnap h
  case auditWalk => exact .execAuditWalk h
  case auditDone => exact .execAuditDone h
  case deviceStart => exact .execDeviceStart h
  case stepTimeout => exact .execStepTimeout h
  case bootSkipWrite => exact .execBootSkipWrite h
  case bootAltWrite => exact .execBootAltWrite h
  case clearFails => exact .execClearFails h
  case restart => exact .execRestart h
  case suspectClear => exact .execSuspectClear h
  case fatalError => exact .execFatalError
  case inputSag => exact .execInputSag h
  case surge => exact .execSurge h
  case overvolt => exact .execOvervolt h
  case currentClamp => exact .execCurrentClamp h
  case sagRelease => exact .execSagRelease h
  case dropout => exact .execDropout h
  case inputRestore => exact .execInputRestore h
  case bulkUndervoltage => exact .execBulkUndervoltage
  case throttleInAssert => exact .execThrottleInAssert h
  case throttleInDeassert => exact .execThrottleInDeassert h
  case throttleRelease => exact .execThrottleRelease h
  case thermalSample => exact .execThermalSample h
  case pwrCapWrite => exact .execPwrCapWrite h
  case placeCfgWrite => exact .execPlaceCfgWrite h
  case resetNAssert => exact .execResetNAssert
  case resetNDeassert => exact .execResetNDeassert h
  case i3cPointerWrite => exact .execI3cPointerWrite h
  case i3cRegisterWrite => exact .execI3cRegisterWrite h
  case i3cRead => exact .execI3cRead h
  case i3cDynamicAddress => exact .execI3cDynamicAddress h
  case jtagInstruction => exact .execJtagInstruction h
  case jtagTrst => exact .execJtagTrst h
  case segmentReceive => exact .execSegmentReceive h
  case retrainingWindowEnd => exact .execRetrainingWindowEnd h
  case oldKeyExpiry => exact .execOldKeyExpiry h

/-- Settles O45: no byte is listed after reset. -/
theorem resetInv : Obligations.ResetInv := rfl

/-- Settles O46: a step is idle or carries out a command on a state of the same memory, and every command keeps the
form. -/
theorem stepKeepsMemory : Obligations.StepKeepsMemory := by
  intro s t h e
  unfold step at e
  split at e
  · cases e
    exact h
  · rename_i c rest _
    have hr : State.Inv { s with pending := rest } := h
    exact Kept.exec c hr t e

end Sys2Proof.Machine

/-! # Requests of the management channel

An admitted request reaches its operation, and the answer is one more message on the session's send queue. -/

section
open Sys2Proof Sys2Proof.Machine
namespace Sys2Proof.Machine

variable {s u : State} {o : OpRule} {r : MReq}

theorem Admitted.manage (h : Admitted s o r) (f : State → State) : manage o r s f = .next (f s) := by
  obtain ⟨hlt, hopen, hgate⟩ := h
  simp [Machine.manage, hopen, hgate, Nat.not_le.2 hlt]

/-- An answer to an open session. -/
theorem reply_open (h : u.sessionOpen r.session = true) (st : Status) (items : List (Nat × W64)) :
    u.reply r st items = u.setSession r.session { u.session r.session with
      queue := (u.session r.session).queue ++ [.manage r.reqId st items [] false] } := by
  simp [State.reply, State.send, h]

theorem answers_reply (h : u.sessionOpen r.session = true) (st : Status) (items : List (Nat × W64)) :
    Answers u (u.reply r st items) r st items := by
  simp [Answers, reply_open h]

/-- The answer of an operation that leaves the sessions as they are. -/
theorem answers_of_sessions (h : Admitted s o r) (hs : u.sessions = s.sessions) (st : Status) (items : List (Nat × W64)) :
    Answers s (u.reply r st items) r st items := by
  have hsess (n : Nat) : u.session n = s.session n := congrArg (mget ({} : Session) · n) hs
  have hopen : u.sessionOpen r.session = true := by
    rw [State.sessionOpen, hsess]
    exact h.isOpen
  rw [Answers, ← hsess]
  exact answers_reply hopen st items

theorem responds_reply {i : Instr} {st : Status} {items : List (Nat × W64)} (h : Admitted s o r)
    (hs : u.sessions = s.sessions) (hx : exec i s = .next (u.reply r st items)) : Responds i s u r st items := by
  have hsess (n : Nat) : u.session n = s.session n := congrArg (mget ({} : Session) · n) hs
  have hopen : u.sessionOpen r.session = true := by
    rw [State.sessionOpen, hsess]
    exact h.isOpen
  refine ⟨_, hx, answers_reply hopen st items, ?_⟩
  rw [reply_open hopen]
  refine ⟨by simp, fun m hm => by simp [Ne.symm hm], rfl⟩

/-- An answer changes the sessions alone. -/
theorem sessions_reply (u : State) (r : MReq) (st : Status) (items : List (Nat × W64)) :
    { u.reply r st items with sessions := u.sessions } = u := by
  unfold State.reply State.send
  dsimp only
  split <;> rfl

end Sys2Proof.Machine
end

/-! # The device identifier and the register requests (R27, R472, R474, R477) -/

section
open Sys2Proof Sys2Proof.Machine
namespace Sys2Proof.Machine

variable {s t u : State}

/-! ### The device identifier -/

theorem regs_reply (u : State) (r : MReq) (st : Status) (items : List (Nat × W64)) : (u.reply r st items).regs = u.regs :=
  regs_send u _ _

theorem reg_reply (u : State) (r : MReq) (st : Status) (items : List (Nat × W64)) (b : Block) (i o : Nat) :
    (u.reply r st items).reg b i o = u.reg b i o :=
  congrArg (mget (resetWord b o) · (regAddr b i o)) (regs_reply u r st items)

theorem flash_reply (u : State) (r : MReq) (st : Status) (items : List (Nat × W64)) :
    (u.reply r st items).flash = u.flash := by
  have h := congrArg State.flash (sessions_reply u r st items)
  exact h

/-- What a refused change of the identifier leaves: the flag, and the identifier as it was. -/
structure IdLocked (s t : State) : Prop where
  id : t.reg .mgmt 0 0 = s.reg .mgmt 0 0
  flash : t.flash = s.flash
  locked : t.regFld .mgmt 0 0x08 1 1 = 1

theorem idLocked_locked (s : State) : IdLocked s s.idLocked := by
  have hne : regAddr .mgmt 0 0 ≠ regAddr .mgmt 0 8 := by decide
  refine ⟨?_, rfl, ?_⟩
  · calc s.idLocked.reg .mgmt 0 0 = ((s.setFld .mgmt 0 8 1 1 1).bump .mgmt 0 8 32 32 1).reg .mgmt 0 0 := rfl
      _ = (s.setFld .mgmt 0 8 1 1 1).reg .mgmt 0 0 := State.reg_setFld_ne _ _ _ _ _ _ _ _ _ _ hne
      _ = s.reg .mgmt 0 0 := State.reg_setFld_ne _ _ _ _ _ _ _ _ _ _ hne
  · calc s.idLocked.regFld .mgmt 0 8 1 1 = ((s.setFld .mgmt 0 8 1 1 1).bump .mgmt 0 8 32 32 1).regFld .mgmt 0 8 1 1 := rfl
      _ = (s.setFld .mgmt 0 8 1 1 1).regFld .mgmt 0 8 1 1 :=
        State.regFld_setFld_apart _ _ _ _ _ _ _ _ _ (by decide) (by decide) (by decide)
      _ = 1 := State.regFld_setFld_same _ _ _ _ _ _ _ (by decide) (by decide)

theorem IdLocked.reply (h : IdLocked s t) (r : MReq) (st : Status) (items : List (Nat × W64)) :
    IdLocked s (t.reply r st items) where
  id := (reg_reply t r st items .mgmt 0 0).trans h.id
  flash := (flash_reply t r st items).trans h.flash
  locked := (congrArg (fld · 1 1) (reg_reply t r st items .mgmt 0 8)).trans h.locked

/-- The register and the module flash, given an identifier. -/
def State.withId (s : State) (w : W64) (d : Option Nat) : State :=
  { s.setReg .mgmt 0 0 w with flash := { s.flash with deviceId := d } }

theorem reg_withId (s : State) (w : W64) (d : Option Nat) : (s.withId w d).reg .mgmt 0 0 = w :=
  s.reg_setReg_same .mgmt 0 0 w

theorem sessions_withId (s : State) (w : W64) (d : Option Nat) : (s.withId w d).sessions = s.sessions := rfl

theorem flash_withId (s : State) (w : W64) (d : Option Nat) : (s.withId w d).flash = { s.flash with deviceId := d } := rfl

theorem setId_fresh (hid : s.idValid = false) (id : Nat) :
    s.setId id = s.withId (wn (id % 65536 + 65536)) (some (id % 65536)) := by
  unfold State.setId State.withId
  exact if_neg (by simp [hid])

theorem setId_held (hid : s.idValid = true) (id : Nat) : s.setId id = s.idLocked := by
  simp [State.setId, hid]

theorem exec_deviceIdSet {r : MReq} (h : Admitted s (ruleOf false false false [(Key.deviceId, true)]) r) :
    exec (.deviceIdSet r) s = .next ((s.setId (r.num Key.deviceId)).done r) :=
  h.manage fun s => (s.setId (r.num Key.deviceId)).done r

theorem exec_mgmtUnset (path : RegPath) (hp : path ≠ .i3c) : exec (.mgmtUnset path) s = .next s.unsetId := by
  cases path
  case i3c => exact absurd rfl hp
  all_goals rfl

/-- The condition of UNSET (R472). -/
def State.unsettable (s : State) : Prop :=
  (∀ e ∈ s.ctxs, e.2.st = .free) ∧ ∀ l < 32, s.linkState l = LinkSt.down ∨ s.linkState l = LinkSt.off

theorem unsettable_iff (s : State) :
    s.unsettable ↔ (!(s.ctxs.any fun e => decide (e.2.st ≠ .free)) &&
      (upTo 32).all fun l => s.linkState l == LinkSt.down || s.linkState l == LinkSt.off) = true := by
  simp [State.unsettable, upTo]

theorem unsetId_free (h : s.unsettable) : s.unsetId = s.withId 0 none :=
  if_pos ((unsettable_iff s).1 h)

theorem unsetId_held (h : ¬s.unsettable) : s.unsetId = s.idLocked :=
  if_neg fun k => h ((unsettable_iff s).2 k)

theorem deviceIdentifier : Claims.DeviceIdentifier := by
  intro s
  refine ⟨fun r h => ⟨fun hid => ?_, fun hid => ?_⟩, fun path hp => ⟨fun hfree => ?_, fun hheld => ?_⟩⟩
  · refine ⟨_, exec_deviceIdSet h, ?_⟩
    rw [setId_fresh hid]
    exact ⟨answers_of_sessions h (sessions_withId ..) _ _, (reg_reply ..).trans (reg_withId ..),
      (flash_reply ..).trans (flash_withId ..)⟩
  · obtain ⟨hreg, hflash, hflag⟩ := (idLocked_locked s).reply r St.ok []
    exact ⟨_, by rw [exec_deviceIdSet h, setId_held hid]; rfl, hreg, hflash, hflag⟩
  · refine ⟨_, exec_mgmtUnset path hp, ?_⟩
    rw [unsetId_free hfree]
    exact ⟨reg_withId .., flash_withId ..⟩
  · obtain ⟨hreg, hflash, hflag⟩ := idLocked_locked s
    exact ⟨_, by rw [exec_mgmtUnset path hp, unsetId_held hheld], hreg, hflash, hflag⟩

/-! ### The registers read and written by requests -/

/-- Neither memory nor a session changes. -/
structure SameChannel (s t : State) : Prop where
  mem : t.mem = s.mem
  sessions : t.sessions = s.sessions

theorem sameChannel_refl (s : State) : SameChannel s s := ⟨rfl, rfl⟩

theorem SameChannel.trans (h : SameChannel s t) (k : SameChannel t u) : SameChannel s u :=
  ⟨k.mem.trans h.mem, k.sessions.trans h.sessions⟩

theorem sameChannel_clearRc (s : State) (b : Block) (i o : Nat) : SameChannel s (s.clearRc b i o) := by
  unfold State.clearRc
  split
  · split
    · exact ⟨rfl, rfl⟩
    · exact sameChannel_refl s
  · exact sameChannel_refl s

/-- A register's value is read from the state, or is a free word. -/
theorem sameChannel_readReg (s : State) (b : Block) (i o : Nat) : SameChannel s (s.readReg b i o).2 := by
  unfold State.readReg
  repeat' split
  all_goals exact ⟨rfl, rfl⟩

theorem sameChannel_readAt (s : State) (b : Block) (i o : Nat) : SameChannel s (s.readAt b i o).2 := by
  unfold State.readAt
  split
  · exact sameChannel_refl s
  · exact (sameChannel_readReg s b i o).trans (sameChannel_clearRc _ b i o)

theorem sameChannel_regRead (s : State) (a : Nat) : SameChannel s (s.regRead a).2 := by
  unfold State.regRead
  split
  · exact sameChannel_readAt ..
  · exact ⟨rfl, rfl⟩

theorem sameChannel_setReg (s : State) (b : Block) (i o : Nat) (v : W64) : SameChannel s (s.setReg b i o v) := ⟨rfl, rfl⟩

theorem sameChannel_badEnum (s : State) : SameChannel s s.badEnum := ⟨rfl, rfl⟩

theorem sameChannel_plainWrite (s : State) (b : Block) (i o : Nat) (v : W64) : SameChannel s (s.plainWrite b i o v) := by
  unfold State.plainWrite
  split
  · exact sameChannel_refl s
  · dsimp only
    split
    · exact sameChannel_setReg ..
    · exact (sameChannel_setReg ..).trans (sameChannel_badEnum _)

theorem sameChannel_readPairs (l : List (Block × Nat)) (s : State) : SameChannel s (readPairs l s).2 := by
  induction l generalizing s with
  | nil => exact sameChannel_refl s
  | cons e l ih => exact (sameChannel_readAt s e.1 0 e.2).trans (ih _)

theorem length_readPairs (l : List (Block × Nat)) (s : State) : (readPairs l s).1.length = 2 * l.length := by
  induction l generalizing s with
  | nil => rfl
  | cons e l ih => simp [readPairs, ih]; omega

/-- Register `k` of a list read in turn gives items `2 * k` and `2 * k + 1`. -/
theorem nth_readPairs (l : List (Block × Nat)) (s : State) (k : Nat) (hk : k < l.length) :
    nth (0, 0) (readPairs l s).1 (2 * k) =
        (Key.addr, wn (regAddr (nth (.mgmt, 0) l k).1 0 (nth (.mgmt, 0) l k).2)) ∧
      (nth (0, 0) (readPairs l s).1 (2 * k + 1)).1 = Key.value := by
  induction l generalizing s k with
  | nil => simp at hk
  | cons e l ih =>
    cases k with
    | zero => exact ⟨rfl, rfl⟩
    | succ k => exact ih (s.readAt e.1 0 e.2).2 k (Nat.lt_of_succ_lt_succ hk)

theorem length_telemRegs : telemRegs.length = 43 := by decide

theorem exec_telemetry {r : MReq} (h : Admitted s (ruleOf false true true []) r) :
    exec (.telemetry r) s = .next ((readPairs telemRegs s).2.reply r St.ok (readPairs telemRegs s).1) :=
  h.manage fun s => s.telemetry r

theorem exec_regRead {r : MReq} (h : Admitted s { service := true, restricted := true, plain := false } r) :
    exec (.regRead r) s = .next (s.regReadOp r) :=
  h.manage fun s => s.regReadOp r

theorem regReadOp_one {r : MReq} {a : W64} (hr : r.items = [(Key.addr, a)]) (h8 : a.toNat % 8 = 0)
    (hc : inControl a.toNat = true) :
    s.regReadOp r = (s.regRead a.toNat).2.reply r St.ok [(Key.addr, a), (Key.value, (s.regRead a.toNat).1)] := by
  simp [State.regReadOp, hr, readItems, h8, hc]

theorem exec_regWrite {r : MReq} (h : Admitted s { service := true, plain := false } r) :
    exec (.regWrite r) s = .next (s.regWriteOp r) :=
  h.manage fun s => s.regWriteOp r

/-- The device restarts by a write of the BOOT block, which holds no plain register. -/
theorem PlainReg.not_restart {b : Block} {i o a : Nat} (h : PlainReg s b i o) (hb : blockOf a = some (b, i, o)) :
    a ≠ regAddr .boot 0 0x18 := by
  rintro rfl
  have hboot : blockOf (regAddr .boot 0 0x18) = some (.boot, 0, 0x18) := by decide
  cases hboot.symm.trans hb
  simp [PlainReg] at h

theorem regWriteOp_one {r : MReq} {a v : W64} {b : Block} {i o : Nat} (hr : r.items = [(Key.addr, a), (Key.value, v)])
    (h8 : a.toNat % 8 = 0) (hc : inControl a.toNat = true) (hb : blockOf a.toNat = some (b, i, o)) (hp : PlainReg s b i o)
    (hs : s.serviceMode = false) : s.regWriteOp r = (s.plainWrite b i o v).reply r St.ok [] := by
  have hw : s.regWrite .session0 a.toNat v = s.plainWrite b i o v :=
    (regWrite_permitted s .session0 _ v b i o h8 hb rfl).trans (writeAt_plain s _ b i o v hb hp)
  simp [State.regWriteOp, hr, writePairs, hs, writeItems, h8, hc, hp.not_restart hb, hw, State.done]

theorem registerRequests : Claims.RegisterRequests := by
  intro s r
  refine ⟨fun h => ?_, fun a h hr h8 hc => ?_, fun a v b i o h hr h8 hc hb hp hs => ?_⟩
  · have hsame := sameChannel_readPairs telemRegs s
    refine ⟨_, _, exec_telemetry h, answers_of_sessions h hsame.sessions _ _, ?_, ?_, fun k hk => ?_⟩
    · rw [length_readPairs, length_telemRegs]
    · rw [← hsame.mem]
      have hm := congrArg State.mem (sessions_reply (readPairs telemRegs s).2 r St.ok (readPairs telemRegs s).1)
      exact hm
    · exact nth_readPairs telemRegs s k (length_telemRegs ▸ hk)
  · exact responds_reply h (sameChannel_regRead s a.toNat).sessions
      ((exec_regRead h).trans (congrArg _ (regReadOp_one hr h8 hc)))
  · exact responds_reply h (sameChannel_plainWrite s b i o v).sessions
      ((exec_regWrite h).trans (congrArg _ (regWriteOp_one hr h8 hc hb hp hs)))

/-- Settles O59, from its two parts. -/
theorem deviceRegisters : Obligations.DeviceRegisters := ⟨deviceIdentifier, registerRequests⟩

end Sys2Proof.Machine
end

/-! # The end of sub-takes and takes (R24, R91, R305, R347) -/

section
open Sys2Proof Sys2Proof.Machine
namespace Sys2Proof.Machine

variable {s : State}

theorem cell_cons (e : Host.Cell) (m : List Host.Cell) (j : Nat) : cell (e :: m) j = if e.1 = j then e.2 else cell m j :=
  rfl

theorem wipe_cons (e : Host.Cell) (m : List Host.Cell) (a n : Nat) :
    wipe (e :: m) a n = if e.1 < a ∨ a + n ≤ e.1 then e :: wipe m a n else wipe m a n := by
  simp [wipe, List.filter_cons]

theorem cell_wipe (m : List Host.Cell) (a n j : Nat) :
    cell (wipe m a n) j = if a ≤ j ∧ j < a + n then 0 else cell m j := by
  induction m with
  | nil => exact (ite_self _).symm
  | cons e m ih =>
    rw [wipe_cons, cell_cons]
    split
    · next hk =>
      rw [cell_cons, ih]
      by_cases hj : e.1 = j
      · rw [if_pos hj, if_pos hj, if_neg (by omega)]
      · rw [if_neg hj, if_neg hj]
    · next hk =>
      rw [ih]
      split
      · rfl
      · rw [if_neg (by omega)]

/-- A wiped range reads zero, whatever else is wiped. -/
theorem cell_wipe_zero (m : List Host.Cell) (a n b k i : Nat) (h : i < n) : cell (wipe (wipe m a n) b k) (a + i) = 0 := by
  rw [cell_wipe]
  split
  · rfl
  · rw [cell_wipe, if_pos (by omega)]

theorem exists_send (s : State) (n : Nat) (m : Msg) : ∃ ss, s.send n m = { s with sessions := ss } := by
  unfold State.send
  dsimp only
  split
  · exact ⟨_, rfl⟩
  · exact ⟨s.sessions, rfl⟩

theorem mfind_mput_same {α : Type} (m : Map α) (k : Nat) (x : α) : mfind? (mput m k x) k = some x := by
  rw [mfind_mput, if_pos rfl]

/-- A record goes to a session or to its queue. -/
theorem exists_postRecord (s : State) (q : Nat) (r : Completion) :
    ∃ qs ss, s.postRecord q r = { s with queues := qs, sessions := ss } := by
  unfold State.postRecord
  dsimp only
  split
  · obtain ⟨ss, h⟩ := exists_send s ‹_› (.complete [r])
    exact ⟨s.queues, ss, h⟩
  · exact ⟨_, s.sessions, rfl⟩

/-- A take whose record is sent is done, and nothing else of the takes, the presses, the sub-takes, the buffers and memory
changes. -/
theorem exists_recordTake {k : Nat} {t : Take} (h : mfind? s.takes k = some t) (press : Nat) (fault : Option FaultRec)
    (gen : W32) : ∃ f qs ss, s.recordTake k press fault gen =
      { s with takes := mput s.takes k { t with st := .done, unsent := true }, free := f, queues := qs, sessions := ss } := by
  simp only [State.recordTake, h]
  obtain ⟨qs, ss, he⟩ := exists_postRecord { s.freshWord.2 with
    takes := mput s.takes k { t with st := .done, unsent := true } } t.queue _
  exact ⟨_, qs, ss, he⟩

/-- A take without a fence that ends is done with its status. -/
theorem exists_endTake {k : Nat} {t : Take} (h : mfind? s.takes k = some t) (hf : t.fence = none) (st : Status) :
    ∃ f qs ss, s.endTake k st = { s with
      takes := mput (mput s.takes k { t with status := st, left := 0 }) k
        { t with status := st, left := 0, st := .done, unsent := true }
      free := f, queues := qs, sessions := ss } := by
  unfold State.endTake
  rw [h]
  dsimp only
  rw [if_neg (by simp [hf])]
  exact exists_recordTake (s := { s with takes := mput s.takes k { t with status := st, left := 0 } })
    (mfind_mput_same ..) 0 none 0

/-- The last sub-take of a take ends it with the status of the first member that did not succeed (R24). -/
theorem subDone_last {k : Nat} {t : Take} (h : mfind? s.takes k = some t) (hl : t.left - 1 = 0) (member : Nat)
    (st : Status) : ∃ ends st', s.subDone k member st =
      State.endTake { s with takes := mput s.takes k { t with left := t.left - 1, ends := ends } } k st' ∧
        (t.ends = [] → st' = st) := by
  unfold State.subDone
  rw [h]
  dsimp only
  rw [if_pos hl]
  refine ⟨_, _, rfl, fun h0 => ?_⟩
  rw [h0]
  split_ifs with hst
  · exact hst.symm
  · rfl

/-- What a sub-take that ends does to its take (R24): one fewer is left, and the take has ended once none is. -/
theorem subDone_take {k : Nat} {t : Take} (h : mfind? s.takes k = some t) (hf : t.fence = none) (member : Nat) (st : Status) :
    ∃ m f qs ss t', s.subDone k member st = { s with takes := m, free := f, queues := qs, sessions := ss } ∧
      mfind? m k = some t' ∧ (2 ≤ t.left → t'.left = t.left - 1 ∧ t'.st = t.st) ∧
      (t.left = 1 → t.ends = [] → t'.st = .done ∧ t'.status = st) := by
  by_cases hl : t.left - 1 = 0
  · obtain ⟨ends, st', hs, hst⟩ := subDone_last h hl member st
    obtain ⟨f, qs, ss, he⟩ := exists_endTake
      (s := { s with takes := mput s.takes k { t with left := t.left - 1, ends := ends } }) (mfind_mput_same ..) hf st'
    exact ⟨_, f, qs, ss, _, hs.trans he, mfind_mput_same .., fun h2 => by omega, fun _ h0 => ⟨rfl, hst h0⟩⟩
  · unfold State.subDone
    rw [h]
    dsimp only
    rw [if_neg hl]
    exact ⟨_, s.free, s.queues, s.sessions, _, rfl, mfind_mput_same .., fun _ => ⟨rfl, rfl⟩, fun h1 => by omega⟩

/-- The press that a best-effort sub-take leaves: idle, and its case reads zero (R305). -/
theorem zeroPress_idle (s : State) (n : Nat) :
    ((s.zeroPress n).press n).st = .idle ∧ ((s.zeroPress n).press n).run = none ∧ (s.zeroPress n).pc n = {} ∧
      ∀ i < caseSize, cell (s.zeroPress n).mem (caseBase n + i) = 0 := by
  have hp : (s.zeroPress n).press n =
      { s.press n with st := .idle, run := none, cur := {}, preempt := false, gathered := [] } := by
    simp [State.zeroPress]
  refine ⟨by rw [hp], by rw [hp], by rw [State.pc, hp], fun i hi => ?_⟩
  exact cell_wipe_zero s.mem (caseBase n) caseSize (tympBase n 0) 0x100000 i hi

theorem exec_subtakeComplete {n k : Nat} {x : SubTake} (hr : Running s n) (hsub : (s.pc n).sub = some k)
    (hend : (s.pc n).hold = .ending) (hd : s.drained n = true) (hx : mfind? s.subs k = some x)
    (hc : (s.ctx x.ctx).critical = false) : exec (.subtakeComplete n) s =
      .next (State.subDone { s.zeroPress n with subs := mdel (s.zeroPress n).subs k } x.take x.member
        (if (s.pc n).dupSeen then St.claimDuplicate else St.ok)) := by
  obtain ⟨hn, hrun⟩ := hr
  have hexec : exec (.subtakeComplete n) s = onPress n s fun s => s.finishSub n := rfl
  rw [hexec, onPress, if_neg (Nat.not_le.2 hn), if_neg hrun]
  simp [State.finishSub, State.leavePress, hsub, hend, hd, hx, hc]

theorem exec_fencePublish {q seq k b g : Nat} {t : Take}
    (hfind : s.takes.find? (fun e => e.2.queue == q && e.2.seq == seq && decide (e.2.st = .publishing)) = some (k, t))
    (hf : t.fence = some (b, g)) (hb : mhas s.buffers b = true) (hw : s.bufferWrites (mget {} s.buffers b) = false)
    (hr : s.requests = []) : exec (.fencePublish q seq) s =
      .next (State.recordTake { s with buffers := mput s.buffers b { mget {} s.buffers b with gen := g, sealed := true } } k 0
        none (BitVec.ofNat 32 g)) := by
  have hexec : exec (.fencePublish q seq) s = match s.takes.find?
    (fun e => e.2.queue == q && e.2.seq == seq && decide (e.2.st = .publishing)) with
    | some (k, t) => .next (s.publish k t)
    | none => .fault .noSuchUnit := rfl
  rw [hexec, hfind]
  simp only [State.publish, hf]
  rw [hw, hr, List.any_nil, Bool.or_self, if_neg Bool.false_ne_true, if_pos hb]

/-- Settles O13: a best-effort sub-take zeroizes its press and counts in its take, and a publication seals the buffer. -/
theorem takesComplete : Obligations.TakesComplete := by
  intro s
  refine ⟨fun n k x t hr hsub hend hd hx hc ht hf => ?_, fun q seq k t b g hfind ht hf hb hw hr => ?_⟩
  · obtain ⟨m, f, qs, ss, t', hu, ht', htwo, hone⟩ := subDone_take
      (s := { s.zeroPress n with subs := mdel (s.zeroPress n).subs k }) ht hf x.member
      (if (s.pc n).dupSeen then St.claimDuplicate else St.ok)
    obtain ⟨hst, hrun, hpc, hmem⟩ := zeroPress_idle s n
    refine ⟨_, exec_subtakeComplete hr hsub hend hd hx hc, ?_⟩
    rw [hu]
    refine ⟨hst, hrun, hpc, hmem, mfind_mdel_same .., t', ht', htwo, fun h1 hdup h0 => ?_, fun h1 hdup h0 => ?_⟩
    · rw [hdup] at hone
      exact hone h1 h0
    · rw [hdup] at hone
      exact hone h1 h0
  · obtain ⟨f, qs, ss, hu⟩ := exists_recordTake
      (s := { s with buffers := mput s.buffers b { mget {} s.buffers b with gen := g, sealed := true } }) ht 0 none
      (BitVec.ofNat 32 g)
    refine ⟨_, exec_fencePublish hfind hf hb hw hr, ?_⟩
    rw [hu]
    refine ⟨?_, ?_, { t with st := .done, unsent := true }, ?_, rfl⟩
    · simp [mget_mput]
    · simp [mget_mput]
    · simp [mfind_mput]

end Sys2Proof.Machine
end

/-! # What clears a partition (R430, R431, R451): what goes on beside it

A scrub ends sessions and tears contexts down. Beside that, its own long operation goes on, the partitions' states stay, no
session opens, and what session 0 has been sent stays at the front of its queue. -/

section
open Sys2Proof Sys2Proof.Machine
namespace Sys2Proof.Machine

/-- Messages whose last one no later completion record joins. -/
def Sealed (q : List Msg) : Prop := ∃ a m, q = a ++ [m] ∧ ∀ rs, m ≠ .complete rs

/-- What stays beside the operations that clear or test a partition. -/
structure Steady (s t : State) : Prop where
  ops : ∀ h, (t.longop h).st = (s.longop h).st
  scrubs : ∀ h p x b, (s.longop h).kind = .scrub p x b → (t.longop h).kind = .scrub p x b
  parts : ∀ p, (t.part p).st = (s.part p).st
  closed : ∀ n, s.sessionOpen n = false → t.sessionOpen n = false
  queue : ∀ q, Sealed q → q <+: (s.session 0).queue → q <+: (t.session 0).queue

variable {s₀ s t u : State}

theorem Steady.refl (s : State) : Steady s s :=
  ⟨fun _ => rfl, fun _ _ _ _ e => e, fun _ => rfl, fun _ e => e, fun _ _ e => e⟩

theorem Steady.trans (h : Steady s t) (k : Steady t u) : Steady s u where
  ops n := (k.ops n).trans (h.ops n)
  scrubs n p x b e := k.scrubs n p x b (h.scrubs n p x b e)
  parts p := (k.parts p).trans (h.parts p)
  closed n e := k.closed n (h.closed n e)
  queue q hs e := k.queue q hs (h.queue q hs e)

/-! ### The functions of a teardown, and what a self-test draws -/

/-- An update of other fields. -/
theorem Steady.same (h : Steady s₀ s) (ho : t.longops = s.longops) (hp : t.parts = s.parts) (hs : t.sessions = s.sessions) :
    Steady s₀ t := by
  have hop (n : Nat) : t.longop n = s.longop n := congrArg (mget ({} : LongOp) · n) ho
  have hpart (p : Nat) : t.part p = s.part p := congrArg (mget ({} : Part) · p) hp
  have hsess (n : Nat) : t.session n = s.session n := congrArg (mget ({} : Session) · n) hs
  refine h.trans ⟨fun n => by rw [hop], fun n p x b e => by rw [hop, e], fun p => by rw [hpart], fun n e => ?_, fun q _ e => ?_⟩
  · rwa [State.sessionOpen, hsess]
  · rwa [hsess]

theorem Steady.ite {c : Prop} [Decidable c] (h : Steady s₀ s) (k : Steady s₀ t) : Steady s₀ (if c then s else t) := by
  split
  · exact h
  · exact k

theorem Steady.foldl {α : Type} {f : State → α → State} {l : List α} (hf : ∀ s x, Steady s₀ s → Steady s₀ (f s x))
    (h : Steady s₀ s) : Steady s₀ (l.foldl f s) := by
  induction l generalizing s with
  | nil => exact h
  | cons x l ih => exact ih (hf s x h)

theorem Steady.foldl_fst {α β : Type} {f : State × β → α → State × β} {l : List α} {a : State × β}
    (hf : ∀ a x, Steady s₀ a.1 → Steady s₀ (f a x).1) (h : Steady s₀ a.1) : Steady s₀ (l.foldl f a).1 := by
  induction l generalizing a with
  | nil => exact h
  | cons x l ih => exact ih (hf a x h)

theorem Steady.setPart {p x} (h : Steady s₀ s) (hx : x.st = (s.part p).st) : Steady s₀ (s.setPart p x) := by
  refine h.trans ⟨fun _ => rfl, fun _ _ _ _ e => e, fun q => ?_, fun _ e => e, fun _ _ e => e⟩
  rw [State.part_setPart]
  split
  · next e => rw [hx, e]
  · rfl

/-- A prefix that no completion record joins stays one when a message is sent. -/
theorem Sealed.prefix_dropLast {q l : List Msg} (hs : Sealed q) (hq : q <+: l) {rs : List Completion}
    (hl : l.getLast? = some (.complete rs)) : q <+: l.dropLast := by
  obtain ⟨a, m, rfl, hm⟩ := hs
  have hcut : l = l.dropLast ++ [.complete rs] := (List.dropLast_append_getLast? _ hl).symm
  rw [hcut, List.prefix_concat_iff] at hq
  rcases hq with hq | hq
  · exact absurd (List.append_inj' hq rfl).2 (by simpa using hm rs)
  · exact hq

theorem Steady.setQueue {n q'} (h : Steady s₀ s)
    (hq : ∀ q, Sealed q → q <+: (s.session n).queue → q <+: q') :
    Steady s₀ (s.setSession n { s.session n with queue := q' }) := by
  refine h.trans ⟨fun _ => rfl, fun _ _ _ _ e => e, fun _ => rfl, fun m e => ?_, fun q hs e => ?_⟩
  · rw [State.sessionOpen, State.session_setSession]
    split
    · next hm =>
      subst hm
      exact e
    · exact e
  · rw [State.session_setSession]
    split
    · next hm =>
      subst hm
      exact hq q hs e
    · exact e

theorem Steady.send {n m} (h : Steady s₀ s) : Steady s₀ (s.send n m) := by
  unfold State.send
  dsimp only
  refine .ite (.setQueue h fun q hs hq => ?_) h
  split
  · split
    · exact (hs.prefix_dropLast hq ‹_›).trans (List.prefix_append ..)
    · exact hq.trans (List.prefix_append ..)
  · exact hq.trans (List.prefix_append ..)

theorem Steady.setPress {n p} (h : Steady s₀ s) : Steady s₀ (s.setPress n p) := .same h rfl rfl rfl

theorem Steady.setChase {n c} (h : Steady s₀ s) : Steady s₀ (s.setChase n c) := .same h rfl rfl rfl

theorem Steady.setCtx {n c} (h : Steady s₀ s) : Steady s₀ (s.setCtx n c) := .same h rfl rfl rfl

theorem Steady.setReg {b i o v} (h : Steady s₀ s) : Steady s₀ (s.setReg b i o v) := .same h rfl rfl rfl

theorem Steady.setFld {b i o lo w v} (h : Steady s₀ s) : Steady s₀ (s.setFld b i o lo w v) := .setReg h

theorem Steady.bump {b i o lo w k} (h : Steady s₀ s) : Steady s₀ (s.bump b i o lo w k) := .setFld h

theorem Steady.freshWord (h : Steady s₀ s) : Steady s₀ s.freshWord.2 := .same h rfl rfl rfl

theorem Steady.poolGive {p i n} (h : Steady s₀ s) : Steady s₀ (s.poolGive p i n) := .setPart h rfl

theorem Steady.setFolio {f x} (h : Steady s₀ s) : Steady s₀ (s.setFolio f x) := .same h rfl rfl rfl

theorem Steady.freeFolio {f} (h : Steady s₀ s) : Steady s₀ (s.freeFolio f) :=
  .ite (.setFolio h) (.ite (.poolGive (.setFolio h)) (.poolGive (.same h rfl rfl rfl)))

theorem Steady.sweepFolios (h : Steady s₀ s) : Steady s₀ s.sweepFolios := .same h rfl rfl rfl

theorem Steady.dropRef {fuel f} (h : Steady s₀ s) : Steady s₀ (dropRef fuel s f).1 := by
  induction fuel generalizing s f with
  | zero => exact h
  | succ fuel ih =>
    unfold Machine.dropRef
    dsimp only
    split
    · exact .setFolio h
    · exact .freeFolio (.foldl_fst (fun _ _ h' => ih h') h)

theorem Steady.dropFolio {f} (h : Steady s₀ s) : Steady s₀ (s.dropFolio f).1 := .dropRef h

theorem Steady.setKstream {hd k} (h : Steady s₀ s) : Steady s₀ (s.setKstream hd k) := .same h rfl rfl rfl

theorem Steady.releaseStream {hd} (h : Steady s₀ s) : Steady s₀ (s.releaseStream hd).1 :=
  .same (.dropFolio h) rfl rfl rfl

theorem Steady.setGentry {hd e} (h : Steady s₀ s) : Steady s₀ (s.setGentry hd e) := .same h rfl rfl rfl

theorem Steady.setGset {k x} (h : Steady s₀ s) : Steady s₀ (s.setGset k x) := .same h rfl rfl rfl

theorem Steady.freeSet {k} (h : Steady s₀ s) : Steady s₀ (s.freeSet k) :=
  .ite (.setGset h) (.poolGive (.same h rfl rfl rfl))

theorem Steady.dropSet {k} (h : Steady s₀ s) : Steady s₀ (s.dropSet k).1 := by
  unfold State.dropSet
  dsimp only
  split
  · exact .setGset h
  · split
    · exact .setGset h
    · exact .setGset h

theorem Steady.swapSets {hd} (h : Steady s₀ s) : Steady s₀ (s.swapSets hd) := by
  unfold State.swapSets
  dsimp only
  split
  · exact .setGentry (.dropSet (.setGset h))
  · exact h

theorem Steady.giveSet {a k} (h : Steady s₀ a.1) : Steady s₀ (giveSet a k).1 := by
  cases k with
  | none => exact h
  | some k => exact .freeSet h

theorem Steady.dropCurrent {e a} (h : Steady s₀ a.1) : Steady s₀ (dropCurrent e a).1 := by
  unfold Machine.dropCurrent
  split
  · exact .giveSet (.dropSet h)
  · exact h

theorem Steady.giveSlot {e} (h : Steady s₀ s) : Steady s₀ (giveSlot e s) := by
  unfold Machine.giveSlot
  split
  · exact .poolGive (.same h rfl rfl rfl)
  · exact h

theorem Steady.returnSets {hd} (h : Steady s₀ s) : Steady s₀ (s.returnSets hd).1 := by
  rw [returnSets_steps]
  exact .setGentry (.giveSlot (.foldl_fst (fun _ _ h' => .giveSet h') (.dropCurrent (.giveSet (a := (s, 0)) h))))

theorem Steady.dropEntry {hd} (h : Steady s₀ s) : Steady s₀ (s.dropEntry hd) :=
  .ite (.same h rfl rfl rfl) (.setGentry h)

theorem Steady.modOf {n c f} (h : Steady s₀ s) : Steady s₀ (s.modOf n c f) := .ite (.setPress h) (.setPress h)

theorem Steady.postRecord {q r} (h : Steady s₀ s) : Steady s₀ (s.postRecord q r) := by
  unfold State.postRecord
  dsimp only
  split
  · exact .send h
  · exact .same h rfl rfl rfl

theorem Steady.recordTake {k press fault gen} (h : Steady s₀ s) : Steady s₀ (s.recordTake k press fault gen) := by
  unfold State.recordTake
  split
  · exact h
  · exact .postRecord (.same (.freshWord h) rfl rfl rfl)

theorem Steady.closeRegion {c r} (h : Steady s₀ s) : Steady s₀ (s.closeRegion c r) :=
  .setChase (.poolGive (.poolGive h))

theorem Steady.unbindGalley {hd} (h : Steady s₀ s) : Steady s₀ (s.unbindGalley hd) := .ite (.setGentry h) h

theorem Steady.releaseGalley {hd} (h : Steady s₀ s) : Steady s₀ (s.releaseGalley hd).1 :=
  .dropEntry (.setGentry (.returnSets h))

theorem Steady.undoKern {b} (h : Steady s₀ s) : Steady s₀ (s.undoKern b) := by
  unfold State.undoKern
  refine .ite h ?_
  split
  · exact .releaseStream h
  · exact .setKstream (.dropFolio h)

theorem Steady.restoreGalley {hd g} (h : Steady s₀ s) : Steady s₀ (s.restoreGalley hd g) := by
  unfold State.restoreGalley
  refine .setGentry (.ite h ?_)
  dsimp only
  split
  · exact .same h rfl rfl rfl
  · exact .same h rfl rfl rfl
  · split
    · exact .swapSets (.setGset h)
    · exact h

theorem Steady.undoGalley {b} (h : Steady s₀ s) : Steady s₀ (s.undoGalley b) := by
  unfold State.undoGalley
  refine .ite h (.ite (.releaseGalley h) (.unbindGalley ?_))
  split
  · exact .restoreGalley h
  · exact h

theorem Steady.leaveRegion {c r} (h : Steady s₀ s) : Steady s₀ (s.leaveRegion c r) := by
  unfold State.leaveRegion
  exact .modOf h

theorem Steady.rejectRegion {c r} (h : Steady s₀ s) : Steady s₀ (s.rejectRegion c r) :=
  .bump (.closeRegion (.leaveRegion (.foldl (fun _ _ h' => .undoGalley h') (.foldl (fun _ _ h' => .undoKern h') h))))

theorem Steady.endRegions {c} (h : Steady s₀ s) : Steady s₀ (s.endRegions c) :=
  .foldl (fun _ _ h' => .foldl (fun _ _ h'' => .ite (.rejectRegion h'') h'') h') h

theorem Steady.stopPresses {c} (h : Steady s₀ s) : Steady s₀ (s.stopPresses c) := .same h rfl rfl rfl

theorem Steady.endStreams {c} (h : Steady s₀ s) : Steady s₀ (s.endStreams c) :=
  .foldl (fun _ _ h' => .ite (.same (.returnSets h') rfl rfl rfl) h') (.foldl (fun _ _ h' => .ite
    (.releaseStream h') h') h)

theorem Steady.endTakes {c} (h : Steady s₀ s) : Steady s₀ (s.endTakes c) :=
  .foldl (fun _ _ h' => .ite (.ite (.recordTake (.same h' rfl rfl rfl)) (.recordTake (.same h' rfl rfl rfl))) h') h

theorem Steady.zeroPress {n} (h : Steady s₀ s) : Steady s₀ (s.zeroPress n) := .setPress (.same h rfl rfl rfl)

theorem Steady.endPresses {c} (h : Steady s₀ s) : Steady s₀ (s.endPresses c) := by
  unfold State.endPresses
  extract_lets drop s1 s2
  have h1 : Steady s₀ s1 :=
    .foldl (fun _ _ h' => .ite (.zeroPress (.ite (.setPress h') h')) (.ite (.setPress h') h')) h
  clear_value s1
  exact .same h1 rfl rfl rfl

theorem Steady.loseMember {c} (h : Steady s₀ s) : Steady s₀ (s.loseMember c) := .ite h (.same h rfl rfl rfl)

theorem Steady.teardownRest {c} (h : Steady s₀ s) : Steady s₀ (s.teardownRest c) :=
  .loseMember (.sweepFolios (.endPresses (.endTakes (.endStreams h))))

theorem Steady.teardown {c st} (h : Steady s₀ s) : Steady s₀ (s.teardown c st) :=
  .ite h (.ite (.endRegions (.stopPresses (.setCtx h))) (.teardownRest (.endRegions (.stopPresses (.setCtx h)))))

theorem Steady.overwritten {hit} (h : Steady s₀ s) : Steady s₀ (s.overwritten hit) := by
  unfold State.overwritten
  refine .foldl (fun _ _ h' => ?_) h
  split
  · exact .ite (.same (.freshWord h') rfl rfl rfl) h'
  · exact h'

theorem Steady.takeBack {x} (h : Steady s₀ s) : Steady s₀ (s.takeBack x) :=
  .foldl (fun _ _ h' => .ite (.same h' rfl rfl rfl) (.setCtx h')) (.foldl (fun _ _ h' => .ite
    (.same h' rfl rfl rfl) h') h)

theorem Steady.remap {groups} (h : Steady s₀ s) : Steady s₀ (s.remap groups) := .same h rfl rfl rfl

theorem Steady.setLayout {fs spread} (h : Steady s₀ s) : Steady s₀ (s.setLayout fs spread) := .setFld (.setFld h)

theorem Steady.storeLayout {ps fs spread} (h : Steady s₀ s) : Steady s₀ (s.storeLayout ps fs spread) :=
  .same h rfl rfl rfl

theorem Steady.bistPower {watts} (h : Steady s₀ s) : Steady s₀ (s.bistPower watts).2 := by
  unfold State.bistPower
  split
  · exact h
  · exact .freshWord h

end Sys2Proof.Machine
end

/-! # Scrub, self-test and reset of a partition begin (R39, R430, R431, R451) -/

section
open Sys2Proof Sys2Proof.Machine
namespace Sys2Proof.Machine

variable {s₀ s t u v w : State}

/-! ### Sessions of the partition end -/

/-- What a map leaves of its entries, it leaves of what an absent one reads as. -/
theorem proj_mget_mmap {α β : Type} (g : α → β) (f : Nat → α → α) (hf : ∀ k x, g (f k x) = g x) (d : α) (m : Map α) (k : Nat) :
    g (mget d (mmap f m) k) = g (mget d m k) := by
  induction m with
  | nil => rfl
  | cons e m ih =>
    by_cases he : e.1 = k
    · simpa [mmap, mget, he] using hf k e.2
    · simpa [mmap, mget, he] using ih

/-- A long operation whose session has ended. -/
def LongOp.detach (n : Nat) (o : LongOp) : LongOp := if o.session = n then { o with session := noSession } else o

theorem LongOp.st_detach (n : Nat) (o : LongOp) : (o.detach n).st = o.st := by
  unfold LongOp.detach
  split <;> rfl

theorem LongOp.kind_detach (n : Nat) (o : LongOp) : (o.detach n).kind = o.kind := by
  unfold LongOp.detach
  split <;> rfl

/-- A session whose handshake is given up where a condition holds. -/
def Session.unpend (c : Nat → Session → Bool) (n : Nat) (x : Session) : Session := if c n x then { x with pend := none } else x

theorem Session.st_unpend (c : Nat → Session → Bool) (n : Nat) (x : Session) : (x.unpend c n).st = x.st := by
  unfold Session.unpend
  split <;> rfl

theorem Session.queue_unpend (c : Nat → Session → Bool) (n : Nat) (x : Session) : (x.unpend c n).queue = x.queue := by
  unfold Session.unpend
  split <;> rfl

/-- The records of a session closed (R330). -/
def State.dropSession (s : State) (n : Nat) : State :=
  { s with
    sessions := mset {} s.sessions n { ({} : Session) with pend := (s.session n).pend }
    queues := mmap (fun _ q => if q.session = some n then { q with session := none } else q) s.queues
    hostwins := mmap (fun _ h => if h.session = n then { h with session := noSession } else h) s.hostwins
    longops := mmap (fun _ o => o.detach n) s.longops
    unmaps := mmap (fun _ u => if u.session = n then { u with session := noSession } else u) s.unmaps
    loopReqs := s.loopReqs.filter fun e => e.2.1 != n
    hostq := s.hostq.filter fun a => a.session != n
    requests := mmap (fun _ r => if r.session = some n then { r with failed := some St.pullFailed } else r) s.requests }

theorem session_dropSession (s : State) (n m : Nat) :
    (s.dropSession n).session m = if n = m then { pend := (s.session n).pend } else s.session m :=
  s.session_setSession n m { pend := (s.session n).pend }

theorem Steady.dropSession {n} (hn : n ≠ 0) (h : Steady s₀ s) : Steady s₀ (s.dropSession n) := by
  refine h.trans ⟨fun k => ?_, fun k p x b e => ?_, fun _ => rfl, fun m e => ?_, fun q _ e => ?_⟩
  · exact proj_mget_mmap LongOp.st (fun _ o => o.detach n) (fun _ o => o.st_detach n) {} s.longops k
  · exact (proj_mget_mmap LongOp.kind (fun _ o => o.detach n) (fun _ o => o.kind_detach n) {} s.longops k).trans e
  · rw [State.sessionOpen, session_dropSession]
    split
    · rfl
    · exact e
  · rwa [session_dropSession, if_neg hn]

theorem Quiet.dropSession (hq : Quiet s) (n : Nat) : Quiet (s.dropSession n) where
  presses := hq.presses
  comps := hq.comps
  hosts := by simp [State.dropSession, hq.hosts]
  requests := by simp [State.dropSession, hq.requests, mmap]
  jobs := hq.jobs
  areas := hq.areas
  loads e he i t := by
    obtain ⟨e', he', rfl⟩ := List.mem_map.1 he
    rw [LongOp.kind_detach]
    exact hq.loads e' he' i t

theorem Quiet.takeBack (hq : Quiet s) (x : Session) : Quiet (s.takeBack x) := by
  unfold State.takeBack
  refine List.foldlRecOn _ _ (List.foldlRecOn _ _ hq fun u hu r _ => ?_) fun u hu e _ => ?_
  · dsimp only
    split
    · exact hu.same ⟨rfl, rfl, rfl, rfl, rfl, rfl, rfl⟩
    · exact hu
  · split
    · exact hu.same ⟨rfl, rfl, rfl, rfl, rfl, rfl, rfl⟩
    · exact hu.setCtx _ _

theorem endSession_open {n : Nat} (hq : Quiet s) (ho : (s.session n).st = .isOpen) :
    s.endSession n = (s.dropSession n).takeBack (s.session n) := by
  unfold State.endSession
  dsimp only
  rw [if_neg (by simp [ho])]
  exact settle_quiet ((hq.dropSession n).takeBack _)

theorem endSession_closed {n : Nat} (ho : (s.session n).st ≠ .isOpen) : s.endSession n = s := if_pos ho

/-- A session of a quiet device that ends: the device stays quiet, the session is closed, and nothing else is touched. -/
theorem endSession_ends {n : Nat} (hn : n ≠ 0) (hq : Quiet s) :
    Quiet (s.endSession n) ∧ Steady s (s.endSession n) ∧ (s.endSession n).sessionOpen n = false := by
  by_cases ho : (s.session n).st = .isOpen
  · rw [endSession_open hq ho]
    have hd : Steady s (s.dropSession n) := .dropSession hn (.refl s)
    refine ⟨(hq.dropSession n).takeBack _, .takeBack hd, ?_⟩
    refine (Steady.takeBack (.refl _)).closed n ?_
    rw [State.sessionOpen, session_dropSession, if_pos rfl]
    rfl
  · rw [endSession_closed ho]
    exact ⟨hq, .refl s, by simp [State.sessionOpen, ho]⟩

theorem endSessions_end (c : Nat × Session → Bool) (hc : ∀ e, c e = true → e.1 ≠ 0) (l : List (Nat × Session)) (hq : Quiet s) :
    let t := l.foldl (fun s e => if c e then s.endSession e.1 else s) s
    Quiet t ∧ Steady s t ∧ ∀ e ∈ l, c e = true → t.sessionOpen e.1 = false := by
  induction l generalizing s with
  | nil => exact ⟨hq, .refl s, fun _ h => absurd h List.not_mem_nil⟩
  | cons e l ih =>
    have hstep : Quiet (if c e then s.endSession e.1 else s) ∧ Steady s (if c e then s.endSession e.1 else s) ∧
        (c e = true → (if c e then s.endSession e.1 else s).sessionOpen e.1 = false) := by
      split
      · next hce =>
        obtain ⟨h1, h2, h3⟩ := endSession_ends (hc e hce) hq
        exact ⟨h1, h2, fun _ => h3⟩
      · next hce => exact ⟨hq, .refl s, fun h => absurd h hce⟩
    obtain ⟨hq1, hs1, hclosed⟩ := hstep
    obtain ⟨hq2, hs2, hrest⟩ := ih hq1
    refine ⟨hq2, hs1.trans hs2, fun x hx hcx => ?_⟩
    rcases List.mem_cons.1 hx with rfl | hx
    · exact hs2.closed _ (hclosed hcx)
    · exact hrest x hx hcx

theorem closeSessions_closes (hq : Quiet s) (p : Nat) :
    Quiet (s.closeSessions p) ∧ Steady s (s.closeSessions p) ∧
      ∀ n, n ≠ 0 → (s.session n).part = p → (s.closeSessions p).sessionOpen n = false := by
  obtain ⟨hq1, hs1, hclosed⟩ := endSessions_end
    (fun e => e.1 != 0 && decide (e.2.st = .isOpen) && e.2.part == p) (fun e h => by simp at h; exact h.1.1) s.sessions hq
  unfold State.closeSessions
  extract_lets t ofPart
  change Quiet t at hq1
  change Steady s t at hs1
  change ∀ e ∈ s.sessions, _ → t.sessionOpen e.1 = false at hclosed
  clear_value t
  let c (n : Nat) (x : Session) : Bool := n != 0 && ofPart x
  have hst (n : Nat) : (mget ({} : Session) (mmap (fun n x => x.unpend c n) t.sessions) n).st = (t.session n).st :=
    proj_mget_mmap Session.st (fun n x => x.unpend c n) (fun n x => x.st_unpend c n) {} t.sessions n
  have hqueue : (mget ({} : Session) (mmap (fun n x => x.unpend c n) t.sessions) 0).queue = (t.session 0).queue :=
    proj_mget_mmap Session.queue (fun n x => x.unpend c n) (fun n x => x.queue_unpend c n) {} t.sessions 0
  have hs2 : Steady s { t with sessions := mmap (fun n x => x.unpend c n) t.sessions } := by
    refine hs1.trans ⟨fun _ => rfl, fun _ _ _ _ e => e, fun _ => rfl, fun n e => ?_, fun q _ e => ?_⟩
    · rw [State.sessionOpen, State.session, hst]
      exact e
    · rw [State.session, hqueue]
      exact e
  refine ⟨hq1.same ⟨rfl, rfl, rfl, rfl, rfl, rfl, rfl⟩, hs2, fun n hn hp => ?_⟩
  by_cases ho : (s.session n).st = .isOpen
  · have hmem : (n, s.session n) ∈ s.sessions := by
      rcases mget_mem ({} : Session) s.sessions n with hd | hd
      · rw [State.session, hd] at ho
        cases ho
      · exact hd
    have hc := hclosed _ hmem (by simp [hn, ho, hp])
    exact (congrArg (fun x => decide (x = SessSt.isOpen)) (hst n)).trans hc
  · exact hs2.closed n (by simp [State.sessionOpen, ho])

/-! ### Step 1 of a scrub (R431) -/

theorem endLoads_quiet (hq : Quiet s) (p : Nat) : s.endLoads p = s := by
  refine foldl_same _ s _ fun e he => ?_
  split
  · rfl
  · split
    · next i t hk => exact absurd hk (hq.loads e he i t)
    · rfl

theorem Quiet.teardown (hq : Quiet s) (c : Nat) (st : Status) : Quiet (s.teardown c st) := by
  by_cases ha : (s.ctx c).st = .active
  · exact (teardown_active hq ha st).quiet
  · rw [State.teardown, if_pos ha]
    exact hq

theorem teardowns_end (c : Nat × Ctx → Bool) (l : List (Nat × Ctx)) (hq : Quiet s) :
    let t := l.foldl (fun s e => if c e then s.teardown e.1 St.contextTornDown else s) s
    Quiet t ∧ Steady s t := by
  refine List.foldlRecOn l _ (motive := fun u => Quiet u ∧ Steady s u) ⟨hq, .refl s⟩ fun u hu e _ => ?_
  split
  · exact ⟨hu.1.teardown _ _, .teardown hu.2⟩
  · exact hu

/-- Step 1 of a scrub on a quiet device: the partition is SCRUBBING and no session of it is open. -/
theorem beginScrub_begins (hq : Quiet s) (p : Nat) :
    Quiet (s.beginScrub p) ∧ Steady (s.setPart p { s.part p with st := 2 }) (s.beginScrub p) ∧
      ∀ n, n ≠ 0 → (s.session n).part = p → (s.beginScrub p).sessionOpen n = false := by
  unfold State.beginScrub
  extract_lets x s1 s2
  have hq1 : Quiet s1 := hq.setPart p _ rfl
  obtain ⟨hq2, hs2, hclosed⟩ := closeSessions_closes hq1 p
  have he : s2 = s1.closeSessions p := endLoads_quiet hq2 p
  rw [← he] at hq2 hs2 hclosed
  clear_value s2
  obtain ⟨hq3, hs3⟩ := teardowns_end (fun e => e.2.part = p && decide (e.2.st = .active)) s2.ctxs hq2
  exact ⟨hq3, hs2.trans hs3, fun n hn hp => hs3.closed n (hclosed n hn hp)⟩

/-! ### A long operation begins (R360) -/

/-- The state in which a long operation has its handle, and then that in which its request has the answer. -/
def State.withLong (s : State) (r : MReq) (k : LongKind) (h : Nat) : State :=
  { s with longops := mput s.longops h { kind := k, session := r.session, reqId := r.reqId, ctx := none } }
def State.begun (s : State) (r : MReq) (k : LongKind) (h : Nat) : State :=
  (s.withLong r k h).reply r St.ok [(Key.handle, wn h)]

theorem startLong_begun {r : MReq} {h : Nat} (hh : s.newHandle = some h) (k : LongKind) (f : Nat → State → State) :
    s.startLong r k none f = f h (s.begun r k h) := by
  simp only [State.startLong, hh]
  rfl

theorem longops_reply (u : State) (r : MReq) (st : Status) (items : List (Nat × W64)) :
    (u.reply r st items).longops = u.longops := by
  have h := congrArg State.longops (sessions_reply u r st items)
  exact h

theorem parts_reply (u : State) (r : MReq) (st : Status) (items : List (Nat × W64)) :
    (u.reply r st items).parts = u.parts := by
  have h := congrArg State.parts (sessions_reply u r st items)
  exact h

theorem longop_begun (s : State) (r : MReq) (k : LongKind) (h : Nat) :
    (s.begun r k h).longop h = { kind := k, session := r.session, reqId := r.reqId, ctx := none } := by
  rw [State.begun, State.longop, longops_reply, State.withLong, mget_mput, if_pos rfl]

theorem part_begun (s : State) (r : MReq) (k : LongKind) (h p : Nat) : (s.begun r k h).part p = s.part p :=
  congrArg (mget ({} : Part) · p) (parts_reply ..)

theorem Quiet.begun (hq : Quiet s) (r : MReq) {k : LongKind} (hk : ∀ i t, k ≠ .modelLoad i t) (h : Nat) :
    Quiet (s.begun r k h) := by
  have hw : Quiet (s.withLong r k h) :=
    { presses := hq.presses, comps := hq.comps, hosts := hq.hosts, requests := hq.requests, jobs := hq.jobs
      areas := hq.areas
      loads := fun e he => by
        rcases mem_mput _ _ _ _ he with he | rfl
        · exact hq.loads e he
        · exact hk }
  exact (keepsQuiet_send (s.withLong r k h) r.session (.manage r.reqId St.ok [(Key.handle, wn h)] [] false)).2 hw

/-- What a request that starts a long operation leaves: the operation runs, the partition is in a state, and session 0 has
the handle. -/
def Began (s : State) (r : MReq) (h p : Nat) (t : State) (n : Nat) : Prop :=
  (t.longop h).st = .running ∧ (t.part p).st = n ∧
    let q := (s.session 0).queue ++ [.manage r.reqId St.ok [(Key.handle, wn h)] [] false]
    (t.session 0).queue.take q.length = q

theorem Admitted.session_zero {o : OpRule} {r : MReq} (ha : Admitted s o r) (ho : o.all = false) : r.session = 0 := by
  have hg := ha.passes
  unfold State.gate at hg
  split_ifs at hg with _ _ hall
  simpa [ho] using hall

/-- The base `w` has the long operations and the sessions of a start, in a state `v` of the sessions of `s`. -/
theorem began_of_steady {o : OpRule} {r : MReq} {h p n : Nat} {k : LongKind} (hs : Steady w t) (ha : Admitted s o r)
    (ho : o.all = false) (hv : v.sessions = s.sessions) (hl : w.longops = (v.begun r k h).longops)
    (hw : w.sessions = (v.begun r k h).sessions) (hp : (w.part p).st = n) : Began s r h p t n := by
  have h0 := ha.session_zero ho
  have hq : Answers s (v.begun r k h) r St.ok [(Key.handle, wn h)] := answers_of_sessions (u := v.withLong r k h) ha hv _ _
  have hqueue : (w.session 0).queue = (s.session 0).queue ++ [.manage r.reqId St.ok [(Key.handle, wn h)] [] false] := by
    rw [← h0, ← hq, State.session, hw]
    rfl
  refine ⟨?_, (hs.parts p).trans hp, ?_⟩
  · rw [hs.ops, State.longop, hl]
    exact congrArg LongOp.st (longop_begun v r k h)
  · have hsealed : Sealed ((s.session 0).queue ++ [.manage r.reqId St.ok [(Key.handle, wn h)] [] false]) :=
      ⟨_, _, rfl, fun _ => nofun⟩
    exact (List.prefix_iff_eq_take.1 (hs.queue _ hsealed (by rw [hqueue]))).symm

theorem kind_of_steady {r : MReq} {h q : Nat} {x : Option Part} {b : Bool}
    (hs : Steady w t) (hl : w.longops = (s.begun r (.scrub q x b) h).longops) : (t.longop h).kind = .scrub q x b := by
  refine hs.scrubs h q x b ?_
  rw [State.longop, hl]
  exact congrArg LongOp.kind (longop_begun s r _ h)

theorem session_begun {r : MReq} {k : LongKind} {h n : Nat} (hn : n ≠ r.session) :
    (s.begun r k h).session n = s.session n := by
  unfold State.begun State.reply State.send
  dsimp only
  split
  · rw [State.session_setSession, if_neg (Ne.symm hn)]
    rfl
  · rfl

/-! ### SCRUB, BIST and PARTITION_RESET -/

theorem exec_scrub {r : MReq} (ha : Admitted s (ruleOf false false false [(Key.part, true)]) r) :
    exec (.scrub r) s = .next (s.scrub r) :=
  ha.manage fun s => s.scrub r

theorem exec_bist {r : MReq} (ha : Admitted s { service := true, keys := [(Key.part, false), (Key.chases, false),
    (Key.stackMask, false), (Key.algo, true), (Key.apply, false)] } r) : exec (.bist r) s = .next (s.bist r) :=
  ha.manage fun s => s.bist r

theorem exec_partitionReset {r : MReq} (ha : Admitted s { plain := false } r) :
    exec (.partitionReset r) s = .next (s.partitionReset r) :=
  ha.manage fun s => s.partitionReset r

theorem scrub_begins {r : MReq} {h p : Nat} (hh : s.newHandle = some h) (hp : r.num Key.part = p)
    (hst : (s.part p).st = 1 ∨ (s.part p).st = 3) (hb : s.bistOn p = false) :
    s.scrub r = ((s.begun r (.scrub p none false) h).beginScrub p).settle := by
  unfold State.scrub
  rw [hp]
  dsimp only
  rw [if_neg (by omega), if_neg (by simp [hb]; omega), startLong_begun hh]

theorem scrub_clears {r : MReq} {h p : Nat} (hh : s.newHandle = some h) (hq : Quiet s)
    (ha : Admitted s (ruleOf false false false [(Key.part, true)]) r) (hp : r.num Key.part = p)
    (hst : (s.part p).st = 1 ∨ (s.part p).st = 3) (hb : s.bistOn p = false) :
    ∃ t, exec (.scrub r) s = .next t ∧ Began s r h p t 2 ∧ (t.longop h).kind = .scrub p none false ∧
      ∀ n, n ≠ 0 → (s.session n).part = p → t.sessionOpen n = false := by
  have hu : Quiet (s.begun r (.scrub p none false) h) := hq.begun r (fun _ _ e => by cases e) h
  obtain ⟨hqt, hs, hclosed⟩ := beginScrub_begins hu p
  refine ⟨_, exec_scrub ha, ?_⟩
  rw [scrub_begins hh hp hst hb, settle_quiet hqt]
  refine ⟨began_of_steady hs ha rfl rfl rfl rfl (by simp), kind_of_steady hs rfl, fun n hn hpart => hclosed n hn ?_⟩
  rw [session_begun (ha.session_zero rfl ▸ hn), hpart]

/-! ### Self-tests start (R451, R453) -/

/-- A self-test's record rewritten: no scrub is touched. -/
theorem Steady.setBist {h b b'} (hk : (s.longop h).kind = .bist b') (hs : Steady s₀ s) : Steady s₀ (s.setBist h b) := by
  have hop (n : Nat) : (s.setBist h b).longop n = if h = n then { s.longop h with kind := .bist b } else s.longop n := by
    rw [State.setBist, State.setLongop, State.longop, mget_mput]
    rfl
  refine hs.trans ⟨fun n => ?_, fun n p x c e => ?_, fun _ => rfl, fun _ e => e, fun _ _ e => e⟩
  · rw [hop]
    split
    · next hn => rw [hn]
    · rfl
  · rw [hop]
    split
    · next hn =>
      subst hn
      rw [hk] at e
      cases e
    · exact e

theorem longops_bistPower (s : State) (watts : Nat) : (s.bistPower watts).2.longops = s.longops := by
  unfold State.bistPower
  split <;> rfl

theorem longop_bistPower (s : State) (watts h : Nat) : (s.bistPower watts).2.longop h = s.longop h :=
  congrArg (mget ({} : LongOp) · h) (longops_bistPower s watts)

theorem Steady.startChaseTests {h fuel} (hs : Steady s₀ s) : Steady s₀ (startChaseTests h fuel s) := by
  induction fuel generalizing s with
  | zero => exact hs
  | succ fuel ih =>
    unfold Machine.startChaseTests
    split
    · next b hk =>
      split
      · exact hs
      · refine .ite hs ?_
        dsimp only
        refine .ite (ih (.setBist (b' := b) ?_ (.bistPower hs))) (.bistPower hs)
        rw [longop_bistPower, hk]
    · exact hs

theorem Steady.startStackTest {h} (hs : Steady s₀ s) : Steady s₀ (s.startStackTest h) := by
  unfold State.startStackTest
  split
  · next b hk =>
    split
    · exact hs
    · refine .ite hs ?_
      dsimp only
      refine .ite (.overwritten (.setBist (b' := b) ?_ (.bistPower hs))) (.bistPower hs)
      rw [longop_bistPower, hk]
  · exact hs

theorem Steady.pumpBists (hs : Steady s₀ s) : Steady s₀ s.pumpBists := by
  refine .foldl (fun u e hu => ?_) hs
  split
  · exact .ite (.startStackTest (.startChaseTests hu)) hu
  · exact hu

theorem bist_begins {r : MReq} {h p : Nat} (hh : s.newHandle = some h) (hpart : r.has Key.part = true)
    (hch : r.has Key.chases = false) (hsm : r.has Key.stackMask = false) (hp : r.num Key.part = p) (h0 : (s.part p).st ≠ 0)
    (h2 : (s.part p).st ≠ 2) (hal : s.bistAllowed r = true) (hb : s.bistOn p = false) :
    ∃ b, s.bist r = (((s.begun r (.bist b) h).setPart p { (s.begun r (.bist b) h).part p with st := 3 })).pumpBists := by
  have hps : s.bistParts r = [p] := by simp [State.bistParts, hpart, hp]
  unfold State.bist
  rw [hps, hp]
  dsimp only
  rw [if_neg (by simp [hpart, hch, hsm, h0]), if_neg (by simp [hal]), if_neg (by simp [h2, hb]), startLong_begun hh]
  exact ⟨_, rfl⟩

theorem bist_tests {r : MReq} {h p : Nat} (hh : s.newHandle = some h)
    (ha : Admitted s { service := true, keys := [(Key.part, false), (Key.chases, false), (Key.stackMask, false),
      (Key.algo, true), (Key.apply, false)] } r) (hpart : r.has Key.part = true)
    (hch : r.has Key.chases = false) (hsm : r.has Key.stackMask = false) (hp : r.num Key.part = p) (h0 : (s.part p).st ≠ 0)
    (h2 : (s.part p).st ≠ 2) (hal : s.bistAllowed r = true) (hb : s.bistOn p = false) :
    ∃ t, exec (.bist r) s = .next t ∧ Began s r h p t 3 := by
  obtain ⟨b, hbist⟩ := bist_begins hh hpart hch hsm hp h0 h2 hal hb
  refine ⟨_, exec_bist ha, ?_⟩
  rw [hbist]
  exact began_of_steady (.pumpBists (.refl _)) ha rfl rfl rfl rfl (by simp)

/-! ### A partition reset (R39, R476) -/

theorem resetGroups_rest (es : List (Nat × W64)) (h : ∀ e ∈ es, e.1 ≠ Key.part) : resetGroups es = (es, []) := by
  induction es with
  | nil => rfl
  | cons e es ih =>
    rw [resetGroups, ih fun x hx => h x (.tail _ hx)]
    exact if_neg (h e (.head _))

theorem resetGroups_one (w : W64) (es : List (Nat × W64)) (h : ∀ e ∈ es, e.1 ≠ Key.part) :
    resetGroups ((Key.part, w) :: es) = ([], [(w.toNat, es)]) := by
  rw [resetGroups, resetGroups_rest es h]
  rfl

/-- The state with the layout of a reset. -/
def State.laidOut (s : State) (p : Nat) (fs : List Part) (spread : Nat) (all : BitVec 32) : State :=
  ((s.setLayout fs spread).remap all).storeLayout [p] fs spread

/-- The eight configurations after a reset of one partition. -/
def State.confsWith (s : State) (p : Nat) (es : List (Nat × W64)) : List Part :=
  (upTo 8).map fun q => if q = p then s.resetConf es else s.confOf q

theorem nth_confsWith (s : State) {p : Nat} (hp : p < 8) (es : List (Nat × W64)) :
    nth {} (s.confsWith p es) p = s.resetConf es := by
  simp [nth, State.confsWith, upTo, hp]

theorem map_confsWith {s : State} {p : Nat} {es : List (Nat × W64)} (f : Nat → Part)
    (hf : ∀ q, f q = if q = p then s.resetConf es else s.confOf q) : (upTo 8).map f = s.confsWith p es :=
  List.map_congr_left fun q _ => hf q

theorem partitionReset_one {r : MReq} {p : Nat} {es : List (Nat × W64)} (hr : r.items = (Key.part, wn p) :: es) (hp : p < 8)
    (hes : ∀ e ∈ es, e.1 ≠ Key.part) (hok : resetItemsOk (p, es) = true) (hsp : ∀ e ∈ es, e.1 ≠ Key.spread)
    (hpres : (s.resetConf es).present = true)
    (href : s.resetRefusal [(p, es)] (s.confsWith p es) (s.regFld .hbm 0 0 8 8) = none) :
    ∃ all, s.partitionReset r =
      ((s.laidOut p (s.confsWith p es) (s.regFld .hbm 0 0 8 8) all).resetPart r p (s.resetConf es)).settle := by
  have hw : (wn p).toNat = p := by
    rw [wn, BitVec.toNat_ofNat]
    omega
  have hspread : ((Key.part, wn p) :: es).filter (fun e => e.1 == Key.spread) = [] := by
    rw [List.filter_eq_nil_iff]
    intro e he
    rcases List.mem_cons.1 he with rfl | he
    · simp [Key.part, Key.spread]
    · simpa using hsp e he
  have hidle : ¬([p].all fun q => !(s.part q).present && !(nth {} (s.confsWith p es) q).present) = true := by
    rw [List.all_cons, nth_confsWith s hp, hpres, Bool.not_true, Bool.and_false, Bool.false_and]
    exact Bool.false_ne_true
  unfold State.partitionReset
  rw [hr, resetGroups_one _ _ hes, hw, hspread]
  dsimp only
  rw [if_neg (by simp [hok, dedup]), map_confsWith (p := p) (es := es), href]
  · dsimp only [List.foldl, List.map]
    rw [nth_confsWith s hp, if_neg hidle]
    exact ⟨_, rfl⟩
  · intro q
    by_cases hq : p = q
    · simp [hq]
    · simp [hq, Ne.symm hq]

theorem Quiet.laidOut (hq : Quiet s) (p : Nat) (fs : List Part) (spread : Nat) (all : BitVec 32) :
    Quiet (s.laidOut p fs spread all) :=
  hq.same ⟨rfl, rfl, rfl, rfl, rfl, rfl, rfl⟩

theorem newHandle_laidOut (s : State) (p : Nat) (fs : List Part) (spread : Nat) (all : BitVec 32) :
    (s.laidOut p fs spread all).newHandle = s.newHandle := rfl

theorem sessions_laidOut (s : State) (p : Nat) (fs : List Part) (spread : Nat) (all : BitVec 32) :
    (s.laidOut p fs spread all).sessions = s.sessions := rfl

/-- One partition of an accepted reset: its scrub begins, from a state in which a partition that comes to be has its first
key set (R428). -/
theorem resetPart_begins {r : MReq} {h p : Nat} {x : Part} (hq : Quiet s) (hh : s.newHandle = some h)
    (hx : x.present = true) : ∃ w, (s.resetPart r p x).settle = s.resetPart r p x ∧
      Steady w (s.resetPart r p x) ∧ w.longops = (s.begun r (.scrub p (some x) false) h).longops ∧
      w.sessions = (s.begun r (.scrub p (some x) false) h).sessions ∧ (w.part p).st = 2 := by
  have hu : Quiet (s.begun r (.scrub p (some x) false) h) := hq.begun r (fun _ _ e => by cases e) h
  unfold State.resetPart
  dsimp only
  rw [if_neg (by simp [hx]), startLong_begun hh]
  have hpart : (s.begun r (.scrub p (some x) false) h).part p = s.part p := part_begun ..
  generalize s.begun r (.scrub p (some x) false) h = u at hu hpart ⊢
  split
  · obtain ⟨hqt, hs, -⟩ := beginScrub_begins hu p
    exact ⟨_, settle_quiet hqt, hs, rfl, rfl, by simp⟩
  · obtain ⟨hqt, hs, -⟩ := beginScrub_begins (hu.setPart p { s.part p with keyEpoch := (s.part p).keyEpoch + 1 } (by rw [hpart])) p
    exact ⟨_, settle_quiet hqt, hs, rfl, rfl, by simp⟩

theorem reset_begins {r : MReq} {h p : Nat} {es : List (Nat × W64)} (hh : s.newHandle = some h) (hq : Quiet s)
    (ha : Admitted s { plain := false } r) (hr : r.items = (Key.part, wn p) :: es) (hp : p < 8)
    (hes : ∀ e ∈ es, e.1 ≠ Key.part) (hok : resetItemsOk (p, es) = true) (hsp : ∀ e ∈ es, e.1 ≠ Key.spread)
    (hpres : (s.resetConf es).present = true)
    (href : s.resetRefusal [(p, es)] (s.confsWith p es) (s.regFld .hbm 0 0 8 8) = none) :
    ∃ t, exec (.partitionReset r) s = .next t ∧ Began s r h p t 2 ∧
      (t.longop h).kind = .scrub p (some (s.resetConf es)) false := by
  obtain ⟨all, hreset⟩ := partitionReset_one hr hp hes hok hsp hpres href
  have hlaid := hq.laidOut p (s.confsWith p es) (s.regFld .hbm 0 0 8 8) all
  generalize hv : s.laidOut p (s.confsWith p es) (s.regFld .hbm 0 0 8 8) all = v at hreset hlaid
  have hsess : v.sessions = s.sessions := by rw [← hv, sessions_laidOut]
  obtain ⟨w, hsettle, hs, hl, hw, hst⟩ :=
    resetPart_begins (r := r) (p := p) hlaid (by rw [← hv, newHandle_laidOut, hh]) hpres
  refine ⟨_, exec_partitionReset ha, ?_⟩
  rw [hreset, hsettle]
  exact ⟨began_of_steady hs ha rfl hsess hl hw hst, kind_of_steady hs hl⟩

/-- Settles O21, from the three requests. -/
theorem partitionsCleared : Obligations.PartitionsCleared := by
  intro s r h p hh
  refine fun hq => ⟨fun ha hp hst hb => ?_, fun ha hpart hch hsm hp h0 h2 hal hb => ?_,
    fun es ha hr hp hes hok hsp hpres href => ?_⟩
  · exact scrub_clears hh hq ha hp hst hb
  · exact bist_tests hh ha hpart hch hsm hp h0 h2 hal hb
  · exact reset_begins hh hq ha hr hp hes hok hsp hpres href

end Sys2Proof.Machine
end

/-! # Formes installed, and takes split among members (R16 to R20, R341 to R343) -/

section
open Sys2Proof Sys2Proof.Machine
namespace Sys2Proof.Machine

variable {s : State}

/-! ### Forme descriptors (R16, R17) -/

theorem length_toWords (n : Nat) (bs : List Byte) : (toWords n bs).length = n := by
  induction n generalizing bs with
  | zero => rfl
  | succ n ih => simp [toWords, ih]

theorem nth_toWords_zero (n : Nat) (bs : List Byte) (h : 1 ≤ n) : nth 0 (toWords n bs) 0 = nth 0 (toWords 1 bs) 0 := by
  obtain ⟨n, rfl⟩ := Nat.exists_eq_add_of_le' h
  rfl

/-- What a descriptor says of the forme that it describes. -/
structure Describes (s : State) (body : List Byte) (h : Nat) (f : Forme) : Prop where
  handle : h = fld (nth 0 (toWords (body.length / 8) body) 0) 61 52
  level : f.level = fld (nth 0 (toWords (body.length / 8) body) 0) 2 0
  ctx : f.ctx = fld (nth 0 (toWords (body.length / 8) body) 0) 35 24
  length : body.length = 64 + 8 * fld (nth 0 (toWords (body.length / 8) body) 0) 20 8
  members : f.members = ((toWords (body.length / 8) body).drop 8).map memberOf
  fresh : mhas s.formes h = false

theorem checkForme_describes {body : List Byte} {h : Nat} {f : Forme} (hc : s.checkForme body = some (h, f)) :
    Describes s body h f := by
  unfold State.checkForme at hc
  extract_lets ws w0 w1 level count c hd tag mws ms x presses ok at hc
  split at hc
  · next hok =>
    obtain ⟨rfl, rfl⟩ := Prod.mk.inj (Option.some.inj hc)
    simp only [ok, Bool.and_eq_true, beq_iff_eq, Bool.not_eq_true'] at hok
    exact ⟨rfl, rfl, rfl, hok.1.1.1.1.1.1.1, rfl, hok.2⟩
  · cases hc

section
variable {body : List Byte} {h : Nat} {f : Forme} (hd : Describes s body h f)
include hd

theorem Describes.count : f.members.length = fld (nth 0 (toWords (body.length / 8) body) 0) 20 8 := by
  have hl := hd.length
  rw [hd.members, List.length_map, List.length_drop, length_toWords]
  omega

theorem Describes.member (i : Nat) (hi : i < f.members.length) :
    nth {} f.members i = memberOf (nth 0 (toWords (body.length / 8) body) (8 + i)) := by
  have hm := hd.members
  generalize toWords (body.length / 8) body = ws at hm ⊢
  rw [hm, List.length_map, List.length_drop] at hi
  have hlt : 8 + i < ws.length := by omega
  simp [hm, nth, List.getElem?_eq_getElem hlt]

/-- The word that says a descriptor's context and handle. -/
theorem Describes.head : nth 0 (toWords 1 body) 0 = nth 0 (toWords (body.length / 8) body) 0 := by
  have hl := hd.length
  exact (nth_toWords_zero _ body (by omega)).symm

end

theorem exec_formeInstall {r : MReq} {body : List Byte} (ha : Admitted s { all := true, plain := false } r) :
    exec (.formeInstall r body) s = .next (s.installForme r body) :=
  ha.manage fun s => s.installForme r body

theorem installForme_installs {r : MReq} {body : List Byte} {h : Nat} {f : Forme}
    (hown : r.session = 0 ∨ (s.ctx f.ctx).part = (s.session r.session).part) (hc : s.checkForme body = some (h, f)) :
    s.installForme r body = State.done { s with formes := mput s.formes h f, free := s.free + 1 } r := by
  have hd := checkForme_describes hc
  unfold State.installForme
  dsimp only
  rw [hd.head, ← hd.ctx, ← hd.handle, hc]
  dsimp only
  rw [if_neg (by rcases hown with h0 | hp <;> simp [*]), if_neg (by simp [hd.fresh])]

/-- FORME_RELEASE of a forme that the session may name. -/
theorem exec_formeRelease {r : MReq} {h : Nat} (ha : Admitted s (ruleOf true false false [(Key.forme, true)]) r)
    (hr : r.num Key.forme = h) (hh : mhas s.formes h = true)
    (hown : r.session = 0 ∨ (s.ctx (s.forme h).ctx).part = (s.session r.session).part) :
    exec (.formeRelease r) s = .next (if s.formeBusy h then s.refuse r St.formeBusy
      else State.done { s with formes := mdel s.formes h } r) := by
  have hrule : ({ all := true, keys := [(Key.forme, true)] } : OpRule) = ruleOf true false false [(Key.forme, true)] := rfl
  change execFormeRelease r s = _
  rw [execFormeRelease, hrule, ha.manage]
  dsimp only
  rw [hr, if_neg (by simp [hh]), if_neg (by rcases hown with h0 | hp <;> simp [*])]

theorem formesInstalled : Claims.FormesInstalled := by
  intro s r
  refine ⟨fun body h f ha hown hc => ?_, fun h ha hr hh hown => ⟨fun hb => ?_, fun hb => ?_⟩⟩
  · have hd := checkForme_describes hc
    refine ⟨hd.handle, hd.level, hd.ctx, hd.count, hd.member, responds_reply ha (by rfl) ?_⟩
    rw [exec_formeInstall ha, installForme_installs hown hc]
    rfl
  · refine responds_reply ha (by rfl) ?_
    rw [exec_formeRelease ha hr hh hown, if_neg (by simp [hb])]
    rfl
  · refine responds_reply ha (by rfl) ?_
    rw [exec_formeRelease ha hr hh hown, if_pos hb]
    rfl

/-! ### A queue's next take (R341, R343) -/

theorem exec_imposerSplit {q k : Nat} {t : Take} (hq : mhas s.queues q = true)
    (hk : s.nextTakeOf (mget {} s.queues q) = some k) (ht : mfind? s.takes k = some t) :
    exec (.imposerSplit q) s = .next (s.impose k t) := by
  have hx : exec (.imposerSplit q) s = if mhas s.queues q then .next (s.imposeQueue q) else .fault .noSuchUnit := rfl
  rw [hx, if_pos hq, State.imposeQueue, hk]
  dsimp only
  rw [ht]

/-- The share of a take on a level-3 forme: all of it, for the press of its one member. -/
def wholePiece (t : Take) (m : Member) : Piece :=
  { device := m.device, press := m.index, far := none, descs := t.descs, window := t.window, via := [t.forme] }

theorem split_press {t : Take} {m : Member} (hl : (s.forme t.forme).level = 3) (hm : (s.forme t.forme).members = [m]) :
    s.split 6 t.forme t.descs t.window t.granule [] = [wholePiece t m] := by
  simp [State.split, hl, hm, wholePiece]

/-- A take on a level-3 forme of this device whose tensors can be split: its one sub-take is given to the press. -/
theorem impose_press {k : Nat} {t : Take} {m : Member} (hmark : t.marker = false) (hf : mhas s.formes t.forme = true)
    (hl : (s.forme t.forme).level = 3) (hm : (s.forme t.forme).members = [m]) (hdev : m.device = s.myId)
    (hds : ∀ d ∈ t.descs, (tdOf d).role = true ∨ splitOk t.granule d = true)
    (hg : splitGranules t.descs t.window t.granule ≠ 0) :
    s.impose k t = (State.openBarriers { s with takes := mput s.takes k { t with st := .running, left := 1 } } k
      [wholePiece t m]).giveSub k t 0 (wholePiece t m) := by
  have hok : ((t.descs.filter fun d => !(tdOf d).role).any fun d => !splitOk t.granule d) = false := by
    rw [List.any_eq_false]
    intro d hd
    obtain ⟨hmem, hrole⟩ := List.mem_filter.1 hd
    rcases hds d hmem with h | h
    · simp [h] at hrole
    · simp [h]
  unfold State.impose
  rw [if_neg (by simp [hmark]), if_neg (by simp [hf]), if_neg (by simp [hok]), if_neg hg, split_press hl hm]
  exact if_pos (by simp [wholePiece, hdev]; rfl)

/-- A sub-take given to a press waits on the list of sub-takes; the press may be asked to yield. -/
theorem giveSub_waits (s : State) (k : Nat) (t : Take) (i : Nat) (p : Piece) :
    ∃ m, s.giveSub k t i p = { s with
      nextSub := s.nextSub + 1
      subs := mput s.subs s.nextSub { take := k, ctx := t.ctx, press := p.press, member := i, via := p.via, descs := p.descs,
                                      arg := t.arg, entry := t.entry, window := p.window, order := t.order }
      presses := m } := by
  unfold State.giveSub
  dsimp only
  split
  · split
    · exact ⟨_, rfl⟩
    · exact ⟨s.presses, rfl⟩
  · exact ⟨s.presses, rfl⟩

/-! ### Shares in proportion (R19) -/

theorem sumL_eq_sum (l : List Nat) : sumL l = l.sum := by
  rw [sumL, List.sum_eq_foldl]

/-- Granules of each member: the proportion rounded down, and one more for the first of those left over. -/
def portions (g : Nat) (cs : List Nat) : List Nat :=
  (List.range cs.length).map fun i =>
    nth 0 (cs.map fun c => g * c / sumL cs) i + if i < g - sumL (cs.map fun c => g * c / sumL cs) then 1 else 0

theorem apportion_eq (g : Nat) (cs : List Nat) :
    apportion g cs = (List.range cs.length).map fun i => (sumL ((portions g cs).take i), nth 0 (portions g cs) i) := rfl

theorem length_portions (g : Nat) (cs : List Nat) : (portions g cs).length = cs.length := by simp [portions]

theorem map_snd_apportion (g : Nat) (cs : List Nat) : (apportion g cs).map (·.2) = portions g cs := by
  refine List.ext_getElem (by simp [apportion_eq, length_portions]) fun i h1 h2 => ?_
  simp [apportion_eq, nth, h2]

theorem nth_apportion (g : Nat) (cs : List Nat) (i : Nat) (hi : i < cs.length) :
    nth (0, 0) (apportion g cs) i = (sumL ((portions g cs).take i), nth 0 (portions g cs) i) := by
  simp [apportion_eq, nth, hi]

theorem nth_portions (g : Nat) (cs : List Nat) (i : Nat) (hi : i < cs.length) :
    nth 0 (portions g cs) i = g * nth 0 cs i / sumL cs +
      if i < g - sumL (cs.map fun c => g * c / sumL cs) then 1 else 0 := by
  simp [portions, nth, hi]

/-- The proportions rounded down give out no more than there is, and leave less than one for each member. -/
theorem sum_proportions (g t : Nat) (ht : t ≠ 0) (cs : List Nat) :
    t * (cs.map fun c => g * c / t).sum ≤ g * cs.sum ∧
      g * cs.sum ≤ t * (cs.map fun c => g * c / t).sum + t * cs.length := by
  induction cs with
  | nil => simp
  | cons c cs ih =>
    have hlow : t * (g * c / t) ≤ g * c := Nat.mul_div_le ..
    have hhigh : g * c < t * (g * c / t) + t := Nat.lt_mul_div_succ _ (Nat.pos_of_ne_zero ht)
    simp only [List.map_cons, List.sum_cons, List.length_cons, Nat.mul_add, Nat.mul_one]
    omega

theorem sum_leftovers (n k : Nat) (h : k ≤ n) : ((List.range n).map fun i => if i < k then 1 else 0).sum = k := by
  induction n with
  | zero => simp [Nat.le_zero.1 h]
  | succ n ih =>
    rw [List.range_succ, List.map_append, List.sum_append]
    by_cases hk : k ≤ n
    · simp [ih hk, Nat.not_lt.2 hk]
    · obtain rfl : k = n + 1 := by omega
      have hall : ((List.range n).map fun i => if i < n + 1 then 1 else 0) = (List.range n).map fun _ => 1 :=
        List.map_congr_left fun i hi => if_pos (Nat.lt_succ_of_lt (List.mem_range.1 hi))
      rw [hall]
      simp

/-- Every granule goes to exactly one member. -/
theorem sum_portions (g : Nat) (cs : List Nat) (ht : sumL cs ≠ 0) : (portions g cs).sum = g := by
  have hbase := sum_proportions g (sumL cs) ht cs
  rw [← sumL_eq_sum cs, ← Nat.mul_comm (sumL cs) g, ← Nat.mul_add] at hbase
  have hle := Nat.le_of_mul_le_mul_left hbase.1 (Nat.pos_of_ne_zero ht)
  have hge := Nat.le_of_mul_le_mul_left hbase.2 (Nat.pos_of_ne_zero ht)
  have hmap : (List.range cs.length).map (fun i => nth 0 (cs.map fun c => g * c / sumL cs) i) =
      cs.map fun c => g * c / sumL cs :=
    List.ext_getElem (by simp) fun i h1 h2 => by
      have hi : i < cs.length := by simpa using h1
      simp [nth, hi]
  rw [portions, List.sum_map_add, hmap, sum_leftovers, sumL_eq_sum (cs.map _)]
  · omega
  · rw [sumL_eq_sum (cs.map _)]
    omega

theorem takesSplit : Claims.TakesSplit := by
  refine ⟨fun s q k t hq hk ht => ⟨fun hmark hfence => ?_, fun m hmark hf hl hm _ hdev hds hg => ?_⟩, fun g cs hcs => ?_⟩
  · obtain ⟨f, qs, ss, he⟩ := exists_endTake ht hfence St.ok
    have hend : s.impose k t = s.endTake k St.ok := if_pos hmark
    refine ⟨_, exec_imposerSplit hq hk ht, ?_⟩
    rw [hend, he]
    exact ⟨_, mfind_mput_same .., rfl, rfl⟩
  · obtain ⟨ps, he⟩ := giveSub_waits (State.openBarriers
      { s with takes := mput s.takes k { t with st := .running, left := 1 } } k [wholePiece t m]) k t 0 (wholePiece t m)
    refine ⟨_, { take := k, ctx := t.ctx, press := m.index, member := 0, via := [t.forme], descs := t.descs, arg := t.arg,
                 entry := t.entry, window := t.window, order := t.order }, exec_imposerSplit hq hk ht, ?_⟩
    rw [impose_press hmark hf hl hm hdev hds hg, he]
    exact ⟨mfind_mput_same .., rfl, rfl, rfl, rfl, rfl, rfl, rfl, rfl, mfind_mput_same ..⟩
  · refine ⟨by simp [apportion_eq], ?_, fun i hi => ?_⟩
    · rw [map_snd_apportion, sumL_eq_sum, sum_portions g cs hcs]
    · rw [nth_apportion g cs i hi]
      refine ⟨?_, ?_⟩
      · rw [List.map_take, map_snd_apportion]
      · dsimp only
        rw [nth_portions g cs i hi]
        split
        · exact .inr rfl
        · exact .inl rfl

/-- Settles O56, from its two parts. -/
theorem takesInstalled : Obligations.TakesInstalled := ⟨formesInstalled, takesSplit⟩

end Sys2Proof.Machine
end

/-! # Entries of a context's page tables

`MAP`, `UNMAP` and `PROTECT` rewrite the entries of one size in a range and no other (R33). -/

section
open Sys2Proof Sys2Proof.Machine
namespace Sys2Proof.Machine

theorem mfind_mdel {α : Type} (m : Map α) (k j : Nat) :
    mfind? (mdel m k) j = if k = j then none else mfind? m j := by
  induction m with
  | nil => simp [mdel, mfind?]
  | cons e m ih =>
    obtain ⟨k', v⟩ := e
    by_cases hk : k' = k
    · subst hk
      by_cases hj : k' = j
      · rw [mdel, if_pos rfl, ih, if_pos hj, if_pos hj]
      · rw [mdel, if_pos rfl, ih, if_neg hj, if_neg hj, mfind?, if_neg hj]
    · rw [mdel, if_neg hk, mfind?, mfind?, ih]
      by_cases hj : k' = j
      · rw [if_pos hj, if_pos hj, if_neg fun h => hk (hj.trans h.symm)]
      · rw [if_neg hj, if_neg hj]

theorem mem_nums {g : PageRange} {k : Nat} : k ∈ g.nums ↔ g.first ≤ k ∧ k < g.first + g.count := by
  simp only [PageRange.nums, span, List.mem_map, List.mem_range]
  exact ⟨fun ⟨i, hi, he⟩ => by omega, fun h => ⟨k - g.first, by omega⟩⟩

section
variable (x : Ctx) (l l' : Bool) (k k' : Nat)

theorem entryOf_putEntry (p : Page) :
    (x.putEntry l k p).entryOf l' k' = if l = l' ∧ k = k' then some p else x.entryOf l' k' := by
  cases l <;> cases l' <;> simp [Ctx.putEntry, Ctx.entryOf, mfind_mput]

theorem entryOf_delEntry :
    (x.delEntry l k).entryOf l' k' = if l = l' ∧ k = k' then none else x.entryOf l' k' := by
  cases l <;> cases l' <;> simp [Ctx.delEntry, Ctx.entryOf, mfind_mdel]

/-- Consecutive pages that are given entries one after the other. -/
theorem entryOf_putEntries (first n : Nat) (f : Nat → Page) :
    ((List.range n).foldl (fun x i => x.putEntry l (first + i) (f i)) x).entryOf l' k' =
      if l = l' ∧ first ≤ k' ∧ k' < first + n then some (f (k' - first)) else x.entryOf l' k' := by
  induction n with
  | zero => rw [List.range_zero, List.foldl_nil, if_neg (by omega)]
  | succ n ih =>
    rw [List.range_succ, List.foldl_append, List.foldl_cons, List.foldl_nil, entryOf_putEntry, ih]
    by_cases hk : first + n = k'
    · subst hk
      by_cases hl : l = l' <;> simp [hl]
    · simp only [hk, and_false, if_false]
      refine if_congr (and_congr_right fun _ => by omega) rfl rfl

theorem protect_protect (p : Page) (b : BitVec 3) : (p.protect b).protect b = p.protect b := rfl

theorem entryOf_protectPages (b : BitVec 3) (ks : List Nat) :
    (ks.foldl (fun x k => match x.entryOf l k with
      | some p => x.putEntry l k (p.protect b)
      | none => x) x).entryOf l' k' =
      if l = l' ∧ k' ∈ ks then (x.entryOf l' k').map (·.protect b) else x.entryOf l' k' := by
  induction ks generalizing x with
  | nil => simp
  | cons k ks ih =>
    rw [List.foldl_cons, ih]
    have hstep : (match x.entryOf l k with
        | some p => x.putEntry l k (p.protect b)
        | none => x).entryOf l' k' =
        if l = l' ∧ k = k' then (x.entryOf l' k').map (·.protect b) else x.entryOf l' k' := by
      cases he : x.entryOf l k with
      | none =>
        change x.entryOf l' k' = _
        split
        next h => rw [← h.1, ← h.2, he]; rfl
        next => rfl
      | some p =>
        refine (entryOf_putEntry ..).trans ?_
        split
        next h => rw [← h.1, ← h.2, he]; rfl
        next => rfl
    rw [hstep]
    by_cases hl : l = l'
    · by_cases hk : k = k'
      · subst hl hk
        cases x.entryOf l k <;> simp [protect_protect]
      · simp [hl, hk, Ne.symm hk]
    · simp [hl]

end

/-- The entries of context `c` in a range are rewritten: nothing else of any context is. -/
structure Remaps (s t : State) (c : Nat) (g : PageRange) : Prop where
  outside : ∀ l k, ¬(g.large = l ∧ k ∈ g.nums) → (t.ctx c).entryOf l k = (s.ctx c).entryOf l k
  ctxs : ∀ d, d ≠ c → t.ctx d = s.ctx d

section
variable {s t u : State} {c : Nat} {g : PageRange}

/-- Its parts in the words of the statement on pages. -/
theorem Remaps.others (h : Remaps s t c g) :
    (∀ k, k ∉ g.nums → (t.ctx c).entryOf g.large k = (s.ctx c).entryOf g.large k) ∧
      (∀ k, (t.ctx c).entryOf (!g.large) k = (s.ctx c).entryOf (!g.large) k) ∧ ∀ d, d ≠ c → t.ctx d = s.ctx d :=
  ⟨fun k hk => h.outside _ k fun hm => hk hm.2, fun k => h.outside _ k fun hm => by simp at hm, h.ctxs⟩

/-- A context replaced by one with other entries in the range alone. -/
theorem remaps_setCtx (hu : u.ctxs = s.ctxs) {x : Ctx}
    (hx : ∀ l k, ¬(g.large = l ∧ k ∈ g.nums) → x.entryOf l k = (s.ctx c).entryOf l k) :
    Remaps s (u.setCtx c x) c g where
  outside l k hk := by rw [State.ctx_setCtx, if_pos rfl, hx l k hk]
  ctxs d hd := by
    rw [State.ctx_setCtx, if_neg (Ne.symm hd)]
    exact congrArg (mget ({} : Ctx) · d) hu

theorem Remaps.of_ctxs (h : Remaps s t c g) (hu : u.ctxs = t.ctxs) : Remaps s u c g := by
  have hctx (d : Nat) : u.ctx d = t.ctx d := congrArg (mget ({} : Ctx) · d) hu
  exact ⟨fun l k hk => by rw [hctx, h.outside l k hk], fun d hd => by rw [hctx, h.ctxs d hd]⟩

theorem ctxs_reply (r : MReq) (st : Status) (items : List (Nat × W64)) : (u.reply r st items).ctxs = u.ctxs :=
  (keepsQuiet_send ..).1

theorem ctx_reply (r : MReq) (st : Status) (items : List (Nat × W64)) (d : Nat) :
    (u.reply r st items).ctx d = u.ctx d := congrArg (mget ({} : Ctx) · d) (ctxs_reply ..)

theorem mem_reply (r : MReq) (st : Status) (items : List (Nat × W64)) : (u.reply r st items).mem = u.mem := by
  obtain ⟨ss, h⟩ := exists_send u r.session (.manage r.reqId st items [] false)
  rw [State.reply, h]

end

/-! ## MAP -/

section
variable {s : State} {r : MReq} {g : PageRange}

theorem exec_map (ha : Admitted s (ruleOf true false false (mapKeys ++
    [(Key.pte, true), (Key.image, false), (Key.imagePage, false)])) r) : exec (.map r) s = .next (s.map r) :=
  ha.manage fun s => s.map r

/-- A MAP of unmapped pages by a well-formed PTE item, of no image. -/
structure MapsPages (s : State) (r : MReq) (g : PageRange) : Prop where
  range : pageRange r = some g
  pte : pteOk ((r.item? Key.pte).getD 0) = true
  untouched : ∀ k ∈ g.nums, (s.ctx (r.num Key.context)).touched g.large k = false
  noImage : r.has Key.image = false
  noPage : r.has Key.imagePage = false

theorem MapsPages.map_eq (h : MapsPages s r g) :
    s.map r =
      if fld ((r.item? Key.pte).getD 0) 63 48 = s.myId then
        match s.mapLocal (r.num Key.context) g (ptePage ((r.item? Key.pte).getD 0)) g.nums with
        | none => s.refuse r St.descriptorInvalid
        | some s => s.done r
      else if g.large && fld ((r.item? Key.pte).getD 0) 20 16 != 0 then s.refuse r St.descriptorInvalid
      else (s.mapFar (r.num Key.context) g (ptePage ((r.item? Key.pte).getD 0)) ((r.item? Key.pte).getD 0)).done r := by
  obtain ⟨hg, hw, ht, hi, hp⟩ := h
  have hfree : g.nums.any ((s.ctx (r.num Key.context)).touched g.large) = false :=
    List.any_eq_false.2 fun k hk => by simp [ht k hk]
  simp only [State.map, hg, hw, hfree, hi, hp]
  rfl

/-- The entry that MAP gives to page `i` of a range of a peer. -/
def farPage (w : W64) (g : PageRange) (i : Nat) : Page :=
  { ptePage w with tgt := .remote (fld w 63 48) (fld w 47 16 * 0x10000 + i * g.size) }

theorem mapFar_eq (c : Nat) (g : PageRange) (w : W64) :
    s.mapFar c g (ptePage w) w = s.setCtx c
      ((List.range g.count).foldl (fun x i => x.putEntry g.large (g.first + i) (farPage w g i)) (s.ctx c)) := rfl

theorem remaps_mapFar (c : Nat) (g : PageRange) (w : W64) :
    Remaps s (s.mapFar c g (ptePage w) w) c g ∧
      ∀ i < g.count, ((s.mapFar c g (ptePage w) w).ctx c).entryOf g.large (g.first + i) = some (farPage w g i) := by
  rw [mapFar_eq]
  refine ⟨remaps_setCtx rfl fun l k hk => ?_, fun i hi => ?_⟩
  · rw [entryOf_putEntries, if_neg (by rwa [mem_nums] at hk)]
  · rw [State.ctx_setCtx, if_pos rfl, entryOf_putEntries, if_pos (by simp [hi]), Nat.add_sub_cancel_left]

/-- The entry that MAP gives to a page of the device's own memory. -/
def ownPage (w : W64) (a : Nat) : Page := { ptePage w with tgt := .frame a, own := true }

theorem mapLocal_single {c a : Nat} {g : PageRange} (w : W64) (hg : g.count = 1)
    (ha : s.findFrame (s.ctx c).part (s.ctx c).priv g.size = some a) :
    ∃ t, s.mapLocal c g (ptePage w) g.nums = some t ∧ t.sessions = s.sessions ∧ Remaps s t c g ∧
      (t.ctx c).entryOf g.large g.first = some (ownPage w a) := by
  have hnums : g.nums = [g.first] := by rw [PageRange.nums, hg]; rfl
  let u := s.takeFrame (s.ctx c).part a g.size
  have hu : u.ctxs = s.ctxs := rfl
  refine ⟨u.setCtx c ((u.ctx c).putEntry g.large g.first (ownPage w a)), ?_, rfl, remaps_setCtx hu fun l k hk => ?_, ?_⟩
  · rw [hnums]
    simp only [State.mapLocal, ha]
    rfl
  · rw [entryOf_putEntry, if_neg (by rintro ⟨hl, rfl⟩; exact hk ⟨hl, by simp [hnums]⟩)]
    rfl
  · rw [State.ctx_setCtx, if_pos rfl, entryOf_putEntry, if_pos ⟨rfl, rfl⟩]

end

/-! ## UNMAP and PROTECT -/

section
variable {s : State} {r : MReq} {g : PageRange}

/-- The waiting request that UNMAP, or a PROTECT to `perm`, leaves. -/
def unmapOf (r : MReq) (g : PageRange) (perm : Option (BitVec 3)) : UnmapReq :=
  { ctx := r.num Key.context, first := g.first, pages := g.count, large := g.large, perm := perm
    session := r.session, reqId := r.reqId }

theorem queueUnmap_free {i : Nat} (perm : Option (BitVec 3)) (hi : mfree s.unmaps 65536 0 = some i) :
    s.queueUnmap r g perm = { s with unmaps := mput s.unmaps i (unmapOf r g perm) } := by
  rw [State.queueUnmap, hi]
  rfl

theorem exec_unmap (ha : Admitted s (ruleOf true false false mapKeys) r) (hg : pageRange r = some g)
    (hm : s.rangeMapped (r.num Key.context) g = true) : exec (.unmap r) s = .next (s.queueUnmap r g none) := by
  refine (ha.manage fun s => match pageRange r with
    | none => s.refuse r St.descriptorInvalid
    | some g =>
      if s.rangeMapped (r.num Key.context) g then s.queueUnmap r g none else s.refuse r St.descriptorInvalid).trans ?_
  simp only [hg]
  exact congrArg _ (if_pos hm)

theorem exec_protect (ha : Admitted s (ruleOf true false false (mapKeys ++ [(Key.perm, true)])) r) :
    exec (.protect r) s = .next (s.protect r) := ha.manage fun s => s.protect r

/-- Whether a PROTECT to `perm` lowers a permission of an entry. -/
def lowers (x : Ctx) (g : PageRange) (perm : BitVec 3) (k : Nat) : Bool :=
  match x.entryOf g.large k with
  | some p => p.lowered perm
  | none => false

theorem protect_eq (hg : pageRange r = some g) (hm : s.rangeMapped (r.num Key.context) g = true) :
    let perm := BitVec.ofNat 3 (r.num Key.perm)
    s.protect r =
      if g.nums.any (lowers (s.ctx (r.num Key.context)) g perm) then s.queueUnmap r g (some perm)
      else ((s.setCtx (r.num Key.context) ((s.ctx (r.num Key.context)).protect g perm)).done r).settle := by
  simp only [State.protect, hg, hm]
  rfl

theorem entryOf_protect (x : Ctx) (g : PageRange) (b : BitVec 3) (l : Bool) (k : Nat) :
    (x.protect g b).entryOf l k =
      if g.large = l ∧ k ∈ g.nums then (x.entryOf l k).map (·.protect b) else x.entryOf l k :=
  entryOf_protectPages ..

theorem remaps_protect (c : Nat) (g : PageRange) (b : BitVec 3) :
    Remaps s (s.setCtx c ((s.ctx c).protect g b)) c g :=
  remaps_setCtx rfl fun l k hk => by rw [entryOf_protect, if_neg hk]

theorem entryOf_setCtx_protect {c k : Nat} {p : Page} (b : BitVec 3) (hk : k ∈ g.nums)
    (hp : (s.ctx c).entryOf g.large k = some p) :
    ((s.setCtx c ((s.ctx c).protect g b)).ctx c).entryOf g.large k = some (p.protect b) := by
  rw [State.ctx_setCtx, if_pos rfl, entryOf_protect, if_pos ⟨rfl, hk⟩, hp]
  rfl

end

end Sys2Proof.Machine
end

/-! # Freeing what MAP allocated

A poisoned page of an image whose storage is retired is asked of no origin, for it is lost; but no area of it stands asked
for either, and so the device is no longer `Quiet`. `Rested` admits such pages, and still nothing goes on in it. -/

section
open Sys2Proof Sys2Proof.Machine
namespace Sys2Proof.Machine

/-- A placed page that no origin is about to serve. -/
def PlaceEnt.Rests (x : PlaceEnt) : Prop :=
  x.asked = true ∨ x.lost = true ∨ (x.poison = false ∧ x.move ≠ some .fetch)

/-- `Quiet`, but that lost pages may stand without an area asked for. -/
structure Rested (s : State) : Prop where
  quiet : Quiet { s with placed := [] }
  areas : ∀ e, (s.entry e).Rests

theorem Quiet.rested {s : State} (hq : Quiet s) : Rested s where
  quiet :=
    { presses := hq.presses, comps := hq.comps, hosts := hq.hosts, requests := hq.requests, jobs := hq.jobs
      areas := fun _ h => absurd h List.not_mem_nil, loads := hq.loads }
  areas e := (hq.area e).imp_right .inr

/-! ## Nothing goes on in a rested device -/

section
variable {s : State} (hr : Rested s)
include hr

theorem Rested.pcOf {n c : Nat} {p : PressCtx} (h : s.pcOf n c = some p) : p.away = false := hr.quiet.pcOf n c p h

theorem Rested.press (n : Nat) : PressQuiet (s.press n) := hr.quiet.press n

theorem retryStalls_rested (n c fuel : Nat) : retryStalls n c fuel s = s := by
  have hpress (p : PressCtx) (hp : s.pcOf n c = some p) : p.stall = [] := ((away_iff p).1 (hr.pcOf hp)).1
  have hcomp (m : Nat) : (s.comp m).stall = [] := hr.quiet.comp m
  cases fuel with
  | zero => rfl
  | succ fuel =>
    unfold retryStalls
    dsimp only
    by_cases hn : n < 128
    · cases hp : s.pcOf n c <;> simp [hn, hp, hpress]
    · simp [hn, hcomp]

theorem settleAway_rested (n c : Nat) : s.settleAway n c = s := by
  have htms : s.tryTms n = s := by
    unfold State.tryTms
    split
    · refine foldl_same _ _ _ fun op hop => ?_
      simp [State.tryTm, ((away_iff _).1 (hr.press n).here).2.1 op hop]
    · rfl
  have hadds : s.retryAdds n c = s := by
    unfold State.retryAdds
    split
    · rfl
    · next p hp =>
      refine foldl_same _ _ _ fun o ho => ?_
      have hno := ((away_iff p).1 (hr.pcOf hp)).2.2 o ho
      split
      · cases hno
      · rfl
  rw [State.settleAway, htms, retryStalls_rested hr, hadds]

theorem settleHold_rested (n : Nat) : s.settleHold n = s := by
  have hh : (s.pc n).hold.quiet := (hr.press n).hold
  unfold State.settleHold
  split
  iterate 5 (next h => rw [h] at hh; cases hh)
  rfl

theorem settlePress_rested (n : Nat) : s.settlePress n = s := by
  have hsaved := (hr.press n).saved
  unfold State.settlePress
  split
  · exact foldl_same _ _ _ fun x hx => by simp [hsaved x hx]
  · simp only [settleAway_rested hr, settleHold_rested hr, ite_self]
    exact foldl_same _ _ _ fun x hx => by simp [hsaved x hx]

theorem askAreas_rested : s.askAreas = s := by
  refine foldl_same _ _ _ fun e _ => ?_
  rcases hr.areas e.1 with ha | hl | ⟨hp, hm⟩
  · simp [ha]
  · simp [State.hasOrigin, hl]
  · simp [hp, hm]

theorem settle_rested : s.settle = s := by
  have hpresses : s.presses.foldl (fun s e => s.settlePress e.1) s = s :=
    foldl_same _ _ _ fun e _ => settlePress_rested hr e.1
  have hcomps : s.comps.foldl (fun s e => retryStalls (128 + e.1) e.2.ctx 16 s) s = s :=
    foldl_same _ _ _ fun e _ => retryStalls_rested hr ..
  have hhost : s.settleHost = s := by
    have hh : s.hostq = [] := hr.quiet.hosts
    rw [State.settleHost, hh, List.foldl_nil, ← hh]
  have hflush : s.flushFailed = s := by
    have hh : s.requests = [] := hr.quiet.requests
    rw [State.flushFailed, hh, List.foldl_nil]
  have hpump : s.pumpLoads = s := foldl_same _ _ _ fun e he => by
    have hk := hr.quiet.loads e he
    split
    · next i t h => exact absurd h (hk i t)
    · rfl
  simp only [State.settle, hhost, hpresses, hcomps, hflush, askAreas_rested hr, hpump]

/-- No press watches a word. -/
theorem loseWatch_rested (n : Nat) : s.loseWatch n = s := by
  have hw : (s.press n).cur.watch = none := (hr.press n).watch
  unfold State.loseWatch
  rw [hw]
  cases (s.press n).run <;> rfl

end

/-! ## What freeing keeps -/

/-- Freeing storage touches no context, session or waiting request, and wakes nobody. -/
structure Frees (s t : State) : Prop where
  ctxs : t.ctxs = s.ctxs
  sessions : t.sessions = s.sessions
  unmaps : t.unmaps = s.unmaps
  rested : Rested s → Rested t

theorem frees_refl (s : State) : Frees s s := ⟨rfl, rfl, rfl, id⟩

theorem Frees.trans {s t u : State} (h : Frees s t) (k : Frees t u) : Frees s u :=
  ⟨k.ctxs.trans h.ctxs, k.sessions.trans h.sessions, k.unmaps.trans h.unmaps, k.rested ∘ h.rested⟩

section
variable {s t : State}

theorem Rested.same (hr : Rested s) (h : SameWaits s t) : Rested t where
  quiet := hr.quiet.same ⟨h.presses, h.comps, h.hosts, h.requests, h.parts, rfl, h.longops⟩
  areas e := by
    have he : t.entry e = s.entry e := congrArg (mget ({} : PlaceEnt) · e) h.placed
    exact he ▸ hr.areas e

theorem frees_frames (s : State) (m : Map (Nat × Nat)) : Frees s { s with frames := m } :=
  ⟨rfl, rfl, rfl, fun hr => hr.same ⟨rfl, rfl, rfl, rfl, rfl, rfl, rfl⟩⟩
theorem frees_poolFrames (s : State) (m : Map Nat) : Frees s { s with poolFrames := m } :=
  ⟨rfl, rfl, rfl, fun hr => hr.same ⟨rfl, rfl, rfl, rfl, rfl, rfl, rfl⟩⟩
theorem frees_deadFrames (s : State) (l : List Nat) : Frees s { s with deadFrames := l } :=
  ⟨rfl, rfl, rfl, fun hr => hr.same ⟨rfl, rfl, rfl, rfl, rfl, rfl, rfl⟩⟩

theorem frees_setPart (p : Nat) (x : Part) (h : x.jobs = (s.part p).jobs) : Frees s (s.setPart p x) :=
  ⟨rfl, rfl, rfl, fun hr => ⟨hr.quiet.setPart p x h, hr.areas⟩⟩

theorem frees_setEntry (e : Nat) (x : PlaceEnt) (h : (s.entry e).Rests → x.Rests) : Frees s (s.setEntry e x) := by
  refine ⟨rfl, rfl, rfl, fun hr => ⟨hr.quiet, fun d => ?_⟩⟩
  rw [State.entry, State.setEntry, mget_mput]
  split
  · exact h (hr.areas e)
  · exact hr.areas d

theorem frees_setEntry_setPart (e p : Nat) (x : PlaceEnt) (y : Part) (hy : y.jobs = (s.part p).jobs)
    (h : (s.entry e).Rests → x.Rests) : Frees s ((s.setPart p y).setEntry e x) :=
  (frees_setPart p y hy).trans (frees_setEntry e x h)

theorem frees_unplace (e : Nat) : Frees s { s with placed := mdel s.placed e } := by
  refine ⟨rfl, rfl, rfl, fun hr => ⟨hr.quiet, fun d => ?_⟩⟩
  change (mget ({} : PlaceEnt) (mdel s.placed e) d).Rests
  by_cases hd : d = e
  · rw [hd, mget_mdel_same]
    exact .inr (.inr ⟨rfl, by simp⟩)
  · rw [mget_mdel_ne _ _ _ _ hd]
    exact hr.areas d

theorem frees_dropLines (lo n : Nat) : Frees s (s.dropLines lo n) := by
  refine foldl_rel frees_refl Frees.trans _ _ (fun s c _ => ?_) s
  have hchase (x : Chase) : Frees s (s.setChase c x) := ⟨rfl, rfl, rfl, fun hr => hr.same ⟨rfl, rfl, rfl, rfl, rfl, rfl, rfl⟩⟩
  have hbump (u : State) (k : Nat) : Frees u (u.bump .chase c 0xC00 32 32 k) :=
    ⟨rfl, rfl, rfl, fun hr => hr.same ⟨rfl, rfl, rfl, rfl, rfl, rfl, rfl⟩⟩
  dsimp only
  split
  · split
    · exact hchase _
    · exact frees_refl s
  · split
    · exact (hchase _).trans (hbump _ _)
    · exact hbump _ _

theorem frees_freeFrame (a : Nat) : Frees s (s.freeFrame a) := by
  unfold State.freeFrame
  split
  next p _ =>
    have hpart : Frees s (s.poolGive p Pool.frames 1) := frees_setPart p _ rfl
    exact hpart.trans (frees_poolFrames _ _)
  next => exact frees_frames s _

theorem frees_loseFrame (a : Nat) : Frees s (s.loseFrame a) := by
  let u : State := { s with deadFrames := if s.deadFrames.contains a then s.deadFrames else s.deadFrames ++ [a] }
  have hdead : Frees s u := frees_deadFrames s _
  unfold State.loseFrame
  dsimp only
  split
  next p _ =>
    have hpart : Frees u (u.setPart p { u.part p with
      total := mset 0 (u.part p).total Pool.frames (mget 0 (u.part p).total Pool.frames - 1) }) := frees_setPart p _ rfl
    exact (hdead.trans hpart).trans (frees_poolFrames _ _)
  next => exact hdead.trans (frees_frames u _)

theorem frees_loseHeap (e : Nat) : Frees s (s.loseHeap e) := by
  unfold State.loseHeap
  dsimp only
  split
  · exact frees_refl s
  · exact frees_setEntry_setPart e _ _ _ rfl id

theorem frees_freeHeap (e : Nat) : Frees s (s.freeHeap e) :=
  frees_setEntry_setPart e _ _ _ rfl id

theorem lost_loseHeap (e : Nat) : ((s.loseHeap e).entry e).lost = (s.entry e).lost := by
  unfold State.loseHeap
  dsimp only
  split
  · rfl
  · rw [State.entry, State.setEntry, mget_mput, if_pos rfl]

theorem lost_loseFrame (e a : Nat) : ((s.loseFrame a).entry e).lost = (s.entry e).lost := by
  unfold State.loseFrame
  dsimp only
  split <;> rfl

/-- Storage is retired of lost pages alone, and they rest. -/
theorem frees_retireStorage (e : Nat) : Frees s (s.retireStorage e) := by
  unfold State.retireStorage
  dsimp only
  split
  · exact frees_refl s
  next h =>
    have hlost : (s.entry e).lost = true := by
      simp only [Bool.or_eq_true, not_or, Bool.not_eq_true', Bool.not_eq_false, Bool.and_eq_true] at h
      exact h.1.2
    obtain ⟨u, hu, hf, hl⟩ : ∃ u, (if (s.entry e).stands = .t2p then s.loseFrame (s.entry e).frame else s.loseHeap e) = u ∧
        Frees s u ∧ (u.entry e).lost = true := by
      refine ⟨_, rfl, ?_⟩
      split
      · exact ⟨frees_loseFrame _, (lost_loseFrame ..).trans hlost⟩
      · exact ⟨frees_loseHeap e, (lost_loseHeap e).trans hlost⟩
    rw [hu]
    split
    · exact hf.trans (frees_setEntry e _ fun _ => .inr (.inl hl))
    · exact hf.trans (frees_unplace e)

theorem frees_removePlaced (e : Nat) : Frees s (s.removePlaced e) := by
  unfold State.removePlaced
  dsimp only
  have hlines : Frees s (s.dropLines (pageKey e 0) 0x200000) := frees_dropLines _ _
  split
  · split
    · exact (hlines.trans (frees_loseFrame _)).trans (frees_unplace e)
    · exact (hlines.trans (frees_freeFrame _)).trans (frees_unplace e)
  · split
    · exact (hlines.trans (frees_loseHeap e)).trans (frees_unplace e)
    · exact (hlines.trans (frees_freeHeap e)).trans (frees_unplace e)

end

end Sys2Proof.Machine
end

/-! # The end of UNMAP and PROTECT, and the statement on pages (R36) -/

section
open Sys2Proof Sys2Proof.Machine
namespace Sys2Proof.Machine

/-- Only entries of context `c` in the range change, with what frees their storage. -/
structure Unmaps (s t : State) (c : Nat) (g : PageRange) : Prop where
  remaps : Remaps s t c g
  sessions : t.sessions = s.sessions
  unmaps : t.unmaps = s.unmaps
  rested : Rested s → Rested t

section
variable {s t u : State} {c : Nat} {g : PageRange}

theorem unmaps_setCtx {x : Ctx} (h : Remaps s (s.setCtx c x) c g) : Unmaps s (s.setCtx c x) c g :=
  ⟨h, rfl, rfl, fun hr => hr.same ⟨rfl, rfl, rfl, rfl, rfl, rfl, rfl⟩⟩

theorem Unmaps.frees (h : Unmaps s t c g) (hf : Frees t u) : Unmaps s u c g :=
  ⟨h.remaps.of_ctxs hf.ctxs, hf.sessions.trans h.sessions, hf.unmaps.trans h.unmaps, hf.rested ∘ h.rested⟩

theorem unmaps_refl (s : State) (c : Nat) (g : PageRange) : Unmaps s s c g :=
  ⟨⟨fun _ _ _ => rfl, fun _ _ => rfl⟩, rfl, rfl, id⟩

theorem Unmaps.trans (h : Unmaps s t c g) (k : Unmaps t u c g) : Unmaps s u c g where
  remaps :=
    ⟨fun l i hi => (k.remaps.outside l i hi).trans (h.remaps.outside l i hi),
      fun d hd => (k.remaps.ctxs d hd).trans (h.remaps.ctxs d hd)⟩
  sessions := k.sessions.trans h.sessions
  unmaps := k.unmaps.trans h.unmaps
  rested := k.rested ∘ h.rested

/-- What MAP allocated for a page is freed when the entry is gone. -/
theorem dropPage_frees {l : Bool} {k : Nat} {p : Page} (hp : (s.ctx c).entryOf l k = some p) :
    Frees (s.setCtx c ((s.ctx c).delEntry l k)) (s.dropPage c l k) := by
  unfold State.dropPage
  rw [hp]
  dsimp only
  split
  · split
    · exact (frees_dropLines _ _).trans (frees_freeFrame _)
    · exact frees_refl _
  · split
    · exact frees_retireStorage _
    · exact frees_removePlaced _
  · exact frees_refl _

/-- A page of the range dropped: its entry is gone. -/
theorem dropPage_unmaps {k : Nat} (hk : k ∈ g.nums) :
    Unmaps s (s.dropPage c g.large k) c g ∧
      ∀ j, ((s.dropPage c g.large k).ctx c).entryOf g.large j = if k = j then none else (s.ctx c).entryOf g.large j := by
  cases hp : (s.ctx c).entryOf g.large k with
  | none =>
    have hsame : s.dropPage c g.large k = s := by rw [State.dropPage, hp]
    rw [hsame]
    refine ⟨unmaps_refl s c g, fun j => ?_⟩
    split
    next h => rw [← h, hp]
    next => rfl
  | some p =>
    have hf := dropPage_frees hp
    have hctx : (s.dropPage c g.large k).ctx c = (s.ctx c).delEntry g.large k :=
      (congrArg (mget ({} : Ctx) · c) hf.ctxs).trans (by rw [← State.ctx, State.ctx_setCtx, if_pos rfl])
    refine ⟨(unmaps_setCtx (remaps_setCtx rfl fun l j hj => ?_)).frees hf, fun j => ?_⟩
    · rw [entryOf_delEntry, if_neg (by rintro ⟨hl, rfl⟩; exact hj ⟨hl, hk⟩)]
    · rw [hctx, entryOf_delEntry]
      simp

/-- Pages of the range dropped one after the other. -/
theorem dropPages_unmaps (ks : List Nat) (hks : ∀ k ∈ ks, k ∈ g.nums) (s : State) :
    let t := ks.foldl (fun s k => s.dropPage c g.large k) s
    Unmaps s t c g ∧ ∀ j, (t.ctx c).entryOf g.large j = if j ∈ ks then none else (s.ctx c).entryOf g.large j := by
  induction ks generalizing s with
  | nil => exact ⟨unmaps_refl s c g, fun j => rfl⟩
  | cons k ks ih =>
    obtain ⟨hfirst, hentry⟩ := dropPage_unmaps (s := s) (c := c) (hks k (List.mem_cons_self ..))
    obtain ⟨hrest, hentries⟩ := ih (fun j hj => hks j (List.mem_cons_of_mem _ hj)) (s.dropPage c g.large k)
    refine ⟨hfirst.trans hrest, fun j => (hentries j).trans ?_⟩
    rw [hentry]
    by_cases hj : j ∈ ks
    · simp [hj]
    · by_cases hkj : k = j <;> simp [hj, hkj, eq_comm]

/-! ## UNMAP_COMPLETE -/

/-- The range of a waiting request. -/
def rangeOf (u : UnmapReq) : PageRange := { large := u.large, first := u.first, count := u.pages }

/-- The effect of a waiting request that nothing holds. -/
def State.unmapped (s : State) (u : UnmapReq) : State :=
  match u.perm with
  | some b => s.setCtx u.ctx ((s.ctx u.ctx).protect (rangeOf u) b)
  | none => (rangeOf u).nums.foldl (fun s k => s.dropPage u.ctx (rangeOf u).large k) s

theorem unmapped_unmaps (s : State) (u : UnmapReq) : Unmaps s (s.unmapped u) u.ctx (rangeOf u) := by
  unfold State.unmapped
  split
  · exact unmaps_setCtx (remaps_protect ..)
  · exact (dropPages_unmaps _ (fun _ => id) s).1

theorem unmapped_none {u : UnmapReq} {k : Nat} (hu : u.perm = none) (hk : k ∈ (rangeOf u).nums) :
    ((s.unmapped u).ctx u.ctx).entryOf u.large k = none := by
  simp only [State.unmapped, hu]
  exact ((dropPages_unmaps _ (fun _ => id) s).2 k).trans (if_pos hk)

theorem unmapped_some {u : UnmapReq} {k : Nat} {b : BitVec 3} {p : Page} (hu : u.perm = some b)
    (hk : k ∈ (rangeOf u).nums) (hp : (s.ctx u.ctx).entryOf u.large k = some p) :
    ((s.unmapped u).ctx u.ctx).entryOf u.large k = some (p.protect b) := by
  simp only [State.unmapped, hu]
  exact entryOf_setCtx_protect (g := rangeOf u) b hk hp

/-- In a quiet device the end of a waiting request is its effect and its response, and nothing else goes on. -/
theorem endUnmap_ends {i : Nat} {u : UnmapReq} (hq : Quiet s) (hw : s.unmapWaits u (rangeOf u) = false) :
    s.endUnmap i u =
      (({ s with unmaps := mdel s.unmaps i } : State).unmapped u).send u.session (.manage u.reqId St.ok [] [] false) := by
  let v : State := { s with unmaps := mdel s.unmaps i }
  have hv : Rested v := hq.rested.same ⟨rfl, rfl, rfl, rfl, rfl, rfl, rfl⟩
  let t := (v.unmapped u).send u.session (.manage u.reqId St.ok [] [] false)
  have ht : Rested t := by
    obtain ⟨ss, hs⟩ := exists_send (v.unmapped u) u.session (.manage u.reqId St.ok [] [] false)
    change Rested ((v.unmapped u).send ..)
    rw [hs]
    exact ((unmapped_unmaps v u).rested hv).same ⟨rfl, rfl, rfl, rfl, rfl, rfl, rfl⟩
  have hend : s.endUnmap i u =
      (t.presses.foldl (fun s e => if (s.press e.1).run = some u.ctx then s.loseWatch e.1 else s) t).settle := by
    unfold State.endUnmap
    exact if_neg (by simpa [rangeOf] using hw)
  have hfold : t.presses.foldl (fun s e => if (s.press e.1).run = some u.ctx then s.loseWatch e.1 else s) t = t :=
    foldl_same _ _ _ fun e _ => by rw [loseWatch_rested ht, ite_self]
  rw [hend, hfold, settle_rested ht]

/-- A response is the last message of an open session. -/
theorem getLast_send {n : Nat} {reqId : W32} {st : Status} (h : s.sessionOpen n = true) :
    ((s.send n (.manage reqId st [] [] false)).session n).queue.getLast? = some (.manage reqId st [] [] false) := by
  simp [State.send, h]

theorem exec_unmapComplete {i : Nat} {u : UnmapReq} (hu : mfind? s.unmaps i = some u) (hq : Quiet s)
    (hw : s.unmapWaits u (rangeOf u) = false) (ho : s.sessionOpen u.session = true) :
    ∃ t, exec (.unmapComplete i) s = .next t ∧ mfind? t.unmaps i = none ∧ Remaps s t u.ctx (rangeOf u) ∧
      (t.session u.session).queue.getLast? = some (.manage u.reqId St.ok [] [] false) ∧
      (u.perm = none → ∀ k ∈ (rangeOf u).nums, (t.ctx u.ctx).entryOf u.large k = none) ∧
      ∀ b, u.perm = some b → ∀ k ∈ (rangeOf u).nums, ∀ p, (s.ctx u.ctx).entryOf u.large k = some p →
        (t.ctx u.ctx).entryOf u.large k = some (p.protect b) := by
  let v : State := { s with unmaps := mdel s.unmaps i }
  have hv : Unmaps v (v.unmapped u) u.ctx (rangeOf u) := unmapped_unmaps v u
  have hopen : (v.unmapped u).sessionOpen u.session = true :=
    (congrArg (fun m => decide ((mget ({} : Session) m u.session).st = .isOpen)) hv.sessions).trans ho
  have hx : exec (.unmapComplete i) s =
      .next ((v.unmapped u).send u.session (.manage u.reqId St.ok [] [] false)) := by
    change execUnmapComplete i s = _
    rw [execUnmapComplete, hu, ← endUnmap_ends hq hw]
  obtain ⟨ss, hs⟩ := exists_send (v.unmapped u) u.session (.manage u.reqId St.ok [] [] false)
  have hlast := getLast_send (reqId := u.reqId) (st := St.ok) hopen
  rw [hs] at hx hlast
  refine ⟨_, hx, ?_, ⟨hv.remaps.outside, hv.remaps.ctxs⟩, hlast, fun hn k hk => unmapped_none hn hk,
    fun b hb k hk p hp => unmapped_some (s := v) hb hk hp⟩
  exact (congrArg (mfind? · i) hv.unmaps).trans (mfind_mdel_same ..)

end

/-! ## The parts of the statement -/

section
variable {s : State} {r : MReq} {g : PageRange}

theorem answers_done {o : OpRule} {t : State} (ha : Admitted s o r) (hs : t.sessions = s.sessions) :
    Answers s (t.done r) r St.ok [] := answers_of_sessions ha hs ..

theorem map_peer (h : MapsPages s r g)
    (ha : Admitted s (ruleOf true false false (mapKeys ++
      [(Key.pte, true), (Key.image, false), (Key.imagePage, false)])) r)
    (hpeer : fld ((r.item? Key.pte).getD 0) 63 48 ≠ s.myId)
    (halign : g.large = true → fld ((r.item? Key.pte).getD 0) 20 16 = 0) :
    ∃ t, exec (.map r) s = .next t ∧ Answers s t r St.ok [] ∧ Remaps s t (r.num Key.context) g ∧ t.mem = s.mem ∧
      ∀ i < g.count, (t.ctx (r.num Key.context)).entryOf g.large (g.first + i) =
        some (farPage ((r.item? Key.pte).getD 0) g i) := by
  generalize hc : r.num Key.context = c
  generalize hw : (r.item? Key.pte).getD 0 = w
  have hnot : ¬(g.large && fld w 20 16 != 0) = true := by
    cases hl : g.large
    · simp
    · simpa [← hw] using halign hl
  have hmap : s.map r = (s.mapFar c g (ptePage w) w).done r := by
    rw [h.map_eq, if_neg hpeer, hc, hw, if_neg hnot]
  obtain ⟨hothers, hentries⟩ := remaps_mapFar (s := s) c g w
  refine ⟨_, (exec_map ha).trans (congrArg _ hmap), answers_done ha rfl, hothers.of_ctxs (ctxs_reply ..),
    mem_reply .., fun i hi => ?_⟩
  rw [State.done, ctx_reply, hentries i hi]

theorem map_own (h : MapsPages s r g)
    (ha : Admitted s (ruleOf true false false (mapKeys ++
      [(Key.pte, true), (Key.image, false), (Key.imagePage, false)])) r)
    {a : Nat} (hown : fld ((r.item? Key.pte).getD 0) 63 48 = s.myId) (hone : g.count = 1)
    (hframe : s.findFrame (s.ctx (r.num Key.context)).part (s.ctx (r.num Key.context)).priv g.size = some a) :
    ∃ t, exec (.map r) s = .next t ∧ Answers s t r St.ok [] ∧ Remaps s t (r.num Key.context) g ∧
      (t.ctx (r.num Key.context)).entryOf g.large g.first = some (ownPage ((r.item? Key.pte).getD 0) a) := by
  obtain ⟨t, ht, hsess, hothers, hentry⟩ := mapLocal_single ((r.item? Key.pte).getD 0) hone hframe
  have hmap : s.map r = t.done r := by
    rw [h.map_eq, if_pos hown, ht]
  refine ⟨_, (exec_map ha).trans (congrArg _ hmap), answers_done ha hsess, hothers.of_ctxs (ctxs_reply ..), ?_⟩
  rw [State.done, ctx_reply, hentry]

theorem protect_now (ha : Admitted s (ruleOf true false false (mapKeys ++ [(Key.perm, true)])) r)
    (hg : pageRange r = some g) (hm : s.rangeMapped (r.num Key.context) g = true)
    (hlow : ∀ k ∈ g.nums, ∀ p, (s.ctx (r.num Key.context)).entryOf g.large k = some p →
      p.lowered (BitVec.ofNat 3 (r.num Key.perm)) = false) (hq : Quiet s) :
    ∃ t, exec (.protect r) s = .next t ∧ Answers s t r St.ok [] ∧ Remaps s t (r.num Key.context) g ∧
      ∀ k ∈ g.nums, ∀ p, (s.ctx (r.num Key.context)).entryOf g.large k = some p →
        (t.ctx (r.num Key.context)).entryOf g.large k = some (p.protect (BitVec.ofNat 3 (r.num Key.perm))) := by
  have heq := protect_eq hg hm
  generalize r.num Key.context = c at *
  generalize BitVec.ofNat 3 (r.num Key.perm) = b at *
  let u := s.setCtx c ((s.ctx c).protect g b)
  have hnone : g.nums.any (lowers (s.ctx c) g b) = false := by
    refine List.any_eq_false.2 fun k hk => ?_
    unfold lowers
    split
    next p hp => simp [hlow k hk p hp]
    next => simp
  have hnow : s.protect r = u.done r := by
    rw [heq, if_neg (by simp [hnone])]
    have hmsg := keepsQuiet_send u r.session (.manage r.reqId St.ok [] [] false)
    exact settle_quiet (hmsg.2 (hq.setCtx c _))
  refine ⟨_, (exec_protect ha).trans (congrArg _ hnow), answers_done ha rfl,
    (remaps_protect c g b).of_ctxs (ctxs_reply ..), fun k hk p hp => ?_⟩
  rw [State.done, ctx_reply]
  exact entryOf_setCtx_protect b hk hp

theorem protect_waits (ha : Admitted s (ruleOf true false false (mapKeys ++ [(Key.perm, true)])) r)
    (hg : pageRange r = some g) (hm : s.rangeMapped (r.num Key.context) g = true) {k : Nat} {p : Page} (hk : k ∈ g.nums)
    (hp : (s.ctx (r.num Key.context)).entryOf g.large k = some p)
    (hlow : p.lowered (BitVec.ofNat 3 (r.num Key.perm)) = true) :
    exec (.protect r) s = .next (s.queueUnmap r g (some (BitVec.ofNat 3 (r.num Key.perm)))) := by
  refine (exec_protect ha).trans (congrArg _ ((protect_eq hg hm).trans (if_pos ?_)))
  exact List.any_eq_true.2 ⟨k, hk, by simp [lowers, hp, hlow]⟩

end

/-- Settles O16: what each request leaves is the entries of its range rewritten (`Remaps`), and the storage that UNMAP
frees wakes nobody (`Frees`). -/
theorem pagesMapped : Obligations.PagesMapped := by
  unfold Obligations.PagesMapped
  intro s r g hg
  refine ⟨fun ha hpte hfree hni hnp => ?_, fun ha hm i hi => ?_, fun ha hm => ?_, fun i u hq hu hc hf hn hl hw ho => ?_⟩
  · have h : MapsPages s r g := ⟨hg, hpte, hfree, hni, hnp⟩
    refine ⟨fun hpeer halign => ?_, fun a hown hone hframe => ?_⟩
    · obtain ⟨t, hx, hans, hothers, hmem, hentries⟩ := map_peer h ha hpeer halign
      exact ⟨t, hx, hans, hothers.others, hmem, fun i hi => ⟨_, hentries i hi, ⟨rfl, rfl, rfl⟩, rfl⟩⟩
    · obtain ⟨t, hx, hans, hothers, hentry⟩ := map_own h ha hown hone hframe
      exact ⟨t, _, hx, hans, hothers.others, hentry, ⟨rfl, rfl, rfl⟩, rfl, rfl⟩
  · refine ⟨_, unmapOf r g none, exec_unmap ha hg hm, ?_, rfl, rfl, rfl, rfl, rfl, ?_⟩ <;> rw [queueUnmap_free none hi]
    exact mfind_mput_same ..
  · refine ⟨fun hlow hq => ?_, fun k hk p i hp hlow hi => ?_⟩
    · obtain ⟨t, hx, hans, hothers, hentries⟩ := protect_now ha hg hm hlow hq
      exact ⟨t, hx, hans, hothers.others, hentries⟩
    · refine ⟨_, unmapOf r g (some _), protect_waits ha hg hm hk hp hlow, ?_, rfl, ?_⟩ <;> rw [queueUnmap_free _ hi]
      exact mfind_mput_same ..
  · have hrange : rangeOf u = g := by
      rw [rangeOf, hf, hn, hl]
    rw [← hrange] at hw
    obtain ⟨t, hx, hgone, hothers, hlast, hnone, hsome⟩ := exec_unmapComplete hu hq hw ho
    rw [hrange, hc] at hothers
    rw [hrange, hc, hl] at hnone hsome
    exact ⟨t, hx, hgone, hothers.others, hlast, hnone, hsome⟩

end Sys2Proof.Machine
end

/-! # A FILL of E8M10 elements does not repeat its immediate

The low 13 bits of an E8M10 container are written as zero (R44; `storedPat`), whatever pattern a FILL or a COPY moves. -/

section
open Sys2Proof Sys2Proof.Machine
namespace Sys2Proof.Machine

/-- A FILL of one E8M10 element at the start of the case, with an immediate whose lowest bit is set. -/
def e8m10Fill : TmOp :=
  { kind := .fill, imm := 1
    td := BitVec.ofNat 512 (2 ^ 128 + 2 ^ 160 + 2 ^ 192 + 2 ^ 224 + (Fmt.e8m10 + 128) * 2 ^ 448) }

/-- The FILL stands alone in the queue of press 0, where context 0 runs. -/
def e8m10State : State :=
  { State.reset with presses := [(0, { st := .running, run := some 0, cur := { tmq := [e8m10Fill] } })] }

theorem quiet_e8m10State : Quiet e8m10State where
  presses e he := by
    obtain rfl := List.mem_singleton.1 he
    exact ⟨rfl, trivial, rfl, by simp⟩
  comps _ he := nomatch he
  hosts := rfl
  requests := rfl
  jobs _ he := nomatch he
  areas _ he := nomatch he
  loads _ he := nomatch he

theorem caseRow_e8m10Fill : CaseRow (tdOf e8m10Fill.td) := by
  constructor <;> decide +kernel

theorem unshared_e8m10Fill :
    Unshared e8m10State 0 (e8m10State.tmSpans 0 (e8m10State.runCtx 0) e8m10Fill) := by
  constructor <;> decide +kernel

theorem e8m10Fill_writes_zero :
    ∃ t, exec (.tmEngineStart ⟨0, none⟩) e8m10State = .next t ∧ cell t.mem (caseBase 0) = 0 :=
  ⟨_, rfl, by decide +kernel⟩

/-- Refutes O4: a FILL of one E8M10 element with the immediate 1 writes a zero byte where the statement has a 1 (R44). -/
theorem not_tensorMoveRuns : ¬ Obligations.TensorMoveRuns := by
  unfold Obligations.TensorMoveRuns
  intro h
  obtain ⟨hfill, -⟩ := h e8m10State 0 e8m10Fill [] none quiet_e8m10State ⟨by decide, nofun⟩ rfl rfl rfl rfl
    unshared_e8m10Fill
  obtain ⟨t, -, hx, -, -, -, hbytes⟩ := hfill rfl caseRow_e8m10Fill
  obtain ⟨t', hx', hzero⟩ := e8m10Fill_writes_zero
  obtain rfl := Host.Outcome.next.inj (hx.symm.trans hx')
  have hone := hbytes 0 (by decide +kernel) 0 (by decide +kernel) (by decide +kernel)
  have hbase : caseBase 0 + (tdOf e8m10Fill.td).base.toNat + (0 * (fmtWidth (tdOf e8m10Fill.td).fmt / 8) + 0) =
      caseBase 0 := by decide +kernel
  rw [hbase, hzero] at hone
  exact absurd hone (by decide +kernel)

end Sys2Proof.Machine
end

/-! # Scalar floating point (R57, R64, R65, R79, R81)

A scalar slot that raises conditions records them for its Line (R68); the operations differ in the exact result alone. -/

section
open Sys2Proof Sys2Proof.Machine
namespace Sys2Proof.Machine

/-! ### A Line whose slot raises conditions -/

section
variable {s t : State} {n : Nat} {l : Line} {i : Instr} {d : SlotDef} {sl : ScalarSlot} {op : Regs → Scal} {fl : Flags}

/-- As `issue_silent`, with the conditions of the slot recorded for the Line. -/
theorem issue_recorded (h : OneSlot s n l i) (hi : IsScalar i d sl op) (hw : d.wakes = false)
    (he : s.slotEffect n sl op = (t, fl)) :
    issue l i s = .next ((t.record n (s.pc n).retired.toNat fl).retireLine n (s.nextLine n)) := by
  obtain ⟨hslot, hnum, hsub, hcond, hact⟩ := hi
  have hrow : s.rowWrong n d = false := by simp [State.rowWrong, hsub]
  have hlive : d.live (s.lc n l) = true := by simp [SlotDef.live, hcond]
  have hdo : d.act (s.lc n l) s false s = { s := t, fl := fl } := by
    have := h.outside
    simp only [State.slotEffect] at he
    simp [hact, scalarSlot, State.lc, this, he]
  rw [issue_one s n l i d h hslot (hnum ▸ slotNo_lt sl) hrow, lineEffect_one s (s.lc n l) d h.outside hlive, hdo]
  simp only [hw]
  rfl

/-- Conditions recorded on a press, without a word on its audit totals. -/
theorem press_record (s : State) (n line : Nat) (fl : Flags) (m : Nat) : (s.record n line fl).press m =
    if n = m then { s.press n with cur := if fl = 0 then s.pc n else (s.pc n).record line fl } else s.press m := by
  unfold State.record
  by_cases hf : fl = 0
  · simp only [hf, if_true]
    split
    · subst n; rfl
    · rfl
  · have htally (u : State) (k : Nat) : (u.tallies 1 k).press m = u.press m := by
      unfold State.tallies
      split <;> rfl
    simp only [hf, if_false]
    rw [htally]
    exact State.press_setPress ..

/-- Conditions recorded leave all but the presses and the audit totals as they were. -/
theorem record_rest (s : State) (n line : Nat) (fl : Flags) (p : Map Press) (a b : Map W64) :
    ({ s.record n line fl with presses := p, sets := a, incs := b } : State) =
      { s with presses := p, sets := a, incs := b } := by
  unfold State.record State.tallies
  split
  · rfl
  · split <;> rfl

theorem mem_record (s : State) (n line : Nat) (fl : Flags) : (s.record n line fl).mem = s.mem := by
  have := congrArg State.mem (record_rest s n line fl [] [] [])
  exact this

theorem free_record (s : State) (n line : Nat) (fl : Flags) : (s.record n line fl).free = s.free := by
  have := congrArg State.free (record_rest s n line fl [] [] [])
  exact this

/-- The Line retired after its conditions are recorded: the press's state of its context. -/
theorem press_recorded (t : State) (n line : Nat) (fl : Flags) (next : W64) (m : Nat) :
    ((t.record n line fl).retireLine n next).press m =
      if n = m then { t.press n with cur := (if fl = 0 then t.pc n else (t.pc n).record line fl).retire next }
      else t.press m := by
  unfold State.retireLine State.modPc State.setPc
  rw [State.press_setPress]
  by_cases h : n = m
  · simp only [h, State.pc, press_record, if_true]
  · simp only [h, press_record, if_false]

/-- A slot that changes the press's state of its context alone, and not the count of Lines, does so with its conditions
recorded. -/
theorem doesFlagged_of_slotEffect {f : PressCtx → PressCtx} (h : OneSlot s n l i) (hx : exec i s = issue l i s)
    (hi : IsScalar i d sl op) (hw : d.wakes = false) (he : s.slotEffect n sl op = (s.modPc n f, fl))
    (hr : (f (s.pc n)).retired = (s.pc n).retired) : DoesFlagged s n i f fl := by
  refine ⟨_, hx.trans (issue_recorded h hi hw he), ?_, fun m hm => ?_, record_rest (s.modPc n f) n _ fl _ _ _⟩
  · rw [press_recorded, if_pos rfl, pc_modPc, PressCtx.withFlags, hr]
    simp [State.modPc, State.setPc]
  · rw [press_recorded, if_neg hm.symm]
    simp [State.modPc, State.setPc, hm.symm]

end

/-! ### Results of floating-point operations -/

theorem retired_setX (c : PressCtx) (i : Nat) (v : W64) : (c.setX i v).retired = c.retired := by
  unfold PressCtx.setX
  split <;> rfl

theorem retired_setP (c : PressCtx) (i : Nat) (v : Pred) : (c.setP i v).retired = c.retired := by
  unfold PressCtx.setP
  split <;> rfl

section
variable {s : State} {n : Nat} {l : Line} {a : FormA}

/-- An operation whose exact result is `f` of its operands. -/
theorem fp_does {i : Instr} {d : SlotDef} {two : Bool} {f : Num → Num → Num × Flags} (hx : exec i s = issue l i s)
    (hi : IsScalar i d a.slot fun r => fpOp r a two f) (hw : d.wakes = false) (h : OneSlot s n l i) :
    DoesFlagged s n i (·.setX a.rd.toNat (fpResult s n a two f).1) (fpResult s n a two f).2 :=
  doesFlagged_of_slotEffect h hx hi hw rfl (retired_setX ..)

/-- One of two operands. -/
theorem fp_does_two {i : Instr} {f : Num → Num → Num × Flags} (hx : exec i s = issue l i s)
    (hs : slotOf i = some (slotA a fun r a => fpOp r a true f)) (h : OneSlot s n l i) :
    DoesFlagged s n i (·.setX a.rd.toNat (fpResult s n a true f).1) (fpResult s n a true f).2 :=
  fp_does hx ⟨hs, rfl, rfl, rfl, rfl⟩ rfl h

theorem isScalar_fcmp (l : Line) (a : FormA) :
    IsScalar (.fcmp l a) (slotCmp a opFcmp) a.slot fun r => opFcmp r a := ⟨rfl, rfl, rfl, rfl, rfl⟩

theorem fcmp_does (h : OneSlot s n l (.fcmp l a)) :
    DoesFlagged s n (.fcmp l a) (·.setP a.rd.toNat (allBits (condNum (a.sub.toNat % 8) (fpArg a.sub (s.x n a.rs1))
      (fpArg a.sub (s.x n a.rs2))))) (sawNan [fpArg a.sub (s.x n a.rs1), fpArg a.sub (s.x n a.rs2)]) :=
  doesFlagged_of_slotEffect h rfl (isScalar_fcmp l a) rfl rfl (retired_setP ..)

/-! ### FCVT -/

/-- The value that an FCVT converts. -/
def cvtValue (s : State) (n : Nat) (a : FormA) : Num :=
  decodeNum (a.rs2.toNat % 16) ((s.x n a.rs1).toNat % 2 ^ fmtWidth (a.rs2.toNat % 16))
/-- The format into which an FCVT converts. -/
def cvtFmt (hi : Bool) (a : FormA) : Nat := 8 * (if hi then 1 else 0) + a.sub.toNat / 16

theorem isScalar_fcvt (l : Line) (hi : Bool) (a : FormA) :
    ∃ d : SlotDef, d.wakes = false ∧ IsScalar (.fcvt l hi a) d a.slot fun r => opFcvt r hi a :=
  ⟨_, rfl, rfl, rfl, rfl, rfl, rfl⟩

theorem fcvt_eff (s : State) (n : Nat) (hi : Bool) (a : FormA) :
    (opFcvt (s.pc n).regs hi a).eff = .cvt a.rd.toNat (cvtFmt hi a) (fpNc a.sub) (cvtValue s n a) := rfl

/-- The state after one draw for an element on a press (R57). -/
def State.drawn (s : State) (n : Nat) : State :=
  ({ s with free := s.free + 1 } : State).modPc n fun c => { c with srSeed := srStep c.srSeed }

/-- One draw gives the generator's next value, whatever the free order. -/
theorem srFor_one (s : State) (n : Nat) : s.srFor n 1 = ([(srStep (s.pc n).srSeed).toNat % 65536], s.drawn n) := by
  simp only [State.srFor, srDraws, shuffle, srValue, nth, List.length_singleton, Nat.mod_one]
  rfl

theorem fcvt_does {hi : Bool} (h : OneSlot s n l (.fcvt l hi a)) (hd : drawsFor (cvtFmt hi a) (fpNc a.sub) = false) :
    DoesFlagged s n (.fcvt l hi a)
      (·.setX a.rd.toNat (BitVec.ofNat 64 (toFmt (cvtFmt hi a) (fpNc a.sub) 0 (cvtValue s n a)).1))
      ((toFmt (cvtFmt hi a) (fpNc a.sub) 0 (cvtValue s n a)).2 ||| sawNan [cvtValue s n a]) := by
  obtain ⟨d, hw, hs⟩ := isScalar_fcvt l hi a
  refine doesFlagged_of_slotEffect h rfl hs hw ?_ (retired_setX ..)
  rw [State.slotEffect, fcvt_eff]
  simp [State.scalarDo, hd, State.srFor, nth, wn]

/-- Under stochastic rounding FCVT takes one draw (R57, R495). -/
theorem fcvt_draws {hi : Bool} (h : OneSlot s n l (.fcvt l hi a)) (hd : drawsFor (cvtFmt hi a) (fpNc a.sub) = true) :
    let e := srStep (s.pc n).srSeed
    let r := toFmt (cvtFmt hi a) (fpNc a.sub) (e.toNat % 65536) (cvtValue s n a)
    ∃ t, exec (.fcvt l hi a) s = .next t ∧ t.mem = s.mem ∧ t.free = s.free + 1 ∧
      (∀ m, m ≠ n → t.press m = s.press m) ∧
      t.pc n = ((({ s.pc n with srSeed := e } : PressCtx).setX a.rd.toNat (BitVec.ofNat 64 r.1)).withFlags
        (r.2 ||| sawNan [cvtValue s n a])).retire (s.nextLine n) := by
  intro e r
  obtain ⟨d, hw, hs⟩ := isScalar_fcvt l hi a
  have he : s.slotEffect n a.slot (fun r => opFcvt r hi a) =
      ((s.drawn n).modPc n (·.setX a.rd.toNat (BitVec.ofNat 64 r.1)), r.2 ||| sawNan [cvtValue s n a]) := by
    rw [State.slotEffect, fcvt_eff]
    simp only [State.scalarDo, hd, if_true, srFor_one]
    rfl
  have hseed : (s.drawn n).pc n = { s.pc n with srSeed := e } := pc_modPc ..
  refine ⟨_, issue_recorded h hs hw he, mem_record .., free_record .., fun m hm => ?_, ?_⟩
  · rw [press_recorded, if_neg hm.symm, press_modPc_ne _ _ hm]
    exact press_modPc_ne _ _ hm
  · rw [State.pc, press_recorded, if_pos rfl, pc_modPc, hseed, PressCtx.withFlags, retired_setX]

end

/-- Settles O2: one lemma for the seven operations with a rounded result, one for FCMP, two for FCVT. -/
theorem floatResults : Obligations.FloatResults := by
  unfold Obligations.FloatResults
  intro s n l a
  exact ⟨fp_does_two rfl rfl, fp_does_two rfl rfl, fp_does_two rfl rfl, fp_does_two rfl rfl,
    fp_does rfl ⟨rfl, rfl, rfl, rfl, rfl⟩ rfl, fp_does_two rfl rfl, fp_does_two rfl rfl, fcmp_does,
    fun hi h => ⟨fcvt_does h, fcvt_draws h⟩⟩

end Sys2Proof.Machine
end

/-! # An integer MM (R60, R104, R106, R107)

The products of INT8 factors are exact integers and so is their sum (`Num.Spells`); each entry of a tile reads, after a list
of writes to the tile, what the list writes there (`tileWord_setTile`); what the engine does before the MM's effect leaves
the case and the weights (`MmSame`). -/

section
open Sys2Proof Sys2Proof.Machine
namespace Sys2Proof.Machine

/-! ### Entries of a tile -/

theorem toBytes_succ (n v : Nat) : toBytes (n + 1) v = BitVec.ofNat 8 v :: toBytes n (v / 256) := by
  simp only [toBytes, List.range_succ_eq_map, List.map_cons, List.map_map, Nat.mul_zero, Nat.shiftRight_zero]
  congr 1
  refine List.map_congr_left fun i _ => ?_
  simp only [Function.comp, Nat.shiftRight_eq_div_pow, Nat.div_div_eq_div_mul, Nat.succ_eq_add_one]
  rw [show 8 * (i + 1) = 8 + 8 * i by omega, Nat.pow_add]

theorem ofBytes_toBytes (n v : Nat) : ofBytes (toBytes n v) = v % 2 ^ (8 * n) := by
  induction n generalizing v with
  | zero => simp [toBytes, ofBytes, Nat.mod_one]
  | succ n ih =>
    rw [toBytes_succ, ofBytes, ih, BitVec.toNat_ofNat, show 8 * (n + 1) = 8 + 8 * n by omega, Nat.pow_add,
      Nat.mod_mul]

theorem cells_putCells (m : List Host.Cell) (a : Nat) (bs : List Byte) : cells (putCells m a bs) a bs.length = bs := by
  refine List.ext_getElem (length_cells ..) fun i h _ => ?_
  rw [length_cells] at h
  simp only [cells, span, List.getElem_map, List.getElem_range]
  exact cell_putCells_inside _ _ _ _ h

theorem cells_congr {m m' : List Host.Cell} {a n : Nat} (h : ∀ i < n, cell m' (a + i) = cell m (a + i)) :
    cells m' a n = cells m a n := by
  simp only [cells, span, List.map_map]
  exact List.map_congr_left fun i hi => h i (List.mem_range.1 hi)

section
variable {n p tile : Nat}

theorem tileWord_congr {s t : State} (h : t.mem = s.mem) (m j : Nat) :
    t.tileWord n p tile m j = s.tileWord n p tile m j := by
  simp only [State.tileWord, h]

/-- An entry after a word is written to an entry. -/
theorem tileWord_write (s : State) {m j m' j' w : Nat} (hj : j < 64) (hj' : j' < 64) :
    (s.setTile n p tile [(m', j', w)]).tileWord n p tile m j =
      if m' = m ∧ j' = j then w % 2 ^ 32 else s.tileWord n p tile m j := by
  simp only [State.setTile, State.tileWord, List.foldl_cons, List.foldl_nil]
  split
  next h =>
    obtain ⟨rfl, rfl⟩ := h
    have := cells_putCells s.mem (tileAddr n p tile m' j') (toBytes 4 w)
    rw [length_toBytes] at this
    rw [this, ofBytes_toBytes]
  next h =>
    refine congrArg ofBytes (cells_congr fun i hi => cell_putCells_outside _ _ _ _ ?_)
    rw [length_toBytes]
    simp only [tileAddr]
    omega

/-- An entry after words are written to entries of the tile, each the value `v` of its place: that value where the entry is
one of them. -/
theorem tileWord_setTile (v : Nat → Nat → Nat) {m j : Nat} (hj : j < 64) (l : List (Nat × Nat × Nat))
    (hl : ∀ e ∈ l, e.2.1 < 64 ∧ e.2.2 = v e.1 e.2.1) (s : State)
    (h : s.tileWord n p tile m j = v m j % 2 ^ 32 ∨ ∃ e ∈ l, e.1 = m ∧ e.2.1 = j) :
    (s.setTile n p tile l).tileWord n p tile m j = v m j % 2 ^ 32 := by
  induction l generalizing s with
  | nil => exact h.resolve_right (by simp)
  | cons e l ih =>
    obtain ⟨m', j', w⟩ := e
    obtain ⟨⟨hj', hw⟩, hl⟩ := List.forall_mem_cons.1 hl
    simp only at hj' hw
    refine ih hl (s.setTile n p tile [(m', j', w)]) ?_
    rw [tileWord_write s hj hj']
    split
    next heq => exact .inl (by rw [hw, heq.1, heq.2])
    next hne =>
      refine h.imp_right fun ⟨e, he, hm, hc⟩ => ⟨e, (List.mem_cons.1 he).resolve_left ?_, hm, hc⟩
      rintro rfl
      exact hne ⟨hm, hc⟩

end

/-! ### Exact integers -/

/-- A value is an integer, spelled with exponent zero. -/
def Num.Spells (v : Num) (i : Int) : Prop := ∃ neg m, v = .fin neg m 0 ∧ i = if neg then -(m : Int) else m

theorem spells_ofInt (i : Int) : (ofInt i).Spells i := by
  refine ⟨_, _, rfl, ?_⟩
  simp only [decide_eq_true_eq]
  split <;> omega

theorem Num.Spells.mul {u v : Num} {i j : Int} (hu : u.Spells i) (hv : v.Spells j) : (u.mul v).1.Spells (i * j) := by
  obtain ⟨n, a, rfl, rfl⟩ := hu
  obtain ⟨n', b, rfl, rfl⟩ := hv
  refine ⟨n != n', a * b, rfl, ?_⟩
  cases n <;> cases n' <;> simp

theorem Num.Spells.add {u v : Num} {i j : Int} (hu : u.Spells i) (hv : v.Spells j) : (u.add v).1.Spells (i + j) := by
  obtain ⟨n, a, rfl, rfl⟩ := hu
  obtain ⟨n', b, rfl, rfl⟩ := hv
  by_cases hz : a = 0 ∧ b = 0
  · obtain ⟨rfl, rfl⟩ := hz
    exact ⟨n && n', 0, rfl, by simp⟩
  · have hsum : ∀ (n : Bool) (a : Nat), alignTo n a 0 0 = if n then -(a : Int) else a := by simp [alignTo]
    have hnz : ¬((decide (a = 0) && decide (b = 0)) = true) := by simpa using hz
    simp only [Num.add, hnz, min_self, hsum]
    generalize (if n then -(a : Int) else a) + (if n' then -(b : Int) else b) = t
    by_cases ht : t = 0
    · exact ⟨false, 0, by simp [ht], by simp [ht]⟩
    · refine ⟨decide (t < 0), t.natAbs, by simp [ht], ?_⟩
      simp only [decide_eq_true_eq]
      split <;> omega

theorem Num.Spells.isNan {v : Num} {i : Int} (h : v.Spells i) : v.isNan = false := by
  obtain ⟨n, a, rfl, -⟩ := h
  rfl

theorem Num.Spells.numInt {v : Num} {i : Int} (h : v.Spells i) : numInt v = i := by
  obtain ⟨n, a, rfl, rfl⟩ := h
  simp [Machine.numInt]

theorem spells_foldl_add {α : Type} (f : α → Num) (g : α → Int) (l : List α) (h : ∀ x ∈ l, (f x).Spells (g x))
    (acc : Num × Flags) (i : Int) (ha : acc.1.Spells i) :
    ((l.map f).foldl (fun acc v => ((acc.1.add v).1, acc.2 ||| (acc.1.add v).2)) acc).1.Spells
      ((l.map g).foldl (· + ·) i) := by
  induction l generalizing acc i with
  | nil => exact ha
  | cons x l ih =>
    obtain ⟨hx, hl⟩ := List.forall_mem_cons.1 h
    exact ih hl _ _ (ha.add hx)

/-- The exact sum of integers is their sum. -/
theorem numInt_exactSum {α : Type} (f : α → Num) (g : α → Int) (l : List α)
    (h : ∀ x ∈ l, (f x).Spells (g x)) :
    numInt (exactSum (l.map f)).1 = (l.map g).foldl (· + ·) 0 := by
  have hnan : (l.map f).any Num.isNan = false := by
    simpa using fun x hx => (h x hx).isNan
  rw [exactSum, hnan]
  exact (spells_foldl_add f g l h _ 0 ⟨false, 0, rfl, rfl⟩).numInt

theorem fitInt_int32_lt (sat : Bool) (i : Int) : (fitInt Fmt.int32 sat i).1 < 2 ^ 32 := by
  have hpat (j : Int) : (j % ((2 ^ 32 : Nat) : Int)).toNat < 2 ^ 32 := by omega
  unfold fitInt
  simp only
  split
  · exact hpat _
  · split <;> exact hpat _

/-! ### What an MM reads -/

/-- What an INT8 MM of a press reads stands as it did: the case and the weights. -/
structure MmSame (s t : State) (n : Nat) : Prop where
  weights : (t.pc n).weights = (s.pc n).weights
  case : ∀ a < caseSize, cell t.mem (caseBase n + a) = cell s.mem (caseBase n + a)

theorem MmSame.trans {s t u : State} {n : Nat} (h : MmSame s t n) (k : MmSame t u n) : MmSame s u n :=
  ⟨k.weights.trans h.weights, fun a ha => (k.case a ha).trans (h.case a ha)⟩

/-- The case of a press lies outside its tympans. -/
theorem case_before_tympans {n a : Nat} (h : a < caseSize) (p : Nat) : caseBase n + a < tympBase n p := by
  simp only [caseBase, tympBase, caseSize] at *
  omega

section
variable (s : State) (n : Nat) {op : PlOp} {p tile : Nat} (hp : platensOf op.plat = [p]) (ht : nth [] op.tiles p = [tile])
include hp ht

/-- An operation with one tile in one platen sets it to zero where it has just bound it. -/
theorem zeroFresh_one : s.zeroFresh n op = if nth false (nth [] op.fresh p) 0 then
    ({ s with mem := wipe s.mem (tileAddr n p (op.tileOf p 0) 0 0) 16384 } : State).modPc n
      (·.setTsum p (op.tileOf p 0) {}) else s := by
  simp only [State.zeroFresh, hp, ht, List.foldl_cons, List.foldl_nil, List.length_singleton, List.range_one]

theorem queue_zeroFresh : ((s.zeroFresh n op).pc n).plq = (s.pc n).plq := by
  rw [zeroFresh_one s n hp ht]
  split
  · rw [pc_modPc]
    rfl
  · rfl

theorem mmSame_zeroFresh : MmSame s (s.zeroFresh n op) n := by
  rw [zeroFresh_one s n hp ht]
  split
  · refine ⟨by rw [pc_modPc]; rfl, fun a ha => ?_⟩
    have := case_before_tympans (n := n) ha p
    exact (cell_wipe ..).trans (if_neg (by unfold tileAddr; omega))
  · exact ⟨rfl, fun _ _ => rfl⟩

end

/-- The pattern of an INT8 element in the case. -/
theorem elemBits_int8 (s : State) (e : Env) {t : TD} (hf : t.fmt = Fmt.int8) (hs : t.space = 1) (k : Coord) :
    s.elemBits e t [] k = (cell s.mem (caseBase e.press + (t.place [] k).1.toNat)).toNat % 256 := by
  have hbit : (t.place [] k).2 = 0 := by
    simp only [TD.place, hf]
    exact Nat.mul_mod_left ..
  unfold State.elemBits
  simp only [hs, hf, hbit]
  have hbyte (b : Byte) : b.toNat % 256 = b.toNat := Nat.mod_eq_of_lt b.isLt
  simp [State.spaceBytes, State.spaceByte, ceilDiv, fmtWidth, nth, Fmt.int8, wn, ofBytes, hbyte,
    Nat.mod_eq_of_lt (t.place [] k).1.isLt]

/-! ### An INT8 MM in one platen -/

section
variable (s : State) (n p tile : Nat) (op : PlOp)

/-- The left factor of an INT8 MM at step `i`: an element of operand row `m`. -/
def mmX (m i : Nat) : Int :=
  sext 8 (s.elemBits { press := n, ctx := s.runCtx n } (tdOf (nth 0 op.ta p)) [] ⟨i, m, 0, 0⟩)
/-- The right factor: a weight of column `j`. -/
def mmW (i j : Nat) : Int := sext 8 (mget 0 (s.pc n).weights (64 * i + j))

/-- The word of an entry: the exact sum of `red` products, fitted to INT32. -/
def sumWord (x w : Nat → Nat → Int) (red m j : Nat) : Nat :=
  (fitInt Fmt.int32 (intSat op.nc) (((List.range red).map fun i => x m i * w i j).foldl (· + ·) 0)).1

theorem sumWord_congr {x w x' w' : Nat → Nat → Int} {red : Nat} {m j : Nat}
    (h : ∀ i < red, x m i * w i j = x' m i * w' i j) : sumWord op x w red m j = sumWord op x' w' red m j := by
  rw [sumWord, List.map_congr_left fun i hi => h i (List.mem_range.1 hi)]
  rfl

/-- A plain MM of INT8 operands and weights, on platen `p` alone, into `tile`. -/
structure IntMm : Prop where
  kind : op.kind = .mm
  straight : op.tr = false
  fresh : op.acc = false
  pass : op.pass = 0
  platen : platensOf op.plat = [p]
  tiles : nth [] op.tiles p = [tile]
  xFmt : (tdOf (nth 0 op.ta p)).fmt = Fmt.int8
  xPlain : (tdOf (nth 0 op.ta p)).mx = false
  xCase : (tdOf (nth 0 op.ta p)).space = 1
  wFmt : op.wrec.fmt = Fmt.int8
  wPlain : op.wrec.mx = false
  cols : op.wrec.nExt ≤ 64
  rows : (tdOf (nth 0 op.ta p)).e1 ≤ 64

/-- What is added to a tile is the entry's exact sum of `x m i * w i j`. -/
structure Adds (a : TileAdd) (x w : Nat → Nat → Int) : Prop where
  sign : a.sign = some false
  row (m i : Nat) : a.x m i = ⟨ofInt (x m i), false⟩
  col (j i : Nat) : a.w j i = ⟨ofInt (w i j), false⟩

variable {s n p tile op}

/-- The new word of an integer entry without ACC: the exact sum fitted to INT32. -/
theorem newEntry_int {a : TileAdd} {x w : Nat → Nat → Int} (ha : Adds a x w) (hacc : op.acc = false)
    (prev m j free : Nat) : (newEntry op true prev a m j free).1 = sumWord op x w a.red m j := by
  obtain ⟨hsign, hrow, hcol⟩ := ha
  have hprods : (a.prods m j).map (·.1) = (List.range a.red).map fun i => ((ofInt (x m i)).mul (ofInt (w i j))).1 := by
    simp [TileAdd.prods, hrow, hcol, Factor.mul]
  have hsum := numInt_exactSum (fun i => ((ofInt (x m i)).mul (ofInt (w i j))).1) (fun i => x m i * w i j)
    (List.range a.red) fun i _ => (spells_ofInt _).mul (spells_ofInt _)
  simp only [newEntry, hsign, hacc, hprods, hsum, sumWord]
  simp

/-- The entries that an MM without ACC writes: those of its rows and columns, each with its new word. -/
theorem addTile_writes {a : TileAdd} {x w : Nat → Nat → Int} (ha : Adds a x w) (hacc : op.acc = false) :
    ∃ l, (s.addTile n p op true a).1.mem = (s.setTile n p a.tile l).mem ∧
      (∀ e ∈ l, e.2.1 ∈ a.cols ∧ e.2.2 = sumWord op x w a.red e.1 e.2.1) ∧
      ∀ m ∈ a.rows, ∀ j ∈ a.cols, ∃ e ∈ l, e.1 = m ∧ e.2.1 = j := by
  have hnth (l : List (Nat × Nat)) (k : Nat) (hk : k < l.length) : nth (0, 0) l k = l[k] := by simp [nth, hk]
  refine ⟨_, rfl, fun e he => ?_, fun m hm j hj => ?_⟩
  · simp only [List.map_map, List.mem_map, List.mem_range] at he
    obtain ⟨k, hk, rfl⟩ := he
    refine ⟨?_, newEntry_int ha hacc ..⟩
    have hin := List.getElem_mem hk
    rw [← hnth] at hin
    obtain ⟨m, -, hj⟩ := List.mem_flatMap.1 hin
    obtain ⟨j, hj, heq⟩ := List.mem_map.1 hj
    simp only [Function.comp, ← heq]
    exact hj
  · have hmem : (m, j) ∈ a.rows.flatMap fun m => a.cols.map fun j => (m, j) :=
      List.mem_flatMap.2 ⟨m, hm, List.mem_map.2 ⟨j, hj, rfl⟩⟩
    obtain ⟨k, hk, hkj⟩ := List.getElem_of_mem hmem
    refine ⟨_, List.mem_map_of_mem (List.mem_map_of_mem (List.mem_range.2 hk)), ?_⟩
    simp only [hnth _ k hk, hkj, and_self]

/-- A tile after an MM is added into it. -/
theorem tileWord_addTile {a : TileAdd} {x w : Nat → Nat → Int} (ha : Adds a x w) (hacc : op.acc = false)
    (hcols : ∀ j ∈ a.cols, j < 64) {m j : Nat} (hm : m ∈ a.rows) (hj : j ∈ a.cols) :
    (s.addTile n p op true a).1.tileWord n p a.tile m j = sumWord op x w a.red m j := by
  obtain ⟨l, hmem, hl, hall⟩ := addTile_writes (s := s) (n := n) (p := p) ha hacc
  rw [tileWord_congr hmem, tileWord_setTile (sumWord op x w a.red) (hcols j hj) l
    (fun e he => ⟨hcols _ (hl e he).1, (hl e he).2⟩) s (.inr (hall m hm j hj))]
  exact Nat.mod_eq_of_lt (fitInt_int32_lt ..)

theorem queue_addTile (int : Bool) (a : TileAdd) : ((s.addTile n p op int a).1.pc n).plq = (s.pc n).plq := by
  rw [State.addTile, pc_modPc]
  rfl

/-- An INT8 MM in its platen adds the products of its rows and of the weights into its one tile. -/
theorem mmPlaten_adds (h : IntMm p tile op) : ∃ a : TileAdd, (s.mmPlaten n op p).1 = (s.addTile n p op true a).1 ∧
    Adds a (mmX s n p op) (mmW s n) ∧ a.tile = tile ∧ a.red = op.wrec.kExt ∧
    a.rows = fedRows (tdOf (nth 0 op.ta p)) op.pm p ∧ a.cols = span64.filter fun j => decide (j < op.wrec.nExt) := by
  obtain ⟨-, htr, -, hpass, -, htiles, hx, hxm, -, hw, hwm, -, -⟩ := h
  have heff : pairFmt Fmt.int8 Fmt.int8 = some Fmt.int8 := by decide
  have hreal : isComplex Fmt.int8 0 = false := by decide
  have hclass : mmClass (tdOf (nth 0 op.ta p)) op.wrec = .int32 := by
    simp only [mmClass, hx, hxm, hwm]
    decide
  simp only [State.mmPlaten, htr, hpass, htiles, hx, hxm, hwm, hw, heff, Option.getD_some, hreal, hclass, decide_true,
    List.length_singleton, List.range_one, List.map_cons, List.map_nil, List.foldl_cons, List.foldl_nil, Bool.false_eq_true,
    if_false]
  refine ⟨_, rfl, ⟨rfl, fun m i => rfl, fun j i => ?_⟩, rfl, rfl, rfl, ?_⟩
  · simp only [Nat.mul_zero, Nat.zero_add, weightFactor, hw, PressCtx.weight, hwm]
    rfl
  · simp only [Nat.mul_zero, Nat.zero_add]

/-- The tile after an INT8 MM. -/
theorem tileWord_mmPlaten (h : IntMm p tile op) {m j : Nat} (hm : m < (tdOf (nth 0 op.ta p)).e1)
    (hbit : rowBit op.pm p m = true) (hj : j < op.wrec.nExt) : (s.mmPlaten n op p).1.tileWord n p tile m j =
      sumWord op (mmX s n p op) (mmW s n) op.wrec.kExt m j := by
  obtain ⟨a, heq, hadds, rfl, hred, hrows, hcols⟩ := mmPlaten_adds (s := s) (n := n) h
  have hrow : m ∈ a.rows := by
    rw [hrows]
    exact List.mem_filter.2 ⟨List.mem_range.2 (by have := h.rows; omega), hbit⟩
  have hcol (k : Nat) : k ∈ a.cols ↔ k < 64 ∧ k < op.wrec.nExt := by
    rw [hcols]
    simp [span64]
  rw [heq, tileWord_addTile hadds h.fresh (fun k hk => ((hcol k).1 hk).1) hrow
    ((hcol j).2 ⟨by have := h.cols; omega, hj⟩), hred]

theorem queue_mmPlaten (h : IntMm p tile op) : ((s.mmPlaten n op p).1.pc n).plq = (s.pc n).plq := by
  obtain ⟨a, heq, -⟩ := mmPlaten_adds (s := s) (n := n) h
  rw [heq, queue_addTile]

/-- The factors of an MM are those of any state that it sees the same. -/
theorem mmX_same {t : State} (hs : MmSame s t n) (h : IntMm p tile op) {m i : Nat}
    (hcase : ((tdOf (nth 0 op.ta p)).place [] ⟨i, m, 0, 0⟩).1.toNat < caseSize) :
    mmX t n p op m i = mmX s n p op m i := by
  simp only [mmX, elemBits_int8 _ _ h.xFmt h.xCase, hs.case _ hcase]

theorem mmW_same {t : State} (hs : MmSame s t n) (i j : Nat) : mmW t n i j = mmW s n i j := by
  simp only [mmW, hs.weights]

/-! ### PLATEN_START of an MM -/

theorem queue_record (u : State) (line : Nat) (fl : Flags) : ((u.record n line fl).pc n).plq = (u.pc n).plq := by
  rw [State.pc, press_record, if_pos rfl]
  simp only
  split <;> rfl

/-- The oldest operation has left the queue and runs. -/
def State.mmStarted (s : State) (n : Nat) (op : PlOp) (rest : List PlOp) : State :=
  s.setPc n { s.pc n with plq := rest, plRun := (s.pc n).plRun ++ [op] }

theorem plq_mmStarted (rest : List PlOp) : ((s.mmStarted n op rest).pc n).plq = rest := by
  rw [State.mmStarted, State.pc_setPc, if_pos rfl]

theorem mmSame_mmStarted (rest : List PlOp) : MmSame s (s.mmStarted n op rest) n :=
  ⟨by rw [State.mmStarted, State.pc_setPc, if_pos rfl], fun _ _ => rfl⟩

/-- An MM that may start takes its effect and its conditions are recorded. It writes no bytes of the case, which those of a
running operation could conflict with. -/
theorem platenStart_mm {rest : List PlOp} (h : IntMm p tile op) (hq : (s.pc n).plq = op :: rest)
    (hmay : op.mayStart (s.pc n).plRun = true) :
    ∃ fl, s.platenStart n [] = (((s.mmStarted n op rest).zeroFresh n op).mmPlaten n op p).1.record n op.line fl := by
  have hplat : op.plat ≠ 0 := by
    intro h0
    have hnone : platensOf 0 = [] := by decide
    have := h.platen
    rw [h0, hnone] at this
    cases this
  have hspans (u : State) : u.drainSpans n op = [] := by simp [State.drainSpans, h.kind]
  have hmm (u : State) : (u.runMm n op).1 = (u.mmPlaten n op p).1 := by simp [State.runMm, h.platen]
  refine ⟨((((s.mmStarted n op rest).zeroFresh n op).runMm n op).2), ?_⟩
  rw [← hmm]
  simp only [State.platenStart, hq, hmay, State.platenEffect, h.kind, hspans, overlaps, State.contend, List.flatMap_nil,
    List.foldl_nil, State.corruptTile, hplat]
  rfl

end

/-- Settles O6: the tile after the MM is `tileWord_mmPlaten`, its factors those of the state before the start. -/
theorem platenIntegerProducts : Obligations.PlatenIntegerProducts := by
  unfold Obligations.PlatenIntegerProducts
  intro s n p tile op rest hrun hq hkind htr hacc _ hpass _ _ hplat htiles hmay t w hf hmx hsp hwf hwm hcols hrows
    hcase a b
  have hmm : IntMm p tile op := ⟨hkind, htr, hacc, hpass, hplat, htiles, hf, hmx, hsp, hwf, hwm, hcols, hrows⟩
  obtain ⟨fl, hstart⟩ := platenStart_mm hmm hq hmay
  obtain ⟨hn, hbound⟩ := hrun
  have hexec : exec (.platenStart n []) s = onPress n s fun s => s.platenStart n [] := rfl
  rw [hexec, onPress, if_neg (Nat.not_le.2 hn), if_neg hbound, hstart]
  refine ⟨_, rfl, ?_, fun m hm hbit j hj => ?_⟩
  · rw [queue_record, queue_mmPlaten hmm, queue_zeroFresh _ _ hplat htiles, plq_mmStarted]
  · have hsame := (mmSame_mmStarted (s := s) (n := n) (op := op) rest).trans (mmSame_zeroFresh _ n hplat htiles)
    rw [tileWord_congr (mem_record ..), tileWord_mmPlaten hmm hm hbit hj]
    refine sumWord_congr op (x' := mmX s n p op) (w' := mmW s n) fun i hi => ?_
    rw [mmX_same hsame hmm (hcase m hm i hi), mmW_same hsame]

end Sys2Proof.Machine
end

/-! # Integer and predicate operations of a Line (R79, R80)

Each is a scalar slot that changes the press's registers alone (`does_of_slotEffect`); what is left is to read the value
that the model writes as the statement spells it. -/

section
open Sys2Proof Sys2Proof.Machine
namespace Sys2Proof.Machine

/-! ### Integer operations (R80) -/

section
variable {s : State} {n : Nat} {l : Line}

/-- A form A operation on scalar registers. -/
theorem isScalar_formA {i : Instr} {a : FormA} {op : Regs → FormA → Scal} (hd : slotOf i = some (slotA a op)) :
    IsScalar i (slotA a op) a.slot fun r => op r a := ⟨hd, rfl, rfl, rfl, rfl⟩

/-- A form B operation on scalar registers. -/
theorem isScalar_formB {i : Instr} {b : FormB} {op : Regs → FormB → Scal} (hd : slotOf i = some (slotB b op)) :
    IsScalar i (slotB b op) b.slot fun r => op r b := ⟨hd, rfl, rfl, rfl, rfl⟩

/-- An ALU operation that its table lists writes its value. -/
theorem alu_does {a : FormA} {v : W64} (h : OneSlot s n l (.alu l a))
    (hv : aluOp a.sub.toNat (s.x n a.rs1) (s.x n a.rs2) = some v) :
    Does s n (.alu l a) (·.setX a.rd.toNat v) (s.nextLine n) := by
  have hv' : aluOp a.sub.toNat ((s.pc n).regs.x a.rs1.toNat) ((s.pc n).regs.x a.rs2.toNat) = some v := hv
  refine does_of_slotEffect h rfl (isScalar_formA rfl) rfl ?_
  simp only [State.slotEffect, opAlu, hv']
  rfl

/-- An operation with an immediate writes what it makes of x[RS1] and IMM13. -/
theorem imm_does {i : Instr} {b : FormB} (f : W64 → W64 → W64) (hx : exec i s = issue l i s)
    (hd : slotOf i = some (slotB b fun r b => immOp r b f)) (h : OneSlot s n l i) :
    Does s n i (·.setX b.rd.toNat (f (s.x n b.rs1) (b.imm.signExtend 64))) (s.nextLine n) :=
  does_of_slotEffect h hx (isScalar_formB hd) rfl rfl

/-- A comparison of signed integers as a word. -/
theorem wn_slt (x y : W64) : wn (b2n (sgn x < sgn y)) = if x.slt y then 1 else 0 := by
  rw [wn_b2n]; rfl

/-- The part of the shared immediate that a LIS takes, as the model writes it. -/
def lisValue (l : Line) (b : FormB) : W64 :=
  if b.imm.getLsbD 2 then wn (immPart l (b.imm.toNat % 4))
  else w64 (sext (immWidth l.split) (immPart l (b.imm.toNat % 4)))

/-- It is the low bits of the shifted immediate, extended as IMM13[2] says. -/
theorem lisValue_eq (l : Line) (b : FormB) :
    let w := immWidth l.split
    let part : Nat := (l.imm.toNat >>> (w * (b.imm.toNat % 4))) % 2 ^ w
    lisValue l b = if b.imm.getLsbD 2 then BitVec.ofNat 64 part else (BitVec.ofNat w part).signExtend 64 := by
  simp only [lisValue, w64_sext, immPart, Nat.mul_comm (immWidth l.split)]
  rfl

theorem lis_does {b : FormB} (h : OneSlot s n l (.lis l b)) :
    Does s n (.lis l b) (·.setX b.rd.toNat (lisValue l b)) (s.nextLine n) := by
  have hi : IsScalar (.lis l b)
      { scalarSlot b.slot (fun r => opLis r l b) [b.rd.toNat] [] (some b.rd.toNat) false false with lis := true }
      b.slot fun r => opLis r l b := ⟨rfl, rfl, rfl, rfl, rfl⟩
  exact does_of_slotEffect h rfl hi rfl rfl

end

/-- The low six bits of IMM13 are those of its extension. -/
theorem sext_shift (i : BitVec 13) : (i.signExtend 64).toNat % 64 = i.toNat % 64 := by
  have := i.isLt
  rw [BitVec.toNat_signExtend, BitVec.toNat_setWidth]
  split <;> omega

theorem integerResults : Claims.IntegerResults := by
  intro s n l
  have shift {i : Instr} {b : FormB} (f : W64 → Nat → W64) (hx : exec i s = issue l i s)
      (hd : slotOf i = some (slotB b fun r b => immOp r b fun a i => f a (i.toNat % 64))) (h : OneSlot s n l i) :
      Does s n i (·.setX b.rd.toNat (f (s.x n b.rs1) (b.imm.toNat % 64))) (s.nextLine n) :=
    sext_shift b.imm ▸ imm_does (fun a i => f a (i.toNat % 64)) hx hd h
  refine ⟨fun a v => alu_does, fun b => ⟨imm_does _ rfl rfl, imm_does _ rfl rfl, imm_does _ rfl rfl, imm_does _ rfl rfl,
    shift _ rfl rfl, shift _ rfl rfl, shift _ rfl rfl, fun h => ?_, fun h => (lis_does h).congr ?_⟩⟩
  · exact wn_slt (s.x n b.rs1) _ ▸ imm_does (fun a i => wn (b2n (sgn a < sgn i))) rfl rfl h
  · exact congrArg ((s.pc n).setX b.rd.toNat) (lisValue_eq l b)

/-! ### A Line of one slot that changes the press alone -/

section
variable {s : State} {n : Nat} {l : Line} {i : Instr} {d : SlotDef}

/-- A slot, of no command row, whose operation is the command's. -/
structure IsSlot (i : Instr) (d : SlotDef) : Prop where
  slot : slotOf i = some d
  number : d.slot < 6
  plain : d.sub = none

/-- The Line of a slot that takes effect and raises no condition. -/
theorem issue_slot {t : State} {goal : Option W64} (h : OneSlot s n l i) (hi : IsSlot i d)
    (hlive : d.live (s.lc n l) = true) (ha : d.act (s.lc n l) s false s = { s := t, goal := goal }) :
    issue l i s = .next (if d.wakes then (t.retireLine n (goal.getD (s.nextLine n))).settle
      else t.retireLine n (goal.getD (s.nextLine n))) := by
  obtain ⟨hslot, hnum, hsub⟩ := hi
  have hrow : s.rowWrong n d = false := by simp [State.rowWrong, hsub]
  rw [issue_one s n l i d h hslot hnum hrow, lineEffect_one s (s.lc n l) d h.outside hlive, ha]
  rfl

/-- The Line of a control slot whose condition does not hold only goes by. -/
theorem issue_dead (h : OneSlot s n l i) (hi : IsSlot i d) (hlive : d.live (s.lc n l) = false) :
    issue l i s = .next (s.retireLine n (s.nextLine n)) := by
  obtain ⟨hslot, hnum, hsub⟩ := hi
  have hrow : s.rowWrong n d = false := by simp [State.rowWrong, hsub]
  have hout : s.openRegion (s.lc n l).n = none := h.outside
  rw [issue_one s n l i d h hslot hnum hrow]
  simp only [State.lineEffect, List.filter_cons, hlive, List.filter_nil, State.placeEntries, State.takeNeeds, hout]
  rfl

/-- A slot that changes the press's state of its context alone. -/
theorem does_of_act {f : PressCtx → PressCtx} {goal : Option W64} (h : OneSlot s n l i) (hx : exec i s = issue l i s)
    (hi : IsSlot i d) (hlive : d.live (s.lc n l) = true) (hw : d.wakes = false)
    (ha : d.act (s.lc n l) s false s = { s := s.modPc n f, goal := goal }) :
    Does s n i f (goal.getD (s.nextLine n)) := by
  refine ⟨_, (hx.trans (issue_slot h hi hlive ha)).trans ?_, onlyPress_retired s n f _⟩
  rw [hw]
  rfl

/-- A slot that changes nothing, but names the next Line. -/
theorem does_of_idle {goal : Option W64} (h : OneSlot s n l i) (hx : exec i s = issue l i s) (hi : IsSlot i d)
    (hlive : d.live (s.lc n l) = true) (hw : d.wakes = false)
    (ha : d.act (s.lc n l) s false s = { s := s, goal := goal }) : Does s n i id (goal.getD (s.nextLine n)) := by
  refine ⟨_, (hx.trans (issue_slot h hi hlive ha)).trans ?_, onlyPress_setPc s n _⟩
  rw [hw]
  rfl

/-- A control slot whose condition does not hold. -/
theorem does_dead (h : OneSlot s n l i) (hx : exec i s = issue l i s) (hi : IsSlot i d)
    (hlive : d.live (s.lc n l) = false) : Does s n i id (s.nextLine n) :=
  ⟨_, hx.trans (issue_dead h hi hlive), onlyPress_setPc s n _⟩

end

theorem nopsAdvance : Claims.NopsAdvance := by
  intro s n l
  refine ⟨fun sl r h => ?_, fun f h => ?_, fun f h => ?_, fun f h => ?_⟩
  · exact does_of_idle h rfl ⟨rfl, slotNo_lt sl, rfl⟩ rfl rfl rfl
  · exact does_of_idle h rfl ⟨rfl, (by decide : 2 < 6), rfl⟩ rfl rfl rfl
  · exact does_of_idle h rfl ⟨rfl, (by decide : 3 < 6), rfl⟩ rfl rfl rfl
  · have hi : IsSlot (.ctNop l f) (ctSlotDef f [] (fun _ _ => chkCtNop f) fun _ s => s) :=
      ⟨rfl, (by decide : 5 < 6), rfl⟩
    cases hc : (s.lc n l).cond f with
    | true => exact does_of_idle h rfl hi hc rfl rfl
    | false => exact does_dead h rfl hi hc

/-! ### Predicates (R79) -/

section
variable {s : State} {n : Nat} {l : Line} {a : FormA}

/-- The comparison of a CMP, as the statement writes it. -/
def cmpHolds (sub : Nat) (u v : W64) : Bool :=
  match sub with
  | 0 => u == v | 1 => u != v | 2 => u.slt v | 3 => !u.slt v | 4 => u.ult v | _ => !u.ult v

/-- It is the model's. -/
theorem cmpHolds_eq (sub : Nat) (u v : W64) : cmpHolds sub u v = (match sub with
    | 0 => u == v
    | 1 => u != v
    | 2 => decide (sgn u < sgn v)
    | 3 => decide (sgn v ≤ sgn u)
    | 4 => decide (u.toNat < v.toNat)
    | _ => decide (v.toNat ≤ u.toNat)) := by
  have hslt : (!u.slt v) = decide (sgn v ≤ sgn u) := by
    rw [BitVec.slt, ← decide_not]
    exact decide_eq_decide.2 Int.not_lt
  have hult : (!u.ult v) = decide (v.toNat ≤ u.toNat) := by
    rw [BitVec.ult, ← decide_not]
    exact decide_eq_decide.2 Nat.not_lt
  unfold cmpHolds
  split
  · rfl
  · rfl
  · rfl
  · exact hslt
  · rfl
  · exact hult

theorem cmp_does (h : OneSlot s n l (.cmp l a)) : Does s n (.cmp l a)
    (·.setP a.rd.toNat (allBits (cmpHolds a.sub.toNat (s.x n a.rs1) (s.x n a.rs2)))) (s.nextLine n) := by
  rw [cmpHolds_eq]
  exact does_of_slotEffect h rfl (⟨rfl, rfl, rfl, rfl, rfl⟩ : IsScalar _ (slotCmp a opCmp) a.slot fun r => opCmp r a) rfl rfl

/-- A word replaced in a bit vector: its bits are the new word's, the others stay. -/
theorem getLsbD_replaceWord {W : Nat} (p : BitVec W) (j : Nat) (v : W64) (i : Nat) (hi : i < W) :
    ((p &&& ~~~((BitVec.allOnes 64).setWidth W <<< (64 * j))) ||| (v.setWidth W <<< (64 * j))).getLsbD i =
      if i / 64 = j then v.getLsbD (i % 64) else p.getLsbD i := by
  simp only [BitVec.getLsbD_or, BitVec.getLsbD_and, BitVec.getLsbD_not, BitVec.getLsbD_shiftLeft, BitVec.getLsbD_setWidth,
    BitVec.getLsbD_allOnes, hi, decide_true, Bool.true_and]
  by_cases h : i / 64 = j
  · have hge : ¬ i < 64 * j := by omega
    have hbit : i - 64 * j = i % 64 := by omega
    have hin : i % 64 < W := by omega
    simp [h, hge, hbit, hin, Nat.mod_lt]
  · by_cases hlt : i < 64 * j
    · simp [h, hlt]
    · have hge : ¬ i - 64 * j < 64 := by omega
      simp [h, hge, BitVec.getLsbD_of_ge v _ (Nat.not_lt.1 hge)]

end

theorem predicateResults : Claims.PredicateResults := by
  intro s n l a u v p
  refine ⟨cmp_does, fun h => ?_, fun h => ?_, fun h => ⟨setPredWord (p a.rd) (v.toNat % 256) u, ?_, ?_⟩⟩
  · exact does_of_slotEffect (op := fun r => opPlog r a) h rfl ⟨rfl, rfl, rfl, rfl, rfl⟩ rfl rfl
  · exact does_of_slotEffect (op := fun r => opPget r a) h rfl ⟨rfl, rfl, rfl, rfl, rfl⟩ rfl rfl
  · exact fun i hi => getLsbD_replaceWord _ _ _ i hi
  · exact does_of_slotEffect (op := fun r => opPset r a) h rfl ⟨rfl, rfl, rfl, rfl, rfl⟩ rfl rfl

/-- Settles O47: integer operations, NOPs and predicates, each by its own lemma. -/
theorem scalarResults : Obligations.ScalarResults := ⟨integerResults, nopsAdvance, predicateResults⟩

end Sys2Proof.Machine
end

/-! # Integer division (R80)

Division and remainder are the two operations of a scalar slot that check nothing: a Line that is fetched and in order
therefore issues, inside a region as well. -/

section
open Sys2Proof Sys2Proof.Machine
namespace Sys2Proof.Machine

/-! ### The values of DIV, DIVU, REM and REMU -/

/-- The result of a division, as the statement writes it. -/
def divisionValue (sub : Nat) (u v : W64) : W64 :=
  let least : W64 := BitVec.ofNat 64 (2 ^ 63)
  match sub with
  | 17 => if v = 0 then BitVec.allOnes 64 else if u = least ∧ v = BitVec.allOnes 64 then least else u.sdiv v
  | 18 => if v = 0 then BitVec.allOnes 64 else u / v
  | 19 => if v = 0 then u else if u = least ∧ v = BitVec.allOnes 64 then 0 else u.srem v
  | _ => if v = 0 then u else u % v

theorem w64_tdiv (u v : W64) : w64 ((sgn u).tdiv (sgn v)) = u.sdiv v := by
  apply BitVec.eq_of_toInt_eq
  rw [BitVec.toInt_sdiv]
  exact BitVec.toInt_ofInt ..

theorem w64_tmod (u v : W64) : w64 ((sgn u).tmod (sgn v)) = u.srem v := by
  have h : (u.srem v).toInt = (sgn u).tmod (sgn v) := BitVec.toInt_srem ..
  rw [← h]
  exact BitVec.ofInt_toInt

theorem divS_eq (u v : W64) : divS u v = divisionValue 17 u v := by
  have h : u.sdiv v = if u = BitVec.ofNat 64 (2 ^ 63) ∧ v = BitVec.allOnes 64 then BitVec.ofNat 64 (2 ^ 63) else u.sdiv v := by
    split
    · next h => rw [h.1, h.2]; decide
    · rfl
  rw [divS, w64_tdiv, h]; rfl

theorem remS_eq (u v : W64) : remS u v = divisionValue 19 u v := by
  have h : u.srem v = if u = BitVec.ofNat 64 (2 ^ 63) ∧ v = BitVec.allOnes 64 then 0 else u.srem v := by
    split
    · next h => rw [h.1, h.2]; decide
    · rfl
  rw [remS, w64_tmod, h]; rfl

theorem divU_eq (u v : W64) : divU u v = divisionValue 18 u v := by
  have h : wn (u.toNat / v.toNat) = u / v := by
    apply BitVec.eq_of_toNat_eq
    rw [BitVec.toNat_udiv]
    exact Nat.mod_eq_of_lt (Nat.lt_of_le_of_lt (Nat.div_le_self ..) u.isLt)
  rw [divU, h]; rfl

theorem remU_eq (u v : W64) : remU u v = divisionValue 20 u v := by
  have h : wn (u.toNat % v.toNat) = u % v := by
    apply BitVec.eq_of_toNat_eq
    rw [BitVec.toNat_umod]
    exact Nat.mod_eq_of_lt (Nat.lt_of_le_of_lt (Nat.mod_le ..) u.isLt)
  rw [remU, h]; rfl

/-- The four divisions are listed operations with these values. -/
theorem aluOp_division {sub : Nat} (h1 : 17 ≤ sub) (h2 : sub ≤ 20) (u v : W64) :
    aluOp sub u v = some (divisionValue sub u v) := by
  obtain rfl | rfl | rfl | rfl : sub = 17 ∨ sub = 18 ∨ sub = 19 ∨ sub = 20 := by omega
  · rw [← divS_eq]; rfl
  · rw [← divU_eq]; rfl
  · rw [← remS_eq]; rfl
  · rw [← remU_eq]; rfl

theorem opAlu_listed {r : Regs} {a : FormA} {v : W64} (h : aluOp a.sub.toNat (r.x a.rs1.toNat) (r.x a.rs2.toNat) = some v) :
    opAlu r a = { eff := .x a.rd.toNat v 0 } := by
  rw [opAlu, h]

/-! ### A Line of one slot that checks nothing -/

section
variable {s : State} {n : Nat} {l : Line} {i : Instr} {d : SlotDef}

/-- A slot that checks nothing passes wherever its Line is in order. -/
theorem Issues.passes (h : Issues s n l i) (hchk : d.chk (s.lc n l) s = {}) : s.lineFault (s.lc n l) [d] = none := by
  have hfetched : s.rangeFault (s.lc n l).c .ex (s.lc n l).old.pc 64 = none := h.fetched
  have hrsv : ¬ (s.lc n l).l.rsv ≠ 0 := not_not.2 h.rsv
  have hsplit : ¬ (s.lc n l).l.split = 3 := h.split
  have hneed : s.need (s.lc n l) (s.need0 n) {} = s.need0 n := by
    simp [State.need, State.writePages]
  simp only [State.lineFault, hfetched, if_neg hrsv, if_neg hsplit, State.slotsFault, hchk]
  cases hr : s.openRegion n with
  | none =>
    have hr' : s.openRegion (s.lc n l).n = none := hr
    simp [hr', firstOf]
  | some r =>
    have hr' : s.openRegion (s.lc n l).n = some r := hr
    have hfits : needFault (s.region (chaseOf (s.lc n l).n) r) (s.need (s.lc n l) (s.need0 (s.lc n l).n) {}) = none := by
      exact hneed.symm ▸ h.region r hr
    simp [hr', firstOf, hfits]

/-- A Line of one slot that issues: its effect, whatever the slot. -/
theorem issue_checked (h : Issues s n l i) (hi : IsSlot i d) (hlists : d.lists (s.lc n l) s = [])
    (hchk : d.chk (s.lc n l) s = {}) : issue l i s = .next (s.lineEffect (s.lc n l) [d]) := by
  obtain ⟨hslot, hnum, hsub⟩ := hi
  have hone : lineSlots l [i] = [d] := lineSlots_one l i d hslot hnum h.stray h.unlisted
  have hrow : s.rowWrong n d = false := by simp [State.rowWrong, hsub]
  have hready := h.ready
  have hlisted : s.listsWait (s.lc n l) [d] = false := by
    simp [State.listsWait, hlists, State.farParts, State.rangeStalls]
  rw [hone] at hready
  unfold issue
  rw [h.core]
  simp [Nat.not_le.mpr h.press, h.running, h.bound, h.last, h.alone, hone, hrow, State.issueLine, hready, hlisted,
    h.passes hchk, h.guard]

/-- Inside a region or not, what a slot without writes leaves beside its own effect is the count of its region. -/
theorem lineEffect_checked {t : State} (hlive : d.live (s.lc n l) = true) (hchk : d.chk (s.lc n l) s = {})
    (hw : d.wakes = false) (ha : d.act (s.lc n l) s false s = { s := t }) :
    ∃ cs, s.lineEffect (s.lc n l) [d] = ({ t with chases := cs } : State).retireLine n (s.nextLine n) := by
  have hplace : s.placeEntries (s.lc n l) [d] = s := by
    unfold State.placeEntries
    split
    · rfl
    · simp [hchk, State.writePages]
  have hneeds : ∃ cs, t.takeNeeds s (s.lc n l) [d] = { t with chases := cs } := by
    unfold State.takeNeeds
    split
    · exact ⟨t.chases, rfl⟩
    · exact ⟨_, rfl⟩
  obtain ⟨cs, hcs⟩ := hneeds
  refine ⟨cs, ?_⟩
  simp only [State.lineEffect, List.filter_cons, hlive, List.filter_nil, if_true, actAll, hplace, List.any_nil, ha, hcs,
    List.any_cons, hw]
  rfl

end

/-! ### The statement -/

section
variable {s : State} {n m : Nat} {l : Line} {a : FormA} {v : W64}

theorem scalarChk_alu {c : Nat} {drop : Bool} {r : Regs} (hv : aluOp a.sub.toNat (r.x a.rs1.toNat) (r.x a.rs2.toNat) = some v) :
    scalarChk s c drop (opAlu r a) = {} := by
  rw [opAlu_listed hv]; rfl

/-- A listed ALU operation on a press, inside a region or not. -/
theorem alu_press (h : Issues s n l (.alu l a)) (hv : aluOp a.sub.toNat (s.x n a.rs1) (s.x n a.rs2) = some v) :
    ∃ t, exec (.alu l a) s = .next t ∧
      t.press n = { s.press n with cur := ((s.pc n).setX a.rd.toNat v).retire (s.nextLine n) } ∧
      (∀ k, k ≠ n → t.press k = s.press k) ∧ { t with presses := s.presses, chases := s.chases } = s := by
  have hchk : (slotA a opAlu).chk (s.lc n l) s = {} := scalarChk_alu (r := (s.pc n).regs) hv
  have hact : (slotA a opAlu).act (s.lc n l) s false s = { s := s.modPc n (·.setX a.rd.toNat v) } := by
    have hop : opAlu (s.lc n l).old.regs a = { eff := .x a.rd.toNat v 0 } := opAlu_listed hv
    simp only [slotA, scalarSlot, hop]
    rfl
  obtain ⟨cs, hcs⟩ := lineEffect_checked rfl hchk rfl hact
  refine ⟨_, (issue_checked h ⟨rfl, slotNo_lt a.slot, rfl⟩ rfl hchk).trans (congrArg _ hcs), ?_⟩
  obtain ⟨hn, hothers, -⟩ := onlyPress_retired { s with chases := cs } n (·.setX a.rd.toNat v) (s.nextLine n)
  exact ⟨hn, hothers, rfl⟩

/-- Nothing of the state changes but one compositor. -/
def OnlyCompositor (s t : State) (m : Nat) (z : Comp) : Prop :=
  t.comp m = z ∧ (∀ k, k ≠ m → t.comp k = s.comp k) ∧ { t with comps := s.comps } = s

/-- An instruction of a compositor that moves on and then changes `g` of it. -/
theorem onlyCompositor_twice (s : State) (m : Nat) (y : Comp) (g : Comp → Comp) :
    OnlyCompositor s ((s.setComp m y).setComp m (g ((s.setComp m y).comp m))) m (g y) := by
  refine ⟨by simp, fun k hk => by simp [hk.symm], rfl⟩

theorem onlyCompositor_x (s : State) (m rd : Nat) (v : W64) (fl : Flags) :
    OnlyCompositor s (s.compDo m false (.x rd v fl)) m ((s.comp m).next.setX rd v) :=
  onlyCompositor_twice s m (s.comp m).next (·.setX rd v)

/-- A listed ALU operation on a compositor. -/
theorem alu_comp (hm : m < 64) (hc : l.core = .comp m) (hu : l.unlisted = 0) (hf : (s.comp m).fault.valid = false)
    (hst : (s.comp m).stall = []) (hr : s.requests = [])
    (hv : aluOp a.sub.toNat ((s.comp m).getX a.rs1.toNat) ((s.comp m).getX a.rs2.toNat) = some v) :
    ∃ t, exec (.alu l a) s = .next t ∧ OnlyCompositor s t m ((s.comp m).next.setX a.rd.toNat v) := by
  have hchk : scalarChk s (s.comp m).ctx false (opAlu (s.comp m).regs a) = {} := scalarChk_alu (r := (s.comp m).regs) hv
  refine ⟨_, issue_comp hm hc hu hf hst hr rfl (op := fun r => opAlu r a) rfl rfl hchk, ?_⟩
  rw [opAlu_listed (r := (s.comp m).regs) hv]
  exact onlyCompositor_x s m a.rd.toNat v 0

end

/-- Settles O42: each division is a listed operation of the scalar slot with the value that R80 gives. -/
theorem divisionResults : Obligations.DivisionResults := by
  intro s n m l a least value h1 h2
  have hv (u v : W64) : aluOp a.sub.toNat u v = some (value u v) := aluOp_division h1 h2 u v
  exact ⟨fun h => alu_press h (hv _ _), fun hm hc hu hf hst hr => alu_comp hm hc hu hf hst hr (hv _ _)⟩

end Sys2Proof.Machine
end

/-! # Branches (R82, R83, R91) -/

section
open Sys2Proof Sys2Proof.Machine
namespace Sys2Proof.Machine

/-! ### Branches of a compositor (R82, R83) -/

/-- An instruction of a compositor that only moves on, or on to a target. -/
theorem onlyCompositor_nothing (s : State) (m : Nat) : OnlyCompositor s (s.compDo m false .nothing) m (s.comp m).next :=
  ⟨by simp [State.compDo, Comp.next, compNext], fun k hk => by simp [State.compDo, hk.symm], rfl⟩

theorem onlyCompositor_jump (s : State) (m rd : Nat) (link target : W64) :
    OnlyCompositor s (s.compDo m false (.jump rd link target)) m (({ s.comp m with pc := target } : Comp).setX rd link) :=
  onlyCompositor_twice s m { s.comp m with pc := target } (·.setX rd link)

/-- A jump where the condition holds, and the next instruction otherwise. -/
theorem onlyCompositor_jumpIf (s : State) (m : Nat) (c : Prop) [Decidable c] (target : W64) :
    OnlyCompositor s (s.compDo m false (if c then .jump 0 0 target else .nothing)) m
      { s.comp m with pc := if c then target else (s.comp m).pc + 4 } := by
  by_cases h : c
  · simp only [h, if_true]
    exact onlyCompositor_jump s m 0 0 target
  · simp only [h, if_false]
    exact onlyCompositor_nothing s m

theorem compositorBranches : Claims.CompositorBranches := by
  intro s m l b hm hc hu hf hst hr x near go
  have run {i : Instr} {d : SlotDef} {op : Regs → Scal} {z : Comp} (hx : exec i s = issue l i s) (hd : slotOf i = some d)
      (hop : d.scal = some op) (hw : d.wakes = false) (hl : d.lis = false) (hp : scalarChk s x.ctx false (op x.regs) = {})
      (hz : OnlyCompositor s (s.compDo m false (op x.regs).eff) m z) : go i z :=
    ⟨_, hx.trans (issue_comp hm hc hu hf hst hr hd hop hw hp), hl ▸ hz⟩
  have passes (h : b.rd = 0) (c : Prop) [Decidable c] (target : W64) :
      scalarChk s x.ctx false { chk := coreChk false (illegalIf (b.rd != 0) none)
                                eff := if c then .jump 0 0 target else .nothing } = {} := by
    by_cases hc : c <;> simp [scalarChk, h, hc, coreChk, illegalIf, failIf]
  refine ⟨fun h => run (op := fun r => opBnz r b) rfl rfl rfl rfl rfl (passes h _ _) (onlyCompositor_jumpIf s m _ _),
    fun h => run (op := fun r => opBz r b) rfl rfl rfl rfl rfl (passes h _ _) (onlyCompositor_jumpIf s m _ _),
    run (op := fun r => opJal r b) rfl rfl rfl rfl rfl rfl (onlyCompositor_jump s m _ _ _),
    run (op := fun r => opJalr r b) rfl rfl rfl rfl rfl rfl (onlyCompositor_jump s m _ _ _)⟩

/-! ### Branches of the control slot (R91) -/

section
variable {s : State} {n : Nat} {l : Line} {f : CtF} {i : Instr} {d : SlotDef}

/-- A control slot takes effect where its condition holds. -/
theorem live_of_holds (hd : d.cond = some f) (hc : condHolds s n f) : d.live (s.lc n l) = true := by
  rw [SlotDef.live, hd]
  exact bne_iff_ne.2 hc

theorem not_live_of_not_holds (hd : d.cond = some f) (hc : ¬ condHolds s n f) : d.live (s.lc n l) = false := by
  rw [SlotDef.live, hd]
  exact Bool.eq_false_iff.2 fun h => hc (bne_iff_ne.1 h)

end

theorem controlBranches : Claims.Branches := by
  intro s n l f near next down
  have dead {i : Instr} {d : SlotDef} (hx : exec i s = issue l i s) (hi : IsSlot i d) (hd : d.cond = some f)
      (h : OneSlot s n l i) (hc : ¬ condHolds s n f) : Does s n i id next :=
    does_dead h hx hi (not_live_of_not_holds hd hc)
  have slot {i : Instr} {d : SlotDef} (hd : slotOf i = some d) (h5 : d.slot = 5) (hs : d.sub = none) : IsSlot i d :=
    ⟨hd, h5 ▸ (by decide), hs⟩
  refine ⟨fun h => ⟨fun hc => ?_, dead rfl (slot rfl rfl rfl) rfl h⟩, fun h => ⟨fun hc => ?_, dead rfl (slot rfl rfl rfl) rfl h⟩,
    fun h => ⟨fun hc => ?_, dead rfl (slot rfl rfl rfl) rfl h⟩, fun h => ⟨fun hc => ?_, dead rfl (slot rfl rfl rfl) rfl h⟩⟩
  · exact does_of_idle h rfl (slot rfl rfl rfl) (live_of_holds rfl hc) rfl rfl
  · exact does_of_idle h rfl (slot rfl rfl rfl) (live_of_holds rfl hc) rfl rfl
  · exact does_of_act (f := (·.setX f.xd.toNat next)) (goal := some near) h rfl (slot rfl rfl rfl)
      (live_of_holds rfl hc) rfl rfl
  · have hgoal : (if down ≠ 0 then some near else none).getD next = if down = 0 then next else near := by
      split <;> simp_all
    exact hgoal ▸ does_of_act (f := (·.setX f.xa.toNat down)) h rfl (slot rfl rfl rfl) (live_of_holds rfl hc) rfl rfl

/-- Settles O49: a branch of a compositor is one instruction of it, one of the control slot names the next Line. -/
theorem allBranches : Obligations.AllBranches := ⟨compositorBranches, controlBranches⟩

end Sys2Proof.Machine
end

/-! # Engine operations at issue (R76, R87 to R89, R102, R110, R140 to R143)

An engine's slot captures its operation from the press's state before the Line, places it in its queue and takes its mark;
the platen slot changes the record of the window and the bindings of handles besides. -/

section
open Sys2Proof Sys2Proof.Machine
namespace Sys2Proof.Machine

/-- A descriptor register that a slot names in five bits. -/
theorem lc_t (s : State) (n : Nat) (l : Line) (r : BitVec 5) : (s.lc n l).t r.toNat = (s.pc n).getT r.toNat :=
  congrArg (s.pc n).getT (Nat.mod_eq_of_lt r.isLt)

/-! ### The tensor-move queue (R88) -/

section
variable {s : State} {n : Nat} {l : Line} {f : TmF} {i : Instr} {d : SlotDef}

/-- A tensor-move slot that queues its operation. -/
theorem tm_does {kind : TmKind} (hx : exec i s = issue l i s) (hi : IsSlot i d) (hc : d.cond = none) (hw : d.wakes = false)
    (ha : d.act (s.lc n l) s false s = { s := s.queueTm n ((s.lc n l).tmOp s f kind) }) (h : OneSlot s n l i) :
    Does s n i (fun p => { p.take ((s.lc n l).tmOp s f kind).mark with tmq := p.tmq ++ [(s.lc n l).tmOp s f kind] })
      (s.nextLine n) :=
  does_of_act h hx hi (by rw [SlotDef.live, hc]) hw ha

end

theorem tensorMovesQueue : Claims.TensorMovesQueue := by
  intro s n l f go
  have run {i : Instr} {d : SlotDef} {kind : TmKind} (hx : exec i s = issue l i s) (hd : slotOf i = some d) (h2 : d.slot = 2)
      (hs : d.sub = none) (hc : d.cond = none) (hw : d.wakes = false)
      (ha : d.act (s.lc n l) s false s = { s := s.queueTm n ((s.lc n l).tmOp s f kind) }) : go i kind := fun h =>
    ⟨_, rfl, lc_t s n l f.td, lc_t s n l f.ts, rfl, rfl, rfl, rfl, rfl, tm_does hx ⟨hd, h2 ▸ (by decide), hs⟩ hc hw ha h⟩
  exact ⟨run rfl rfl rfl rfl rfl rfl rfl, run rfl rfl rfl rfl rfl rfl rfl, run rfl rfl rfl rfl rfl rfl rfl,
    run rfl rfl rfl rfl rfl rfl rfl, run rfl rfl rfl rfl rfl rfl rfl⟩

theorem descriptorMoves : Claims.DescriptorMoves := by
  intro s n l f go
  have run {i : Instr} {d : SlotDef} {kind : TmKind} (hx : exec i s = issue l i s) (hd : slotOf i = some d) (h2 : d.slot = 2)
      (hs : d.sub = none) (hc : d.cond = none) (hw : d.wakes = false)
      (ha : d.act (s.lc n l) s false s = { s := s.queueTm n ((s.lc n l).tmOp s f kind) }) : go i kind := fun h =>
    ⟨_, rfl, rfl, lc_t s n l f.ts, rfl, rfl, rfl, rfl, tm_does hx ⟨hd, h2 ▸ (by decide), hs⟩ hc hw ha h⟩
  exact ⟨run rfl rfl rfl rfl rfl rfl rfl, run rfl rfl rfl rfl rfl rfl rfl⟩

/-! ### The roller queue (R141, R143) -/

theorem rollerQueue : Claims.RollerQueue := by
  intro s n l f go
  have run {i : Instr} {cls : Nat} (hx : exec i s = issue l i s) (hd : slotOf i = some (rlSlotDef cls f)) : go i cls :=
    fun h => ⟨(s.lc n l).rlOp cls f, rfl, rfl, lc_t s n l f.td, lc_t s n l f.ta, lc_t s n l f.tb, rfl, rfl, rfl, rfl, rfl, rfl,
      does_of_act (f := fun p => { p.take ((s.lc n l).rlOp cls f).mark with rlq := p.rlq ++ [(s.lc n l).rlOp cls f] })
        (goal := none) h hx ⟨hd, (by decide : 4 < 6), rfl⟩ rfl rfl rfl⟩
  exact ⟨run rfl rfl, run rfl rfl, run rfl rfl, run rfl rfl, run rfl rfl, run rfl rfl, run rfl rfl, run rfl rfl⟩

/-! ### The platen queue (R89, R102, R110) -/

/-- Taking a mark changes the marks alone. -/
theorem take_marks (p : PressCtx) (m : Option Nat) : ∃ ms, p.take m = { p with marks := ms } := by
  cases m with
  | none => exact ⟨p.marks, rfl⟩
  | some k => exact ⟨_, rfl⟩

/-- Nothing of a press's state differs but the bindings of handles. -/
def SameButBinds (p q : PressCtx) : Prop := ∃ b, q = { p with binds := b }

theorem sameButBinds_refl (p : PressCtx) : SameButBinds p p := ⟨_, rfl⟩

theorem SameButBinds.trans {p q r : PressCtx} (h : SameButBinds p q) (k : SameButBinds q r) : SameButBinds p r := by
  obtain ⟨b, rfl⟩ := h
  obtain ⟨c, rfl⟩ := k
  exact ⟨c, rfl⟩

theorem sameButBinds_bindAll (p : PressCtx) (plat : BitVec 4) (hs : Nat → List Nat) :
    SameButBinds p (p.bindAll plat hs) := by
  refine foldl_rel sameButBinds_refl SameButBinds.trans _ _ (fun p k _ => ?_) p
  exact foldl_rel sameButBinds_refl SameButBinds.trans (fun c h => c.bindOne k h) _ (fun _ _ _ => ⟨_, rfl⟩) p

theorem sameButBinds_setTags (p : PressCtx) (plat : BitVec 4) (hs : Nat → List Nat) (tag : Nat → TileTag) (all : Bool) :
    SameButBinds p (p.setTags plat hs tag all) := by
  refine foldl_rel sameButBinds_refl SameButBinds.trans _ _ (fun p k _ => ?_) p
  refine foldl_rel sameButBinds_refl SameButBinds.trans _ _ (fun p k _ => ?_) p
  split
  · split <;> exact ⟨_, rfl⟩
  · exact sameButBinds_refl p

/-- An operation in the platen queue with its mark taken; the record of the window and the bindings may differ besides. -/
def PlatenTaken (p q : PressCtx) (op : PlOp) : Prop := ∃ b w, q = { p.queuePl op with binds := b, wrec := w }

theorem platenTaken_queuePl {p q : PressCtx} (h : SameButBinds p q) (op : PlOp) : PlatenTaken p (q.queuePl op) op := by
  obtain ⟨b, rfl⟩ := h
  refine ⟨b, p.wrec, ?_⟩
  unfold PressCtx.queuePl PressCtx.take
  cases op.mark <;> rfl

theorem platenTaken_window (p : PressCtx) (r : WRec) (op : PlOp) :
    PlatenTaken p (({ p with wrec := some r } : PressCtx).queuePl op) op := by
  refine ⟨p.binds, some r, ?_⟩
  unfold PressCtx.queuePl PressCtx.take
  cases op.mark <;> rfl

theorem wrec_queuePl (p : PressCtx) (op : PlOp) : (p.queuePl op).wrec = p.wrec := by
  unfold PressCtx.queuePl PressCtx.take
  cases op.mark <;> rfl

theorem PlatenTaken.release {p q : PressCtx} {op : PlOp} (h : PlatenTaken p q op) (plat : BitVec 4) (k : Nat) :
    PlatenTaken p (q.release plat k) op := by
  obtain ⟨b, w, rfl⟩ := h
  exact ⟨_, w, rfl⟩

/-- Keys taken out of a sparse array one after another: none of them is found. -/
theorem mfind_foldl_mdel {α : Type} (g : Nat → Nat) (ks : List Nat) (m : Map α) (j : Nat)
    (h : mfind? m j = none ∨ ∃ k ∈ ks, g k = j) : mfind? (ks.foldl (fun m k => mdel m (g k)) m) j = none := by
  induction ks generalizing m with
  | nil => simpa using h
  | cons k ks ih =>
    refine ih _ ?_
    rw [mfind_mdel]
    by_cases hk : g k = j
    · exact .inl (if_pos hk)
    · rw [if_neg hk]
      rcases h with h | ⟨k', hk', hj⟩
      · exact .inl h
      · rcases List.mem_cons.1 hk' with rfl | hk'
        · exact absurd hj hk
        · exact .inr ⟨k', hk', hj⟩

/-- A handle released is bound in no platen taking part. -/
theorem bind_release (p : PressCtx) (plat : BitVec 4) (h : Nat) :
    ∀ k ∈ platensOf plat, (p.release plat h).bind? k h = none := fun k hk =>
  mfind_foldl_mdel (fun k => 64 * k + h) (platensOf plat) p.binds _ (.inr ⟨k, hk, rfl⟩)

/-- The record of the window that a WLOAD names (R102). -/
def namedWindow (k : Lc) (f : PlF) : WRec :=
  let t := tdOf (k.t f.tw.toNat)
  { fmt := t.fmt, mx := t.mx, axis := t.axis, kExt := t.e1, nExt := t.e0, part := partOfW t.fmt f.pass.toNat }

/-- A platen operation as the slot's Line captures it (R76), whatever handles it names. -/
def PlatenCaptured (k : Lc) (f : PlF) (kind : PlKind) (op : PlOp) : Prop :=
  ∃ hs old now w, op = { k.plOp f kind hs old now with wrec := w }

section
variable {s : State} {n : Nat} {l : Line} {f : PlF} {i : Instr} {d : SlotDef} {kind : PlKind} {op : PlOp}
  {g : PressCtx → PressCtx}

/-- The Line of a platen slot that changes the press's state by `g`, taking its operation into the queue. -/
theorem platen_line {frees : Bool} (hx : exec i s = issue l i s) (hi : IsSlot i d) (hc : d.cond = none)
    (hw : d.wakes = false) (ha : d.act (s.lc n l) s false s = { s := s.modPc n g })
    (hg : PlatenTaken (s.pc n) (g (s.pc n)) op) (hop : PlatenCaptured (s.lc n l) f kind op)
    (hfrees : frees = true → ∀ p ∈ platensOf f.plat, (g (s.pc n)).bind? p f.tile.toNat = none)
    (hwindow : kind = .wload → (g (s.pc n)).wrec = some op.wrec) (h : OneSlot s n l i) : ∃ t op,
      exec i s = .next t ∧ op.kind = kind ∧ op.plat = f.plat ∧ op.tile = f.tile.toNat ∧ op.nc = f.nc ∧ op.acc = f.acc ∧
      op.tr = f.tr ∧ op.chk = f.chk ∧ op.pass = f.pass.toNat ∧ op.tw = (s.pc n).getT f.tw.toNat ∧
      op.pm = (s.pc n).getP f.pm.toNat ∧ op.mark = markField f.markEn f.mark ∧
      (t.pc n).plq = (s.pc n).plq ++ [op] ∧ (t.pc n).marks = ((s.pc n).take op.mark).marks ∧
      (t.pc n).x = (s.pc n).x ∧ (t.pc n).t = (s.pc n).t ∧ (t.pc n).p = (s.pc n).p ∧ (t.pc n).pc = s.nextLine n ∧
      (t.pc n).retired = (s.pc n).retired + 1 ∧ OnlyPress s t n (t.pc n) ∧
      (frees = true → ∀ p ∈ platensOf f.plat, (t.pc n).bind? p f.tile.toNat = none) ∧
      (kind = .wload → (t.pc n).wrec = some op.wrec) := by
  obtain ⟨t, hxt, ho⟩ := does_of_act h hx hi (by rw [SlotDef.live, hc]) hw ha
  have hpc : t.pc n = (g (s.pc n)).retire (s.nextLine n) := by rw [State.pc, ho.1]; rfl
  obtain ⟨hs, old, now, w, rfl⟩ := hop
  refine ⟨t, { (s.lc n l).plOp f kind hs old now with wrec := w }, hxt, rfl, rfl, rfl, rfl, rfl, rfl, rfl, rfl,
    lc_t s n l f.tw, rfl, rfl, ?_⟩
  rw [hpc]
  refine ⟨?_, ?_, ?_, ?_, ?_, rfl, ?_, ho, hfrees, hwindow⟩ <;>
  · obtain ⟨b, w, hq⟩ := hg
    obtain ⟨ms, hms⟩ := take_marks (s.pc n) ((s.lc n l).plOp f kind hs old now).mark
    rw [hq]
    simp only [PressCtx.queuePl, hms]
    rfl

end

theorem platenQueue : Claims.PlatenQueue := by
  intro s n l f go
  have slot {i : Instr} {d : SlotDef} (hd : slotOf i = some d) (h3 : d.slot = 3) (hs : d.sub = none) : IsSlot i d :=
    ⟨hd, h3 ▸ (by decide), hs⟩
  have keep := sameButBinds_refl (s.pc n)
  have bind := sameButBinds_bindAll (s.pc n) f.plat
  have acc (hs : Nat → List Nat) : SameButBinds (s.pc n) (if f.acc then s.pc n else (s.pc n).bindAll f.plat hs) := by
    split
    · exact keep
    · exact bind hs
  refine ⟨?_, ?_, ?_, ?_, ?_, ?_⟩
  · exact platen_line (g := fun c => ({ c with wrec := some (namedWindow (s.lc n l) f) } : PressCtx).queuePl
        { (s.lc n l).plOp f .wload (fun _ => []) c c with wrec := namedWindow (s.lc n l) f })
      rfl (slot rfl rfl rfl) rfl rfl rfl (platenTaken_window ..) ⟨_, _, _, _, rfl⟩ nofun fun _ => wrec_queuePl ..
  · let w := ((s.pc n).wrec).getD {}
    let hs := mmAll (s.lc n l) f w
    exact platen_line (g := fun c =>
      let b := if f.acc then c else c.bindAll f.plat hs
      (b.setTags f.plat hs (fun p => mmClass (tdOf ((s.lc n l).ta f p)) w) false).queuePl
        { (s.lc n l).plOp f .mm hs c b with wrec := w }) rfl (slot rfl rfl rfl) rfl rfl rfl
      (platenTaken_queuePl ((acc hs).trans (sameButBinds_setTags ..)) _) ⟨_, _, _, _, rfl⟩ nofun nofun
  · refine platen_line (op := (s.lc n l).plOp f .drain (oneHandle f) (s.pc n) (s.pc n)) rfl (slot rfl rfl rfl) rfl rfl
      rfl ?_ ⟨_, _, _, _, rfl⟩ (fun hrel => ?_) nofun
    · split
      · exact (platenTaken_queuePl keep _).release _ _
      · exact platenTaken_queuePl keep _
    · rw [if_pos hrel]
      exact bind_release _ _ _
  · exact platen_line rfl (slot rfl rfl rfl) rfl rfl rfl (platenTaken_queuePl (bind _) _) ⟨_, _, _, _, rfl⟩ nofun nofun
  · exact platen_line rfl (slot rfl rfl rfl) rfl rfl rfl ((platenTaken_queuePl keep _).release _ _) ⟨_, _, _, _, rfl⟩
      (fun _ => bind_release _ _ _) nofun
  · exact platen_line rfl (slot rfl rfl rfl) rfl rfl rfl
      (platenTaken_queuePl ((bind _).trans (sameButBinds_setTags ..)) _) ⟨_, _, _, _, rfl⟩ nofun nofun

/-- Settles O50: each engine's queue by the lemma of its slot. -/
theorem enginesQueue : Obligations.EnginesQueue := ⟨tensorMovesQueue, descriptorMoves, platenQueue, rollerQueue⟩

end Sys2Proof.Machine
end

/-! # Holds of a press (R91 to R96)

A control slot that holds its press is looked at again at once. In a device in which nothing else waits only the hold of
that press can change (`settle_of_hold`). -/

section
open Sys2Proof Sys2Proof.Machine
namespace Sys2Proof.Machine

/-! ### A device in which only one press may wait -/

/-- Nothing waits but, perhaps, the hold of press `n`. -/
structure QuietBut (s : State) (n : Nat) : Prop where
  others : ∀ m, m ≠ n → PressQuiet (s.press m)
  here : (s.pc n).away = false
  saved : ∀ x ∈ (s.press n).slotA.toList ++ (s.press n).slotB.toList, x.st.away = false
  comps : ∀ m, (s.comp m).stall = []
  hosts : s.hostq = []
  requests : s.requests = []
  areas : ∀ e, (s.entry e).asked = true ∨ ((s.entry e).poison = false ∧ (s.entry e).move ≠ some .fetch)
  loads : ∀ e ∈ s.longops, ∀ i t, e.2.kind ≠ .modelLoad i t

theorem Quiet.but {s : State} (hq : Quiet s) (n : Nat) : QuietBut s n where
  others m _ := hq.press m
  here := (hq.press n).here
  saved := (hq.press n).saved
  comps := hq.comp
  hosts := hq.hosts
  requests := hq.requests
  areas := hq.area
  loads := hq.loads

/-- Another state of the press's context, in which nothing is away either. -/
theorem QuietBut.onlyPress {s t : State} {n : Nat} {p : PressCtx} (hq : QuietBut s n) (h : OnlyPress s t n p)
    (ha : p.away = false) : QuietBut t n := by
  obtain ⟨hn, hothers, hrest⟩ := h
  have hcomps := congrArg State.comps hrest
  have hplaced := congrArg State.placed hrest
  have hcomp (m : Nat) : t.comp m = s.comp m := congrArg (mget ({} : Comp) · m) hcomps
  have hentry (e : Nat) : t.entry e = s.entry e := congrArg (mget ({} : PlaceEnt) · e) hplaced
  have hhosts := congrArg State.hostq hrest
  have hrequests := congrArg State.requests hrest
  have hloads := congrArg State.longops hrest
  exact {
    others := fun m hm => hothers m hm ▸ hq.others m hm
    here := by rw [State.pc, hn]; exact ha
    saved := by rw [hn]; exact hq.saved
    comps := fun m => hcomp m ▸ hq.comps m
    hosts := hhosts.trans hq.hosts
    requests := hrequests.trans hq.requests
    areas := fun e => hentry e ▸ hq.areas e
    loads := fun e he => hq.loads e (hloads ▸ he) }

/-- A change of chases or of forme barriers lets nothing wait. -/
theorem QuietBut.same {s t : State} {n : Nat} (hq : QuietBut s n) (hp : t.presses = s.presses) (hc : t.comps = s.comps)
    (hh : t.hostq = s.hostq) (hr : t.requests = s.requests) (hpl : t.placed = s.placed) (hl : t.longops = s.longops) :
    QuietBut t n := by
  have hpress (m : Nat) : t.press m = s.press m := by rw [State.press, hp]; rfl
  have hcomp (m : Nat) : t.comp m = s.comp m := by rw [State.comp, hc]; rfl
  have hentry (e : Nat) : t.entry e = s.entry e := by rw [State.entry, hpl]; rfl
  exact {
    others := fun m hm => hpress m ▸ hq.others m hm
    here := by rw [State.pc, hpress]; exact hq.here
    saved := hpress n ▸ hq.saved
    comps := fun m => hcomp m ▸ hq.comps m
    hosts := hh ▸ hq.hosts
    requests := hr ▸ hq.requests
    areas := fun e => hentry e ▸ hq.areas e
    loads := hl ▸ hq.loads }

theorem QuietBut.modOf {s : State} {n : Nat} (hq : QuietBut s n) {f : PressCtx → PressCtx} (hf : Gentle f) (m c : Nat) :
    QuietBut (s.modOf m c f) n := by
  have hset (p : Press) (hp : m ≠ n → PressQuiet p) (hn : m = n → p.cur.away = false ∧
      ∀ x ∈ p.slotA.toList ++ p.slotB.toList, x.st.away = false) : QuietBut (s.setPress m p) n := {
    others := fun k hk => by
      rw [State.press_setPress]
      split
      · next h => exact hp (h ▸ hk)
      · exact hq.others k hk
    here := by
      rw [State.pc, State.press_setPress]
      split
      · next h => exact (hn h).1
      · exact hq.here
    saved := by
      rw [State.press_setPress]
      split
      · next h => exact (hn h).2
      · exact hq.saved
    comps := hq.comps
    hosts := hq.hosts
    requests := hq.requests
    areas := hq.areas
    loads := hq.loads }
  unfold State.modOf
  simp only
  split
  · refine hset _ (fun hm => (hq.others m hm).change hf) fun hm => ?_
    subst hm
    exact ⟨hf.away _ hq.here, hq.saved⟩
  · refine hset _ (fun hm => (hq.others m hm).changeSlots hf c) fun hm => ?_
    subst hm
    refine ⟨hq.here, fun x hx => ?_⟩
    rcases List.mem_append.1 hx with hx | hx
    · exact changeSlot_away hf c _ (fun y hy => hq.saved y (List.mem_append_left _ hy)) x hx
    · exact changeSlot_away hf c _ (fun y hy => hq.saved y (List.mem_append_right _ hy)) x hx

/-! ### Everything looked at again -/

/-- A context's state on a press is the running one or a saved one. -/
theorem pcOf_cases {s : State} {m c : Nat} {p : PressCtx} (h : s.pcOf m c = some p) :
    p = s.pc m ∨ ∃ x ∈ (s.press m).slotA.toList ++ (s.press m).slotB.toList, p = x.st := by
  unfold State.pcOf at h
  simp only at h
  split at h
  · exact .inl (Option.some.inj h).symm
  · right
    split at h <;> grind

section
variable {s : State} {n : Nat} (hq : QuietBut s n)
include hq

/-- No state of a context, wherever it stands on a press, has anything away. -/
theorem QuietBut.pcOf (m c : Nat) (p : PressCtx) (h : s.pcOf m c = some p) : p.away = false := by
  have hpress : (s.pc m).away = false ∧
      ∀ x ∈ (s.press m).slotA.toList ++ (s.press m).slotB.toList, x.st.away = false := by
    by_cases hm : m = n
    · subst hm
      exact ⟨hq.here, hq.saved⟩
    · exact ⟨(hq.others m hm).here, (hq.others m hm).saved⟩
  rcases pcOf_cases h with rfl | ⟨x, hx, rfl⟩
  · exact hpress.1
  · exact hpress.2 x hx

theorem retryStalls_but (m c fuel : Nat) : retryStalls m c fuel s = s := by
  have hpress (p : PressCtx) (hp : s.pcOf m c = some p) : p.stall = [] := ((away_iff p).1 (hq.pcOf m c p hp)).1
  cases fuel with
  | zero => rfl
  | succ fuel =>
    unfold retryStalls
    dsimp only
    by_cases hm : m < 128
    · cases hp : s.pcOf m c <;> simp [hm, hp, hpress]
    · simp [hm, hq.comps]

theorem settleAway_but (m c : Nat) : s.settleAway m c = s := by
  have htms : s.tryTms m = s := by
    unfold State.tryTms
    split
    · next c hc =>
      have hcur : s.pcOf m c = some (s.pc m) := if_pos hc
      refine foldl_same _ _ _ fun op hop => ?_
      simp [State.tryTm, ((away_iff _).1 (hq.pcOf m c _ hcur)).2.1 op hop]
    · rfl
  have hadds : s.retryAdds m c = s := by
    unfold State.retryAdds
    split
    · rfl
    · next p hp =>
      refine foldl_same _ _ _ fun o ho => ?_
      have hno := ((away_iff p).1 (hq.pcOf m c p hp)).2.2 o ho
      split
      · cases hno
      · rfl
  rw [State.settleAway, htms, retryStalls_but hq, hadds]

theorem settleHold_other {m : Nat} (hm : m ≠ n) : s.settleHold m = s := by
  have hh : (s.pc m).hold.quiet := (hq.others m hm).hold
  unfold State.settleHold
  split
  iterate 5 (next h => rw [h] at hh; cases hh)
  rfl

/-- Another press does not go on. -/
theorem settlePress_other {m : Nat} (hm : m ≠ n) : s.settlePress m = s := by
  have hsaved := (hq.others m hm).saved
  unfold State.settlePress
  split
  · exact foldl_same _ _ _ fun x hx => by simp [hsaved x hx]
  · simp only [settleAway_but hq, settleHold_other hq hm, ite_self]
    exact foldl_same _ _ _ fun x hx => by simp [hsaved x hx]

end

/-- The press that waits goes on where its hold ends. -/
theorem settlePress_hold {s s' : State} {n : Nat} (hs : QuietBut s n) (hs' : QuietBut s' n) (hrun : (s.press n).run ≠ none)
    (h : s.settleHold n = s') : s.settlePress n = s' := by
  unfold State.settlePress
  split
  · next hn => exact absurd hn hrun
  · next c hc =>
    simp only [settleAway_but hs, hc, if_true, h]
    exact foldl_same _ _ _ fun x hx => by simp [hs'.saved x hx]

/-- What else is looked at does not change where at most the hold of one press can. -/
theorem settleHost_but {t : State} {n : Nat} (hq : QuietBut t n) : t.settleHost = t := by
  rw [State.settleHost, hq.hosts, List.foldl_nil, ← hq.hosts]

theorem flushFailed_but {t : State} {n : Nat} (hq : QuietBut t n) : t.flushFailed = t := by
  rw [State.flushFailed, hq.requests, List.foldl_nil]

theorem askAreas_but {t : State} {n : Nat} (hq : QuietBut t n) : t.askAreas = t := by
  refine foldl_same _ _ _ fun e _ => ?_
  rcases hq.areas e.1 with ha | ⟨hp, hm⟩
  · simp [ha]
  · simp [hp, hm]

theorem pumpLoads_but {t : State} {n : Nat} (hq : QuietBut t n) : t.pumpLoads = t := by
  refine foldl_same _ _ _ fun e he => ?_
  split
  · next i k h => exact absurd h (hq.loads e he i k)
  · rfl

/-- Everything looked at again, with one press waiting: only its hold is looked at. -/
theorem settle_of_hold {s s' : State} {n : Nat} (hs : QuietBut s n) (hs' : QuietBut s' n) (hrun : (s.press n).run ≠ none)
    (hhold : (s.pc n).hold ≠ .none) (h1 : s.settleHold n = s') (h2 : s'.settleHold n = s')
    (hrun' : (s'.press n).run ≠ none) : s.settle = s' := by
  have hstep (u : State) (m : Nat) (hu : u = s ∨ u = s') : u.settlePress m = if m = n then s' else u := by
    by_cases hm : m = n
    · subst hm
      rw [if_pos rfl]
      rcases hu with rfl | rfl
      · exact settlePress_hold hs hs' hrun h1
      · exact settlePress_hold hs' hs' hrun' h2
    · rw [if_neg hm]
      rcases hu with rfl | rfl
      · exact settlePress_other hs hm
      · exact settlePress_other hs' hm
  have hfold (l : Map Press) (u : State) (hu : u = s ∨ u = s') :
      l.foldl (fun s e => s.settlePress e.1) u = if n ∈ l.map (·.1) then s' else u := by
    induction l generalizing u with
    | nil => rfl
    | cons e l ih =>
      rw [List.foldl_cons, hstep u e.1 hu]
      by_cases he : e.1 = n
      · rw [if_pos he, ih s' (.inr rfl)]
        simp [he]
      · rw [if_neg he, ih u hu]
        simp only [List.map_cons, List.mem_cons, Ne.symm he, false_or]
  have hmem : n ∈ s.presses.map (·.1) := by
    rcases mget_mem ({} : Press) s.presses n with h | h
    · exact absurd (congrArg (fun p : Press => p.cur.hold) h) hhold
    · exact List.mem_map.2 ⟨_, h, rfl⟩
  have hcomps : s'.comps.foldl (fun s e => retryStalls (128 + e.1) e.2.ctx 16 s) s' = s' :=
    foldl_same _ _ _ fun e _ => retryStalls_but hs' ..
  have honce : s'.presses.foldl (fun s e => s.settlePress e.1) s' = s' := by
    rw [hfold _ _ (.inr rfl)]
    split <;> rfl
  simp only [State.settle, settleHost_but hs, hfold s.presses s (.inl rfl), if_pos hmem, hcomps, honce,
    flushFailed_but hs', settleHost_but hs', askAreas_but hs', pumpLoads_but hs']

/-! ### A slot that holds its press -/

/-- The queues of a press are drained exactly where nothing of its earlier work is outstanding (log 16). -/
theorem drained_iff {s : State} {n : Nat} (hq : QuietBut s n) : s.drained n = true ↔ Settled (s.pc n) := by
  have hbusy : s.scalarBusy n (s.runCtx n) = false := by
    unfold State.scalarBusy
    cases hp : s.pcOf n (s.runCtx n) with
    | none => simp [hq.requests]
    | some p => simp [hq.requests, ((away_iff p).1 (hq.pcOf n _ p hp)).1]
  simp [State.drained, hbusy, hq.requests, Settled, and_assoc]

section
variable {s : State} {n : Nat} {l : Line} {i : Instr} {d : SlotDef}

/-- A press that may issue is held by nothing and watches nothing. -/
theorem OneSlot.notHeld (h : OneSlot s n l i) : (s.pc n).hold = .none := by
  have hready := h.ready
  simp only [State.lineReady, Bool.and_eq_true, decide_eq_true_eq] at hready
  exact hready.1.1.1.1

/-- The Line of a slot that wakes and sets a hold: the press goes on where its hold ends at once. -/
theorem issue_hold {t s' : State} {goal : Option W64} (h : OneSlot s n l i) (hi : IsSlot i d)
    (hlive : d.live (s.lc n l) = true) (hw : d.wakes = true)
    (ha : d.act (s.lc n l) s false s = { s := t, goal := goal })
    (hs : (t.retireLine n (goal.getD (s.nextLine n))).settle = s') : issue l i s = .next s' := by
  rw [issue_slot h hi hlive ha, hw, if_pos rfl, hs]

end

theorem OnlyPress.modPc {s t : State} {n : Nat} {p : PressCtx} (h : OnlyPress s t n p) (f : PressCtx → PressCtx) :
    OnlyPress s (t.modPc n f) n (f p) := by
  obtain ⟨hn, hothers, hrest⟩ := h
  refine ⟨?_, fun m hm => (press_modPc_ne t f hm).trans (hothers m hm), hrest⟩
  simp [State.modPc, State.setPc, State.pc, hn]

theorem OnlyPress.run {s t : State} {n : Nat} {p : PressCtx} (h : OnlyPress s t n p) : (t.press n).run = (s.press n).run := by
  rw [h.1]

theorem OnlyPress.pc {s t : State} {n : Nat} {p : PressCtx} (h : OnlyPress s t n p) : t.pc n = p := by
  rw [State.pc, h.1]

/-- A press's state with a hold set, or ended. -/
def PressCtx.heldBy (p : PressCtx) (h : Hold) : PressCtx := { p with hold := h }

theorem away_retire (p : PressCtx) (next : W64) : (p.retire next).away = p.away := rfl
theorem away_heldBy (p : PressCtx) (h : Hold) : (p.heldBy h).away = p.away := rfl
theorem hold_heldBy_retire (p : PressCtx) (h : Hold) (next : W64) : ((p.heldBy h).retire next).hold = h := rfl
theorem heldBy_retire (p : PressCtx) (h h' : Hold) (next : W64) :
    ((p.heldBy h).retire next).heldBy h' = (p.heldBy h').retire next := rfl
theorem heldBy_same {p : PressCtx} {h : Hold} (hp : p.hold = h) : p.heldBy h = p := by rw [← hp]; rfl

theorem settleHold_none {s : State} {n : Nat} (h : (s.pc n).hold = .none) : s.settleHold n = s := by
  unfold State.settleHold
  rw [h]

/-- The Line of a control slot that holds its press, retired, its hold not looked at yet. -/
def State.holdLine (s : State) (n : Nat) (h : Hold) : State := (s.modPc n (·.heldBy h)).retireLine n (s.nextLine n)

theorem onlyPress_holdLine (s : State) (n : Nat) (h : Hold) :
    OnlyPress s (s.holdLine n h) n (((s.pc n).heldBy h).retire (s.nextLine n)) := onlyPress_retired s n _ _

theorem hold_holdLine (s : State) (n : Nat) (h : Hold) : ((s.holdLine n h).pc n).hold = h := by
  rw [(onlyPress_holdLine s n h).pc, hold_heldBy_retire]

theorem Quiet.holdLine {s : State} (hq : Quiet s) (n : Nat) (h : Hold) : QuietBut (s.holdLine n h) n :=
  (hq.but n).onlyPress (onlyPress_holdLine s n h) (by rw [away_retire, away_heldBy]; exact (hq.press n).here)

/-- Looking again at everything after such a Line: only its own hold can end. -/
theorem settle_holdLine {s s' : State} {n : Nat} {h : Hold} (hq : Quiet s) (hrun : (s.press n).run ≠ none) (hh : h ≠ .none)
    (hs' : QuietBut s' n) (hrun' : (s'.press n).run ≠ none) (h1 : (s.holdLine n h).settleHold n = s')
    (h2 : s'.settleHold n = s') : (s.holdLine n h).settle = s' :=
  settle_of_hold (hq.holdLine n h) hs' ((onlyPress_holdLine s n h).run ▸ hrun) (by rw [hold_holdLine]; exact hh) h1 h2 hrun'

theorem drained_holdLine {s : State} (hq : Quiet s) (n : Nat) (h : Hold) :
    (s.holdLine n h).drained n = true ↔ Settled (s.pc n) := by
  rw [drained_iff (hq.holdLine n h), (onlyPress_holdLine s n h).pc]
  rfl

/-- A slot of the control slot. -/
theorem isSlot_control {i : Instr} {d : SlotDef} (hd : slotOf i = some d) (h5 : d.slot = 5) (hs : d.sub = none) : IsSlot i d :=
  ⟨hd, h5 ▸ (by decide), hs⟩

/-! ### FENCE and END (R91) -/

section
variable {s : State} {n : Nat} {l : Line} {f : CtF}

theorem settleHold_fence {t : State} (h : (t.pc n).hold = .fence) :
    t.settleHold n = if t.drained n then t.modPc n (·.heldBy .none) else t := by
  unfold State.settleHold
  rw [h]
  rfl

theorem fence_does (hc : condHolds s n f) (hq : Quiet s) (h : OneSlot s n l (.fence l f)) :
    (Settled (s.pc n) → Does s n (.fence l f) id (s.nextLine n)) ∧
      (¬Settled (s.pc n) → Does s n (.fence l f) (·.heldBy .fence) (s.nextLine n)) := by
  have ho := onlyPress_holdLine s n .fence
  have hd := drained_holdLine hq n .fence
  have hfence := settleHold_fence (hold_holdLine s n .fence)
  have hx : exec (.fence l f) s = .next (s.holdLine n .fence).settle :=
    issue_hold h (isSlot_control rfl rfl rfl) (live_of_holds rfl hc) rfl rfl rfl
  refine ⟨fun hs => ⟨_, hx, ?_⟩, fun hs => ⟨_, hx, ?_⟩⟩
  · have hfreed := ho.modPc (·.heldBy .none)
    rw [heldBy_retire, heldBy_same h.notHeld] at hfreed
    rw [if_pos (hd.2 hs)] at hfence
    rw [settle_holdLine (h := .fence) hq h.bound nofun ((hq.but n).onlyPress hfreed (hq.press n).here) (hfreed.run ▸ h.bound) hfence
      (settleHold_none (hfreed.pc ▸ h.notHeld))]
    exact hfreed
  · rw [if_neg (mt hd.1 hs)] at hfence
    rw [settle_holdLine (h := .fence) hq h.bound nofun (hq.holdLine n .fence) (ho.run ▸ h.bound) hfence hfence]
    exact ho

end

theorem fenceAndEnd : Claims.FenceAndEnd := fun _ _ _ _ hc =>
  ⟨fun h hq => fence_does hc hq h, fun h => does_of_act (goal := none) h rfl (isSlot_control rfl rfl rfl) (live_of_holds rfl hc) rfl rfl⟩

end Sys2Proof.Machine
end

/-! # Chase barriers and work counters (R92 to R94, R123) -/

section
open Sys2Proof Sys2Proof.Machine
namespace Sys2Proof.Machine

/-! ### Contexts' states changed on several presses -/

section
variable {s : State} {n c : Nat} {g : PressCtx → PressCtx}

theorem run_modOf (s : State) (m c n : Nat) (g : PressCtx → PressCtx) :
    ((s.modOf m c g).press n).run = (s.press n).run := by
  unfold State.modOf
  simp only
  split <;> rw [State.press_setPress] <;> split <;> simp_all

/-- The context that runs on press `n` is changed where the press is among those named. -/
theorem pc_modOf (hrun : (s.press n).run = some c) (m : Nat) :
    (s.modOf m c g).pc n = if m = n then g (s.pc n) else s.pc n := by
  unfold State.modOf
  by_cases hm : m = n
  · subst hm
    simp [hrun, State.pc]
  · simp only [hm, if_false]
    split <;> simp [State.pc, hm]

theorem pc_foldl_modOf (hg : ∀ p, g (g p) = g p) (ms : List Nat) (hrun : (s.press n).run = some c) :
    (ms.foldl (fun s m => s.modOf m c g) s).pc n = if n ∈ ms then g (s.pc n) else s.pc n := by
  induction ms generalizing s with
  | nil => rfl
  | cons m ms ih =>
    rw [List.foldl_cons, ih ((run_modOf s m c n g).trans hrun), pc_modOf hrun]
    by_cases hm : m = n
    · simp [hm, hg]
    · simp [hm, Ne.symm hm]

theorem run_foldl_modOf (s : State) (ms : List Nat) (n c : Nat) (g : PressCtx → PressCtx) :
    ((ms.foldl (fun s m => s.modOf m c g) s).press n).run = (s.press n).run :=
  foldl_rel (R := fun s t : State => (t.press n).run = (s.press n).run) (fun _ => rfl) (fun h k => k.trans h) _ ms
    (fun s m _ => run_modOf s m c n g) s

/-- Nothing but the presses changes. -/
theorem foldl_modOf_rest (s : State) (ms : List Nat) (c : Nat) (g : PressCtx → PressCtx) :
    ∃ p, ms.foldl (fun s m => s.modOf m c g) s = { s with presses := p } := by
  refine foldl_rel (R := fun s t : State => ∃ p, t = { s with presses := p }) (fun s => ⟨s.presses, rfl⟩) ?_ _ ms
    (fun s m _ => ?_) s
  · rintro a b c ⟨p, rfl⟩ ⟨q, rfl⟩
    exact ⟨q, rfl⟩
  · unfold State.modOf
    simp only
    split <;> exact ⟨_, rfl⟩

theorem QuietBut.foldl_modOf (hq : QuietBut s n) (hg : Gentle g) (ms : List Nat) (c : Nat) :
    QuietBut (ms.foldl (fun s m => s.modOf m c g) s) n :=
  foldl_rel (R := fun s t : State => QuietBut s n → QuietBut t n) (fun _ => id) (fun h k => k ∘ h) _ ms
    (fun _ m _ h => h.modOf hg m c) s hq

end

/-! ### Chase barriers (R92, R93) -/

section
variable {s : State} {n : Nat} {l : Line} {f : CtF} {i : Instr} {d : SlotDef}

/-- A Line of one slot that may issue passes its slot's own encoding checks. -/
theorem OneSlot.checked (h : OneSlot s n l i) (hi : IsSlot i d) : (d.chk (s.lc n l) s).pre = none := by
  have hpass := h.passes
  obtain ⟨hstray, hunl⟩ := lineFault_clean s _ l [i] hpass
  rw [lineSlots_one l i d hi.slot hi.number hstray hunl] at hpass
  unfold State.lineFault at hpass
  split at hpass
  · cases hpass
  · split at hpass
    · cases hpass
    · split at hpass
      · cases hpass
      · exact slotsFault_pre s _ _ _ hpass d (List.mem_singleton.2 rfl)

theorem barrier_setBarrier (s : State) (ch k j : Nat) (b : Barrier) :
    (s.setBarrier ch k b).barrier ch j = if k = j then b else s.barrier ch j := by
  simp [State.setBarrier, State.barrier, mget_mset]

theorem cbarinit_line (hc : condHolds s n f) (h : OneSlot s n l (.cbarinit l f)) : ∃ t, exec (.cbarinit l f) s = .next t ∧
    t.barrier (chaseOf n) (f.imm.toNat % 16) = { ctx := some (s.runCtx n), expect := (s.x n f.xa).toNat, arrived := [] } ∧
    (∀ j, j ≠ f.imm.toNat % 16 → t.barrier (chaseOf n) j = s.barrier (chaseOf n) j) ∧
    OnlyPress { s with chases := t.chases } t n ((s.pc n).retire (s.nextLine n)) := by
  refine ⟨_, issue_slot (d := ctSlotDef f [f.xa] (fun k s => chkCbarinit k s f) fun k s => doCbarinit k s f) (goal := none) h
    (isSlot_control rfl rfl rfl) (live_of_holds rfl hc) rfl, ?_, fun j hj => ?_, onlyPress_setPc _ n _⟩
  · exact (barrier_setBarrier ..).trans (if_pos rfl)
  · exact (barrier_setBarrier ..).trans (if_neg hj.symm)

/-- A press let go by the barrier at which it waits or arrives. -/
def PressCtx.leaveCbar (k : Nat) (p : PressCtx) : PressCtx :=
  if p.hold = .cbarWait k || p.hold = .cbar k then { p with hold := .none } else p

theorem gentle_leaveCbar (k : Nat) : Gentle (PressCtx.leaveCbar k) := by
  refine ⟨fun p hp => ?_, fun p hp => ?_, fun p hp => ?_⟩ <;> unfold PressCtx.leaveCbar <;> split
  · exact hp
  · exact hp
  · trivial
  · exact hp
  · exact hp
  · exact hp

theorem leaveCbar_twice (k : Nat) (p : PressCtx) : (p.leaveCbar k).leaveCbar k = p.leaveCbar k := by
  unfold PressCtx.leaveCbar
  by_cases h : p.hold = .cbarWait k ∨ p.hold = .cbar k <;> simp [h]

theorem leaveCbar_arriving {k : Nat} {p : PressCtx} (h : p.hold = .cbar k) : p.leaveCbar k = p.heldBy .none := by
  simp [PressCtx.leaveCbar, h, PressCtx.heldBy]

theorem OnlyPress.refl (s : State) (n : Nat) : OnlyPress s s n (s.pc n) := ⟨rfl, fun _ _ => rfl, rfl⟩

/-- A barrier at which one press more has arrived. -/
def Barrier.arrive (b : Barrier) (n : Nat) : Barrier := { b with arrived := b.arrived ++ [n] }

/-- A barrier reset by its last arrival. -/
def Barrier.reset (b : Barrier) : Barrier := { b with arrived := [] }

/-- Short of the count an arrival is noted and the press waits. -/
theorem arriveCbar_waits {t : State} {n k : Nat}
    (h : (t.barrier (chaseOf n) k).arrived.length + 1 < (t.barrier (chaseOf n) k).expect) :
    t.arriveCbar n k = (t.setBarrier (chaseOf n) k ((t.barrier (chaseOf n) k).arrive n)).modPc n (·.heldBy (.cbarWait k)) := by
  unfold State.arriveCbar
  simp only [List.length_append, List.length_singleton]
  exact if_pos h

/-- The last arrival resets the barrier and lets every press that arrived go on. -/
theorem arriveCbar_last {t : State} {n k : Nat}
    (h : (t.barrier (chaseOf n) k).expect ≤ (t.barrier (chaseOf n) k).arrived.length + 1) :
    t.arriveCbar n k = ((t.barrier (chaseOf n) k).arrived ++ [n]).foldl
      (fun s m => s.modOf m ((t.barrier (chaseOf n) k).ctx.getD 0) (PressCtx.leaveCbar k))
      (t.setBarrier (chaseOf n) k (t.barrier (chaseOf n) k).reset) := by
  unfold State.arriveCbar
  simp only [List.length_append, List.length_singleton]
  exact if_neg (Nat.not_lt.2 h)

theorem settleHold_cbar {t : State} {k : Nat} (h : (t.pc n).hold = .cbar k) (hd : t.drained n = true) :
    t.settleHold n = t.arriveCbar n k := by
  unfold State.settleHold
  rw [h]
  exact if_pos hd

theorem settleHold_cbarWait {t : State} {k : Nat} (h : (t.pc n).hold = .cbarWait k) : t.settleHold n = t := by
  unfold State.settleHold
  rw [h]

theorem QuietBut.setBarrier {t : State} (h : QuietBut t n) (ch k : Nat) (b : Barrier) : QuietBut (t.setBarrier ch k b) n :=
  h.same rfl rfl rfl rfl rfl rfl

theorem waits_barrier (t : State) (n k : Nat) (b : Barrier) :
    let u := (t.setBarrier (chaseOf n) k b).modPc n (·.heldBy (.cbarWait k))
    u.pc n = (t.pc n).heldBy (.cbarWait k) ∧ (u.press n).run = (t.press n).run ∧ u.barrier (chaseOf n) k = b ∧
      u.mem = t.mem :=
  have hw := (OnlyPress.refl (t.setBarrier (chaseOf n) k b) n).modPc (·.heldBy (.cbarWait k))
  ⟨hw.pc, hw.run, (barrier_setBarrier ..).trans (if_pos rfl), rfl⟩

theorem quietBut_waits {t : State} (h : QuietBut t n) (k : Nat) (b : Barrier) :
    QuietBut ((t.setBarrier (chaseOf n) k b).modPc n (·.heldBy (.cbarWait k))) n :=
  (h.setBarrier ..).onlyPress ((OnlyPress.refl _ n).modPc _) h.here

theorem quietBut_goesOn {t : State} (h : QuietBut t n) (k : Nat) (b : Barrier) :
    QuietBut ((b.arrived ++ [n]).foldl (fun s m => s.modOf m (b.ctx.getD 0) (PressCtx.leaveCbar k))
      (t.setBarrier (chaseOf n) k b.reset)) n :=
  (h.setBarrier ..).foldl_modOf (gentle_leaveCbar k) ..

theorem goesOn_barrier {t : State} {k : Nat} {b : Barrier} (hrun : (t.press n).run = some (b.ctx.getD 0))
    (hhold : (t.pc n).hold = .cbar k) :
    let u := (b.arrived ++ [n]).foldl (fun s m => s.modOf m (b.ctx.getD 0) (PressCtx.leaveCbar k))
      (t.setBarrier (chaseOf n) k b.reset)
    u.pc n = (t.pc n).heldBy .none ∧ (u.press n).run = (t.press n).run ∧ u.barrier (chaseOf n) k = b.reset ∧
      u.mem = t.mem := by
  intro u
  obtain ⟨p, hp⟩ := foldl_modOf_rest (t.setBarrier (chaseOf n) k b.reset) (b.arrived ++ [n]) (b.ctx.getD 0)
    (PressCtx.leaveCbar k)
  have hpc := pc_foldl_modOf (s := t.setBarrier (chaseOf n) k b.reset) (leaveCbar_twice k) (b.arrived ++ [n]) hrun
  refine ⟨?_, run_foldl_modOf .., ?_, (congrArg State.mem hp :)⟩
  · rw [if_pos (by simp)] at hpc
    exact hpc.trans (leaveCbar_arriving hhold)
  · have hch := congrArg (fun s : State => s.barrier (chaseOf n) k) hp
    exact hch.trans ((barrier_setBarrier ..).trans (if_pos rfl))

theorem run_eq (h : (s.press n).run ≠ none) : (s.press n).run = some (s.runCtx n) := by
  unfold State.runCtx
  cases hr : (s.press n).run with
  | none => exact absurd hr h
  | some c => rfl

/-- The context that owns the barrier of a CBAR that may issue. -/
theorem cbar_owner (h : OneSlot s n l (.cbar l f)) :
    (s.barrier (chaseOf n) (f.imm.toNat % 16)).ctx = some (s.runCtx n) := by
  have hchk := h.checked (d := { ctSlotDef f [] (fun k s => chkCbar k s f) fun k s => doCbar k s f with wakes := true })
    (isSlot_control rfl rfl rfl)
  by_contra hne
  have howned : failIf (decide ((s.barrier (chaseOf n) (barNo f)).ctx ≠ some (s.runCtx n))) St.syncOwner 0 none ≠ none := by
    simp [failIf, barNo, hne]
  exact howned (List.findSome?_eq_none_iff.1 hchk _ (List.mem_cons_of_mem _ (List.mem_singleton.2 rfl)))

section
variable (hc : condHolds s n f) (hq : Quiet s) (hs : Settled (s.pc n)) (h : OneSlot s n l (.cbar l f))
include hc hq hs h

/-- CBAR, where the barrier's arrival leaves a state that waits for nothing else. -/
theorem cbar_arrives {t : State} (hx : (s.holdLine n (.cbar (f.imm.toNat % 16))).arriveCbar n (f.imm.toNat % 16) = t)
    (ht : QuietBut t n) (hrun : (t.press n).run = (s.press n).run) (hend : t.settleHold n = t) :
    exec (.cbar l f) s = .next t := by
  have hsettle := settle_holdLine (h := .cbar (f.imm.toNat % 16)) hq h.bound nofun ht (hrun ▸ h.bound)
    ((settleHold_cbar (hold_holdLine ..) ((drained_holdLine hq n _).2 hs)).trans hx) hend
  exact issue_hold h (isSlot_control rfl rfl rfl) (live_of_holds rfl hc) rfl rfl hsettle

theorem cbar_waits {b : Barrier} (hb : s.barrier (chaseOf n) (f.imm.toNat % 16) = b) (hshort : b.arrived.length + 1 < b.expect) :
    ∃ t, exec (.cbar l f) s = .next t ∧ t.barrier (chaseOf n) (f.imm.toNat % 16) = b.arrive n ∧
      (t.pc n).hold = .cbarWait (f.imm.toNat % 16) ∧ (t.pc n).pc = s.nextLine n ∧ t.mem = s.mem := by
  subst hb
  have ho := onlyPress_holdLine s n (.cbar (f.imm.toNat % 16))
  have hx := arriveCbar_waits (t := s.holdLine n (.cbar (f.imm.toNat % 16))) (n := n) hshort
  obtain ⟨hpc, hrun, hbar, hmem⟩ := waits_barrier (s.holdLine n (.cbar (f.imm.toNat % 16))) n (f.imm.toNat % 16)
    ((s.barrier (chaseOf n) (f.imm.toNat % 16)).arrive n)
  have hquiet := quietBut_waits (hq.holdLine n (.cbar (f.imm.toNat % 16))) (f.imm.toNat % 16)
    ((s.barrier (chaseOf n) (f.imm.toNat % 16)).arrive n)
  rw [ho.pc] at hpc
  have hhold := congrArg PressCtx.hold hpc
  exact ⟨_, cbar_arrives hc hq hs h hx hquiet (hrun.trans ho.run) (settleHold_cbarWait hhold), hbar, hhold,
    congrArg PressCtx.pc hpc, hmem⟩

theorem cbar_last {b : Barrier} (hb : s.barrier (chaseOf n) (f.imm.toNat % 16) = b) (hlast : b.expect ≤ b.arrived.length + 1) :
    ∃ t, exec (.cbar l f) s = .next t ∧ t.barrier (chaseOf n) (f.imm.toNat % 16) = b.reset ∧
      (t.pc n).hold = .none ∧ (t.pc n).pc = s.nextLine n ∧ t.mem = s.mem := by
  have hrun : (s.press n).run = some (b.ctx.getD 0) := by
    rw [← hb, cbar_owner h]
    exact run_eq h.bound
  subst hb
  have ho := onlyPress_holdLine s n (.cbar (f.imm.toNat % 16))
  have hx := arriveCbar_last (t := s.holdLine n (.cbar (f.imm.toNat % 16))) (n := n) hlast
  obtain ⟨hpc, hrun', hbar, hmem⟩ := goesOn_barrier (t := s.holdLine n (.cbar (f.imm.toNat % 16)))
    (b := s.barrier (chaseOf n) (f.imm.toNat % 16)) (ho.run.trans hrun) (hold_holdLine s n _)
  have hquiet := quietBut_goesOn (hq.holdLine n (.cbar (f.imm.toNat % 16))) (f.imm.toNat % 16)
    (s.barrier (chaseOf n) (f.imm.toNat % 16))
  rw [ho.pc] at hpc
  have hhold := congrArg PressCtx.hold hpc
  exact ⟨_, cbar_arrives hc hq hs h hx hquiet (hrun'.trans ho.run) (settleHold_none hhold), hbar, hhold,
    congrArg PressCtx.pc hpc, hmem⟩

end

end

theorem chaseBarriers : Claims.ChaseBarriers := by
  intro s n l f hc
  refine ⟨cbarinit_line hc, fun h hq hs => ?_⟩
  rcases Nat.lt_or_ge ((s.barrier (chaseOf n) (f.imm.toNat % 16)).arrived.length + 1)
    (s.barrier (chaseOf n) (f.imm.toNat % 16)).expect with hlt | hge
  · obtain ⟨t, hx, hbar, hhold, hrest⟩ := cbar_waits hc hq hs h rfl hlt
    exact ⟨t, hx, fun _ => ⟨hbar, hhold⟩, fun hle => absurd hlt (Nat.not_lt.2 hle), hrest⟩
  · obtain ⟨t, hx, hbar, hhold, hrest⟩ := cbar_last hc hq hs h rfl hge
    exact ⟨t, hx, fun hlt => absurd hlt (Nat.not_lt.2 hge), fun _ => ⟨hbar, hhold⟩, hrest⟩

/-! ### Work counters (R92, R94, R123) -/

section
variable {s : State} {n : Nat} {l : Line} {f : CtF}

theorem fld_low (v : W64) : fld v 31 0 = v.toNat % 2 ^ 32 := rfl

theorem counter_setCounter (s : State) (ch k : Nat) (w : WorkCounter) : (s.setCounter ch k w).counter ch k = w := by
  simp [State.setCounter, State.counter, mget_mset]

theorem wcinit_line (hc : condHolds s n f) (h : OneSlot s n l (.wcinit l f)) : ∃ t, exec (.wcinit l f) s = .next t ∧
    (t.counter (chaseOf n) (f.imm.toNat % 64)).ctx = some (s.runCtx n) ∧
    (t.counter (chaseOf n) (f.imm.toNat % 64)).claim = (s.x n f.xa).getLsbD 63 ∧
    (t.counter (chaseOf n) (f.imm.toNat % 64)).value = (if (s.x n f.xa).getLsbD 63 then
      BitVec.ofNat 64 ((s.x n f.xa).toNat % 2 ^ 32) else s.x n f.xa) ∧
    OnlyPress { s with chases := t.chases } t n ((s.pc n).retire (s.nextLine n)) := by
  have hset := counter_setCounter s (chaseOf n) (f.imm.toNat % 64)
  refine ⟨_, issue_slot (d := ctSlotDef f [f.xa] (fun k _ => chkWcinit k f) fun k s => doWcinit k s f) (goal := none) h
    (isSlot_control rfl rfl rfl) (live_of_holds rfl hc) rfl, ?_, ?_, ?_, onlyPress_setPc _ n _⟩
  · exact congrArg WorkCounter.ctx (hset _)
  · exact congrArg WorkCounter.claim (hset _)
  · refine (congrArg WorkCounter.value (hset _)).trans ?_
    rw [← fld_low]
    rfl

/-- A plain counter moves on by the step. -/
theorem doWcfa_plain (k : Lc) {w : WorkCounter} (hw : s.counter k.ch (f.imm.toNat % 64) = w) (hclaim : w.claim = false) :
    doWcfa k s f = (s.setCounter k.ch (f.imm.toNat % 64) { w with value := w.value + k.x f.xb }).modPc k.n
      (·.setX f.xd.toNat w.value) := by
  subst hw
  have hplain : ¬(s.counter k.ch (ctrNo f)).claim = true := fun h => Bool.false_ne_true (hclaim.symm.trans h)
  exact (if_neg hplain : doWcfa k s f = _)

/-- Whether a claim of `m` values of a counter names one that was marked before. -/
def WorkCounter.twice (w : WorkCounter) (m : Nat) : Bool :=
  w.bitmap &&& claimBits (w.value.toNat % 2 ^ 32) m != 0

/-- A claim counter after a claim of `m` values. -/
def WorkCounter.claimed (w : WorkCounter) (m : Nat) : WorkCounter :=
  { w with
    value := BitVec.ofNat 64 ((w.value.toNat % 2 ^ 32 + m) % 2 ^ 32)
    bitmap := w.bitmap ||| claimBits (w.value.toNat % 2 ^ 32) m
    dups := if w.twice m then w.dups + 1 else w.dups }

/-- A press's state after it claimed `m` values of a counter. -/
def PressCtx.claims (p : PressCtx) (r : Nat) (w : WorkCounter) (m : Nat) : PressCtx :=
  { p.setX r (BitVec.ofNat 64 (w.value.toNat % 2 ^ 32 + (b2n (w.twice m) <<< 63))) with
    dropLatch := w.twice m, dupSeen := p.dupSeen || w.twice m }

theorem doWcfa_claim (k : Lc) {w : WorkCounter} (hw : s.counter k.ch (f.imm.toNat % 64) = w) (hclaim : w.claim = true) :
    doWcfa k s f = (s.setCounter k.ch (f.imm.toNat % 64) (w.claimed (k.x f.xb).toNat)).modPc k.n
      (·.claims f.xd.toNat w (k.x f.xb).toNat) := by
  subst hw
  have hclaim' : (s.counter k.ch (ctrNo f)).claim = true := hclaim
  exact (if_pos hclaim' : doWcfa k s f = _)

theorem twice_iff {w : WorkCounter} {m : Nat} :
    w.twice m = true ↔ w.bitmap &&& claimBits (w.value.toNat % 2 ^ 32) m ≠ 0 := bne_iff_ne

theorem twice_eq (w : WorkCounter) (m : Nat) :
    w.twice m = decide (w.bitmap &&& claimBits (w.value.toNat % 2 ^ 32) m ≠ 0) :=
  Bool.eq_iff_iff.2 (twice_iff.trans decide_eq_true_iff.symm)

theorem dups_claimed (w : WorkCounter) (m : Nat) : (w.claimed m).dups =
    if w.bitmap &&& claimBits (w.value.toNat % 2 ^ 32) m = 0 then w.dups else w.dups + 1 := by
  have hd : (w.claimed m).dups = if w.twice m = true then w.dups + 1 else w.dups := rfl
  rw [hd]
  by_cases h : w.twice m = true
  · rw [if_pos h, if_neg (twice_iff.1 h)]
  · rw [if_neg h, if_pos (not_not.1 (mt twice_iff.2 h))]

theorem getX_setX_same (p : PressCtx) {r : Nat} (hr : r ≠ 0) (v : W64) : (p.setX r v).getX r = v := by
  simp [PressCtx.getX, PressCtx.setX, hr, mget_mset]

theorem getX_claims (p : PressCtx) {r : Nat} (hr : r ≠ 0) (w : WorkCounter) (m : Nat) : (p.claims r w m).getX r =
    BitVec.ofNat 64 (w.value.toNat % 2 ^ 32 +
      if w.bitmap &&& claimBits (w.value.toNat % 2 ^ 32) m = 0 then 0 else 2 ^ 63) := by
  have hx : (p.claims r w m).getX r = BitVec.ofNat 64 (w.value.toNat % 2 ^ 32 + (b2n (w.twice m) <<< 63)) :=
    getX_setX_same p hr _
  rw [hx]
  by_cases h : w.twice m = true
  · rw [if_neg (twice_iff.1 h), h]
    rfl
  · rw [if_pos (not_not.1 (mt twice_iff.2 h)), eq_false_of_ne_true h]
    rfl

theorem wcfa_line (hc : condHolds s n f) (h : OneSlot s n l (.wcfa l f)) {w : WorkCounter} {g : PressCtx → PressCtx}
    (ht : doWcfa (s.lc n l) s f = (s.setCounter (chaseOf n) (f.imm.toNat % 64) w).modPc n g) :
    ∃ t, exec (.wcfa l f) s = .next t ∧ t.counter (chaseOf n) (f.imm.toNat % 64) = w ∧
      OnlyPress { s with chases := t.chases } t n ((g (s.pc n)).retire (s.nextLine n)) := by
  refine ⟨_, issue_slot (d := { ctSlotDef f [f.xb, f.xd] (fun k s => chkWcfa k s f) (fun k s => doWcfa k s f) with
    xd := some f.xd.toNat }) (goal := none) h (isSlot_control rfl rfl rfl) (live_of_holds rfl hc)
    (congrArg (fun t => ({ s := t, goal := none } : Did)) ht), ?_, ?_⟩
  · exact counter_setCounter ..
  · exact onlyPress_retired (s.setCounter (chaseOf n) (f.imm.toNat % 64) w) n g _

end

theorem workCounters : Claims.WorkCounters := by
  intro s n l f hc
  refine ⟨wcinit_line hc, fun h hw => wcfa_line hc h (doWcfa_plain (s.lc n l) rfl hw), fun h hw => ?_⟩
  obtain ⟨t, hx, hcounter, ho⟩ := wcfa_line hc h (doWcfa_claim (s.lc n l) rfl hw)
  refine ⟨t, hx, congrArg WorkCounter.value hcounter, congrArg WorkCounter.bitmap hcounter,
    (congrArg WorkCounter.dups hcounter).trans (dups_claimed ..),
    (congrArg PressCtx.dropLatch ho.pc).trans (twice_eq ..), fun hxd => ?_⟩
  have hr : f.xd.toNat ≠ 0 := fun h0 => hxd (BitVec.eq_of_toNat_eq h0)
  exact (congrArg (·.getX f.xd.toNat) ho.pc).trans (getX_claims (s.pc n) hr ..)

/-- Settles O51: the hold of a press whose work has drained ends as everything is looked at again, and nothing else waits. -/
theorem chaseOperations : Obligations.ChaseOperations := ⟨fenceAndEnd, chaseBarriers, workCounters⟩

end Sys2Proof.Machine
end

/-! # Forme barriers, remote waits and signals (R91, R95, R96) -/

section
open Sys2Proof Sys2Proof.Machine
namespace Sys2Proof.Machine

/-! ### What a hold that is looked at again keeps -/

/-- What a press that goes on after its hold keeps: its context and its program counter; memory does not change, and nothing
else begins to wait. -/
structure GoesOn (s t : State) (n : Nat) : Prop where
  quiet : QuietBut s n → QuietBut t n
  run : (t.press n).run = (s.press n).run
  pc : (t.pc n).pc = (s.pc n).pc
  mem : t.mem = s.mem

theorem GoesOn.rfl {s : State} {n : Nat} : GoesOn s s n := ⟨id, Eq.refl _, Eq.refl _, Eq.refl _⟩

theorem GoesOn.trans {s t u : State} {n : Nat} (h : GoesOn s t n) (k : GoesOn t u n) : GoesOn s u n :=
  ⟨k.quiet ∘ h.quiet, k.run.trans h.run, k.pc.trans h.pc, k.mem.trans h.mem⟩

/-- A change of the press that keeps its program counter and lets nothing of it be away. -/
theorem GoesOn.modPc (s : State) (n : Nat) {f : PressCtx → PressCtx} (ha : (f (s.pc n)).away = (s.pc n).away)
    (hpc : (f (s.pc n)).pc = (s.pc n).pc) : GoesOn s (s.modPc n f) n :=
  have ho := (OnlyPress.refl s n).modPc f
  ⟨fun hq => hq.onlyPress ho (ha.trans hq.here), ho.run, ho.pc ▸ hpc, Eq.refl _⟩

theorem pc_modOf_pc {s : State} {f : PressCtx → PressCtx} (hpc : ∀ p, (f p).pc = p.pc) (m c n : Nat) :
    ((s.modOf m c f).pc n).pc = (s.pc n).pc := by
  unfold State.modOf
  simp only
  split <;> rw [State.pc, State.press_setPress] <;> split <;> simp_all [State.pc]

theorem GoesOn.modOf (s : State) (m c n : Nat) {f : PressCtx → PressCtx} (hf : Gentle f) (hpc : ∀ p, (f p).pc = p.pc) :
    GoesOn s (s.modOf m c f) n where
  quiet hq := hq.modOf hf m c
  run := run_modOf s m c n f
  pc := pc_modOf_pc hpc m c n
  mem := by unfold State.modOf; simp only; split <;> rfl

theorem GoesOn.foldl_modOf (s : State) (ms : List Nat) (c n : Nat) {f : PressCtx → PressCtx} (hf : Gentle f)
    (hpc : ∀ p, (f p).pc = p.pc) : GoesOn s (ms.foldl (fun s m => s.modOf m c f) s) n :=
  foldl_rel (R := (GoesOn · · n)) (fun _ => .rfl) .trans _ ms (fun s m _ => .modOf s m c n hf hpc) s

/-- A change of chases, barriers or formes. -/
theorem GoesOn.same {s t : State} (n : Nat) (hp : t.presses = s.presses) (hm : t.mem = s.mem) (hc : t.comps = s.comps)
    (hh : t.hostq = s.hostq) (hr : t.requests = s.requests) (hpl : t.placed = s.placed) (hl : t.longops = s.longops) :
    GoesOn s t n :=
  have hpress : t.press n = s.press n := congrArg (mget ({} : Press) · n) hp
  ⟨fun hq => hq.same hp hc hh hr hpl hl, congrArg Press.run hpress, congrArg (·.cur.pc) hpress, hm⟩

/-! ### Forme barriers (R95) -/

/-- A press let go, with 0, by the barrier of a forme in which it waits. -/
def PressCtx.leaveFbar (h : Nat) (p : PressCtx) : PressCtx :=
  match p.hold with
  | .fbarWait h' x => if h' = h then { p.setX x 0 with hold := .none } else p
  | _ => p

theorem leaveFbar_cases (h : Nat) (p : PressCtx) :
    p.leaveFbar h = p ∨ ∃ x, p.hold = .fbarWait h x ∧ p.leaveFbar h = (p.setX x 0).heldBy .none := by
  unfold PressCtx.leaveFbar
  split
  · next h' x hp =>
    split
    · next heq => exact .inr ⟨x, heq ▸ hp, rfl⟩
    · exact .inl rfl
  · exact .inl rfl

theorem away_setX (p : PressCtx) (i : Nat) (v : W64) : (p.setX i v).away = p.away := by
  unfold PressCtx.setX
  split <;> rfl

theorem pc_setX (p : PressCtx) (i : Nat) (v : W64) : (p.setX i v).pc = p.pc := by
  unfold PressCtx.setX
  split <;> rfl

theorem hold_setX (p : PressCtx) (i : Nat) (v : W64) : (p.setX i v).hold = p.hold := by
  unfold PressCtx.setX
  split <;> rfl

theorem watch_setX (p : PressCtx) (i : Nat) (v : W64) : (p.setX i v).watch = p.watch := by
  unfold PressCtx.setX
  split <;> rfl

theorem pc_leaveFbar (h : Nat) (p : PressCtx) : (p.leaveFbar h).pc = p.pc := by
  rcases leaveFbar_cases h p with hp | ⟨x, -, hp⟩ <;> rw [hp]
  exact pc_setX p x 0

theorem gentle_leaveFbar (h : Nat) : Gentle (PressCtx.leaveFbar h) := by
  refine ⟨fun p hp => ?_, fun p hp => ?_, fun p hp => ?_⟩ <;>
    rcases leaveFbar_cases h p with hp' | ⟨x, -, hp'⟩ <;> rw [hp']
  · exact hp
  · exact (away_setX p x 0).trans hp
  · exact hp
  · trivial
  · exact hp
  · exact (watch_setX p x 0).trans hp

theorem leaveFbar_twice (h : Nat) (p : PressCtx) : (p.leaveFbar h).leaveFbar h = p.leaveFbar h := by
  rcases leaveFbar_cases h p with hp | ⟨x, -, hp⟩ <;> rw [hp]
  · exact hp
  · rfl

theorem pc_leaveCbar (k : Nat) (p : PressCtx) : (p.leaveCbar k).pc = p.pc := by
  unfold PressCtx.leaveCbar
  split <;> rfl

/-! ### Every hold -/

section
variable (t : State) (n : Nat)

theorem setBarrier_goesOn (ch k : Nat) (b : Barrier) : GoesOn t (t.setBarrier ch k b) n :=
  .same n rfl rfl rfl rfl rfl rfl rfl

theorem setFbars_goesOn (m : Map FBarrier) : GoesOn t { t with fbars := m } n := .same n rfl rfl rfl rfl rfl rfl rfl

/-- A press that waits in a forme barrier or at a fence. -/
theorem heldBy_goesOn (h : Hold) : GoesOn t (t.modPc n (·.heldBy h)) n := .modPc t n rfl rfl

theorem arriveCbar_goesOn (k : Nat) : GoesOn t (t.arriveCbar n k) n := by
  rcases Nat.lt_or_ge ((t.barrier (chaseOf n) k).arrived.length + 1) (t.barrier (chaseOf n) k).expect with h | h
  · rw [arriveCbar_waits h]
    exact (setBarrier_goesOn ..).trans (.modPc _ n rfl rfl)
  · rw [arriveCbar_last h]
    exact (setBarrier_goesOn ..).trans (.foldl_modOf _ _ _ n (gentle_leaveCbar k) (pc_leaveCbar k))

theorem endFbar_goesOn (key h c : Nat) (all : List Nat) : GoesOn t (t.endFbar key h c all) n :=
  (setFbars_goesOn t n (mput t.fbars key { mget ({} : FBarrier) t.fbars key with arrived := [] })).trans
    (.foldl_modOf _ all c n (gentle_leaveFbar h) (pc_leaveFbar h))

theorem arriveFbar_goesOn (h xd : Nat) : GoesOn t (t.arriveFbar n h xd) n := by
  unfold State.arriveFbar
  split
  · exact .rfl
  · simp only
    split
    · exact (heldBy_goesOn t n _).trans (endFbar_goesOn ..)
    · exact (heldBy_goesOn t n _).trans (setFbars_goesOn ..)

theorem peerNews_goesOn (h : Nat) : GoesOn t (t.peerNews h).2 n := by
  unfold State.peerNews
  split
  · exact .rfl
  · exact .same n rfl rfl rfl rfl rfl rfl rfl

theorem peerLost_goesOn (h : Nat) : GoesOn t (t.peerLost h) n := .same n rfl rfl rfl rfl rfl rfl rfl

theorem peerFbar_goesOn (h : Nat) : GoesOn t (t.peerFbar n h) n := by
  unfold State.peerFbar
  split
  · exact .rfl
  · simp only
    have hnews := peerNews_goesOn t n h
    split
    · exact hnews.trans (peerLost_goesOn ..)
    · split
      · exact hnews.trans (endFbar_goesOn ..)
      · exact hnews

/-- A press let go with a value. -/
theorem letGo_goesOn (xd : Nat) (v : W64) : GoesOn t (t.modPc n fun p => { p.setX xd v with hold := .none }) n :=
  .modPc t n (away_setX ..) (pc_setX ..)

theorem settleHold_goesOn : GoesOn t (t.settleHold n) n := by
  unfold State.settleHold
  split
  · split
    · exact .modPc t n rfl rfl
    · exact .rfl
  · split
    · exact arriveCbar_goesOn ..
    · exact .rfl
  · split
    · exact letGo_goesOn ..
    · split
      · exact arriveFbar_goesOn ..
      · exact .rfl
  · split
    · exact letGo_goesOn ..
    · exact peerFbar_goesOn ..
  · split
    · exact .rfl
    · simp only
      split
      · exact .modPc t n (away_setX ..) (pc_setX ..)
      · split
        · exact .modPc t n (away_setX ..) (pc_setX ..)
        · split
          · exact (peerNews_goesOn ..).trans (peerLost_goesOn ..)
          · exact peerNews_goesOn ..
  · exact .rfl

end

theorem settlePress_goesOn {t : State} {n : Nat} (hq : QuietBut t n) (hrun : (t.press n).run ≠ none) (m : Nat) :
    GoesOn t (t.settlePress m) n := by
  have hgo := settleHold_goesOn t n
  by_cases hm : m = n
  · subst hm
    rw [settlePress_hold hq (hgo.quiet hq) hrun rfl]
    exact hgo
  · rw [settlePress_other hq hm]
    exact .rfl

theorem GoesOn.foldl {α : Type} {s u : State} {n : Nat} (h : GoesOn s u n) (f : State → α → State) (l : List α)
    (hstep : ∀ t a, GoesOn s t n → GoesOn t (f t a) n) : GoesOn s (l.foldl f u) n := by
  induction l generalizing u with
  | nil => exact h
  | cons a l ih => exact ih (h.trans (hstep u a h))

/-- Everything looked at again, with one press waiting: it keeps its program counter, and memory does not change. -/
theorem settle_goesOn {s : State} {n : Nat} (hs : QuietBut s n) (hrun : (s.press n).run ≠ none) : GoesOn s s.settle n := by
  have hpresses {t : State} (l : Map Press) (h : GoesOn s t n) : GoesOn s (l.foldl (fun s e => s.settlePress e.1) t) n :=
    h.foldl _ l fun t e h => settlePress_goesOn (h.quiet hs) (h.run ▸ hrun) e.1
  have hcomps {t : State} (l : Map Comp) (h : GoesOn s t n) :
      l.foldl (fun s e => retryStalls (128 + e.1) e.2.ctx 16 s) t = t :=
    foldl_same _ _ _ fun e _ => retryStalls_but (h.quiet hs) ..
  have hlast {t : State} (h : GoesOn s t n) : t.flushFailed.settleHost.askAreas.pumpLoads = t := by
    have hq := h.quiet hs
    rw [flushFailed_but hq, settleHost_but hq, askAreas_but hq, pumpLoads_but hq]
  unfold State.settle
  simp only [settleHost_but hs]
  rw [hcomps _ (hpresses _ .rfl)]
  have htwice := hpresses (List.foldl (fun s e => s.settlePress e.1) s s.presses).presses (hpresses s.presses .rfl)
  rw [hcomps _ htwice, hlast htwice]
  exact htwice

/-! ### FBAR (R95) -/

section
variable {s : State} {n : Nat} {l : Line} {f : CtF}

/-- A forme of this device alone has no news of other devices. -/
theorem peerNews_here {t : State} {h : Nat} (hh : FormeHere t h) : t.peerNews h = (0, t) := by
  unfold State.peerNews
  refine if_pos (List.all_eq_true.2 fun p hp => ?_)
  rw [hh p hp]
  exact beq_self_eq_true _

theorem peerFbar_here {t : State} {h : Nat} (hh : FormeHere t h) : t.peerFbar n h = t := by
  unfold State.peerFbar
  split
  · rfl
  · simp [peerNews_here hh]

theorem settleHold_fbarWait {t : State} {h xd : Nat} (hhold : (t.pc n).hold = .fbarWait h xd)
    (hl : (mget ({} : Forme) t.formes h).lost = false) (hh : FormeHere t h) : t.settleHold n = t := by
  unfold State.settleHold
  rw [hhold]
  simp only [hl, Bool.false_eq_true, if_false]
  exact peerFbar_here hh

theorem settleHold_fbar {t : State} {h xd : Nat} (hhold : (t.pc n).hold = .fbar h xd)
    (hl : (mget ({} : Forme) t.formes h).lost = false) (hd : t.drained n = true) : t.settleHold n = t.arriveFbar n h xd := by
  unfold State.settleHold
  rw [hhold]
  simp only [hl, Bool.false_eq_true, if_false, hd, if_true]

/-- Whether all participants of this device have arrived when press `n` does. -/
def FBarrier.last (b : FBarrier) (n : Nat) : Prop := ∀ m ∈ b.expect, m ∈ b.arrived ∨ m = n

theorem all_arrived (b : FBarrier) (n : Nat) : (b.expect.all fun m => (b.arrived ++ [n]).contains m) = true ↔ b.last n := by
  simp [FBarrier.last, List.all_eq_true]

theorem leaveFbar_waiting {p : PressCtx} {h xd : Nat} (hp : p.hold = .fbarWait h xd) :
    p.leaveFbar h = (p.setX xd 0).heldBy .none := by
  unfold PressCtx.leaveFbar
  rw [hp]
  exact if_pos rfl

/-- The last arrival at a forme barrier gives the press the value 0. -/
theorem pc_endFbar {t : State} {c h xd : Nat} (hrun : (t.press n).run = some c) (hhold : (t.pc n).hold = .fbarWait h xd)
    (key : Nat) (ms : List Nat) : (t.endFbar key h c (ms ++ [n])).pc n = ((t.pc n).setX xd 0).heldBy .none := by
  have hpc := pc_foldl_modOf (s := { t with fbars := mput t.fbars key { mget ({} : FBarrier) t.fbars key with arrived := [] } })
    (leaveFbar_twice h) (ms ++ [n]) hrun
  rw [if_pos (by simp)] at hpc
  exact hpc.trans (leaveFbar_waiting hhold)

theorem hold_modPc (t : State) (n : Nat) (h : Hold) : ((t.modPc n (·.heldBy h)).pc n).hold = h := by
  rw [pc_modPc]
  rfl

/-- A press whose work has drained, held by FBAR and not looked at yet. -/
structure AtFbar (t : State) (n h xd : Nat) (key : Nat) (b : FBarrier) : Prop where
  quiet : QuietBut t n
  run : (t.press n).run = some (t.runCtx n)
  hold : (t.pc n).hold = .fbar h xd
  drained : t.drained n = true
  kept : (mget ({} : Forme) t.formes h).lost = false
  take : ∃ k, t.takeOf (t.pc n) = some k ∧ k * 1024 + h = key
  barrier : mget ({} : FBarrier) t.fbars key = b
  here : b.remote = false

section
variable {t : State} {h xd key : Nat} {b : FBarrier} (ha : AtFbar t n h xd key b)
include ha

theorem arriveFbar_last (hlast : b.last n) : t.arriveFbar n h xd =
    (t.modPc n (·.heldBy (.fbarWait h xd))).endFbar key h (t.runCtx n) (b.arrived ++ [n]) := by
  obtain ⟨k, hk, rfl⟩ := ha.take
  obtain rfl := ha.barrier
  unfold State.arriveFbar
  rw [hk]
  exact if_pos (by rw [(all_arrived _ n).2 hlast, ha.here]; rfl)

theorem arriveFbar_waits (hlast : ¬b.last n) : t.arriveFbar n h xd =
    { t.modPc n (·.heldBy (.fbarWait h xd)) with fbars := mput t.fbars key { b with arrived := b.arrived ++ [n] } } := by
  obtain ⟨k, hk, rfl⟩ := ha.take
  obtain rfl := ha.barrier
  unfold State.arriveFbar
  rw [hk]
  refine if_neg ?_
  rw [eq_false_of_ne_true (mt (all_arrived _ n).1 hlast)]
  exact Bool.false_ne_true

/-- Everything looked at again where the press's hold ends, or changes to one that does not end. -/
theorem settle_fbar {p : PressCtx} (hp : (t.arriveFbar n h xd).pc n = p)
    (hend : (t.arriveFbar n h xd).settleHold n = t.arriveFbar n h xd) : t.settle.pc n = p := by
  have hgo := arriveFbar_goesOn t n h xd
  rw [settle_of_hold ha.quiet (hgo.quiet ha.quiet) (by rw [ha.run]; nofun) (by rw [ha.hold]; nofun)
    (settleHold_fbar ha.hold ha.kept ha.drained) hend (by rw [hgo.run, ha.run]; nofun)]
  exact hp

theorem settle_fbar_last (hlast : b.last n) : t.settle.pc n = (((t.pc n).heldBy (.fbarWait h xd)).setX xd 0).heldBy .none := by
  have hpc := pc_endFbar (t := t.modPc n (·.heldBy (.fbarWait h xd))) (((OnlyPress.refl t n).modPc _).run.trans ha.run)
    (hold_modPc t n _) key b.arrived
  rw [pc_modPc, ← arriveFbar_last ha hlast] at hpc
  exact settle_fbar ha hpc (settleHold_none (congrArg PressCtx.hold hpc))

theorem settle_fbar_waits (hlast : ¬b.last n) (hh : FormeHere t h) :
    t.settle.pc n = (t.pc n).heldBy (.fbarWait h xd) := by
  have hpc : (t.arriveFbar n h xd).pc n = (t.pc n).heldBy (.fbarWait h xd) := by
    rw [arriveFbar_waits ha hlast]
    exact pc_modPc t n (·.heldBy (.fbarWait h xd))
  refine settle_fbar ha hpc (settleHold_fbarWait (congrArg PressCtx.hold hpc) ?_ ?_)
  · rw [arriveFbar_waits ha hlast]
    exact ha.kept
  · rw [arriveFbar_waits ha hlast]
    exact hh

end

/-- A press that waits for a word. -/
def PressCtx.waitsFor (p : PressCtx) (xd : Nat) (w : Watch) : PressCtx := { p with hold := .rwait xd, watch := some w }

theorem doRwait_reached (h : s.badWord n (s.runCtx n) (s.x n f.xa) = none) {w : W64}
    (hw : s.wordAt (some n) (s.runCtx n) (s.x n f.xa) = some w) (hle : (s.x n f.xb).toNat ≤ w.toNat) :
    doRwait (s.lc n l) s f = s.modPc n (·.setX f.xd.toNat 0) := by
  have hb : s.badWord (s.lc n l).n (s.lc n l).c ((s.lc n l).x f.xa) = none := h
  have hv : s.wordAt (some (s.lc n l).n) (s.lc n l).c ((s.lc n l).x f.xa) = some w := hw
  unfold doRwait
  simp only [hb, hv]
  exact if_pos hle

theorem doRwait_waits (h : s.badWord n (s.runCtx n) (s.x n f.xa) = none) {w : W64}
    (hw : s.wordAt (some n) (s.runCtx n) (s.x n f.xa) = some w) (hlt : w.toNat < (s.x n f.xb).toNat) :
    doRwait (s.lc n l) s f = s.modPc n (·.waitsFor f.xd.toNat
      { va := s.x n f.xa, pc := (s.pc n).pc, thresh := s.x n f.xb, forme := f.imm.toNat % 1024 }) := by
  have hb : s.badWord (s.lc n l).n (s.lc n l).c ((s.lc n l).x f.xa) = none := h
  have hv : s.wordAt (some (s.lc n l).n) (s.lc n l).c ((s.lc n l).x f.xa) = some w := hw
  unfold doRwait
  simp only [hb, hv]
  exact if_neg (Nat.not_le.2 hlt)

theorem settleHold_rwait {t : State} {xd : Nat} {w : Watch} (hhold : (t.pc n).hold = .rwait xd)
    (hw : (t.pc n).watch = some w) (hm : w.met = false) (hl : (mget ({} : Forme) t.formes w.forme).lost = false)
    (hh : FormeHere t w.forme) : t.settleHold n = t := by
  unfold State.settleHold
  rw [hhold]
  simp only [hw, hm, hl, Bool.false_eq_true, if_false, peerNews_here hh]
  rfl

section
variable (hc : condHolds s n f) (hq : Quiet s)
include hc hq

theorem fbar_line (h : OneSlot s n l (.fbar l f)) (hs : Settled (s.pc n)) (k : Nat) (hk : s.takeOf (s.pc n) = some k) :
    let h := (s.x n f.xa).toNat % 1024
    let b := mget ({} : FBarrier) s.fbars (k * 1024 + h)
    b.remote = false → (mget ({} : Forme) s.formes h).lost = false → ∃ t, exec (.fbar l f) s = .next t ∧
      ((∀ m ∈ b.expect, m ∈ b.arrived ∨ m = n) → (t.pc n).hold = .none ∧ (f.xd ≠ 0 → (t.pc n).getX f.xd.toNat = 0)) ∧
      (¬(∀ m ∈ b.expect, m ∈ b.arrived ∨ m = n) → FormeHere s h → (t.pc n).hold = .fbarWait h f.xd.toNat) ∧
      (t.pc n).pc = s.nextLine n ∧ t.mem = s.mem := by
  intro hf b hr hl
  have ho := onlyPress_holdLine s n (.fbar hf f.xd.toNat)
  have hquiet := hq.holdLine n (.fbar hf f.xd.toNat)
  have hrun := ho.run.trans (run_eq h.bound)
  have hx : exec (.fbar l f) s = .next (s.holdLine n (.fbar hf f.xd.toNat)).settle :=
    issue_hold h (isSlot_control rfl rfl rfl) (live_of_holds rfl hc) rfl rfl rfl
  have hat : AtFbar (s.holdLine n (.fbar hf f.xd.toNat)) n hf f.xd.toNat (k * 1024 + hf) b := {
    quiet := hquiet
    run := run_eq (ho.run ▸ h.bound)
    hold := hold_holdLine ..
    drained := (drained_holdLine hq n _).2 hs
    kept := hl
    take := ⟨k, by rw [ho.pc]; exact hk, rfl⟩
    barrier := rfl
    here := hr }
  have hgo := settle_goesOn hquiet (ho.run ▸ h.bound)
  refine ⟨_, hx, fun hlast => ?_, fun hlast hh => ?_, hgo.pc.trans (congrArg PressCtx.pc ho.pc), hgo.mem⟩
  · rw [settle_fbar_last hat hlast]
    refine ⟨rfl, fun hxd => ?_⟩
    have hr : f.xd.toNat ≠ 0 := fun h0 => hxd (BitVec.eq_of_toNat_eq h0)
    exact getX_setX_same _ hr 0
  · rw [settle_fbar_waits hat hlast hh]
    rfl

/-! ### RWAIT (R96) -/

theorem rwait_reached (h : OneSlot s n l (.rwait l f)) (hg : doRwait (s.lc n l) s f = s.modPc n (·.setX f.xd.toNat 0)) :
    Does s n (.rwait l f) (·.setX f.xd.toNat 0) (s.nextLine n) := by
  have hquiet : Quiet ((s.modPc n (·.setX f.xd.toNat 0)).retireLine n (s.nextLine n)) :=
    (hq.modPc n (·.setX f.xd.toNat 0) (away_setX ..) (hold_setX ..) (watch_setX ..)).modPc n (·.retire (s.nextLine n)) rfl rfl rfl
  exact ⟨_, issue_hold h (isSlot_control rfl rfl rfl) (live_of_holds rfl hc) rfl
    (congrArg (fun t => ({ s := t, goal := none } : Did)) hg) (settle_quiet hquiet), onlyPress_retired s n _ _⟩

theorem rwait_waits (h : OneSlot s n l (.rwait l f)) {w : Watch} (hm : w.met = false)
    (hl : (mget ({} : Forme) s.formes w.forme).lost = false)
    (hg : doRwait (s.lc n l) s f = s.modPc n (·.waitsFor f.xd.toNat w)) : ∃ t, exec (.rwait l f) s = .next t ∧
      (FormeHere s w.forme → (t.pc n).hold = .rwait f.xd.toNat) ∧ (t.pc n).pc = s.nextLine n ∧ t.mem = s.mem := by
  have ho := onlyPress_retired s n (·.waitsFor f.xd.toNat w) (s.nextLine n)
  have hquiet := (hq.but n).onlyPress ho (hq.press n).here
  have hrun := ho.run ▸ h.bound
  have hgo := settle_goesOn hquiet hrun
  have hhold := congrArg PressCtx.hold ho.pc
  refine ⟨_, issue_hold h (isSlot_control rfl rfl rfl) (live_of_holds rfl hc) rfl
    (congrArg (fun t => ({ s := t, goal := none } : Did)) hg) rfl, fun hh => ?_, hgo.pc.trans (congrArg PressCtx.pc ho.pc),
    hgo.mem⟩
  have hstays := settleHold_rwait hhold (congrArg PressCtx.watch ho.pc) hm hl hh
  have hsettle := settle_of_hold hquiet hquiet hrun (hhold ▸ nofun) hstays hstays hrun
  exact (congrArg (fun t : State => (t.pc n).hold) hsettle).trans hhold

theorem rwait_line (h : OneSlot s n l (.rwait l f)) (w : W64)
    (hw : s.wordAt (some n) (s.runCtx n) (s.x n f.xa) = some w) (hb : s.badWord n (s.runCtx n) (s.x n f.xa) = none)
    (hl : (mget ({} : Forme) s.formes (f.imm.toNat % 1024)).lost = false) : ∃ t, exec (.rwait l f) s = .next t ∧
      ((s.x n f.xb).toNat ≤ w.toNat → (t.pc n).hold = .none ∧ (f.xd ≠ 0 → (t.pc n).getX f.xd.toNat = 0)) ∧
      (w.toNat < (s.x n f.xb).toNat → FormeHere s (f.imm.toNat % 1024) → (t.pc n).hold = .rwait f.xd.toNat) ∧
      (t.pc n).pc = s.nextLine n ∧ t.mem = s.mem := by
  rcases Nat.lt_or_ge w.toNat (s.x n f.xb).toNat with hlt | hge
  · obtain ⟨t, hx, hhold, hrest⟩ := rwait_waits hc hq h rfl hl (doRwait_waits hb hw hlt)
    exact ⟨t, hx, fun hle => absurd hlt (Nat.not_lt.2 hle), fun _ => hhold, hrest⟩
  · obtain ⟨t, hx, ho⟩ := rwait_reached hc hq h (doRwait_reached hb hw hge)
    refine ⟨t, hx, fun _ => ⟨?_, fun hxd => ?_⟩, fun hlt => absurd hlt (Nat.not_lt.2 hge), congrArg PressCtx.pc ho.pc,
      (congrArg State.mem ho.2.2 :)⟩
    · exact (congrArg PressCtx.hold ho.pc).trans ((hold_setX ..).trans h.notHeld)
    · have hr : f.xd.toNat ≠ 0 := fun h0 => hxd (BitVec.eq_of_toNat_eq h0)
      exact (congrArg (·.getX f.xd.toNat) ho.pc).trans (getX_setX_same (s.pc n) hr 0)

end

end

theorem formeBarrierAndWait : Claims.FormeBarrierAndWait := fun _ _ _ _ hc hq =>
  ⟨fun h hs => fbar_line hc hq h hs, rwait_line hc hq⟩

end Sys2Proof.Machine
end

/-! # Memory-side adds of a press (R91, R96, R286) -/

section
open Sys2Proof Sys2Proof.Machine
namespace Sys2Proof.Machine

/-! ### An add to plain memory (R286) -/

theorem cabOnly_recall (s : State) (keep : Option Nat) (line : Nat) : CabOnly s (s.recall keep line) := by
  refine foldl_rel cabOnly_refl CabOnly.trans _ _ (fun s c _ => ?_) s
  split
  · rfl
  · split
    · rfl
    · simp only
      split
      · exact ((cabOnly_setChase s c _).trans (cabOnly_bump ..)).trans (cabOnly_lineWritten ..)
      · exact cabOnly_setChase s c _

theorem cabOnly_unitMoved (s : State) (k : Nat) : CabOnly s (s.unitMoved k) :=
  (cabOnly_lineRead s k).trans (cabOnly_lineWritten _ k)

theorem setHomes_memory (s : State) (pa : Nat) (bs : List Byte) (h : pa + bs.length ≤ 2 ^ 60) :
    s.setHomes pa bs = { s with mem := putCells s.mem pa bs } := by
  induction bs generalizing s pa with
  | nil => rfl
  | cons b bs ih =>
    rw [List.length_cons] at h
    have hput : s.setHome pa b = { s with mem := putCell s.mem pa b } := if_pos (by omega)
    rw [State.setHomes, hput, ih _ _ (by omega)]
    rfl

theorem homeBytes_memory (s : State) (pa n : Nat) (h : pa + n ≤ 2 ^ 60) : (span pa n).map s.homeByte = cells s.mem pa n :=
  seenBytes_memory s pa n h

/-- An atomic accepted and performed: what it leaves but for the counters of the controllers. -/
def State.atomicDone (s : State) : State := { s with atomics := s.atomics + 1, atomicsEnd := s.atomicsEnd + 1 }

theorem CabOnly.atomicDone {s t : State} (h : CabOnly s t) : CabOnly s.atomicDone t.atomicDone := by
  unfold CabOnly at *
  conv_rhs => rw [← h]
  rfl

theorem CabOnly.sameWaits {s t : State} (h : CabOnly s t) : SameWaits s t := by
  constructor <;> (conv_rhs => rw [← h])

theorem cabOnly_countAtomic (s : State) (performed : Bool) : CabOnly s.atomicDone (s.countAtomic performed) := by
  cases performed <;> rfl

/-- The sum of the word at a place and a value. -/
def State.sumAt (s : State) (pa : Nat) (v : W64) : W64 := BitVec.ofNat 64 (ofBytes (cells s.mem pa 8)) + v

theorem toNat_sumAt (s : State) (pa : Nat) (v : W64) :
    (s.sumAt pa v).toNat = (ofBytes (cells s.mem pa 8) + v.toNat) % 2 ^ 64 := by
  simp [State.sumAt, BitVec.toNat_add]

theorem sameWaits_atomicDone {s u : State} (h : CabOnly s.atomicDone u) (m : List Host.Cell) :
    SameWaits s { u with mem := m } := by
  obtain ⟨h1, h2, h3, h4, h5, h6, h7⟩ := h.sameWaits
  exact ⟨h1, h2, h3, h4, h5, h6, h7⟩

/-- A memory-side add to a word of plain memory in a device in which nothing waits. -/
theorem add64_memory {s : State} (hq : Quiet s) {pa : Nat} (h : pa + 8 ≤ 2 ^ 60) (v : W64) : ∃ u, CabOnly s.atomicDone u ∧
    s.add64 pa v = { u with mem := putCells s.mem pa (toBytes 8 (s.sumAt pa v).toNat) } := by
  have hcount : CabOnly s.atomicDone ((s.recall none (pa / 256 * 256)).countAtomic true) :=
    (cabOnly_recall s none (pa / 256 * 256)).atomicDone.trans (cabOnly_countAtomic _ true)
  have hmoved := hcount.trans (cabOnly_unitMoved _ pa)
  refine ⟨_, hmoved, ?_⟩
  have hold : ((span pa 8).map ((s.recall none (pa / 256 * 256)).countAtomic true).homeByte) = cells s.mem pa 8 := by
    rw [homeBytes_memory _ _ _ h, hcount.mem]
    rfl
  unfold State.add64
  simp only
  rw [hold, ← toNat_sumAt, setHomes_memory _ _ _ (by rwa [length_toBytes]), hmoved.mem]
  exact wrote_quiet (hq.same (sameWaits_atomicDone hmoved _))

/-! ### RSIGNAL (R91, R96) -/

/-- A press's state with a mark taken and signalled at once. -/
theorem take_signal_marks (p : PressCtx) (m : Option Nat) (k : Nat) :
    mget 0 ((p.take m).signal m).marks k = mget 0 p.marks k := by
  cases m with
  | none => rfl
  | some j => by_cases h : j = k <;> simp [PressCtx.take, PressCtx.signal, mget_mset, h]

section
variable {s : State} {n : Nat} {l : Line} {f : CtF} {pa : Nat}

/-- A press's state as taking a mark, and signalling it, leaves what waits. -/
theorem quiet_take {t : State} (hq : Quiet t) (n : Nat) (m : Option Nat) : Quiet (t.modPc n (·.take m)) := by
  cases m <;> exact hq.modPc n _ rfl rfl rfl

theorem quiet_signal {t : State} (hq : Quiet t) (n : Nat) (m : Option Nat) : Quiet (t.modPc n (·.signal m)) := by
  cases m <;> exact hq.modPc n _ rfl rfl rfl

theorem tryAdd_memory {t : State} {c : Nat} {va v pc : W64} {mark : Option Nat} (hplace : t.resolve c .wr va = .ok (.mem pa))
    (hflows : t.waits none (.mem pa) 8 true = false) (hgood : t.isBad pa 8 = false) :
    t.tryAdd n c va v mark pc = (true, (t.add64 pa v).modOf n c (·.signal mark)) := by
  simp [State.tryAdd, hplace, hflows, hgood, Loc.key?]

theorem doRsignal_adds (h : s.openRegion n = none) (hdrop : (s.pc n).dropLatch = false)
    (hp : PlainWord s n none .wr (s.x n f.xa) pa 8) : doRsignal (s.lc n l) s f =
      ((s.modPc n (·.take (ctMark f))).add64 pa (s.x n f.xb)).modOf n (s.runCtx n) (·.signal (ctMark f)) := by
  have htry := tryAdd_memory (n := n) (t := s.modPc n (·.take (ctMark f))) (c := s.runCtx n) (va := s.x n f.xa) (v := s.x n f.xb)
    (pc := (s.pc n).pc) (mark := ctMark f) hp.place hp.flows hp.good
  have hdrop' : (s.lc n l).old.dropLatch = false := hdrop
  have hregion : s.openRegion (s.lc n l).n = none := h
  unfold doRsignal
  simp only [hdrop', hregion, Bool.false_eq_true, if_false]
  exact (congrArg (fun r : Bool × State => if r.1 = true then r.2 else _) htry)

/-- The Line of an RSIGNAL: its mark taken, its add made, and its mark signalled. -/
theorem rsignal_line (hc : condHolds s n f) (hq : Quiet s) (h : OneSlot s n l (.rsignal l f))
    (hp : PlainWord s n none .wr (s.x n f.xa) pa 8) (hdrop : (s.pc n).dropLatch = false) :
    ∃ u, CabOnly (s.modPc n (·.take (ctMark f))).atomicDone u ∧ exec (.rsignal l f) s =
      .next (({ u with mem := putCells s.mem pa (toBytes 8 (s.sumAt pa (s.x n f.xb)).toNat) }.modPc n
        (·.signal (ctMark f))).retireLine n (s.nextLine n)) := by
  have hfit : pa + 8 ≤ 2 ^ 60 := by have := hp.inDevice; omega
  have hqt := quiet_take hq n (ctMark f)
  obtain ⟨u, hu, hadd⟩ := add64_memory hqt hfit (s.x n f.xb)
  have hwaits := sameWaits_atomicDone hu (putCells s.mem pa (toBytes 8 (s.sumAt pa (s.x n f.xb)).toNat))
  have hrun : (({ u with mem := putCells s.mem pa (toBytes 8 (s.sumAt pa (s.x n f.xb)).toNat) } : State).press n).run =
      some (s.runCtx n) := by
    have hpress := congrArg (fun m => (mget ({} : Press) m n).run) hwaits.presses
    exact (hpress.trans ((OnlyPress.refl s n).modPc (·.take (ctMark f))).run).trans (run_eq h.bound)
  have hdo := doRsignal_adds h.outside hdrop hp (l := l)
  rw [hadd] at hdo
  have hdo := hdo.trans (modOf_running _ n (s.runCtx n) _ hrun)
  have hquiet := (quiet_signal (hqt.same hwaits) n (ctMark f)).modPc n (·.retire (s.nextLine n)) rfl rfl rfl
  exact ⟨u, hu, issue_hold h (isSlot_control rfl rfl rfl) (live_of_holds rfl hc) rfl
    (congrArg (fun t => ({ s := t, goal := none } : Did)) hdo) (settle_quiet hquiet)⟩

end

theorem signalAdds : Claims.SignalAdds := by
  intro s n l f pa hc hq h hp hdrop
  obtain ⟨u, hu, hx⟩ := rsignal_line hc hq h hp hdrop
  obtain ⟨hin, hout⟩ := cells_written s.mem pa 8 (s.sumAt pa (s.x n f.xb))
  have htaken : u.pc n = (s.pc n).take (ctMark f) :=
    (congrArg Press.cur (hu.press n)).trans (pc_modPc s n (·.take (ctMark f)))
  have hpc (v : State) (hv : v.pc n = u.pc n) : ((v.modPc n (·.signal (ctMark f))).retireLine n (s.nextLine n)).pc n =
      (((s.pc n).take (ctMark f)).signal (ctMark f)).retire (s.nextLine n) := by
    rw [pc_retireLine, pc_modPc, hv, htaken]
  refine ⟨_, hx, hin, hout, (congrArg State.atomics hu :), (congrArg State.atomicsEnd hu :), fun k => ?_, ?_⟩
  · exact (congrArg (fun p : PressCtx => mget 0 p.marks k) (hpc _ rfl)).trans (take_signal_marks (s.pc n) _ k)
  · exact congrArg PressCtx.pc (hpc _ rfl)

/-- Settles O52: a barrier or wait ends, or not, when the press is looked at again; an add is made at once. -/
theorem remoteWaits : Obligations.RemoteWaits := ⟨formeBarrierAndWait, signalAdds⟩

end Sys2Proof.Machine
end

/-! # Completion of operations (R85, R195, R307) -/

section
open Sys2Proof Sys2Proof.Machine
namespace Sys2Proof.Machine

theorem away_signal (p : PressCtx) (m : Option Nat) : (p.signal m).away = p.away := by cases m <;> rfl
theorem hold_signal (p : PressCtx) (m : Option Nat) : (p.signal m).hold = p.hold := by cases m <;> rfl
theorem watch_signal (p : PressCtx) (m : Option Nat) : (p.signal m).watch = p.watch := by cases m <;> rfl

/-! ### What an operation that leaves its engine leaves waiting -/

/-- A press's state without the operation of an engine at an index, its mark signalled. -/
def PressCtx.leave (p : PressCtx) (e : Engine) (idx : Nat) (m : Option Nat) : PressCtx :=
  match e with
  | .tm => PressCtx.signal { p with tmRun := p.tmRun.eraseIdx idx } m
  | .platen => PressCtx.signal { p with plRun := p.plRun.eraseIdx idx } m
  | .roller => PressCtx.signal { p with rlRun := p.rlRun.eraseIdx idx } m
  | .control => PressCtx.signal { p with ctRun := p.ctRun.eraseIdx idx } m

theorem hold_leave (p : PressCtx) (e : Engine) (idx : Nat) (m : Option Nat) : (p.leave e idx m).hold = p.hold := by
  cases e <;> exact hold_signal ..

theorem watch_leave (p : PressCtx) (e : Engine) (idx : Nat) (m : Option Nat) : (p.leave e idx m).watch = p.watch := by
  cases e <;> exact watch_signal ..

theorem away_leave {p : PressCtx} (h : p.away = false) (e : Engine) (idx : Nat) (m : Option Nat) :
    (p.leave e idx m).away = false := by
  obtain ⟨hstall, htm, hct⟩ := (away_iff p).1 h
  cases e <;> refine (away_signal ..).trans ?_
  · exact (away_iff _).2 ⟨hstall, fun o ho => htm o (List.mem_of_mem_eraseIdx ho), hct⟩
  · exact h
  · exact h
  · exact (away_iff _).2 ⟨hstall, htm, fun o ho => hct o (List.mem_of_mem_eraseIdx ho)⟩

section
variable {s : State} {n idx : Nat} (hq : Quiet s) (hr : Running s n)
include hr

/-- The completion of an operation of the context that stands on its press. -/
theorem exec_complete {e : Engine} (hidx : idx < (s.pc n).running e) :
    exec (.operationComplete n e idx) s = .next (s.completeHere n e idx).settle := by
  obtain ⟨hn, hrun⟩ := hr
  have hsome : (s.press n).run.isSome = true := Option.isSome_iff_ne_none.2 hrun
  have hdo : s.complete n e idx = s.completeHere n e idx := by
    unfold State.complete
    simp only [hsome, if_true]
    exact if_pos hidx
  show execOperationComplete n e idx s = _
  rw [execOperationComplete, if_neg (Nat.not_le.2 hn), if_neg (by simp [hrun]), hdo]

/-- A completion that leaves nothing waiting. -/
theorem completes {e : Engine} (hidx : idx < (s.pc n).running e) {u : State} (hu : Quiet u)
    (hdo : s.completeHere n e idx = u) : exec (.operationComplete n e idx) s = .next u := by
  rw [exec_complete hr hidx, hdo, settle_quiet hu]

end

section
variable {s : State} {n idx : Nat} (hq : Quiet s) (hr : Running s n)
include hq

theorem quiet_leave (e : Engine) (idx : Nat) (m : Option Nat) : Quiet (s.modPc n (·.leave e idx m)) :=
  hq.modPc n _ ((away_leave (hq.press n).here ..).trans (hq.press n).here.symm) (hold_leave ..) (watch_leave ..)

include hr

/-- A completion that changes the press alone. -/
theorem completes_leave {e : Engine} {m : Option Nat} (hidx : idx < (s.pc n).running e)
    (hdo : s.completeHere n e idx = s.modPc n (·.leave e idx m)) :
    ∃ t, exec (.operationComplete n e idx) s = .next t ∧ OnlyPress s t n ((s.pc n).leave e idx m) :=
  ⟨_, completes hr hidx (quiet_leave hq e idx m) hdo, onlyPress_setPc s n _⟩

theorem platen_completes {o : PlOp} (ho : (s.pc n).plRun[idx]? = some o) :
    ∃ t, exec (.operationComplete n .platen idx) s = .next t ∧ OnlyPress s t n ((s.pc n).leave .platen idx o.mark) := by
  refine completes_leave hq hr (List.getElem?_eq_some_iff.1 ho).1 ?_
  show s.completePl n idx = _
  unfold State.completePl
  simp only [ho]
  rfl

theorem roller_completes {o : RlOp} (ho : (s.pc n).rlRun[idx]? = some o) :
    ∃ t, exec (.operationComplete n .roller idx) s = .next t ∧ OnlyPress s t n ((s.pc n).leave .roller idx o.mark) := by
  refine completes_leave hq hr (List.getElem?_eq_some_iff.1 ho).1 ?_
  show s.completeRl n idx = _
  unfold State.completeRl
  simp only [ho]
  rfl

/-! ### Tensor moves (R307) -/

omit hr in
theorem tmOutstanding_quiet (c line : Nat) : s.tmOutstanding n c line = 0 := by
  rw [State.tmOutstanding, hq.requests]
  rfl

omit hr in
theorem moved {o : TmOp} (ho : (s.pc n).tmRun[idx]? = some o) : o.done = true :=
  ((away_iff _).1 (hq.press n).here).2.1 o (List.mem_of_getElem? ho)

omit hr in
/-- A move that has taken effect leaves once its remaining writes are made. -/
theorem completeTm_leaves {o : TmOp} (ho : (s.pc n).tmRun[idx]? = some o) {u : State} (hu : Quiet u)
    (hfinish : s.finishMove n (s.runCtx n) o = u) : s.completeTm n idx = u.modPc n (·.leave .tm idx o.mark) := by
  have hleaves : (o.done && u.tmOutstanding n (u.runCtx n) o.line == 0) = true := by
    rw [moved hq ho, tmOutstanding_quiet hu]
    rfl
  unfold State.completeTm
  simp only [ho, hfinish]
  exact if_pos hleaves

theorem move_completes {o : TmOp} (ho : (s.pc n).tmRun[idx]? = some o) (hleft : o.left = []) :
    ∃ t, exec (.operationComplete n .tm idx) s = .next t ∧ OnlyPress s t n ((s.pc n).leave .tm idx o.mark) :=
  completes_leave hq hr (List.getElem?_eq_some_iff.1 ho).1
    (completeTm_leaves hq ho hq (by rw [State.finishMove, hleft]; rfl))

end

theorem setTm_running {s : State} {n : Nat} (hr : Running s n) (line : Nat) (op : TmOp) : s.setTm n (s.runCtx n) line op =
    s.modPc n fun p => { p with tmRun := p.tmRun.map fun o => if o.line = line then op else o } :=
  modOf_running s n _ _ (run_eq hr.2)

/-- The operations of a list but one, of which an entry is replaced where its Line alone names it. -/
theorem eraseIdx_replaced {l : List TmOp} {o : TmOp} {idx : Nat} (op : TmOp)
    (hone : ∀ j q, l[j]? = some q → q.line = o.line → j = idx) :
    (l.map fun q => if q.line = o.line then op else q).eraseIdx idx = l.eraseIdx idx := by
  have hsame (j : Nat) (hj : j ≠ idx) : (l.map fun q => if q.line = o.line then op else q)[j]? = l[j]? := by
    rw [List.getElem?_map]
    cases hq : l[j]? with
    | none => rfl
    | some q => exact congrArg some (if_neg fun hl => hj (hone j q hq hl))
  refine List.ext_getElem? fun j => ?_
  rw [List.getElem?_eraseIdx, List.getElem?_eraseIdx]
  split
  · exact hsame j (by omega)
  · exact hsame (j + 1) (by omega)

section
variable {s : State} {n idx : Nat} {o : TmOp}

/-- A press's state with the remaining writes of a move made. -/
def PressCtx.moved (p : PressCtx) (o : TmOp) : PressCtx :=
  { p with tmRun := p.tmRun.map fun q => if q.line = o.line then { o with left := [], cut := none } else q }

theorem away_moved {p : PressCtx} (h : p.away = false) (hd : o.done = true) : (p.moved o).away = false := by
  obtain ⟨hstall, htm, hct⟩ := (away_iff p).1 h
  refine (away_iff _).2 ⟨hstall, fun q hq => ?_, hct⟩
  obtain ⟨q', hq', rfl⟩ := List.mem_map.1 hq
  split
  · exact hd
  · exact htm q' hq'

theorem leave_moved {p : PressCtx} (hone : ∀ j q, p.tmRun[j]? = some q → q.line = o.line → j = idx) (m : Option Nat) :
    (p.moved o).leave .tm idx m = p.leave .tm idx m :=
  congrArg (fun l => PressCtx.signal { p with tmRun := l } m) (eraseIdx_replaced _ hone)

/-- The last run of bytes of a move in the case is written. -/
theorem finishMove_case (hr : Running s n) {a : W64} {bs : List Byte} (hleft : o.left = [(a, bs)]) (hspace : (tdOf o.td).space = 1) :
    s.finishMove n (s.runCtx n) o = (s.modPc n (·.moved o)).putCase n a bs := by
  unfold State.finishMove
  rw [hleft]
  refine (congrArg (fun t : State => t.writeAll n (s.runCtx n) o [(a, bs)]) (setTm_running hr o.line _)).trans ?_
  exact if_pos hspace

theorem stopped_completes (hq : Quiet s) (hr : Running s n) (ho : (s.pc n).tmRun[idx]? = some o) {a : W64} {bs : List Byte}
    (hleft : o.left = [(a, bs)]) (hspace : (tdOf o.td).space = 1)
    (hone : ∀ j q, (s.pc n).tmRun[j]? = some q → q.line = o.line → j = idx) :
    ∃ t, exec (.operationComplete n .tm idx) s = .next t ∧
      OnlyPress { s with mem := t.mem } t n ((s.pc n).leave .tm idx o.mark) ∧
      t.mem = putCells s.mem (caseBase n + a.toNat) bs := by
  have hmoved : Quiet ((s.modPc n (·.moved o)).putCase n a bs) :=
    (hq.modPc n (·.moved o) ((away_moved (hq.press n).here (moved hq ho)).trans (hq.press n).here.symm) rfl rfl).same
      ⟨rfl, rfl, rfl, rfl, rfl, rfl, rfl⟩
  have hdo := completeTm_leaves hq ho hmoved (finishMove_case hr hleft hspace)
  refine ⟨_, completes hr (List.getElem?_eq_some_iff.1 ho).1 (quiet_leave hmoved .tm idx o.mark) hdo, ?_, rfl⟩
  have hboth := ((OnlyPress.refl { s with mem := putCells s.mem (caseBase n + a.toNat) bs } n).modPc (·.moved o)).modPc
    (·.leave .tm idx o.mark)
  exact leave_moved (p := s.pc n) hone o.mark ▸ hboth

/-! ### Kern and galley commands (R171, R195) -/

/-- The completion of a control operation that had not stopped. -/
theorem kern_completes (hq : Quiet s) (hr : Running s n) {c : KernCmd} (ho : (s.pc n).ctRun[idx]? = some (.kern c))
    (hrows : c.rows = []) : ∃ t, exec (.operationComplete n .control idx) s = .next t ∧
      OnlyPress { s with folios := t.folios } t n ((s.pc n).leave .control idx c.mark) ∧
      ∀ e ∈ s.folios, e.2.refs ≠ 0 ∨ e.2.frozen = true → e ∈ t.folios := by
  have hdo : s.completeCt n idx = (s.modPc n (·.leave .control idx c.mark)).sweepFolios := by
    have hfinish : s.finishControl n idx = s := by
      unfold State.finishControl
      simp [ho, hrows]
    unfold State.completeCt
    simp only [hfinish, ho]
    rfl
  have hquiet : Quiet (s.modPc n (·.leave .control idx c.mark)).sweepFolios :=
    (quiet_leave hq .control idx c.mark).same ⟨rfl, rfl, rfl, rfl, rfl, rfl, rfl⟩
  refine ⟨_, completes hr (List.getElem?_eq_some_iff.1 ho).1 hquiet hdo, onlyPress_setPc { s with folios := _ } n _, ?_⟩
  intro e he hkept
  refine List.mem_filter.2 ⟨he, ?_⟩
  rcases hkept with h | h <;> simp [h]

theorem runActs_none {t : State} {h : Nat} (ha : (t.gentry h).acts = []) : t.runActs h = t := by
  unfold State.runActs
  split
  · rfl
  · simp [ha]

/-- The streams of a completed command on which nothing is to be done. -/
theorem dropCommand_eq {t u : State} {c : GalleyCmd}
    (hdrop : c.holds.foldl (fun s h => if mhas s.galley h then s.dropEntry h else s) t = u)
    (ha : ∀ k ∈ c.streams, (u.gentry k).acts = []) : t.dropCommand c = u := by
  unfold State.dropCommand
  rw [hdrop]
  exact foldl_same _ _ _ fun k hk => runActs_none (ha k hk)

theorem completeCt_galley (hq : Quiet s) {c : GalleyCmd} (ho : (s.pc n).ctRun[idx]? = some (.galley c)) (hp : c.part = none) :
    s.completeCt n idx = (s.modPc n (·.leave .control idx c.mark)).dropCommand c := by
  have hfinish : s.finishControl n idx = s := by
    unfold State.finishControl
    simp [ho, hp]
  unfold State.completeCt
  simp only [hfinish, ho, hq.requests]
  rfl

/-- A refused OPEN holds nothing. -/
theorem refused_completes (hq : Quiet s) (hr : Running s n) {c : GalleyCmd} (ho : (s.pc n).ctRun[idx]? = some (.galley c))
    (hp : c.part = none) (hop : c.op = 1) (href : c.refused = true) :
    ∃ t, exec (.operationComplete n .control idx) s = .next t ∧ OnlyPress s t n ((s.pc n).leave .control idx c.mark) := by
  have hstreams : c.streams = [] := by simp [GalleyCmd.streams, hop, href]
  have hholds : c.holds = [] := by simp [GalleyCmd.holds, hop, hstreams]
  refine completes_leave hq hr (List.getElem?_eq_some_iff.1 ho).1 ((completeCt_galley hq ho hp).trans (dropCommand_eq ?_ ?_))
  · rw [hholds, List.foldl_nil]
  · rw [hstreams]
    nofun

/-- The entry that a completed galley command refers to. -/
theorem holds_eq {c : GalleyCmd} (h : c.op ≠ 1 ∨ c.refused = false) :
    c.holds = [if c.op = 1 then c.new else c.stream] := by
  unfold GalleyCmd.holds GalleyCmd.streams
  by_cases h1 : c.op = 1
  · simp [h1, h.resolve_left (not_not.2 h1)]
  · by_cases h3 : c.op = 3 <;> simp [h1, h3]

theorem galley_completes (hq : Quiet s) (hr : Running s n) {c : GalleyCmd} {h : Nat}
    (ho : (s.pc n).ctRun[idx]? = some (.galley c)) (hp : c.part = none) (ha : ∀ k ∈ c.streams, (s.gentry k).acts = [])
    (hh : c.holds = [h]) (hm : mhas s.galley h = true) (href : 1 < (s.gentry h).refs) :
    ∃ t, exec (.operationComplete n .control idx) s = .next t ∧
      OnlyPress { s with galley := t.galley } t n ((s.pc n).leave .control idx c.mark) ∧
      t.gentry h = { s.gentry h with refs := (s.gentry h).refs - 1 } ∧ ∀ k, k ≠ h → t.gentry k = s.gentry k := by
  have hentry (t : State) (e : GEntry) (k : Nat) : (t.setGentry h e).gentry k = if h = k then e else t.gentry k := by
    simp [State.setGentry, State.gentry, mget_mput]
  have hdrop : (s.modPc n (·.leave .control idx c.mark)).dropEntry h = (s.modPc n (·.leave .control idx c.mark)).setGentry h
      { s.gentry h with refs := (s.gentry h).refs - 1 } := by
    have hno : ¬((decide ((s.gentry h).refs ≤ 1) && !(s.gentry h).isOpen && !(s.gentry h).frozen) = true) := by
      simp [Nat.not_le.2 href]
    exact if_neg hno
  have hdo := (completeCt_galley hq ho hp).trans (dropCommand_eq (c := c)
    (u := (s.modPc n (·.leave .control idx c.mark)).setGentry h { s.gentry h with refs := (s.gentry h).refs - 1 }) ?_ ?_)
  · have hquiet : Quiet ((s.modPc n (·.leave .control idx c.mark)).setGentry h
        { s.gentry h with refs := (s.gentry h).refs - 1 }) :=
      (quiet_leave hq .control idx c.mark).same ⟨rfl, rfl, rfl, rfl, rfl, rfl, rfl⟩
    exact ⟨_, completes hr (List.getElem?_eq_some_iff.1 ho).1 hquiet hdo, onlyPress_setPc { s with galley := _ } n _,
      (hentry ..).trans (if_pos rfl), fun k hk => (hentry ..).trans (if_neg hk.symm)⟩
  · rw [hh, List.foldl_cons, List.foldl_nil]
    exact (if_pos hm).trans hdrop
  · intro k hk
    rw [hentry]
    split
    · next heq => exact heq ▸ ha k hk
    · exact ha k hk

end

/-- Settles O8: an operation that has no more to write leaves its engine, and nothing waits for that. -/
theorem operationsComplete : Obligations.OperationsComplete := by
  intro s n idx hq hr
  refine ⟨fun o ho => ⟨move_completes hq hr ho, fun a bs hleft hspace hone => ?_⟩, fun o ho => platen_completes hq hr ho,
    fun o ho => roller_completes hq hr ho, fun c hc hrows => kern_completes hq hr hc hrows, fun c hc hp ha => ?_⟩
  · obtain ⟨t, hx, ho', hmem⟩ := stopped_completes hq hr ho hleft hspace hone
    refine ⟨t, hx, ho', fun j hj => ?_, fun y hy => ?_⟩
    · rw [hmem, cell_putCells_inside _ _ _ _ hj]
      exact (List.getD_eq_getElem bs 0 hj).symm
    · rw [hmem, cell_putCells_outside _ _ _ _ hy]
  · exact ⟨refused_completes hq hr hc hp, fun h hm href => galley_completes hq hr hc hp ha (holds_eq h) hm href⟩

end Sys2Proof.Machine
end

/-! # The roller: comparisons and additions (R86, R143, R144, R146, R151) -/

section
open Sys2Proof Sys2Proof.Machine
namespace Sys2Proof.Machine

/-! ### The start of an operation (R86) -/

section
variable {s : State} {n : Nat} {op : RlOp} {rest : List RlOp}

/-- A press whose oldest roller operation has left the queue and runs. -/
def PressCtx.rolls (p : PressCtx) (op : RlOp) (rest : List RlOp) : PressCtx := { p with rlq := rest, rlRun := [op] }

/-- The conditions of the operands that an operation reads. -/
def State.rlNans (s : State) (n : Nat) (op : RlOp) : Flags :=
  flagIf ((List.range op.n).any (s.rlNan { press := n, ctx := s.runCtx n } op)) Fl.nanSeen

/-- The state in which the oldest roller operation takes effect. -/
def State.rolls (s : State) (n : Nat) (op : RlOp) (rest : List RlOp) : State := s.modPc n (·.rolls op rest)

theorem runCtx_rolls : (s.rolls n op rest).runCtx n = s.runCtx n :=
  congrArg (·.getD 0) ((OnlyPress.refl s n).modPc (·.rolls op rest)).run

/-- The bytes that an operation writes. -/
def State.rlSpans (s : State) (n : Nat) (op : RlOp) : List (Nat × Nat) :=
  op.dests.flatMap fun d => s.spansOf n (s.runCtx n) .wr d.space (d.ranges [])

/-- The oldest operation starts, and no byte that it writes is one of another operation's. -/
theorem rollerStart_eq (hq : (s.pc n).rlq = op :: rest) (hr : (s.pc n).rlRun = []) {t : State} {fl : Flags}
    (heffect : (s.rolls n op rest).rollerEffect n op = (t, fl))
    (hfree : overlaps ((s.rolls n op rest).rlSpans n op) (s.busySpans n (s.runCtx n)) = []) :
    s.rollerStart n = t.record n op.line (fl ||| (s.rolls n op rest).rlNans n op) := by
  have hcontend : t.contend (s.rolls n op rest) none ((s.rolls n op rest).rlSpans n op) (s.busySpans n (s.runCtx n)) = t := by
    rw [State.contend, hfree, List.foldl_nil]
  unfold State.rollerStart
  simp only [hq, hr, List.isEmpty_nil, Bool.not_true, Bool.false_eq_true, if_false]
  refine Eq.trans ?_ (congrArg (fun u : State => u.record n op.line (fl ||| (s.rolls n op rest).rlNans n op)) hcontend)
  exact congrArg (fun r : State × Flags => (r.1.contend (s.rolls n op rest) none ((s.rolls n op rest).rlSpans n op)
    (s.busySpans n (s.runCtx n))).record n op.line (r.2 ||| (s.rolls n op rest).rlNans n op)) heffect

theorem exec_roller (hrun : Running s n) : exec (.rollerStart n) s = .next (s.rollerStart n) := by
  show onPress n s (·.rollerStart n) = _
  rw [onPress, if_neg (Nat.not_le.2 hrun.1), if_neg hrun.2]

end

/-! ### Comparisons (R151) -/

/-- The predicate with a bit for each element at which a condition holds. -/
def marksOf {α : Type} (l : List (Nat × Bool × α)) (p : Pred) : Pred :=
  l.foldl (fun p r => if r.2.1 then p ||| (1#16384 <<< r.1) else p) p

theorem getLsbD_marksOf {α : Type} (l : List (Nat × Bool × α)) (p : Pred) {i : Nat} (hi : i < 16384) :
    (marksOf l p).getLsbD i = (p.getLsbD i || l.any fun r => r.2.1 && r.1 == i) := by
  induction l generalizing p with
  | nil => simp [marksOf]
  | cons r l ih =>
    refine (ih (if r.2.1 then p ||| (1#16384 <<< r.1) else p)).trans ?_
    have hbit : (if r.2.1 then p ||| (1#16384 <<< r.1) else p).getLsbD i = (p.getLsbD i || (r.2.1 && r.1 == i)) := by
      by_cases hr : r.2.1 = true
      · have hshift : (1#16384 <<< r.1).getLsbD i = (r.1 == i) := by
          rw [← BitVec.twoPow_eq, BitVec.getLsbD_twoPow]
          by_cases h : r.1 = i
          · simp [h, hi]
          · simp [h]
        rw [if_pos hr, BitVec.getLsbD_or, hshift, hr, Bool.true_and]
      · rw [if_neg hr, eq_false_of_ne_true hr, Bool.false_and, Bool.or_false]
    rw [hbit, List.any_cons, Bool.or_assoc]

section
variable {s : State} {n : Nat} {op : RlOp} {rest : List RlOp}

theorem mem_actives (i : Nat) : i ∈ op.actives ↔ op.active i = true := by
  simp [RlOp.actives, RlOp.active]

/-- Whether a comparison holds of element `i`. -/
def State.compares (s : State) (e : Env) (op : RlOp) (i : Nat) : Bool :=
  condNum (op.fn % 8) (s.rlElem e op.compute (tdOf op.ta) i).1 (s.rlSecond e op op.compute i).1

/-- A comparison changes its predicate alone. -/
theorem runComparison_eq (s : State) (n : Nat) (op : RlOp) : ∃ p fl, s.runComparison n op = (s.modPc n (·.setP op.pd p), fl) ∧
    ∀ i < 16384, p.getLsbD i = (op.active i && s.compares { press := n, ctx := s.runCtx n } op i) := by
  refine ⟨_, _, rfl, fun i hi => ?_⟩
  refine (getLsbD_marksOf _ 0 hi).trans ?_
  have hzero : (0 : Pred).getLsbD i = false := BitVec.getLsbD_zero
  rw [List.any_map, hzero, Bool.false_or, Bool.eq_iff_iff, List.any_eq_true, Bool.and_eq_true]
  constructor
  · rintro ⟨j, hj, hij⟩
    obtain ⟨hc, hji⟩ := Bool.and_eq_true_iff.1 hij
    obtain rfl : j = i := eq_of_beq hji
    exact ⟨(mem_actives j).1 hj, hc⟩
  · rintro ⟨hact, hc⟩
    exact ⟨i, (mem_actives i).2 hact, Bool.and_eq_true_iff.2 ⟨hc, beq_self_eq_true i⟩⟩

/-- What an operation reads does not change as it leaves its queue. -/
theorem compares_rolls (e : Env) (he : e.prov = false) (i : Nat) : (s.rolls n op rest).compares e op i = s.compares e op i := by
  obtain ⟨a, b, c, d⟩ := e
  subst he
  rfl

/-- Conditions recorded leave the queue, the running operations and the predicates of a press. -/
theorem pc_record (t : State) (n line : Nat) (fl : Flags) : ((t.record n line fl).pc n).rlq = (t.pc n).rlq ∧
    ((t.record n line fl).pc n).rlRun = (t.pc n).rlRun ∧ ((t.record n line fl).pc n).p = (t.pc n).p := by
  rw [State.pc, press_record, if_pos rfl]
  split <;> exact ⟨rfl, rfl, rfl⟩

theorem setP_keeps (p : PressCtx) (i : Nat) (v : Pred) : (p.setP i v).rlq = p.rlq ∧ (p.setP i v).rlRun = p.rlRun := by
  unfold PressCtx.setP
  split <;> exact ⟨rfl, rfl⟩

theorem setP_rolls (p : PressCtx) (i : Nat) (v : Pred) : ((p.rolls op rest).setP i v).p = (p.setP i v).p := by
  unfold PressCtx.setP
  split <;> rfl

theorem comparison_runs (hrun : Running s n) (hq : (s.pc n).rlq = op :: rest) (hr : (s.pc n).rlRun = []) (hcls : op.cls = 4) :
    ∃ t p, exec (.rollerStart n) s = .next t ∧ (t.pc n).rlq = rest ∧ (t.pc n).rlRun = [op] ∧
      t.mem = s.mem ∧ (t.pc n).p = ((s.pc n).setP op.pd p).p ∧
      ∀ i < 16384, p.getLsbD i = (op.active i && s.compares { press := n, ctx := s.runCtx n } op i) := by
  obtain ⟨p, fl, hdo, hp⟩ := runComparison_eq (s.rolls n op rest) n op
  have heffect : (s.rolls n op rest).rollerEffect n op = ((s.rolls n op rest).modPc n (·.setP op.pd p), fl) := by
    rw [← hdo]
    unfold State.rollerEffect
    simp only [hcls]
  have hfree : overlaps ((s.rolls n op rest).rlSpans n op) (s.busySpans n (s.runCtx n)) = [] := by
    have hdests : op.dests = [] := if_pos hcls
    rw [State.rlSpans, hdests]
    rfl
  have hstart := rollerStart_eq hq hr heffect hfree
  have hpc : ((s.rolls n op rest).modPc n (·.setP op.pd p)).pc n = ((s.pc n).rolls op rest).setP op.pd p :=
    (pc_modPc ..).trans (congrArg (·.setP op.pd p) (pc_modPc s n _))
  obtain ⟨hrlq, hrlRun, hpred⟩ := pc_record ((s.rolls n op rest).modPc n (·.setP op.pd p)) n op.line
    (fl ||| (s.rolls n op rest).rlNans n op)
  rw [hpc] at hrlq hrlRun hpred
  obtain ⟨hkq, hkr⟩ := setP_keeps ((s.pc n).rolls op rest) op.pd p
  refine ⟨_, p, (exec_roller hrun).trans (congrArg _ hstart), hrlq.trans hkq, hrlRun.trans hkr, mem_record .., 
    hpred.trans (setP_rolls ..), fun i hi => (hp i hi).trans ?_⟩
  rw [runCtx_rolls]
  exact congrArg (op.active i && ·) (compares_rolls _ rfl i)

end

end Sys2Proof.Machine
end

/-! ## Additions of INT32 rows in the case (R146) -/

section
open Sys2Proof Sys2Proof.Machine
namespace Sys2Proof.Machine

/-! ### A row of words in the case -/

/-- A row of INT32 elements in the case, whose addresses do not wrap. -/
structure WordRow (t : TD) : Prop where
  row : CaseRow t
  fmt : t.fmt = Fmt.int32
  fits : t.base.toNat + rowLen t ≤ 2 ^ 32

section
variable {t : TD} (h : WordRow t)
include h

theorem WordRow.len : rowLen t = 4 * t.e0 := by
  rw [rowLen, h.fmt]
  show t.e0 * 4 = 4 * t.e0
  omega

theorem WordRow.coord {i : Nat} (hi : i < t.e0) : t.coord i = ⟨i, 0, 0, 0⟩ := by
  obtain ⟨h1, h2, -⟩ := h.row.row
  simp [TD.coord, h1, h2, Nat.mod_eq_of_lt hi, Nat.div_eq_of_lt hi]

/-- The address of element `i`. -/
theorem WordRow.place (i : Nat) : t.place [] ⟨i, 0, 0, 0⟩ = (t.base + wn (4 * i), 0) := by
  have hw : fmtWidth Fmt.int32 = 32 := rfl
  have hdiv : i * 32 / 8 = 4 * i := by omega
  have hmod : i * 32 % 8 = 0 := by omega
  simp [TD.place, TD.rowAddr, TD.baseAt, h.row.noList, h.fmt, hw, hdiv, hmod, w64]

theorem WordRow.addr {i : Nat} (hi : i < t.e0) : (t.base + wn (4 * i)).toNat = t.base.toNat + 4 * i := by
  have hfits := h.fits
  rw [h.len] at hfits
  rw [wn, BitVec.toNat_add, BitVec.toNat_ofNat]
  omega

/-- The word of element `i`, as it stands in memory. -/
def TD.word (t : TD) (m : List Host.Cell) (n i : Nat) : Nat := ofBytes (cells m (caseBase n + t.base.toNat + 4 * i) 4)

omit h in
theorem TD.word_lt (t : TD) (m : List Host.Cell) (n i : Nat) : t.word m n i < 2 ^ 32 := by
  have hlt := ofBytes_lt (cells m (caseBase n + t.base.toNat + 4 * i) 4)
  rwa [length_cells] at hlt

theorem WordRow.bits (s : State) (e : Env) {i : Nat} (hi : i < t.e0) :
    s.elemBits e t [] (t.coord i) = t.word s.mem e.press i := by
  have hfits := h.fits
  rw [h.len] at hfits
  have hbytes : s.spaceBytes e 1 (t.base + wn (4 * i)) 4 = cells s.mem (caseBase e.press + t.base.toNat + 4 * i) 4 := by
    simp only [State.spaceBytes, cells, span, List.map_map]
    refine List.map_congr_left fun j hj => ?_
    have hj := List.mem_range.1 hj
    have haddr : (t.base + wn (4 * i) + wn j).toNat = t.base.toNat + 4 * i + j := by
      rw [BitVec.toNat_add, h.addr hi, wn, BitVec.toNat_ofNat]
      omega
    show cell s.mem (caseBase e.press + (t.base + wn (4 * i) + wn j).toNat) = _
    rw [haddr, ← Nat.add_assoc, ← Nat.add_assoc]
    rfl
  have hw : fmtWidth Fmt.int32 = 32 := rfl
  unfold State.elemBits
  rw [h.coord hi, h.place i, h.fmt, hw]
  simp only [h.row.space]
  show (ofBytes (s.spaceBytes e 1 (t.base + wn (4 * i)) 4) >>> 0) % 2 ^ 32 = _
  rw [hbytes, Nat.shiftRight_zero]
  exact Nat.mod_eq_of_lt (t.word_lt s.mem e.press i)

/-- The value of element `i`. -/
theorem WordRow.num (s : State) (e : Env) {i : Nat} (hi : i < t.e0) :
    s.elemNum e t [] (t.coord i) = ofInt (sext 32 (t.word s.mem e.press i)) := by
  rw [State.elemNum, h.bits s e hi, h.fmt, h.row.plain]
  rfl

/-- The bytes of the row. -/
theorem WordRow.ranges : t.ranges [] = if t.e0 = 0 then [] else [(t.base, rowLen t)] := by
  obtain ⟨h1, h2, h3⟩ := h.row.row
  have hcount : t.count = t.e0 := by simp [TD.count, h1, h2, h3]
  have hext (k : Nat) : t.pext k = t.ext k := by simp [TD.pext, h.row.plain]
  have hbytes : rowBytes t.fmt t.e0 = rowLen t := by
    rw [h.len, h.fmt]
    show (t.e0 * 32 + 8 - 1) / 8 = 4 * t.e0
    omega
  have hrows : t.rows = if t.e0 = 0 then [] else [⟨0, 0, 0, 0⟩] := by
    simp [TD.rows, hcount, hext, TD.ext, nth, h1, h2, h3]
  rw [TD.ranges, hrows, h.row.plain]
  by_cases h0 : t.e0 = 0
  · simp [h0]
  · simp [h0, TD.rowAddr, TD.baseAt, h.row.noList, hext, TD.ext, nth, w64, hbytes]

/-- Element `i` lies apart from a row of words apart from its own. -/
theorem WordRow.meets {d : TD} (hd : WordRow d) (hapart : d.base.toNat + rowLen d ≤ t.base.toNat ∨
    t.base.toNat + rowLen t ≤ d.base.toNat) {i : Nat} (hi : i < d.e0) : t.meets (d.base + wn (4 * i)).toNat 4 = false := by
  have hlen := hd.len
  rw [TD.meets, h.ranges, hd.addr hi]
  split
  · rfl
  · simp only [List.any_cons, List.any_nil, Bool.or_false, Bool.and_eq_false_iff, decide_eq_false_iff_not]
    omega

/-- An element written. -/
theorem WordRow.putElem (s : State) (n : Nat) {i : Nat} (hi : i < t.e0) (pat : Nat) : ∃ w, w % 2 ^ 32 = pat % 2 ^ 32 ∧
    s.putElem n t (t.coord i) pat = { s with mem := putCells s.mem (caseBase n + t.base.toNat + 4 * i) (toBytes 4 w) } := by
  have hw : fmtWidth Fmt.int32 = 32 := rfl
  have hrow : t.rowAddr [] ⟨i, 0, 0, 0⟩ = t.base := by simp [TD.rowAddr, TD.baseAt, h.row.noList, w64]
  unfold State.putElem
  rw [h.coord hi, hrow, h.fmt, hw]
  refine ⟨_, ?_, congrArg (fun a => ({ s with mem := putCells s.mem a (toBytes 4 _) } : State)) ?_⟩
  · simp [storedPat, Fmt.int32, Fmt.e8m10, Nat.mod_one, Nat.shiftLeft_eq]
  · simp only [Nat.reduceEqDiff, if_false, Nat.one_mul, Nat.reduceDiv, Nat.div_one]
    rw [Nat.mul_comm i 4, h.addr hi, Nat.add_assoc]

omit h in
/-- The words of a row after one of them is written. -/
theorem TD.word_putCells (t : TD) (m : List Host.Cell) (n i j w : Nat) :
    t.word (putCells m (caseBase n + t.base.toNat + 4 * j) (toBytes 4 w)) n i = if i = j then w % 2 ^ 32 else t.word m n i := by
  unfold TD.word
  split
  · next hij =>
    have hc := cells_putCells m (caseBase n + t.base.toNat + 4 * j) (toBytes 4 w)
    rw [length_toBytes] at hc
    rw [hij, hc, ofBytes_toBytes]
  · refine congrArg ofBytes (cells_congr fun k hk => cell_putCells_outside _ _ _ _ ?_)
    rw [length_toBytes]
    omega

/-- Elements written, each with the value of its place. -/
theorem WordRow.putElems (n : Nat) (g : Nat → Nat) (js : List Nat) (hjs : ∀ j ∈ js, j < t.e0) (s : State) :
    ∃ m, js.foldl (fun s j => s.putElem n t (t.coord j) (g j)) s = { s with mem := m } ∧
      (∀ x, x < caseBase n + t.base.toNat ∨ caseBase n + t.base.toNat + rowLen t ≤ x → cell m x = cell s.mem x) ∧
      ∀ i, t.word m n i = if i ∈ js then g i % 2 ^ 32 else t.word s.mem n i := by
  induction js generalizing s with
  | nil => exact ⟨s.mem, rfl, fun _ _ => rfl, fun _ => rfl⟩
  | cons j js ih =>
    obtain ⟨hj, hjs⟩ := List.forall_mem_cons.1 hjs
    obtain ⟨w, hw, hput⟩ := h.putElem s n hj (g j)
    obtain ⟨m, hm, hout, hin⟩ := ih hjs { s with mem := putCells s.mem (caseBase n + t.base.toNat + 4 * j) (toBytes 4 w) }
    refine ⟨m, by rw [List.foldl_cons, hput]; exact hm, fun x hx => (hout x hx).trans ?_, fun i => (hin i).trans ?_⟩
    · have hlen := h.len
      refine cell_putCells_outside _ _ _ _ ?_
      rw [length_toBytes]
      omega
    · have hword := t.word_putCells s.mem n i j w
      by_cases hi : i ∈ js
      · simp [hi]
      · by_cases hij : i = j
        · rw [if_neg hi, if_pos (hij ▸ List.mem_cons_self), hword, if_pos hij, hw, hij]
        · simpa [hi, hij] using hword

end

/-! ### The vector written -/

section
variable {d : TD} {op : RlOp} {nc : BitVec 4}

/-- A value that spells an integer, converted to INT32. -/
theorem toFmt_int32 {v : Num} {i : Int} (h : v.Spells i) (r : Nat) :
    (toFmt Fmt.int32 nc r v).1 = (fitInt Fmt.int32 (intSat nc) i).1 := by
  obtain ⟨neg, m, rfl, rfl⟩ := h
  have hround : roundInt (rndOf nc) neg m 0 = if neg then -(m : Int) else (m : Int) := by
    simp [roundInt, toGrid]
  show (fitInt Fmt.int32 (intSat nc) (roundInt (rndOf nc) neg m 0)).1 = _
  rw [hround]

theorem drawsFor_int32 (nc : BitVec 4) : drawsFor Fmt.int32 nc = false := by
  simp [drawsFor, srFormat, Fmt.int32]

/-- Whether no descriptor of an operation's sources, or other destination, lies over elements of its destination. -/
def Clear (op : RlOp) (d : TD) : Prop := ∀ i < d.e0, ∀ t ∈ op.clashes d [], t.meets (d.base + wn (4 * i)).toNat 4 = false

theorem putVector_clear (h : WordRow d) (hc : Clear op d) (n : Nat) (g : Nat → Nat) (js : List Nat) (hjs : ∀ j ∈ js, j < d.e0)
    (s : State) : s.putVector n op d [] (js.map fun j => (j, g j)) = js.foldl (fun s j => s.putElem n d (d.coord j) (g j)) s := by
  have hlen : ceilDiv (0 + fmtWidth Fmt.int32) 8 = 4 := rfl
  unfold State.putVector
  simp only [List.foldl_map]
  refine List.foldl_ext _ _ _ fun s j hj => ?_
  have hclear : (op.clashes d []).any (fun t => t.meets (d.base + wn (4 * j)).toNat 4) = false :=
    List.any_eq_false.2 fun t ht => by rw [hc j (hjs j hj) t ht]; exact Bool.false_ne_true
  simp only [h.coord (hjs j hj), h.place, h.fmt, hlen, hclear, Bool.false_eq_true, if_false]

/-- Values by their numbers in a list. -/
theorem map_nth_range {α β : Type} (d : α) (l : List α) (f : α → β) : (List.range l.length).map (fun k => f (nth d l k)) = l.map f := by
  refine List.ext_getElem (by simp) fun k hk _ => ?_
  simp only [List.length_map, List.length_range] at hk
  simp [nth, hk]

theorem writeVector_words (h : WordRow d) (s : State) (n : Nat) (v : Nat → Num) (js : List Nat) :
    (s.writeVector n op d [] (js.map fun j => (j, v j))).1 =
      s.putVector n op d [] (js.map fun j => (j, (toFmt Fmt.int32 op.nc 0 (v j)).1)) := by
  have hps := map_nth_range (0, Num.nan) (js.map fun j => (j, v j)) fun e : Nat × Num => (e.1, (toFmt Fmt.int32 op.nc 0 e.2).1)
  rw [List.map_map] at hps
  refine Eq.trans ?_ (congrArg (s.putVector n op d []) hps)
  unfold State.writeVector
  simp only [h.fmt, drawsFor_int32, Bool.false_eq_true, if_false, State.srFor, if_true, List.map_map]
  rfl

end

end Sys2Proof.Machine
end

section
open Sys2Proof Sys2Proof.Machine
namespace Sys2Proof.Machine

/-! ### The sums (R144, R146) -/

/-- Two rows lie apart. -/
def RowsApart (x y : TD) : Prop := x.base.toNat + rowLen x ≤ y.base.toNat ∨ y.base.toNat + rowLen y ≤ x.base.toNat

/-- An addition of INT32 rows in the case that do not overlap its destination. -/
structure AddsRows (op : RlOp) (d a b : TD) : Prop where
  isD : tdOf op.td = d
  isA : tdOf op.ta = a
  isB : tdOf op.tb = b
  cls : op.cls = 1
  fn : op.fn = 0
  paired : op.bc = false
  dst : WordRow d
  left : WordRow a
  right : WordRow b
  fits : op.n ≤ d.e0
  fitsA : op.n ≤ a.e0
  fitsB : op.n ≤ b.e0
  apartA : RowsApart d a
  apartB : RowsApart d b

section
variable {s : State} {n : Nat} {op : RlOp} {d a b : TD} (h : AddsRows op d a b)
include h

theorem AddsRows.sources : op.sources = [a, b] := by
  unfold RlOp.sources
  simp only [h.cls, h.fn, h.isA, h.isB]
  rfl

theorem AddsRows.compute : op.compute = .int := by
  have hfloat (t : TD) (ht : WordRow t) : floatLike t = false := by
    rw [floatLike, ht.fmt, ht.row.plain]
    rfl
  have h64 (t : TD) (ht : WordRow t) : (t.fmt == Fmt.fp64) = false := by
    rw [ht.fmt]
    rfl
  unfold RlOp.compute
  simp [h.cls, h.sources, hfloat a h.left, hfloat b h.right, h64 a h.left, h64 b h.right]

theorem AddsRows.clear : Clear op d := by
  intro i hi t ht
  have hin : t ∈ op.sources := by
    simp only [RlOp.clashes, List.append_nil] at ht
    exact List.mem_of_mem_filter ht
  rw [h.sources, List.mem_cons, List.mem_singleton] at hin
  rcases hin with rfl | rfl
  · exact h.left.meets h.dst h.apartA hi
  · exact h.right.meets h.dst h.apartB hi

/-- The exact sum of the elements at an index, as integers. -/
def State.rlSum (s : State) (e : Env) (a b : TD) (i : Nat) : Num :=
  (Compute.int.round ((s.rlElem e .int a i).1.add (s.rlElem e .int b i).1)).1

theorem runElementWise_add (s : State) (n : Nat) : (s.runElementWise n op).1 = s.putVector n op d []
    (op.actives.map fun i => (i, (toFmt Fmt.int32 op.nc 0 (s.rlSum { press := n, ctx := s.runCtx n } a b i)).1)) := by
  have hsecond (i : Nat) : s.rlSecond { press := n, ctx := s.runCtx n } op .int i =
      s.rlElem { press := n, ctx := s.runCtx n } .int b i := by
    unfold State.rlSecond
    simp only [h.cls, h.fn, h.paired, h.isB]
    rfl
  have hcode : ewCode op.fn = 0 := by rw [h.fn]; rfl
  refine Eq.trans ?_ (writeVector_words h.dst s n _ op.actives)
  unfold State.runElementWise
  have hones : ((0 : Nat) == 4) = false := rfl
  simp only [h.compute, hcode, hsecond, h.isD, h.isA, h.dst.fmt, hones, Bool.false_and, List.filter_map, Function.comp_def,
    Bool.not_false, List.filter_true, List.filter_false, List.map_nil, State.spendDraws, drawsFor_int32, List.map_map,
    Bool.false_eq_true, if_false]
  rfl

omit h in
theorem spells_round {r : Num × Flags} {i : Int} (hr : r.1.Spells i) : (Compute.int.round r).1.Spells i := by
  have hi := hr.numInt
  obtain ⟨v, fl⟩ := r
  obtain ⟨neg, m, rfl, -⟩ := hr
  exact hi ▸ spells_ofInt _

/-- The value of an active element: the sum of the words as signed numbers. -/
theorem AddsRows.sum (s : State) (e : Env) {i : Nat} (hi : op.active i = true) :
    (s.rlSum e a b i).Spells (sext 32 (a.word s.mem e.press i) + sext 32 (b.word s.mem e.press i)) := by
  have hin : i < op.n := by
    simp only [RlOp.active, Bool.and_eq_true, decide_eq_true_eq] at hi
    exact hi.1
  have hA : (s.rlElem e .int a i).1 = ofInt (sext 32 (a.word s.mem e.press i)) :=
    h.left.num s e (Nat.lt_of_lt_of_le hin h.fitsA)
  have hB : (s.rlElem e .int b i).1 = ofInt (sext 32 (b.word s.mem e.press i)) :=
    h.right.num s e (Nat.lt_of_lt_of_le hin h.fitsB)
  rw [State.rlSum, hA, hB]
  exact spells_round ((spells_ofInt _).add (spells_ofInt _))

/-- The word that an addition gives an element. -/
def RlOp.sumWord (op : RlOp) (m : List Host.Cell) (n : Nat) (a b : TD) (i : Nat) : Nat :=
  (fitInt Fmt.int32 (intSat op.nc) (sext 32 (a.word m n i) + sext 32 (b.word m n i))).1

/-- The effect of an addition: each active element of its row, and no other byte. -/
theorem AddsRows.effect (s : State) (n : Nat) : ∃ m, (s.runElementWise n op).1 = { s with mem := m } ∧
    (∀ x, x < caseBase n + d.base.toNat ∨ caseBase n + d.base.toNat + rowLen d ≤ x → cell m x = cell s.mem x) ∧
    ∀ i, d.word m n i = if op.active i then op.sumWord s.mem n a b i else d.word s.mem n i := by
  have hin : ∀ j ∈ op.actives, j < d.e0 := fun j hj => by
    have hact := (mem_actives j).1 hj
    simp only [RlOp.active, Bool.and_eq_true, decide_eq_true_eq] at hact
    exact Nat.lt_of_lt_of_le hact.1 h.fits
  obtain ⟨m, hm, hout, hwords⟩ := h.dst.putElems n
    (fun i => (toFmt Fmt.int32 op.nc 0 (s.rlSum { press := n, ctx := s.runCtx n } a b i)).1) op.actives hin s
  refine ⟨m, ((runElementWise_add h s n).trans (putVector_clear h.dst h.clear n _ op.actives hin s)).trans hm, hout, fun i => ?_⟩
  by_cases hact : op.active i = true
  · rw [hwords i, if_pos ((mem_actives i).2 hact), if_pos hact, toFmt_int32 (h.sum s _ hact) 0]
    exact Nat.mod_eq_of_lt (fitInt_int32_lt _ _)
  · rw [hwords i, if_neg (mt (mem_actives i).1 hact), if_neg hact]

/-- The bytes that an addition writes are those of its row. -/
theorem AddsRows.spans (s : State) (n : Nat) {busy : List (Nat × Nat)}
    (hfree : overlaps [(caseBase n + d.base.toNat, rowLen d)] busy = []) : overlaps (s.rlSpans n op) busy = [] := by
  have hdests : op.dests = [d] := by
    unfold RlOp.dests
    simp [h.cls, isArg, h.isD]
  rw [State.rlSpans, hdests, List.flatMap_singleton, State.spansOf, if_pos h.dst.row.space, h.dst.ranges]
  split
  · rfl
  · exact hfree

theorem addition_runs {rest : List RlOp} (hrun : Running s n) (hq : (s.pc n).rlq = op :: rest) (hr : (s.pc n).rlRun = [])
    (hfree : overlaps [(caseBase n + d.base.toNat, rowLen d)] (s.busySpans n (s.runCtx n)) = []) :
    ∃ t, exec (.rollerStart n) s = .next t ∧ (t.pc n).rlq = rest ∧ (t.pc n).rlRun = [op] ∧
      (∀ m, m ≠ n → t.press m = s.press m) ∧
      (∀ x, x < caseBase n + d.base.toNat ∨ caseBase n + d.base.toNat + rowLen d ≤ x → cell t.mem x = cell s.mem x) ∧
      ∀ i, d.word t.mem n i = if op.active i then op.sumWord s.mem n a b i else d.word s.mem n i := by
  obtain ⟨m, hm, hout, hwords⟩ := h.effect (s.rolls n op rest) n
  have heffect : (s.rolls n op rest).rollerEffect n op =
      ({ s.rolls n op rest with mem := m }, ((s.rolls n op rest).runElementWise n op).2) := by
    rw [← hm]
    unfold State.rollerEffect
    simp only [h.cls]
  have hstart := rollerStart_eq hq hr heffect (h.spans _ n hfree)
  obtain ⟨hrlq, hrlRun, -⟩ := pc_record { s.rolls n op rest with mem := m } n op.line
    (((s.rolls n op rest).runElementWise n op).2 ||| (s.rolls n op rest).rlNans n op)
  have hpc : (s.rolls n op rest).pc n = (s.pc n).rolls op rest := pc_modPc s n _
  refine ⟨_, (exec_roller hrun).trans (congrArg _ hstart), hrlq.trans (congrArg PressCtx.rlq hpc),
    hrlRun.trans (congrArg PressCtx.rlRun hpc), fun k hk => ?_, fun x hx => ?_, fun i => ?_⟩
  · rw [press_record, if_neg hk.symm]
    exact press_modPc_ne s (·.rolls op rest) hk
  · rw [mem_record]
    exact hout x hx
  · rw [mem_record]
    exact hwords i

end

/-- Settles O7: an operation reads its operands before it writes; nothing that another one writes lies in its row. -/
theorem rollerRuns : Obligations.RollerRuns := by
  intro s n op rest hrun hq hr
  refine ⟨comparison_runs hrun hq hr, fun hcls hfn hbc hd ha hb hfa hfb hfd hn hna hnb hda hdb hwd hwa hwb hfree => ?_⟩
  have h : AddsRows op (tdOf op.td) (tdOf op.ta) (tdOf op.tb) := {
    isD := rfl, isA := rfl, isB := rfl, cls := hcls, fn := hfn, paired := hbc
    dst := ⟨hd, hfd, hwd⟩, left := ⟨ha, hfa, hwa⟩, right := ⟨hb, hfb, hwb⟩
    fits := hn, fitsA := hna, fitsB := hnb, apartA := hda, apartB := hdb }
  obtain ⟨t, hx, hrlq, hrlRun, hothers, hout, hwords⟩ := addition_runs h hrun hq hr hfree
  exact ⟨t, hx, hrlq, hrlRun, hothers, hout, fun i _ => hwords i⟩

end Sys2Proof.Machine
end

/-! # Contexts (R98, R299, R300, R314, R315) -/

section
open Sys2Proof Sys2Proof.Machine
namespace Sys2Proof.Machine

/-! ### A teardown opens and closes no session

A session may only be sent messages. -/

/-- Every session stands as it did. -/
def SessionsStay (s t : State) : Prop := ∀ n, (t.session n).st = (s.session n).st

section
variable {s₀ s t : State}

theorem SessionsStay.refl (s : State) : SessionsStay s s := fun _ => rfl

/-- An update of other fields. -/
theorem SessionsStay.same (h : SessionsStay s₀ s) (hs : t.sessions = s.sessions) : SessionsStay s₀ t := fun n =>
  (congrArg (fun m => (mget ({} : Session) m n).st) hs).trans (h n)

theorem SessionsStay.send {n m} (h : SessionsStay s₀ s) : SessionsStay s₀ (s.send n m) := by
  have hset (q : List Msg) : SessionsStay s₀ (s.setSession n { s.session n with queue := q }) := fun k => by
    rw [State.session_setSession]
    split
    · next hk => exact hk ▸ h n
    · exact h k
  unfold State.send
  dsimp only
  split
  · exact hset _
  · exact h

theorem SessionsStay.ite {c : Prop} [Decidable c] (h : SessionsStay s₀ s) (k : SessionsStay s₀ t) : SessionsStay s₀ (if c then s else t) := by
  split
  · exact h
  · exact k

theorem SessionsStay.foldl {α : Type} {f : State → α → State} {l : List α} (hf : ∀ s x, SessionsStay s₀ s → SessionsStay s₀ (f s x))
    (h : SessionsStay s₀ s) : SessionsStay s₀ (l.foldl f s) := by
  induction l generalizing s with
  | nil => exact h
  | cons x l ih => exact ih (hf s x h)

theorem SessionsStay.foldl_fst {α β : Type} {f : State × β → α → State × β} {l : List α} {a : State × β}
    (hf : ∀ a x, SessionsStay s₀ a.1 → SessionsStay s₀ (f a x).1) (h : SessionsStay s₀ a.1) : SessionsStay s₀ (l.foldl f a).1 := by
  induction l generalizing a with
  | nil => exact h
  | cons x l ih => exact ih (hf a x h)

theorem SessionsStay.setPress {n p} (h : SessionsStay s₀ s) : SessionsStay s₀ (s.setPress n p) := .same h rfl

theorem SessionsStay.setChase {n c} (h : SessionsStay s₀ s) : SessionsStay s₀ (s.setChase n c) := .same h rfl

theorem SessionsStay.setCtx {n c} (h : SessionsStay s₀ s) : SessionsStay s₀ (s.setCtx n c) := .same h rfl

theorem SessionsStay.setFld {b i o lo w v} (h : SessionsStay s₀ s) : SessionsStay s₀ (s.setFld b i o lo w v) := .same h rfl

theorem SessionsStay.bump {b i o lo w k} (h : SessionsStay s₀ s) : SessionsStay s₀ (s.bump b i o lo w k) := .setFld h

theorem SessionsStay.freshWord (h : SessionsStay s₀ s) : SessionsStay s₀ s.freshWord.2 := .same h rfl

theorem SessionsStay.poolGive {p i n} (h : SessionsStay s₀ s) : SessionsStay s₀ (s.poolGive p i n) := .same h rfl

theorem SessionsStay.setFolio {f x} (h : SessionsStay s₀ s) : SessionsStay s₀ (s.setFolio f x) := .same h rfl

theorem SessionsStay.freeFolio {f} (h : SessionsStay s₀ s) : SessionsStay s₀ (s.freeFolio f) :=
  .ite (.setFolio h) (.ite (.poolGive (.setFolio h)) (.poolGive (.same h rfl)))

theorem SessionsStay.sweepFolios (h : SessionsStay s₀ s) : SessionsStay s₀ s.sweepFolios := .same h rfl

theorem SessionsStay.dropRef {fuel f} (h : SessionsStay s₀ s) : SessionsStay s₀ (dropRef fuel s f).1 := by
  induction fuel generalizing s f with
  | zero => exact h
  | succ fuel ih =>
    unfold Machine.dropRef
    dsimp only
    split
    · exact .setFolio h
    · exact .freeFolio (.foldl_fst (fun _ _ h' => ih h') h)

theorem SessionsStay.dropFolio {f} (h : SessionsStay s₀ s) : SessionsStay s₀ (s.dropFolio f).1 := .dropRef h

theorem SessionsStay.setKstream {hd k} (h : SessionsStay s₀ s) : SessionsStay s₀ (s.setKstream hd k) := .same h rfl

theorem SessionsStay.releaseStream {hd} (h : SessionsStay s₀ s) : SessionsStay s₀ (s.releaseStream hd).1 :=
  .same (.dropFolio h) rfl

theorem SessionsStay.setGentry {hd e} (h : SessionsStay s₀ s) : SessionsStay s₀ (s.setGentry hd e) := .same h rfl

theorem SessionsStay.setGset {k x} (h : SessionsStay s₀ s) : SessionsStay s₀ (s.setGset k x) := .same h rfl

theorem SessionsStay.freeSet {k} (h : SessionsStay s₀ s) : SessionsStay s₀ (s.freeSet k) :=
  .ite (.setGset h) (.poolGive (.same h rfl))

theorem SessionsStay.dropSet {k} (h : SessionsStay s₀ s) : SessionsStay s₀ (s.dropSet k).1 := by
  unfold State.dropSet
  dsimp only
  split
  · exact .setGset h
  · split
    · exact .setGset h
    · exact .setGset h

theorem SessionsStay.swapSets {hd} (h : SessionsStay s₀ s) : SessionsStay s₀ (s.swapSets hd) := by
  unfold State.swapSets
  dsimp only
  split
  · exact .setGentry (.dropSet (.setGset h))
  · exact h

theorem SessionsStay.giveSet {a k} (h : SessionsStay s₀ a.1) : SessionsStay s₀ (giveSet a k).1 := by
  cases k with
  | none => exact h
  | some k => exact .freeSet h

theorem SessionsStay.dropCurrent {e a} (h : SessionsStay s₀ a.1) : SessionsStay s₀ (dropCurrent e a).1 := by
  unfold Machine.dropCurrent
  split
  · exact .giveSet (.dropSet h)
  · exact h

theorem SessionsStay.giveSlot {e} (h : SessionsStay s₀ s) : SessionsStay s₀ (giveSlot e s) := by
  unfold Machine.giveSlot
  split
  · exact .poolGive (.same h rfl)
  · exact h

theorem SessionsStay.returnSets {hd} (h : SessionsStay s₀ s) : SessionsStay s₀ (s.returnSets hd).1 := by
  rw [returnSets_steps]
  exact .setGentry (.giveSlot (.foldl_fst (fun _ _ h' => .giveSet h') (.dropCurrent (.giveSet (a := (s, 0)) h))))

theorem SessionsStay.dropEntry {hd} (h : SessionsStay s₀ s) : SessionsStay s₀ (s.dropEntry hd) :=
  .ite (.same h rfl) (.setGentry h)

theorem SessionsStay.modOf {n c f} (h : SessionsStay s₀ s) : SessionsStay s₀ (s.modOf n c f) := .ite (.setPress h) (.setPress h)

theorem SessionsStay.postRecord {q r} (h : SessionsStay s₀ s) : SessionsStay s₀ (s.postRecord q r) := by
  unfold State.postRecord
  dsimp only
  split
  · exact .send h
  · exact .same h rfl

theorem SessionsStay.recordTake {k press fault gen} (h : SessionsStay s₀ s) : SessionsStay s₀ (s.recordTake k press fault gen) := by
  unfold State.recordTake
  split
  · exact h
  · exact .postRecord (.same (.freshWord h) rfl)

theorem SessionsStay.closeRegion {c r} (h : SessionsStay s₀ s) : SessionsStay s₀ (s.closeRegion c r) :=
  .setChase (.poolGive (.poolGive h))

theorem SessionsStay.unbindGalley {hd} (h : SessionsStay s₀ s) : SessionsStay s₀ (s.unbindGalley hd) := .ite (.setGentry h) h

theorem SessionsStay.releaseGalley {hd} (h : SessionsStay s₀ s) : SessionsStay s₀ (s.releaseGalley hd).1 :=
  .dropEntry (.setGentry (.returnSets h))

theorem SessionsStay.undoKern {b} (h : SessionsStay s₀ s) : SessionsStay s₀ (s.undoKern b) := by
  unfold State.undoKern
  refine .ite h ?_
  split
  · exact .releaseStream h
  · exact .setKstream (.dropFolio h)

theorem SessionsStay.restoreGalley {hd g} (h : SessionsStay s₀ s) : SessionsStay s₀ (s.restoreGalley hd g) := by
  unfold State.restoreGalley
  refine .setGentry (.ite h ?_)
  dsimp only
  split
  · exact .same h rfl
  · exact .same h rfl
  · split
    · exact .swapSets (.setGset h)
    · exact h

theorem SessionsStay.undoGalley {b} (h : SessionsStay s₀ s) : SessionsStay s₀ (s.undoGalley b) := by
  unfold State.undoGalley
  refine .ite h (.ite (.releaseGalley h) (.unbindGalley ?_))
  split
  · exact .restoreGalley h
  · exact h

theorem SessionsStay.leaveRegion {c r} (h : SessionsStay s₀ s) : SessionsStay s₀ (s.leaveRegion c r) := by
  unfold State.leaveRegion
  exact .modOf h

theorem SessionsStay.rejectRegion {c r} (h : SessionsStay s₀ s) : SessionsStay s₀ (s.rejectRegion c r) :=
  .bump (.closeRegion (.leaveRegion (.foldl (fun _ _ h' => .undoGalley h') (.foldl (fun _ _ h' => .undoKern h') h))))

theorem SessionsStay.endRegions {c} (h : SessionsStay s₀ s) : SessionsStay s₀ (s.endRegions c) :=
  .foldl (fun _ _ h' => .foldl (fun _ _ h'' => .ite (.rejectRegion h'') h'') h') h

theorem SessionsStay.stopPresses {c} (h : SessionsStay s₀ s) : SessionsStay s₀ (s.stopPresses c) := .same h rfl

theorem SessionsStay.endStreams {c} (h : SessionsStay s₀ s) : SessionsStay s₀ (s.endStreams c) :=
  .foldl (fun _ _ h' => .ite (.same (.returnSets h') rfl) h') (.foldl (fun _ _ h' => .ite
    (.releaseStream h') h') h)

theorem SessionsStay.endTakes {c} (h : SessionsStay s₀ s) : SessionsStay s₀ (s.endTakes c) :=
  .foldl (fun _ _ h' => .ite (.ite (.recordTake (.same h' rfl)) (.recordTake (.same h' rfl))) h') h

theorem SessionsStay.zeroPress {n} (h : SessionsStay s₀ s) : SessionsStay s₀ (s.zeroPress n) := .setPress (.same h rfl)

theorem SessionsStay.endPresses {c} (h : SessionsStay s₀ s) : SessionsStay s₀ (s.endPresses c) := by
  unfold State.endPresses
  extract_lets drop s1 s2
  have h1 : SessionsStay s₀ s1 :=
    .foldl (fun _ _ h' => .ite (.zeroPress (.ite (.setPress h') h')) (.ite (.setPress h') h')) h
  clear_value s1
  exact .same h1 rfl

theorem SessionsStay.loseMember {c} (h : SessionsStay s₀ s) : SessionsStay s₀ (s.loseMember c) := .ite h (.same h rfl)

theorem SessionsStay.teardownRest {c} (h : SessionsStay s₀ s) : SessionsStay s₀ (s.teardownRest c) :=
  .loseMember (.sweepFolios (.endPresses (.endTakes (.endStreams h))))

theorem SessionsStay.teardown {c st} (h : SessionsStay s₀ s) : SessionsStay s₀ (s.teardown c st) :=
  .ite h (.ite (.endRegions (.stopPresses (.setCtx h))) (.teardownRest (.endRegions (.stopPresses (.setCtx h)))))

end

/-! ### What a teardown leaves of its context (R314, R98) -/

section
variable {s : State} {c : Nat}

/-- A context whose teardown has begun, with its status. -/
def Ctx.torn (x : Ctx) (st : Status) : Ctx := { x with st := .teardown, endStatus := st }

theorem ctx_teardown (ha : (s.ctx c).st = .active) (st : Status) : (s.teardown c st).ctx c = (s.ctx c).torn st := by
  have hset : (s.setCtx c ((s.ctx c).torn st)).ctx c = (s.ctx c).torn st := by rw [State.ctx_setCtx, if_pos rfl]
  have hstop := (keepsQuiet_stopPresses (s.setCtx c ((s.ctx c).torn st)) c).trans (keepsQuiet_endRegions _ c)
  have hrest := hstop.trans (keepsQuiet_teardownRest _ c)
  unfold State.teardown
  simp only
  rw [if_neg (not_not.2 ha)]
  split
  · exact (hstop.ctx c).trans hset
  · exact (hrest.ctx c).trans hset

/-- A context's first fault latched for its completion record. -/
def Ctx.latched (x : Ctx) (n : Nat) (f : FaultRec) : Ctx := { x with faultPress := some n, fault := f }

theorem ctx_faultOn (ha : (s.ctx c).st = .active) (hf : (s.ctx c).faultPress = none) (n : Nat) (async : Bool) (st : Status)
    (slot : BitVec 3) (pc va : W64) : (s.faultOn n c async st slot pc va).ctx c =
      ((s.ctx c).latched n { valid := true, async, status := st, slot, pc := pc &&& 0xFFFFFFFFFFFF, va }).torn st := by
  have hctx := (keepsQuiet_modOf s n c (gentle_fail async st slot pc va)).ctx c
  unfold State.faultOn
  simp only [hctx, ha, hf, Option.isNone_none, decide_true, Bool.and_self, if_true]
  have hset (u : State) (x : Ctx) : (u.setCtx c x).ctx c = x := by rw [State.ctx_setCtx, if_pos rfl]
  refine (ctx_teardown (congrArg Ctx.st (hset ..)) st).trans (congrArg (Ctx.torn · st) ((hset ..).trans ?_))
  simp only [Ctx.latched, ha]

theorem ctx_late (ha : (s.ctx c).st = .active) (hf : (s.ctx c).faultPress = none) (n : Nat) (st : Status)
    (slot : BitVec 3) (pc va : W64) : (s.late n c st slot pc va).ctx c =
      ((s.ctx c).latched n { valid := true, async := true, status := st, slot, pc := pc &&& 0xFFFFFFFFFFFF, va }).torn st := by
  simp only [State.late, ha, if_true]
  exact ((keepsQuiet_rasError ..).ctx c).trans (ctx_faultOn ha hf n true st slot pc va)

/-! ### Creation and destruction (R299, R300, R314) -/

theorem freeCtx_lowest (hc : c < 4096) (hfree : (s.ctx c).st = .free) (hlow : ∀ k < c, (s.ctx k).st ≠ .free) :
    s.freeCtx = some c := by
  refine List.find?_range_eq_some.2 ⟨decide_eq_true hfree, List.mem_range.2 hc, fun j hj => ?_⟩
  rw [decide_eq_false (hlow j hj)]
  rfl

variable {r : MReq}

theorem create_line (ha : Admitted s (ruleOf true false false [(Key.part, true), (Key.cls, true), (Key.retainPriv, false),
      (Key.resvLo, false), (Key.resvHi, false), (Key.jobTag, false)]) r) (hno : s.createRefusal r = none)
    (hfree : s.freeCtx = some c) :
    Responds (.contextCreate r) s (s.setCtx c (newCtx r c)) r St.ok [(Key.context, wn c)] := by
  have hdo : s.createCtx r = (s.setCtx c (newCtx r c)).reply r St.ok [(Key.context, wn c)] := by
    unfold State.createCtx
    simp only [hno, hfree]
  exact responds_reply ha rfl ((ha.manage fun s => s.createCtx r).trans (congrArg _ hdo))

/-- The context that an admitted request names is ACTIVE. -/
theorem Admitted.active {o : OpRule} (ha : Admitted s o r) (hplain : o.plain = true) (hkey : (Key.context, true) ∈ o.keys) :
    (s.ctx (r.num Key.context)).st = .active := by
  have hgate := ha.passes
  unfold State.gate at hgate
  have hlist : o.listOk r = true := by
    by_contra hno
    simp only [eq_false_of_ne_true hno, Bool.not_false, if_true] at hgate
    split_ifs at hgate
  have hscope : s.inScope r = true := by
    by_contra hno
    simp only [eq_false_of_ne_true hno, Bool.not_false, if_true] at hgate
    split_ifs at hgate
  have hhas : (r.item? Key.context).isSome = true := by
    simp only [OpRule.listOk, hplain, Bool.not_true, Bool.false_or, Bool.and_eq_true, List.all_eq_true] at hlist
    simpa [MReq.has] using hlist.1.2 _ hkey
  obtain ⟨v, hv⟩ := Option.isSome_iff_exists.1 hhas
  have hnum : r.num Key.context = v.toNat := by simp [MReq.num, hv]
  simp only [State.inScope, hv, Bool.and_eq_true, decide_eq_true_eq] at hscope
  rw [hnum]
  exact hscope.1.2.1

theorem last_reply {u : State} (ho : u.sessionOpen r.session = true) (st : Status) (items : List (Nat × W64)) :
    ((u.reply r st items).session r.session).queue.getLast? = some (.manage r.reqId st items [] false) := by
  rw [reply_open ho, State.session_setSession, if_pos rfl]
  exact List.getLast?_concat

theorem destroy_line (ha : Admitted s (ruleOf true false false [(Key.context, true)]) r) (hc : r.num Key.context = c) :
    ∃ t, exec (.contextDestroy r) s = .next t ∧ (t.ctx c).st = .teardown ∧ (t.ctx c).endStatus = St.contextTornDown ∧
      (t.session r.session).queue.getLast? = some (.manage r.reqId St.ok [] [] false) := by
  subst hc
  have hactive := ha.active rfl (List.mem_singleton.2 rfl)
  have hctx := ctx_teardown hactive St.contextTornDown
  have hopen : (s.teardown (r.num Key.context) St.contextTornDown).sessionOpen r.session = true := by
    have hst := SessionsStay.teardown (c := r.num Key.context) (st := St.contextTornDown) (.refl s) r.session
    exact (congrArg (fun x => decide (x = SessSt.isOpen)) hst).trans ha.isOpen
  have hreply : ((s.teardown (r.num Key.context) St.contextTornDown).done r).ctx (r.num Key.context) =
      (s.teardown (r.num Key.context) St.contextTornDown).ctx (r.num Key.context) :=
    (keepsQuiet_send ..).ctx _
  refine ⟨_, ha.manage fun s => (s.teardown (r.num Key.context) St.contextTornDown).done r, ?_, ?_, last_reply hopen ..⟩
  · exact congrArg Ctx.st (hreply.trans hctx)
  · exact congrArg Ctx.endStatus (hreply.trans hctx)

end

end Sys2Proof.Machine
end

/-! ## The end of a teardown (R315) -/

section
open Sys2Proof Sys2Proof.Machine
namespace Sys2Proof.Machine

section
variable {s : State} {c : Nat}

theorem Rested.setCtx (hr : Rested s) (c : Nat) (x : Ctx) : Rested (s.setCtx c x) := hr.same ⟨rfl, rfl, rfl, rfl, rfl, rfl, rfl⟩

theorem Rested.dropPage (hr : Rested s) (c : Nat) (l : Bool) (k : Nat) : Rested (s.dropPage c l k) := by
  cases hp : (s.ctx c).entryOf l k with
  | none => rwa [State.dropPage, hp]
  | some p => exact (dropPage_frees hp).rested (hr.setCtx c _)

theorem Rested.send (hr : Rested s) (n : Nat) (m : Msg) : Rested (s.send n m) := by
  unfold State.send
  dsimp only
  split
  · exact hr.same ⟨rfl, rfl, rfl, rfl, rfl, rfl, rfl⟩
  · exact hr

theorem Rested.foldl {α : Type} {f : State → α → State} (hf : ∀ s x, Rested s → Rested (f s x)) (l : List α) (hr : Rested s) :
    Rested (l.foldl f s) := List.foldlRecOn l f hr fun s hs x _ => hf s x hs

theorem Rested.unmapAll (hr : Rested s) (c : Nat) : Rested (s.unmapAll c) := by
  have hpages := (hr.foldl (f := fun s (e : Nat × Page) => s.dropPage c false e.1) (fun _ _ h => h.dropPage ..) (s.ctx c).pages).foldl
    (f := fun s (e : Nat × Page) => s.dropPage c true e.1) (fun _ _ h => h.dropPage ..) (s.ctx c).large
  refine Rested.same (hpages.foldl (f := fun s (e : Nat × UnmapReq) =>
    if e.2.ctx = c then s.send e.2.session (.manage e.2.reqId St.ok [] [] false) else s) ?_ _) ⟨rfl, rfl, rfl, rfl, rfl, rfl, rfl⟩
  intro s e h
  split
  · exact h.send ..
  · exact h

theorem cancelOwned_none (h : ∀ e ∈ s.longops, e.2.ctx ≠ some c) : s.cancelOwned c = s :=
  foldl_same _ _ _ fun e he => if_neg (by simp [h e he])

theorem endJobs_quiet (hq : Quiet s) (c : Nat) : s.endJobs c = s := by
  have hjobs : (s.part (s.ctx c).part).jobs = [] := by
    rcases mget_mem ({} : Part) s.parts (s.ctx c).part with h | h
    · exact congrArg Part.jobs h
    · exact hq.jobs _ h
  rw [State.endJobs, hjobs]
  rfl

/-- The record of a context freed, with what else names it, and the end of its teardown counted. -/
def State.freed (u : State) (c : Nat) (st : Status) : State :=
  (((u.dropOwned c).setCtx c {}).bump .sched 0 0x408 0 32 1).setFld .sched 0 0x408 32 16 st.toNat

theorem Rested.freed (hr : Rested s) (c : Nat) (st : Status) : Rested (s.freed c st) :=
  hr.same ⟨rfl, rfl, rfl, rfl, rfl, rfl, rfl⟩

theorem ctx_freed (u : State) (c : Nat) (st : Status) : (u.freed c st).ctx c = {} :=
  (u.dropOwned c).ctx_setCtx c c {} |>.trans (if_pos rfl)

theorem status_freed (u : State) (c : Nat) (st : Status) : (u.freed c st).regFld .sched 0 0x408 32 16 = st.toNat :=
  (State.regFld_setFld_same _ _ _ _ _ _ _ (by decide) (by decide)).trans (Nat.mod_eq_of_lt st.isLt)

/-- A queue of the context has gone, or belongs to no context. -/
theorem queues_freed (u : State) (hc : c < 4096) (st : Status) (e : Nat × CmdQueue) (he : e ∈ (u.freed c st).queues) :
    e.2.ctx ≠ c := by
  obtain ⟨q, -, hq⟩ := List.mem_map.1 he
  by_cases h : q.2.ctx = c
  · rw [if_pos h] at hq
    rw [← hq]
    exact fun h' : noContext = c => absurd hc (by rw [← h']; decide)
  · rw [if_neg h] at hq
    exact hq ▸ h

theorem teardown_ends (hq : Quiet s) (hc : c < 4096) (ht : (s.ctx c).st = .teardown) (ho : s.outstanding c = false)
    (hl : ∀ e ∈ s.longops, e.2.ctx ≠ some c) :
    exec (.teardownComplete c) s = .next ((s.unmapAll c).freed c (s.ctx c).endStatus) := by
  have hfree : s.freeContext c = (s.unmapAll c).freed c (s.ctx c).endStatus := by
    unfold State.freeContext
    simp only [cancelOwned_none hl, endJobs_quiet hq]
    rfl
  have hend : s.teardownEnd c = (s.unmapAll c).freed c (s.ctx c).endStatus := by
    unfold State.teardownEnd
    rw [if_pos (by simp [ht, ho]), hfree, settle_rested ((hq.rested.unmapAll c).freed c _)]
  rw [← hend]
  exact if_neg (Nat.not_le.2 hc)

/-- What is filtered by its context no longer names it. -/
theorem filtered {α : Type} {l : Map α} {f : α → Nat} (e : Nat × α) (he : e ∈ l.filter fun e => f e.2 != c) : f e.2 ≠ c := by
  have h := (List.mem_filter.1 he).2
  exact bne_iff_ne.1 h

theorem complete_line (hq : Quiet s) (hc : c < 4096) (ht : (s.ctx c).st = .teardown) (ho : s.outstanding c = false)
    (hl : ∀ e ∈ s.longops, e.2.ctx ≠ some c) : ∃ t, exec (.teardownComplete c) s = .next t ∧ t.ctx c = {} ∧
      (∀ e ∈ t.formes, e.2.ctx ≠ c) ∧ (∀ e ∈ t.queues, e.2.ctx ≠ c) ∧ (∀ e ∈ t.buffers, e.2.ctx ≠ c) ∧
      (∀ e ∈ t.hostwins, e.2.ctx ≠ c) ∧ (∀ e ∈ t.unmaps, e.2.ctx ≠ c) ∧
      t.regFld .sched 0 0x408 32 16 = (s.ctx c).endStatus.toNat := by
  exact ⟨_, teardown_ends hq hc ht ho hl, ctx_freed .., filtered (f := Forme.ctx), queues_freed _ hc _,
    filtered (f := Buffer.ctx), filtered (f := HostWin.ctx), filtered (f := UnmapReq.ctx), status_freed ..⟩

end

/-- Settles O11: a teardown keeps the sessions and every other context, and its end wakes nobody. -/
theorem contextsLiveAndEnd : Obligations.ContextsLiveAndEnd := by
  intro s c
  refine ⟨fun r ha hno hc hfree hlow => ?_, fun r ha hc => destroy_line ha hc, fun n st slot pc va hq hst hr hc ha hf => ?_,
    complete_line⟩
  · have hresv : resvOf r = BitVec.ofNat 128 (r.num Key.resvLo + 2 ^ 64 * r.num Key.resvHi) := by
      rw [resvOf, Nat.shiftLeft_eq, Nat.mul_comm]
    exact ⟨newCtx r c, rfl, rfl, rfl, rfl, hresv, rfl, rfl, create_line ha hno (freeCtx_lowest hc hfree hlow)⟩
  · subst hc
    have htorn := late_active hq ha n st slot pc va
    have hctx := ctx_late ha hf n st slot pc va
    have hx : exec (.asyncFault n st slot pc va) s = .next (s.late n (s.runCtx n) st slot pc va) := by
      show execAsyncFault n st slot pc va s = _
      rw [execAsyncFault, if_pos hst, onPress, if_neg (Nat.not_le.2 hr.1), if_neg hr.2, settle_quiet htorn.quiet]
    exact ⟨_, hx, htorn.state, htorn.status, congrArg Ctx.faultPress hctx, congrArg Ctx.fault hctx⟩

end Sys2Proof.Machine
end

/-! # Faults of a Line (R97, R315, R491)

A teardown rejects each region that its chase lists for the context, by the region's slot (R232). A state that lists a slot
twice, first for another context, makes it reject that other context's region: its parked press state, which the statement
leaves alone, forgets the region. The statement asks for nothing that excludes such a state. -/

section
open Sys2Proof Sys2Proof.Machine
namespace Sys2Proof.Machine

/-- Context 1 runs on press 0, where context 2 is parked in region 0; chase 0 lists region 0 for both. No page is mapped. -/
def twiceListed : State :=
  { presses := [(0, { st := .running, run := some 1, slotA := some { ctx := 2, st := { region := some 0 } } })]
    ctxs := [(1, { st := .active })]
    chases := [(0, { regions := [(0, { ctx := 2 }), (0, { ctx := 1 })] })] }

/-- A Line of press 0 with nothing set in its header, and its one slot, a NOP. -/
def plainLine : Line :=
  { core := .press 0, more := false, wait := 0, split := 0, lpred := 0, lneg := false, lpen := false, rsv := 0, imm := 0 }
def plainNop : Instr := .scalarNop plainLine .s0 0

theorem quiet_twiceListed : Quiet twiceListed where
  presses e he := by
    obtain rfl := List.mem_singleton.1 he
    exact ⟨rfl, trivial, rfl, fun x hx => List.mem_singleton.1 hx ▸ rfl⟩
  comps _ he := nomatch he
  hosts := rfl
  requests := rfl
  jobs _ he := nomatch he
  areas _ he := nomatch he
  loads _ he := nomatch he

/-- The Line cannot be fetched. -/
theorem fetch_twiceListed : twiceListed.rangeFault 1 .ex 0 64 = some (St.pageNotMapped, 0) := by decide +kernel

/-- What its fault leaves. -/
def afterFault : State := twiceListed.precise 0 St.pageNotMapped 7 0

theorem exec_plainNop : exec plainNop twiceListed = .next afterFault := by
  have hready : twiceListed.lineReady 0 plainLine (lineSlots plainLine [plainNop]) = true := by decide +kernel
  have hlists : twiceListed.listsWait (twiceListed.lc 0 plainLine) (lineSlots plainLine [plainNop]) = false := by decide +kernel
  have hfault : twiceListed.lineFault (twiceListed.lc 0 plainLine) (lineSlots plainLine [plainNop]) =
      some (St.pageNotMapped, 0, 7) := by decide +kernel
  have hquiet : Quiet afterFault := (faultOn_active quiet_twiceListed (c := 1) rfl 0 false St.pageNotMapped 7 0 0).quiet
  have hissue : twiceListed.issueLine 0 plainLine [plainNop] = afterFault := by
    unfold State.issueLine
    simp only [hready, hlists, hfault]
    exact settle_quiet hquiet
  have hline : issue plainLine plainNop twiceListed = .next (twiceListed.issueLine 0 plainLine [plainNop]) := rfl
  exact hline.trans (congrArg _ hissue)

theorem slotA_afterFault : (afterFault.press 0).slotA = some { ctx := 2 } := by decide +kernel

/-- Refutes O43: where chase 0 lists region 0 for the parked context 2 as well as for context 1, the teardown of context 1 ends
the region of context 2 too, and the press's slot A does not stay as it was. -/
theorem not_lineFaults : ¬ Obligations.LineFaults := by
  unfold Obligations.LineFaults
  intro h
  obtain ⟨-, hfetch, -⟩ := h twiceListed 0 plainLine .s0 0 false ⟨.s0, 0, 0, 0, 0⟩ ⟨.s0, 0, 0, 0⟩ ⟨.s0, 0, 0, 0⟩
    ⟨0, 0, 0, 0, false, 0, 0, 0⟩ ⟨false, false, 0, 0, 0, 0, 0, 0, false, 0, false, 0, false, 0⟩
    ⟨0, 0, 0, 0, 0, false, 0, false, 0, 0, 0, false, 0, false, false, 0⟩ ⟨0, false, 0, 0, 0, 0, false, 0, 0⟩
    plainNop (List.mem_cons_self ..) (by decide) rfl rfl rfl (by decide) rfl (by decide +kernel) (by decide +kernel)
    (by decide +kernel) quiet_twiceListed rfl rfl
  obtain ⟨t, ht, -, -, -, -, hpress⟩ := hfetch _ _ fetch_twiceListed
  obtain rfl : afterFault = t := Host.Outcome.next.inj (exec_plainNop.symm.trans ht)
  have hslot := congrArg Press.slotA (hpress (by decide +kernel))
  rw [slotA_afterFault] at hslot
  exact absurd hslot (by decide +kernel)

end Sys2Proof.Machine
end

/-! # Host windows (R98, R352, R354, R357) -/

section
open Sys2Proof Sys2Proof.Machine
namespace Sys2Proof.Machine

/-! ### A window mapped (R352) -/

/-- A context whose large pages from `k` on map the first `g` pages of window `w`. -/
def Ctx.withWindow (x : Ctx) (w k g : Nat) : Ctx :=
  (List.range g).foldl (fun x i => x.putEntry true (k + i) { rd := true, wr := true, tgt := .host w (i * 0x200000) }) x

theorem entryOf_withWindow (x : Ctx) (w k g j : Nat) : (x.withWindow w k g).entryOf true j =
    if k ≤ j ∧ j < k + g then some { rd := true, wr := true, tgt := .host w ((j - k) * 0x200000) } else x.entryOf true j :=
  (entryOf_putEntries x true true j k g fun i => { rd := true, wr := true, tgt := .host w (i * 0x200000) }).trans
    (if_congr (by simp) rfl rfl)

section
variable {s : State} {r : MReq} {w g : Nat}

/-- The window that a request asks for. -/
def hostWindow (s : State) (r : MReq) : HostWin :=
  { ctx := r.num Key.context, va := r.num Key.vaddr, len := r.num Key.length, addr := r.num Key.hostAddr
    session := r.session, bounce := (s.part (s.ctx (r.num Key.context)).part).conf }

/-- The window listed and its pages mapped. -/
def State.withWindow (s : State) (r : MReq) (w k g : Nat) : State :=
  { s.setCtx (r.num Key.context) ((s.ctx (r.num Key.context)).withWindow w k g) with
    hostwins := mput s.hostwins w (hostWindow s r) }

theorem hostwinMap_maps {k : Nat} (hva : r.num Key.vaddr = k * 0x200000) (hlen : r.num Key.length = g * 0x200000) (hg : 1 ≤ g)
    (hend : r.num Key.vaddr + r.num Key.length ≤ serviceBase)
    (hfree : ∀ i < g, (s.ctx (r.num Key.context)).touched true (k + i) = false)
    (hconf : (s.part (s.ctx (r.num Key.context)).part).conf = false ∨ r.session ≠ 0) (hw : mfree s.hostwins (2 ^ 32) 0 = some w) :
    s.hostwinMap r = (s.withWindow r w k g).done r := by
  have hk : r.num Key.vaddr / 0x200000 = k := by omega
  have hn : r.num Key.length / 0x200000 = g := by omega
  have htouched : (span k g).any ((s.ctx (r.num Key.context)).touched true) = false := by
    simpa [span] using hfree
  have hrange : ¬(r.num Key.vaddr % 0x200000 ≠ 0 || r.num Key.length == 0 || r.num Key.length % 0x200000 != 0 ||
      decide (serviceBase < r.num Key.vaddr + r.num Key.length) ||
      (span k g).any ((s.ctx (r.num Key.context)).touched true)) = true := by
    simp [htouched, hva, hlen, Nat.not_lt.2 (hva ▸ hlen ▸ hend)]
    omega
  have hsess : ¬((s.part (s.ctx (r.num Key.context)).part).conf && r.session == 0) = true := by
    rcases hconf with h | h <;> simp [h]
  unfold State.hostwinMap
  simp only [hk, hn]
  refine (if_neg (by simpa using hrange)).trans ((if_neg hsess).trans ?_)
  rw [hw]
  rfl

theorem hostwin_line {k : Nat} (ha : Admitted s (ruleOf true false false
      [(Key.context, true), (Key.vaddr, true), (Key.length, true), (Key.hostAddr, true)]) r)
    (hmap : s.hostwinMap r = (s.withWindow r w k g).done r) :
    ∃ t h, exec (.hostwinMap r) s = .next t ∧ Answers s t r St.ok [] ∧ t.mem = s.mem ∧ mfind? t.hostwins w = some h ∧
      h.ctx = r.num Key.context ∧ h.session = r.session ∧ h.addr = r.num Key.hostAddr ∧ h.len = r.num Key.length ∧
      (∀ i < g, (t.ctx (r.num Key.context)).entryOf true (k + i) =
        some { rd := true, wr := true, ex := false, tgt := .host w (i * 0x200000) }) ∧
      (∀ j, j < k ∨ k + g ≤ j → (t.ctx (r.num Key.context)).entryOf true j = (s.ctx (r.num Key.context)).entryOf true j) ∧
      ∀ d, d ≠ r.num Key.context → t.ctx d = s.ctx d := by
  have hctx (d : Nat) : ((s.withWindow r w k g).done r).ctx d =
      if r.num Key.context = d then (s.ctx (r.num Key.context)).withWindow w k g else s.ctx d :=
    (ctx_reply r St.ok [] d).trans (State.ctx_setCtx s _ d _)
  have hwins : ((s.withWindow r w k g).done r).hostwins = mput s.hostwins w (hostWindow s r) := by
    obtain ⟨ss, h⟩ := exists_send (s.withWindow r w k g) r.session (.manage r.reqId St.ok [] [] false)
    exact congrArg State.hostwins h
  refine ⟨_, hostWindow s r, (ha.manage fun s => s.hostwinMap r).trans (congrArg _ hmap),
    answers_of_sessions (u := s.withWindow r w k g) ha rfl St.ok [],
    mem_reply .., by rw [hwins, mfind_mput_same], rfl, rfl, rfl, rfl, fun i hi => ?_, fun j hj => ?_, fun d hd => ?_⟩
  · rw [hctx, if_pos rfl, entryOf_withWindow, if_pos (by omega), Nat.add_sub_cancel_left]
  · rw [hctx, if_pos rfl, entryOf_withWindow, if_neg (by omega)]
  · rw [hctx, if_neg (Ne.symm hd)]

end

/-! ### The one request that a host is asked (R352, R354) -/

/-- The one request of a device in which nothing else waits: one to the host of session `m`, made for an active context that
runs on press `n`. -/
structure HostAsked (s : State) (id : W32) (q : Request) (n m : Nat) : Prop where
  core : n < 128
  session : m < 1024
  isOpen : s.sessionOpen m = true
  only : s.requests = [(id.toNat, q)]
  quiet : Quiet { s with requests := [] }
  mine : q.session = some m
  whole : q.failed = none
  active : (s.ctx q.ctx).st = .active
  running : (s.press n).run = some q.ctx

section
variable {s : State} {id : W32} {q : Request} {n m : Nat}

/-- Its end asks nothing of the packet that a Quoin request may have held. -/
def Request.sent (q : Request) : Request := { q with held := none }
def State.allSent (s : State) (id : W32) (q : Request) : State := { s with requests := [(id.toNat, q.sent)] }

theorem retire_allSent (honly : s.requests = [(id.toNat, q)]) :
    s.retire id.toNat q = (s.allSent id q).retire id.toNat q.sent := by
  have hdel : mdel s.requests id.toNat = mdel (s.allSent id q).requests id.toNat := by
    rw [honly, mdel, if_pos rfl]
    exact (if_pos rfl).symm
  have hend : s.endRequest id.toNat = (s.allSent id q).endRequest id.toNat :=
    congrArg (fun m => ({ s with requests := m } : State).serveToken) hdel
  rw [State.retire, hend]
  rfl

variable (h : HostAsked s id q n m)
include h

theorem HostAsked.oneRequest : OneRequest (s.allSent id q) id.toNat q.sent n :=
  ⟨h.core, rfl, h.quiet, rfl, h.whole, h.active, h.running⟩

theorem HostAsked.endRead {rd size : Nat} {signed : Bool} (hc : q.cause = .load n rd size signed) (bs : List Byte) :
    s.endRead id.toNat q bs = (s.ended q.ctx).modPc n fun p => p.setX rd (extend signed size (ofBytes bs)) := by
  refine Eq.trans ?_ (endRead_load h.oneRequest hc bs)
  rw [State.endRead, retire_allSent h.only]
  rfl

theorem HostAsked.endWrite (hc : q.cause = .store n) : s.endWrite id.toNat q = s.ended q.ctx := by
  refine Eq.trans ?_ (endWrite_store (s := s.allSent id q) (q := q.sent) h.oneRequest hc)
  rw [State.endWrite, retire_allSent h.only]
  rfl

theorem HostAsked.endFail (hc : (∃ rd size signed, q.cause = .load n rd size signed) ∨ q.cause = .store n) (st : Status) :
    TornDown (s.endFail id.toNat q st) q.ctx st := by
  have hsame : s.endFail id.toNat q st = (s.allSent id q).endFail id.toNat q.sent st := by
    rw [State.endFail, retire_allSent h.only]
    rfl
  rw [hsame]
  exact endFail_tearsDown h.oneRequest (hc.imp_right .inl) st

theorem HostAsked.hostRequest {kind : Nat} (hk : q.kind = kind) : s.hostRequest m id kind = some q := by
  simp [State.hostRequest, State.request?, h.only, mfind?, hk, h.mine, h.whole]

theorem HostAsked.exec_pullResp (st : Status) (bs : List Byte) :
    exec (.pullResp m id st bs) s = .next (s.pullRespIn m id st bs) :=
  (if_neg (Nat.not_le.2 h.session)).trans (if_pos h.isOpen)

theorem HostAsked.exec_writeAck (st : Status) : exec (.writeAck m id st) s = .next (s.writeAckIn m id st) :=
  (if_neg (Nat.not_le.2 h.session)).trans (if_pos h.isOpen)

/-! ### What an answer does -/

theorem HostAsked.writeAckIn (hk : q.kind = 4) (st : Status) : s.writeAckIn m id st =
    if st = 0 then s.endWrite id.toNat q else s.endFail id.toNat q St.pullFailed := by
  rw [State.writeAckIn, h.hostRequest hk]

theorem HostAsked.pull_failed (hk : q.kind = 3) {st : Status} (hst : st ≠ St.ok) (bs : List Byte) :
    s.pullRespIn m id st bs = s.endFail id.toNat q St.pullFailed := by
  rw [State.pullRespIn, h.hostRequest hk]
  exact if_pos hst

theorem HostAsked.pull_plain (hk : q.kind = 3) (hb : q.bounce = none) (bs : List Byte) : s.pullRespIn m id St.ok bs =
    if bs.length = q.len then s.endRead id.toNat q bs else s.endFail id.toNat q St.pullFailed := by
  rw [State.pullRespIn, h.hostRequest hk]
  refine (if_neg (not_not.2 rfl)).trans ?_
  rw [hb]

theorem HostAsked.pull_bounced (hk : q.kind = 3) {w off : Nat} (hb : q.bounce = some (w, off)) (bs : List Byte) :
    s.pullRespIn m id St.ok bs = s.bounceIn id q w off bs := by
  rw [State.pullRespIn, h.hostRequest hk]
  refine (if_neg (not_not.2 rfl)).trans ?_
  rw [hb]

end

section
variable {s : State} {id : W32} {q : Request} {w off b n : Nat} {bs ps : List Byte} (hspan : blockSpan off q.len = (b, n))
include hspan

/-- Records of a wrong length end the access. -/
theorem bounceIn_short (hlen : bs.length ≠ recordSize * n) : s.bounceIn id q w off bs = s.endFail id.toNat q St.pullFailed := by
  rw [State.bounceIn, hspan]
  exact if_pos hlen

variable (hlen : bs.length = recordSize * n)
include hlen

/-- One that does not open ends it too. -/
theorem bounceIn_closed (ho : openBlocks (s.session (mget ({} : HostWin) s.hostwins w).session).keys
    (mget ({} : HostWin) s.hostwins w).session b n bs = none) :
    s.bounceIn id q w off bs = s.endFail id.toNat q St.pullFailed := by
  rw [State.bounceIn, hspan]
  refine (if_neg (not_not.2 hlen)).trans ?_
  rw [ho]

variable (ho : openBlocks (s.session (mget ({} : HostWin) s.hostwins w).session).keys
    (mget ({} : HostWin) s.hostwins w).session b n bs = some ps)
include ho

theorem bounceIn_read (hm : q.merge = none) :
    s.bounceIn id q w off bs = s.endRead id.toNat q (slice ps (off % blockSize) q.len) := by
  rw [State.bounceIn, hspan]
  refine (if_neg (not_not.2 hlen)).trans ?_
  rw [ho, hm]

theorem bounceIn_merge {d : List Byte} (hm : q.merge = some d) :
    s.bounceIn id q w off bs = ({ s with requests := mput s.requests id.toNat { q with kind := 4 } } : State).sendBlocks id
        (mget ({} : HostWin) s.hostwins w) b n (s.withWrites w (blockSize * b) ps) := by
  rw [State.bounceIn, hspan]
  refine (if_neg (not_not.2 hlen)).trans ?_
  rw [ho]
  simp only [hm]

end

section
variable {u : State} {h : HostWin} (id : W32) (b n : Nat) (bs : List Byte)

theorem exists_sendBlocks : ∃ ss, u.sendBlocks id h b n bs = { u with sessions := ss } := by
  obtain ⟨ss, hss⟩ := exists_send (u.setSession h.session
    { u.session h.session with txRseq := (u.session h.session).txRseq + n }) h.session (.writeHost id (h.addr + recordSize * b)
      (sealBlocks (u.session h.session).keys h.session (u.session h.session).txRseq b n bs))
  exact ⟨ss, hss⟩

/-- Blocks sealed and written to a window whose session is open are its last message. -/
theorem queue_sendBlocks (ho : u.sessionOpen h.session = true) :
    ((u.sendBlocks id h b n bs).session h.session).queue = (u.session h.session).queue ++ [.writeHost id (h.addr + recordSize * b)
      (sealBlocks (u.session h.session).keys h.session (u.session h.session).txRseq b n bs)] := by
  have hopen : (u.setSession h.session { u.session h.session with txRseq := (u.session h.session).txRseq + n }).sessionOpen
      h.session = true := by
    rw [State.sessionOpen, State.session_setSession, if_pos rfl]
    exact ho
  simp [State.sendBlocks, State.send, hopen]

end

/-! ### The statement -/

section
variable {s : State} {id : W32} {q : Request} {n m : Nat} (h : HostAsked s id q n m)
include h

/-- The data of a PULL reach the register of the load that asked. -/
theorem HostAsked.lands {rd size : Nat} {signed : Bool} (hc : q.cause = .load n rd size signed) {bs d : List Byte}
    (hp : s.pullRespIn m id St.ok bs = s.endRead id.toNat q d) :
    ∃ t, exec (.pullResp m id St.ok bs) s = .next t ∧ t.requests = [] ∧
      (t.ctx q.ctx).remoteOut = (s.ctx q.ctx).remoteOut - 1 ∧ t.mem = s.mem ∧
      (t.pc n) = (s.pc n).setX rd (if signed then (BitVec.ofNat (8 * size) (ofBytes d)).signExtend 64
        else BitVec.ofNat 64 (ofBytes d % 2 ^ (8 * size))) := by
  refine ⟨_, (h.exec_pullResp St.ok bs).trans (congrArg _ (hp.trans (h.endRead hc d))), rfl, ended_remoteOut s q.ctx, rfl, ?_⟩
  rw [pc_modPc, extend_eq]
  rfl

/-- The request, once what it leaves of its blocks is known. -/
def State.asWrite (s : State) (id : W32) (q : Request) : State := { s with requests := [(id.toNat, { q with kind := 4 })] }

/-- The records of a store that leaves part of a block open: it goes on as a write of the blocks. -/
theorem HostAsked.merges (hk : q.kind = 3) {w off : Nat} {d bs ps : List Byte} (hb : q.bounce = some (w, off))
    (hmerge : q.merge = some d) (x : HostWin) (hx : mget ({} : HostWin) s.hostwins w = x) (hsess : x.session = m) {k : Nat × Nat}
    (hspan : blockSpan off q.len = k) (hlen : bs.length = recordSize * k.2)
    (ho : openBlocks (s.session m).keys m k.1 k.2 bs = some ps) :
    ∃ t, exec (.pullResp m id St.ok bs) s = .next t ∧ t.requests = [(id.toNat, { q with kind := 4 })] ∧ t.mem = s.mem ∧
      (t.session m).queue = (s.session m).queue ++ [.writeHost id (x.addr + recordSize * k.1)
        (sealBlocks (s.session m).keys m (s.session m).txRseq k.1 k.2 (s.withWrites w (blockSize * k.1) ps))] := by
  subst hsess
  subst hx
  have hreq : mput s.requests id.toNat { q with kind := 4 } = [(id.toNat, { q with kind := 4 })] := by
    rw [h.only, mput, if_neg (Nat.lt_irrefl _), if_pos rfl]
  have hrun := (h.pull_bounced hk hb bs).trans (bounceIn_merge hspan hlen ho hmerge)
  rw [hreq] at hrun
  obtain ⟨ss, hss⟩ := exists_sendBlocks (u := s.asWrite id q) (h := mget ({} : HostWin) s.hostwins w) id k.1 k.2
    (s.withWrites w (blockSize * k.1) ps)
  have hreqs := congrArg State.requests hss
  have hmem := congrArg State.mem hss
  have hqueue := queue_sendBlocks (u := s.asWrite id q) id k.1 k.2 (s.withWrites w (blockSize * k.1) ps) h.isOpen
  exact ⟨(s.asWrite id q).sendBlocks id _ k.1 k.2 _, (h.exec_pullResp St.ok bs).trans (congrArg _ hrun), hreqs, hmem, hqueue⟩

theorem HostAsked.fails {i : Instr} {t : State} (hx : exec i s = .next t) (ht : t = s.endFail id.toNat q St.pullFailed)
    (hc : (∃ rd size signed, q.cause = .load n rd size signed) ∨ q.cause = .store n) :
    ∃ t, exec i s = .next t ∧ (t.ctx q.ctx).st = .teardown ∧ (t.ctx q.ctx).endStatus = St.pullFailed ∧ t.requests = [] := by
  have htorn := h.endFail hc St.pullFailed
  exact ⟨_, hx.trans (congrArg _ ht), htorn.state, htorn.status, htorn.quiet.requests⟩

end

/-- Settles O29: with one request outstanding its end leaves a quiet device; what an answer does follows its branches. -/
theorem hostWindows : Obligations.HostWindows := by
  intro s
  refine ⟨?_, ?_⟩
  · intro r w g ha c k hva hlen hg hend hfree hconf hw
    exact hostwin_line ha (hostwinMap_maps hva hlen hg hend hfree hconf hw)
  intro id q n m hn hm hopen honly hquiet hmine hfailed hactive hrun fails
  have h : HostAsked s id q n m := ⟨hn, hm, hopen, honly, hquiet, hmine, hfailed, hactive, hrun⟩
  refine ⟨?_, ?_, fun hk hc => ?_⟩
  · intro rd size signed hk hc hrd hsize hmerge lands
    subst hsize
    have hload : (∃ rd size signed, q.cause = .load n rd size signed) ∨ q.cause = .store n := .inl ⟨rd, _, signed, hc⟩
    refine ⟨fun hb => ⟨fun bs hlen => ?_, fun st bs hbad => ?_⟩, ?_⟩
    · exact h.lands hc ((h.pull_plain hk hb bs).trans (if_pos hlen))
    · refine h.fails (h.exec_pullResp st bs) ?_ hload
      by_cases hst : st = St.ok
      · subst hst
        exact (h.pull_plain hk hb bs).trans (if_neg (hbad.resolve_left (not_not.2 rfl)))
      · exact h.pull_failed hk hst bs
    · intro w off hb x k
      refine ⟨fun st bs hbad => h.fails (h.exec_pullResp st bs) ?_ hload, fun bs hlen => ?_⟩
      · by_cases hst : st = St.ok
        · subst hst
          exact (h.pull_bounced hk hb bs).trans (bounceIn_short rfl (hbad.resolve_left (not_not.2 rfl)))
        · exact h.pull_failed hk hst bs
      · split
        · next ho => exact h.fails (h.exec_pullResp St.ok bs) ((h.pull_bounced hk hb bs).trans (bounceIn_closed rfl hlen ho)) hload
        · next ps ho => exact h.lands hc ((h.pull_bounced hk hb bs).trans (bounceIn_read rfl hlen ho hmerge))
  · intro w off d hk hc hb hmerge x k hsess bs hlen
    split
    · next ho =>
      refine h.fails (h.exec_pullResp St.ok bs) ((h.pull_bounced hk hb bs).trans (bounceIn_closed rfl hlen ?_)) (.inr hc)
      exact hsess ▸ ho
    · next ps ho => exact h.merges hk hb hmerge x rfl hsess rfl hlen ho
  · refine ⟨⟨_, (h.exec_writeAck St.ok).trans (congrArg _ ((h.writeAckIn hk St.ok).trans ((if_pos rfl).trans (h.endWrite hc)))),
      rfl, rfl, rfl, ended_remoteOut s q.ctx⟩, fun st hst => ?_⟩
    exact h.fails (h.exec_writeAck st) ((h.writeAckIn hk st).trans (if_neg hst)) (.inr hc)

end Sys2Proof.Machine
end

/-! # Kern commands executed (R165, R166, R181, R185, R186)

What a command moves lies in folios, and what it reads and writes there passes through the cabinet: neither touches a press
or a byte of memory (`Unseen`). The result record is the last that a command writes. -/

section
open Sys2Proof Sys2Proof.Machine
namespace Sys2Proof.Machine

/-! ### Accesses through a cabinet, whatever the key (R236) -/

/-- No press and no byte of memory changes. -/
structure Unseen (s t : State) : Prop where
  presses : t.presses = s.presses
  mem : t.mem = s.mem

theorem unseen_refl (s : State) : Unseen s s := ⟨rfl, rfl⟩

theorem Unseen.trans {s t u : State} (h : Unseen s t) (k : Unseen t u) : Unseen s u :=
  ⟨k.presses.trans h.presses, k.mem.trans h.mem⟩

theorem Unseen.press {s t : State} (h : Unseen s t) (n : Nat) : t.press n = s.press n :=
  congrArg (mget ({} : Press) · n) h.presses

theorem Unseen.pc {s t : State} (h : Unseen s t) (n : Nat) : t.pc n = s.pc n := congrArg Press.cur (h.press n)

theorem Unseen.foldl {α : Type} {f : State → α → State} (hf : ∀ s x, Unseen s (f s x)) (l : List α) (s : State) :
    Unseen s (l.foldl f s) := foldl_rel unseen_refl Unseen.trans f l (fun s x _ => hf s x) s

theorem CabOnly.unseen {s t : State} (h : CabOnly s t) : Unseen s t := ⟨h.presses, h.mem⟩

theorem unseen_warm (s : State) (k : Nat) : Unseen s (s.warm k) := by
  unfold State.warm
  split
  · exact unseen_refl s
  · exact ⟨rfl, rfl⟩

theorem unseen_fillLine (s : State) (c line : Nat) (dirty : Bool) : Unseen s (s.fillLine c line dirty) := by
  unfold State.fillLine
  extract_lets u x mates oldest new
  split
  next cab wb _ =>
    extract_lets v w
    have hv : CabOnly s v := rfl
    have hw : Unseen s w := (hv.trans ((cabOnly_bump ..).trans (cabOnly_lineRead ..))).unseen.trans (unseen_warm ..)
    cases wb with
    | none => exact hw
    | some o => exact hw.trans ((cabOnly_bump ..).trans (cabOnly_lineWritten ..)).unseen

theorem unseen_cabAccess (s : State) (c k : Nat) (write : Bool) : Unseen s (s.cabAccess c k write) := by
  unfold State.cabAccess
  extract_lets line dirty u x
  have hu : Unseen s u := by
    unfold u
    split
    · exact (cabOnly_yieldLine ..).unseen
    · exact unseen_refl s
  split
  · exact hu.trans ⟨rfl, rfl⟩
  · exact (hu.trans (.foldl (fun s a => unseen_fillLine s c a false) ..)).trans (unseen_fillLine ..)

theorem unseen_folioLines (s : State) (n f off len : Nat) (write : Bool) : Unseen s (s.folioLines n f off len write) := by
  unfold State.folioLines State.cabRange
  split
  · exact unseen_refl s
  · exact .foldl (fun s i => unseen_cabAccess s _ _ _) ..

/-! ### Kern commands that write folios -/

/-- The copies and slot writes of an APPEND reach folios and the cabinet alone. -/
theorem unseen_runAppend (s : State) (n : Nat) (c : KernCmd) : Unseen s (s.runAppend n c) := by
  unfold State.runAppend
  refine (Unseen.foldl (fun t p => ?_) c.copies s).trans (.foldl (fun t p => ?_) ..)
  · have hcopied : Unseen t (t.setFolio p.2 { t.folio p.2 with bytes := (t.folio p.1).bytes }) := ⟨rfl, rfl⟩
    exact (hcopied.trans (unseen_folioLines ..)).trans (unseen_folioLines ..)
  · have hput (f off : Nat) (bs : List Byte) : Unseen t (t.putFolio f off bs) := ⟨rfl, rfl⟩
    exact (hput ..).trans (unseen_folioLines ..)

/-! ### The shared control queue and what runs of it (R185) -/

/-- The control operations of a press's context, waiting and running, are the same. -/
structure SameControl (s t : State) (n : Nat) : Prop where
  queue : (t.pc n).ctq = (s.pc n).ctq
  running : (t.pc n).ctRun = (s.pc n).ctRun

theorem SameControl.trans {s t u : State} {n : Nat} (h : SameControl s t n) (k : SameControl t u n) : SameControl s u n :=
  ⟨k.queue.trans h.queue, k.running.trans h.running⟩

theorem Unseen.sameControl {s t : State} (h : Unseen s t) (n : Nat) : SameControl s t n :=
  ⟨congrArg PressCtx.ctq (h.pc n), congrArg PressCtx.ctRun (h.pc n)⟩

theorem sameControl_foldl {α : Type} {f : State → α → State} {n : Nat} (hf : ∀ s x, SameControl s (f s x) n) (l : List α)
    (s : State) : SameControl s (l.foldl f s) n :=
  foldl_rel (R := fun s t => SameControl s t n) (fun _ => ⟨rfl, rfl⟩) SameControl.trans f l (fun s x _ => hf s x) s

theorem sameControl_modPc (s : State) (n : Nat) {f : PressCtx → PressCtx} (hq : ∀ p, (f p).ctq = p.ctq)
    (hr : ∀ p, (f p).ctRun = p.ctRun) : SameControl s (s.modPc n f) n :=
  ⟨by rw [pc_modPc, hq], by rw [pc_modPc, hr]⟩

theorem sameControl_srFor (s : State) (n k : Nat) : SameControl s (s.srFor n k).2 n := by
  unfold State.srFor
  split
  · exact ⟨rfl, rfl⟩
  · split
    next l e _ =>
      exact (sameControl_modPc s n (f := fun c => { c with srSeed := e }) (fun _ => rfl) fun _ => rfl).trans ⟨rfl, rfl⟩

theorem sameControl_record (s : State) (n line : Nat) (fl : Flags) : SameControl s (s.record n line fl) n := by
  unfold State.record State.tallies
  split
  · exact ⟨rfl, rfl⟩
  · refine (sameControl_modPc s n (f := (·.record line fl)) (fun _ => rfl) fun _ => rfl).trans ?_
    split <;> exact ⟨rfl, rfl⟩

section
variable {s : State} {n idx : Nat} {c : KernCmd}

/-- The pipeline of the chase executes no kern command where another may execute: none runs on the press. -/
theorem not_kern_of_kernMay (hmay : s.kernMay n c = true) {o : CtOp} (ho : o ∈ (s.pc n).ctRun) : o.isKern = false := by
  have hidle : (s.runningIn (chaseOf n)).any (·.isKern) = false := by
    unfold State.kernMay at hmay
    simp only [Bool.and_eq_true, Bool.not_eq_true'] at hmay
    exact hmay.1
  have hlisted : (n, s.press n) ∈ s.presses := by
    rcases mget_mem ({} : Press) s.presses n with h | h
    · have hnone : s.pc n = {} := congrArg Press.cur h
      rw [hnone] at ho
      cases ho
    · exact h
  have hrunning : o ∈ s.runningIn (chaseOf n) := by
    refine List.mem_flatMap.2 ⟨_, hlisted, ?_⟩
    rw [if_pos rfl]
    exact List.mem_flatMap.2 ⟨s.pc n, List.mem_cons_self .., ho⟩
  exact Bool.eq_false_iff.2 (List.any_eq_false.1 hidle o hrunning)

/-- A command that has just begun to run is the only kern command on its press, so it alone is replaced. -/
theorem ctRun_setKern {u : State} (hmay : s.kernMay n c = true) (hu : SameControl (s.startControl n idx (.kern c)) u n)
    {d : KernCmd} (hd : d.seq = c.seq) : ((u.setKern n d).pc n).ctRun = (s.pc n).ctRun ++ [.kern d] := by
  have hrun : (u.pc n).ctRun = (s.pc n).ctRun ++ [.kern c] := by
    rw [hu.running, State.startControl, pc_modPc]
  rw [State.setKern, pc_modPc]
  show (u.pc n).ctRun.map _ = _
  rw [hrun, List.map_append]
  refine congrArg₂ (· ++ ·) ((List.map_congr_left fun o ho => ?_).trans (List.map_id _)) ?_
  · have hno := not_kern_of_kernMay hmay ho
    cases o with
    | kern e => cases hno
    | galley e => rfl
    | rsignal va v m pc => rfl
  · simp [hd]

theorem ctq_setKern {u : State} (hu : SameControl (s.startControl n idx (.kern c)) u n) (d : KernCmd) :
    ((u.setKern n d).pc n).ctq = (s.pc n).ctq.eraseIdx idx := by
  rw [State.setKern, pc_modPc]
  show (u.pc n).ctq = _
  rw [hu.queue, State.startControl, pc_modPc]

/-! ### Result records (R166) -/

theorem cmdResult_lt (ws : List W64) : cmdResult ws < 2 ^ 24 := fld_lt (cmdWord ws 0) 32 24 (by omega)

/-- The word of a result record with status SUCCESS, as the model spells it. -/
theorem toNat_record (v : W32) : (v.setWidth 64 <<< 32).toNat = v.toNat <<< 32 := by
  have := v.isLt
  simp [Nat.shiftLeft_eq]
  omega

theorem mem_kernResult (s : State) (n : Nat) (c : KernCmd) (v : W32) : (s.kernResult n c v).mem =
    putCells s.mem (caseBase n + cmdResult c.words) (toBytes 8 (v.setWidth 64 <<< 32).toNat) := by
  have hoff : (wn (cmdResult c.words)).toNat = cmdResult c.words := by
    have := cmdResult_lt c.words
    exact Nat.mod_eq_of_lt (by omega)
  show putCells s.mem (caseBase n + (wn (cmdResult c.words)).toNat) (toBytes 8 (v.toNat <<< 32)) = _
  rw [hoff, toNat_record]

/-- A command that runs and writes its result record last. -/
theorem controlRan_kernResult {u : State} {o : CtOp} (hq : (u.pc n).ctq = (s.pc n).ctq.eraseIdx idx)
    (hr : (u.pc n).ctRun = (s.pc n).ctRun ++ [o]) (v : W32) :
    ControlRan s (u.kernResult n c v).sweepFolios n idx o (cmdResult c.words) (v.setWidth 64 <<< 32) := by
  refine ⟨hq, hr, fun j hj => ?_⟩
  show cell (u.kernResult n c v).mem _ = _
  rw [mem_kernResult]
  exact (cells_written ..).1 j hj

/-- KERN_EXECUTE of a command that may execute. -/
theorem kernExecute_eq (hmay : s.kernMay n c = true) : ∃ u, s.kernExecute n idx c = (u.kernResult n c c.value).sweepFolios ∧
    Unseen (s.startControl n idx (.kern c)) u := by
  refine ⟨if c.op = 2 then (s.startControl n idx (.kern c)).runAppend n c else s.startControl n idx (.kern c), ?_, ?_⟩
  · unfold State.kernExecute
    rw [hmay]
    rfl
  · split
    · exact unseen_runAppend ..
    · exact unseen_refl _

/-! ### ATTEND (R180, R181, R186) -/

theorem descends_of_mem {t : State} (h : t.mem = s.mem) (a : Attend) (k fuel q : Nat) :
    t.descends n a k fuel q = s.descends n a k fuel q := by
  have hparent (i : Nat) : t.parent n a i = s.parent n a i := by simp only [State.parent, State.treeByte, h]
  induction fuel generalizing q with
  | zero => rfl
  | succ fuel ih => simp only [State.descends, hparent, ih]

theorem visible_of_mem {t : State} (h : t.mem = s.mem) (a : Attend) (r j : Nat) : t.visible n a r j = s.visible n a r j := by
  have hkp : t.kpAt n a j = s.kpAt n a j := by simp only [State.kpAt, State.kposOf, State.treeWord, h]
  have hqp : t.qpAt n a r = s.qpAt n a r := by simp only [State.qpAt, State.qposOf, State.treeWord, h]
  have hbyte (off : Nat) : t.treeByte n a off = s.treeByte n a off := by rw [State.treeByte, h]; rfl
  unfold State.visible State.knode State.nodes State.qnode
  dsimp only
  rw [hkp, hqp, hbyte, hbyte, hbyte, descends_of_mem h]

/-- The granules of a command are read off its words and the tree record in the case. -/
theorem granules_of_mem {t : State} (h : t.mem = s.mem) (a : Attend) : t.granules n c a = s.granules n c a := by
  have hvisible (r j : Nat) : t.visible n a r j = s.visible n a r j := visible_of_mem h a r j
  simp only [State.granules, hvisible]

/-- An ATTEND that goes to its end: its rows dropped, its result record is the last that it writes. -/
theorem runAttend_ends (s : State) (n : Nat) (c : KernCmd) : ∃ u v,
    s.runAttend n c none = v.kernResult n c (BitVec.ofNat 32 (sumL ((s.granules n c (attendOf c.words)).map List.length))) ∧
    Unseen s u ∧ SameControl (u.setKern n { c with rows := [] }) v n := by
  unfold State.runAttend
  extract_lets a gs d base mark todo sts s1 s2 rows nan s3 vs
  have h1 : Unseen s s1 := by unfold s1; split <;> exact ⟨rfl, rfl⟩
  have h2 : Unseen s s2 := h1.trans (.foldl (fun _ _ => unseen_folioLines ..) ..)
  rw [if_neg (by simp)]
  split
  next rs s4 hdraw =>
    split
    next els scs fl _ =>
      extract_lets s5 s6 s7
      have h4 : SameControl s3 s4 n := by
        have hsame := sameControl_srFor s3 n (if drawsFor d.fmt a.nc then vs.length else 0)
        rwa [hdraw] at hsame
      have h5 : SameControl s4 s5 n :=
        sameControl_foldl (f := fun t (r : W64 × List Byte) => t.putCase n r.1 r.2) (fun _ _ => ⟨rfl, rfl⟩) ..
      have h6 : SameControl s5 s6 n := by unfold s6; split <;> exact ⟨rfl, rfl⟩
      exact ⟨s2, s7, rfl, h2, ((h4.trans h5).trans h6).trans (sameControl_record ..)⟩

/-- An ATTEND that stops at a boundary of 128 keys keeps its rows and the key at which it goes on (R186). -/
theorem runAttend_stops (s : State) (n : Nat) (c : KernCmd) (j : Nat) : ∃ u rows free,
    s.runAttend n c (some j) = u.setKern n { c with rows, next := (c.next / 128 + j) * 128, free } ∧ Unseen s u ∧
      rows.length = (attendOf c.words).rows := by
  unfold State.runAttend
  extract_lets a gs d base mark todo sts s1 s2
  have h1 : Unseen s s1 := by unfold s1; split <;> exact ⟨rfl, rfl⟩
  have h2 : Unseen s s2 := h1.trans (.foldl (fun _ _ => unseen_folioLines ..) ..)
  refine ⟨s2, sts.map (·.pack), base, if_pos rfl, h2, ?_⟩
  simp [sts, a]

/-- VALUE of an ATTEND, as a word of the result record. -/
theorem record_ofNat (k : Nat) : (BitVec.ofNat 32 k).setWidth 64 <<< 32 = BitVec.ofNat 64 (k % 2 ^ 32 * 2 ^ 32) := by
  apply BitVec.eq_of_toNat_eq
  rw [toNat_record, BitVec.toNat_ofNat, BitVec.toNat_ofNat, Nat.shiftLeft_eq]
  omega

/-- A kern command of a press's queue executes by the row that is its own. -/
theorem exec_kernExecute (hr : Running s n) (hc : (s.pc n).ctq[idx]? = some (.kern c)) (hop : c.op ≠ 3) :
    exec (.kernExecute n idx) s = .next (s.kernExecute n idx c) := by
  obtain ⟨hn, hrun⟩ := hr
  show execKernExecute n idx s = _
  simp only [execKernExecute, State.kernAt, hc, if_neg hop, onPress, if_neg (Nat.not_le.2 hn), if_neg hrun]

theorem exec_attendExecute (hr : Running s n) (hc : (s.pc n).ctq[idx]? = some (.kern c)) (hop : c.op = 3) (stop : Option Nat) :
    exec (.attendExecute n ⟨idx, stop⟩) s = .next (s.attendExecute n idx c stop) := by
  obtain ⟨hn, hrun⟩ := hr
  show execAttendExecute n ⟨idx, stop⟩ s = _
  simp only [execAttendExecute, State.kernAt, hc, if_pos hop, onPress, if_neg (Nat.not_le.2 hn), if_neg hrun]

theorem attendExecute_eq (hmay : s.kernMay n c = true) (stop : Option Nat) :
    s.attendExecute n idx c stop = ((s.startControl n idx (.kern c)).runAttend n c stop).sweepFolios := by
  unfold State.attendExecute
  rw [hmay]
  rfl

/-- A command other than ATTEND writes its result record and nothing else of memory. -/
theorem kern_executes (hmay : s.kernMay n c = true) : ∃ t, s.kernExecute n idx c = t ∧
    ControlRan s t n idx (.kern c) (cmdResult c.words) (c.value.setWidth 64 <<< 32) ∧
    (∀ m, m ≠ n → t.press m = s.press m) ∧
    ∀ x, x < caseBase n + cmdResult c.words ∨ caseBase n + cmdResult c.words + 8 ≤ x → cell t.mem x = cell s.mem x := by
  obtain ⟨u, hu, hsame⟩ := kernExecute_eq (idx := idx) hmay
  obtain ⟨hq, hr⟩ := hsame.sameControl n
  rw [State.startControl, pc_modPc] at hq hr
  refine ⟨_, hu, controlRan_kernResult hq hr c.value, fun m hm => ?_, fun x hx => ?_⟩
  · exact (hsame.press m).trans (press_modPc_ne s _ hm)
  · show cell (u.kernResult n c c.value).mem x = _
    rw [mem_kernResult, (cells_written ..).2 x hx]
    exact congrArg (cell · x) hsame.mem

theorem attend_ends (hmay : s.kernMay n c = true) : ControlRan s (s.attendExecute n idx c none) n idx
    (.kern { c with rows := [] }) (cmdResult c.words)
    (BitVec.ofNat 64 ((sumL ((s.granules n c (attendOf c.words)).map List.length) % 2 ^ 32) * 2 ^ 32)) := by
  obtain ⟨u, v, hrun, hu, hv⟩ := runAttend_ends (s.startControl n idx (.kern c)) n c
  have hmem : (s.startControl n idx (.kern c)).mem = s.mem := rfl
  rw [attendExecute_eq hmay, hrun, granules_of_mem hmem, ← record_ofNat]
  exact controlRan_kernResult (hv.queue.trans (ctq_setKern (hu.sameControl n) _))
    (hv.running.trans (ctRun_setKern hmay (hu.sameControl n) rfl)) _

theorem attend_stops (hmay : s.kernMay n c = true) (j : Nat) : ∃ t d, s.attendExecute n idx c (some j) = t ∧ t.mem = s.mem ∧
    (t.pc n).ctq = (s.pc n).ctq.eraseIdx idx ∧ (t.pc n).ctRun = (s.pc n).ctRun ++ [.kern d] ∧
    d.rows.length = (attendOf c.words).rows ∧ d.next = (c.next / 128 + j) * 128 ∧ d.words = c.words ∧ d.seq = c.seq := by
  obtain ⟨u, rows, free, hrun, hu, hrows⟩ := runAttend_stops (s.startControl n idx (.kern c)) n c j
  rw [attendExecute_eq hmay, hrun]
  exact ⟨_, { c with rows, next := (c.next / 128 + j) * 128, free }, rfl, hu.mem, ctq_setKern (hu.sameControl n) _,
    ctRun_setKern hmay (hu.sameControl n) rfl, hrows, rfl, rfl, rfl⟩

end

/-- Settles O9: a command runs on the data that it names and writes its result record last. -/
theorem kernExecutes : Obligations.KernExecutes := by
  intro s n idx c hr hc hmay
  refine ⟨fun hop => ?_, fun hop => ⟨?_, fun j => ?_⟩⟩
  · obtain ⟨t, rfl, ht⟩ := kern_executes (idx := idx) hmay
    exact ⟨_, exec_kernExecute hr hc hop, ht⟩
  · exact ⟨_, exec_attendExecute hr hc hop none, attend_ends hmay⟩
  · obtain ⟨t, d, rfl, ht⟩ := attend_stops (idx := idx) hmay j
    exact ⟨_, d, exec_attendExecute hr hc hop (some j), ht⟩

end Sys2Proof.Machine
end

/-! # Kern and galley commands accepted (R164, R165, R168, R174 to R176, R195 to R199, R208, R209)

Outside a region a command row changes the tables of folios, sets and streams and the pools alone (`TablesOnly`), and puts its
command last in the shared control queue. So what a Line leaves of the press and of memory is one lemma for all rows
(`controlQueued`), and what a row makes of its stream is one lemma for each (`KernQueues`, `GalleyQueues`). -/

section
open Sys2Proof Sys2Proof.Machine
namespace Sys2Proof.Machine

/-! ### Tables and pools (R170 to R172, R176, R193) -/

/-- Nothing of the state changes but the tables of folios, galley sets and streams, and the pools of the partitions. -/
def TablesOnly (s t : State) : Prop :=
  { t with folios := s.folios, gsets := s.gsets, parts := s.parts, kstreams := s.kstreams, galley := s.galley } = s

section
variable {s₀ s : State}

theorem tablesOnly_refl (s : State) : TablesOnly s s := rfl

theorem TablesOnly.foldl {α : Type} {f : State → α → State} {l : List α} (hf : ∀ s x, TablesOnly s₀ s → TablesOnly s₀ (f s x))
    (h : TablesOnly s₀ s) : TablesOnly s₀ (l.foldl f s) := by
  induction l generalizing s with
  | nil => exact h
  | cons x l ih => exact ih (hf s x h)

/-- A fold that counts beside the state. -/
theorem TablesOnly.foldl_fst {α β : Type} {f : State × β → α → State × β} {l : List α} {a : State × β}
    (hf : ∀ a x, TablesOnly s₀ a.1 → TablesOnly s₀ (f a x).1) (h : TablesOnly s₀ a.1) : TablesOnly s₀ (l.foldl f a).1 := by
  induction l generalizing a with
  | nil => exact h
  | cons x l ih => exact ih (hf a x h)

theorem TablesOnly.poolTake {p i n} (h : TablesOnly s₀ s) : TablesOnly s₀ (s.poolTake p i n) := h
theorem TablesOnly.poolGive {p i n} (h : TablesOnly s₀ s) : TablesOnly s₀ (s.poolGive p i n) := h
theorem TablesOnly.setFolio {f x} (h : TablesOnly s₀ s) : TablesOnly s₀ (s.setFolio f x) := h
theorem TablesOnly.setKstream {k x} (h : TablesOnly s₀ s) : TablesOnly s₀ (s.setKstream k x) := h
theorem TablesOnly.setGentry {k x} (h : TablesOnly s₀ s) : TablesOnly s₀ (s.setGentry k x) := h
theorem TablesOnly.setGset {k x} (h : TablesOnly s₀ s) : TablesOnly s₀ (s.setGset k x) := h
theorem TablesOnly.holdEntry {k} (h : TablesOnly s₀ s) : TablesOnly s₀ (s.holdEntry k) := h

theorem TablesOnly.newFolio {p code f} {t : State} (h : TablesOnly s₀ s) (e : s.newFolio p code = some (f, t)) :
    TablesOnly s₀ t := by
  unfold State.newFolio at e
  split at e
  · cases e
  · split at e <;> cases e
    exact h.poolTake.setFolio

theorem TablesOnly.freeFolio {f} (h : TablesOnly s₀ s) : TablesOnly s₀ (s.freeFolio f) := by
  have hgone : TablesOnly s₀ { s with folios := mdel s.folios f } := h
  unfold State.freeFolio
  dsimp only
  split
  · exact h.setFolio
  · split
    · exact h.setFolio.poolGive
    · exact hgone.poolGive

theorem TablesOnly.dropRef {fuel f} (h : TablesOnly s₀ s) : TablesOnly s₀ (dropRef fuel s f).1 := by
  induction fuel generalizing s f with
  | zero => exact h
  | succ fuel ih =>
    unfold Machine.dropRef
    dsimp only
    split
    · exact h.setFolio
    · exact .freeFolio (.foldl_fst (fun _ _ h' => ih h') h)

theorem TablesOnly.dropFolio {f} (h : TablesOnly s₀ s) : TablesOnly s₀ (s.dropFolio f).1 := .dropRef h

theorem TablesOnly.addRefs {l : Map Nat} (h : TablesOnly s₀ s) : TablesOnly s₀ (l.foldl (fun s e => s.addRef e.2) s) :=
  .foldl (fun _ _ h' => h'.setFolio) h

theorem TablesOnly.copyRoot {root n new} (h : TablesOnly s₀ s) : TablesOnly s₀ (s.copyRoot root n new) :=
  .addRefs h.setFolio

theorem TablesOnly.ownList {k li cs l} {t : State} (h : TablesOnly s₀ s) (e : s.ownList k li = .ok t cs l) : TablesOnly s₀ t := by
  unfold State.ownList at e
  split at e
  · split at e <;> cases e
    exact .setFolio (.newFolio h ‹_›)
  · split at e
    · cases e
      exact h
    · split at e
      · cases e
      · split at e <;> cases e
        exact .dropFolio (.setFolio (.addRefs (.setFolio (.newFolio h ‹_›))))

theorem TablesOnly.ownData {k len d cs f} {t : State} (h : TablesOnly s₀ s) (e : s.ownData k len d = .ok t cs f) :
    TablesOnly s₀ t := by
  unfold State.ownData at e
  split at e
  · cases e
  · cases e
  · have hl : TablesOnly s₀ _ := .ownList h ‹_›
    dsimp only at e
    split at e
    · split at e
      · split at e
        · cases e
          exact hl
        · split at e <;> cases e
          exact .dropFolio (.setFolio (.newFolio hl ‹_›))
      · split at e <;> cases e
        exact .dropFolio (.setFolio (.newFolio hl ‹_›))
    · split at e <;> cases e
      exact .setFolio (.newFolio hl ‹_›)

theorem TablesOnly.reserve {k len n pos} {r : Reserve} (h : TablesOnly s₀ r.s) : TablesOnly s₀ (reserve k len n pos r).s := by
  induction n generalizing len pos r with
  | zero => exact h
  | succ n ih =>
    unfold Machine.reserve
    split
    · exact h
    · exact h
    · exact ih (.ownData h ‹_›)

theorem TablesOnly.trimStream {k n} (h : TablesOnly s₀ s) : TablesOnly s₀ (s.trimStream k n).1 := by
  unfold State.trimStream
  refine .foldl_fst (fun _ _ h' => ?_) h
  split
  · exact .dropFolio h'.setFolio
  · split
    · refine .foldl_fst (fun _ _ h'' => ?_) h'
      split
      · exact .dropFolio h''.setFolio
      · exact h''
    · exact h'

theorem TablesOnly.releaseStream {k} (h : TablesOnly s₀ s) : TablesOnly s₀ (s.releaseStream k).1 :=
  have hdropped : TablesOnly s₀ (s.dropFolio (s.kstream k).root).1 := h.dropFolio
  hdropped

theorem TablesOnly.twoSets {p cls a b} {t : State} (h : TablesOnly s₀ s) (e : s.twoSets p cls = some (a, b, t)) :
    TablesOnly s₀ t := by
  unfold State.twoSets at e
  split at e
  · cases e
  · split at e
    · cases e
    · split at e <;> cases e
      exact h.poolTake.setGset.setGset

end

theorem TablesOnly.presses {s t : State} (h : TablesOnly s t) : t.presses = s.presses := by rw [← h]
theorem TablesOnly.mem {s t : State} (h : TablesOnly s t) : t.mem = s.mem := by rw [← h]
theorem TablesOnly.nextCmd {s t : State} (h : TablesOnly s t) : t.nextCmd = s.nextCmd := by rw [← h]
theorem TablesOnly.openRegion {s t : State} (h : TablesOnly s t) (n : Nat) : t.openRegion n = s.openRegion n := by
  conv_rhs => rw [← h]
  rfl

/-- Two new sets leave the table of streams as it was. -/
theorem galley_twoSets {s t : State} {p cls a b : Nat} (e : s.twoSets p cls = some (a, b, t)) : t.galley = s.galley := by
  unfold State.twoSets at e
  split at e
  · cases e
  · split at e
    · cases e
    · split at e <;> cases e
      rfl

/-- A stream in the table after it is entered. -/
theorem mget_setKstream (s : State) (h : Nat) (x : KStream) : mget {} (s.setKstream h x).kstreams h = x :=
  (mget_mput ..).trans (if_pos rfl)

/-- A free number is listed nowhere. -/
theorem not_mhas_of_mfree {α : Type} {m : Map α} {fuel a k : Nat} (h : mfree m fuel a = some k) : mhas m k = false := by
  induction fuel generalizing a with
  | zero => cases h
  | succ fuel ih =>
    unfold mfree at h
    split at h
    · exact ih h
    · next ha => exact Option.some.inj h ▸ Bool.eq_false_iff.2 ha

theorem mhas_of_mfind {α : Type} {m : Map α} {k : Nat} {x : α} (h : mfind? m k = some x) : mhas m k = true := by
  induction m with
  | nil => cases h
  | cons e m ih =>
    unfold mfind? at h
    split at h
    · next hk => simp [mhas, hk]
    · exact List.any_cons.trans (Bool.or_eq_true_iff.2 (.inr (ih h)))

/-! ### A command taken into the shared control queue (R85, R87, R91) -/

/-- An operation enters the shared control queue of a press, with its number and its mark. -/
def State.queueControl (s : State) (n : Nat) (op : CtOp) (m : Option Nat) : State :=
  ({ s with nextCmd := s.nextCmd + 1 }).modPc n fun p => { p.take m with ctq := p.ctq ++ [op] }

theorem queueKern_eq (s : State) (k : Lc) (c : KernCmd) : s.queueKern k c = s.queueControl k.n (.kern c) c.mark := rfl

theorem queueGalley_eq (s : State) (k : Lc) (c : GalleyCmd) : s.queueGalley k c = s.queueControl k.n (.galley c) c.mark := rfl

section
variable {s u : State} {n op : Nat} {l : Line} {f : CtF} {i : Instr} {g : Bool}
  {chk : Lc → State → Chk} {act : Lc → State → State → State}

/-- The slot of a command row passes its own encoding checks. -/
theorem OneSlot.checked_sub (h : OneSlot s n l i) (hd : slotOf i = some (subSlotDef f g op chk act)) :
    (chk (s.lc n l) s).pre = none := by
  have hpass := h.passes
  obtain ⟨hstray, hunl⟩ := lineFault_clean s _ l [i] hpass
  rw [lineSlots_one l i _ hd (by decide : 5 < 6) hstray hunl] at hpass
  unfold State.lineFault at hpass
  split at hpass
  · cases hpass
  · split at hpass
    · cases hpass
    · split at hpass
      · cases hpass
      · exact slotsFault_pre s _ _ _ hpass _ (List.mem_singleton.2 rfl)

/-- The Line of a command row whose condition holds: the effect of the row, the Line retired. -/
theorem issue_sub (h : OneSlot s n l i) (hd : slotOf i = some (subSlotDef f g op chk act)) (hc : condHolds s n f)
    (hop : cmdOp (s.caseWords n (s.x n f.xa)) = op) :
    issue l i s = .next ((act (s.lc n l) s s).retireLine n (s.nextLine n)) := by
  have hrow : s.rowWrong n (subSlotDef f g op chk act) = false := by
    have hsame : cmdOp (s.caseWords n ((s.pc n).getX f.xa.toNat)) = op := hop
    simp [State.rowWrong, subSlotDef, hsame]
  rw [issue_one s n l i _ h hd (by decide : 5 < 6) hrow, lineEffect_one s (s.lc n l) _ h.outside (live_of_holds rfl hc)]
  rfl

/-- What the queue and the Line leave where the command itself changes tables and pools alone. -/
theorem controlQueued (hu : TablesOnly s u) (o : CtOp) (m : Option Nat) :
    ControlQueued s ((u.queueControl n o m).retireLine n (s.nextLine n)) n o m := by
  have hpress (k : Nat) : u.press k = s.press k := congrArg (mget ({} : Press) · k) hu.presses
  have hpc : u.pc n = s.pc n := congrArg Press.cur (hpress n)
  have htaken : ((u.queueControl n o m).retireLine n (s.nextLine n)).pc n =
      PressCtx.retire { (s.pc n).take m with ctq := (s.pc n).ctq ++ [o] } (s.nextLine n) := by
    rw [pc_retireLine, State.queueControl, pc_modPc]
    show PressCtx.retire { (u.pc n).take m with ctq := (u.pc n).ctq ++ [o] } _ = _
    rw [hpc]
  have htake : ((s.pc n).take m).retired = (s.pc n).retired ∧ ((s.pc n).take m).x = (s.pc n).x := by
    cases m <;> exact ⟨rfl, rfl⟩
  unfold ControlQueued
  rw [htaken]
  refine ⟨rfl, rfl, rfl, congrArg (· + 1) htake.1, htake.2, congrArg (· + 1) hu.nextCmd, hu.mem, fun k hk => ?_⟩
  rw [State.retireLine, press_modPc_ne _ _ hk, State.queueControl, press_modPc_ne _ _ hk]
  exact hpress k

/-- A command row accepted: the state after it, and what of it the queue holds. -/
theorem sub_accepted (h : OneSlot s n l i) (hx : exec i s = issue l i s) (hd : slotOf i = some (subSlotDef f g op chk act))
    (hc : condHolds s n f) (hop : cmdOp (s.caseWords n (s.x n f.xa)) = op) {o : CtOp} {m : Option Nat}
    (hact : act (s.lc n l) s s = u.queueControl n o m) (hu : TablesOnly s u) (hm : m = ctMark f) :
    ∃ t, exec i s = .next t ∧ ControlQueued s t n o (markField f.markEn f.mark) ∧ t.kstreams = u.kstreams ∧
      t.galley = u.galley ∧ t.gsets = u.gsets := by
  subst hm
  refine ⟨_, hx.trans (issue_sub h hd hc hop), ?_⟩
  rw [hact]
  exact ⟨controlQueued hu o _, rfl, rfl, rfl⟩

end

/-! ### Kern commands (R168, R174 to R176) -/

section
variable {s : State} {n : Nat} {l : Line} {f : CtF}

/-- Outside a region no stream is bound, and a new one is not born in one. -/
theorem kernBind_outside {k : Lc} (ho : s.openRegion k.n = none) (h : Nat) : s.kernBind k h = s := by
  unfold State.kernBind
  dsimp only
  split
  · next hr => cases ho.symm.trans hr
  · rfl

theorem kernBorn_outside {k : Lc} (ho : s.openRegion k.n = none) (h : Nat) : s.kernBorn k h = s := by
  unfold State.kernBorn
  rw [ho]

/-- The commands that a Line may queue: what of them does not depend on the operation. -/
structure KernCmd.OfLine (c : KernCmd) (s : State) (k : Lc) (f : CtF) : Prop where
  op : c.op = cmdOp (s.caseWords k.n (k.x f.xa))
  seq : c.seq = s.nextCmd
  words : c.words = s.caseWords k.n (k.x f.xa)
  mark : c.mark = ctMark f

/-- A kern row's effect queues a command of its Line and changes tables and pools alone; `P` says what it makes of the table of
streams and of the command. -/
def KernQueues (s : State) (k : Lc) (f : CtF) (t : State) (P : Map KStream → KernCmd → Prop) : Prop :=
  ∃ u c, t = u.queueKern k c ∧ TablesOnly s u ∧ c.OfLine s k f ∧ P u.kstreams c

/-- A kern row accepted. -/
theorem kern_accepted {i : Instr} {op : Nat} {chk : Lc → State → Chk} {act : Lc → State → State → State}
    {P : Map KStream → KernCmd → Prop} (hc : condHolds s n f) (h : OneSlot s n l i) (hx : exec i s = issue l i s)
    (hd : slotOf i = some (subSlotDef f false op chk act)) (hop : cmdOp (s.caseWords n (s.x n f.xa)) = op)
    (hact : KernQueues s (s.lc n l) f (act (s.lc n l) s s) P) :
    ∃ t c, exec i s = .next t ∧ ControlQueued s t n (.kern c) (markField f.markEn f.mark) ∧ c.op = op ∧ c.seq = s.nextCmd ∧
      c.words = s.caseWords n (s.x n f.xa) ∧ P t.kstreams c := by
  obtain ⟨u, c, hdo, hu, ⟨hcop, hseq, hwords, hmark⟩, hP⟩ := hact
  obtain ⟨t, hexec, hqueued, hstreams, -⟩ := sub_accepted h hx hd hc hop (hdo.trans (queueKern_eq ..)) hu hmark
  exact ⟨t, c, hexec, hqueued, hcop.trans hop, hseq, hwords, hstreams ▸ hP⟩

variable {k : Lc}

/-- OPEN makes an empty stream of the context where a handle and a root are free, and nothing otherwise. -/
theorem kernOpen_queues (ho : s.openRegion k.n = none) : KernQueues s k f (doKernOpen k s s f) fun m c =>
    (∀ g, s.freeKern = some g → s.newFolio (s.ctx k.c).part 0 ≠ none →
      c.new = some g ∧ c.value = BitVec.ofNat 32 g ∧ (mget {} m g).len = 0 ∧ (mget {} m g).ctx = k.c) ∧
    (s.freeKern = none ∨ s.newFolio (s.ctx k.c).part 0 = none → c.value = BitVec.allOnes 32 ∧ m = s.kstreams) := by
  unfold doKernOpen
  dsimp only
  split
  · next hk =>
    refine ⟨_, _, rfl, tablesOnly_refl s, ⟨rfl, rfl, rfl, rfl⟩, fun g hg => ?_, fun _ => ⟨rfl, rfl⟩⟩
    cases hk.symm.trans hg
  · next g hk =>
    split
    · next hf =>
      exact ⟨_, _, rfl, tablesOnly_refl s, ⟨rfl, rfl, rfl, rfl⟩, fun _ _ hsome => absurd hf hsome, fun _ => ⟨rfl, rfl⟩⟩
    · next root v hf =>
      have hv (x : KStream) : TablesOnly s (v.setKstream g x) := .setKstream (.newFolio (tablesOnly_refl s) hf)
      rw [kernBorn_outside (((hv _).openRegion _).trans ho)]
      refine ⟨_, _, rfl, hv _, ⟨rfl, rfl, rfl, rfl⟩, fun g' hg _ => ?_, fun hno => ?_⟩
      · obtain rfl : g = g' := Option.some.inj (hk.symm.trans hg)
        refine ⟨rfl, rfl, ?_⟩
        rw [mget_setKstream]
        exact ⟨rfl, rfl⟩
      · rcases hno with hno | hno
        · cases hk.symm.trans hno
        · cases hf.symm.trans hno

/-- APPEND raises the length by the positions that it reserved. -/
theorem kernAppend_queues (ho : s.openRegion k.n = none) : KernQueues s k f (doKernAppend k s s f) fun m c =>
    let h := cmdStream (s.caseWords k.n (k.x f.xa))
    (mget {} m h).len = (s.kstream h).len + c.slots.length ∧ c.value = BitVec.ofNat 32 c.slots.length := by
  unfold doKernAppend
  dsimp only
  rw [kernBind_outside ho]
  generalize hreserve : reserve _ _ _ _ _ = r
  have hr : TablesOnly s r.s := hreserve ▸ .reserve (tablesOnly_refl s)
  exact ⟨_, _, rfl, hr.setKstream, ⟨rfl, rfl, rfl, rfl⟩, by simp only [mget_setKstream], rfl⟩

theorem kernAttend_queues (ho : s.openRegion k.n = none) : KernQueues s k f (doKernAttend k s s f) fun m _ =>
    m = s.kstreams := by
  unfold doKernAttend
  dsimp only
  rw [kernBind_outside ho]
  exact ⟨_, _, rfl, tablesOnly_refl s, ⟨rfl, rfl, rfl, rfl⟩, rfl⟩

/-- FORK with a free handle and a root: the new stream ends where the command says. -/
theorem kernFork_queues (ho : s.openRegion k.n = none) : KernQueues s k f (doKernFork k s s f) fun m c =>
    let ws := s.caseWords k.n (k.x f.xa)
    ∀ g, s.freeKern = some g → s.newFolio (s.kstream (cmdStream ws)).part 0 ≠ none →
      c.new = some g ∧ (mget {} m g).len = fld (cmdWord ws 1) 20 0 := by
  unfold doKernFork
  dsimp only
  rw [kernBind_outside ho]
  split
  · next hk => exact ⟨_, _, rfl, tablesOnly_refl s, ⟨rfl, rfl, rfl, rfl⟩, fun g hg => nomatch hk.symm.trans hg⟩
  · next g hk =>
    split
    · next hf => exact ⟨_, _, rfl, tablesOnly_refl s, ⟨rfl, rfl, rfl, rfl⟩, fun _ _ hsome => absurd hf hsome⟩
    · next root v hf =>
      have hv (r j new : Nat) (x : KStream) : TablesOnly s ((v.copyRoot r j new).setKstream g x) :=
        .setKstream (.copyRoot (.newFolio (tablesOnly_refl s) hf))
      rw [kernBorn_outside (((hv ..).openRegion _).trans ho)]
      refine ⟨_, _, rfl, hv .., ⟨rfl, rfl, rfl, rfl⟩, fun g' hg _ => ?_⟩
      obtain rfl : g = g' := Option.some.inj (hk.symm.trans hg)
      exact ⟨rfl, by simp only [mget_setKstream]⟩

theorem kernTruncate_queues (ho : s.openRegion k.n = none) : KernQueues s k f (doKernTruncate k s s f) fun m _ =>
    let ws := s.caseWords k.n (k.x f.xa)
    (mget {} m (cmdStream ws)).len = fld (cmdWord ws 1) 20 0 := by
  unfold doKernTruncate
  dsimp only
  rw [kernBind_outside ho]
  exact ⟨_, _, rfl, .setKstream (.trimStream (tablesOnly_refl s)), ⟨rfl, rfl, rfl, rfl⟩,
    by simp only [mget_setKstream]⟩

theorem kernRelease_queues (ho : s.openRegion k.n = none)
    (hb : (s.kstream (cmdStream (s.caseWords k.n (k.x f.xa)))).bound = none) :
    KernQueues s k f (doKernRelease k s s f) fun m _ => mfind? m (cmdStream (s.caseWords k.n (k.x f.xa))) = none := by
  unfold doKernRelease
  dsimp only
  rw [kernBind_outside ho, hb]
  exact ⟨_, _, rfl, .releaseStream (tablesOnly_refl s), ⟨rfl, rfl, rfl, rfl⟩, mfind_mdel_same ..⟩

end

theorem kernCommandsAccepted : Claims.KernCommandsAccepted := by
  intro s n l f hc ws h mark p go
  refine ⟨fun h1 hop _ => ?_, fun h1 hop _ => ?_, fun h1 hop _ => ?_, fun h1 hop _ => ?_, fun h1 hop _ => ?_, fun h1 hop hb => ?_⟩
  · exact (kern_accepted hc h1 rfl rfl hop (kernOpen_queues h1.outside) :)
  · exact (kern_accepted hc h1 rfl rfl hop (kernAppend_queues h1.outside) :)
  · exact (kern_accepted hc h1 rfl rfl hop (kernAttend_queues h1.outside) :)
  · exact (kern_accepted hc h1 rfl rfl hop (kernFork_queues h1.outside) :)
  · exact (kern_accepted hc h1 rfl rfl hop (kernTruncate_queues h1.outside) :)
  · exact (kern_accepted hc h1 rfl rfl hop (kernRelease_queues h1.outside (hb (by decide))) :)

/-! ### Galley commands (R195 to R199, R208, R209) -/

section
variable {s : State} {n : Nat} {l : Line} {f : CtF} {k : Lc}

/-- Outside a region no stream is bound, and a new one is not born in one. -/
theorem galleyBind_outside (ho : s.openRegion k.n = none) (h : Nat) : s.galleyBind k h = s := by
  unfold State.galleyBind
  dsimp only
  split
  · next hr => cases ho.symm.trans hr
  · rfl

theorem galleyBorn_outside (ho : s.openRegion k.n = none) (h : Nat) : s.galleyBorn k h = s := by
  unfold State.galleyBorn
  rw [ho]

/-- Outside a region a command on a stream takes a reference to it and is queued. -/
theorem acceptGalley_outside (ho : s.openRegion k.n = none) (c : GalleyCmd) :
    s.acceptGalley k c = (s.holdEntry c.stream).queueGalley k c := by
  rw [State.acceptGalley, galleyBind_outside ho]

/-- The commands that a Line may queue: what of them does not depend on the operation. -/
structure GalleyCmd.OfLine (c : GalleyCmd) (s : State) (k : Lc) (f : CtF) : Prop where
  op : c.op = cmdOp (s.caseWords k.n (k.x f.xa))
  seq : c.seq = s.nextCmd
  words : c.words = s.caseWords k.n (k.x f.xa)
  mark : c.mark = ctMark f

/-- A galley row's effect queues a command of its Line and changes tables and pools alone; `P` says what it makes of the tables
of streams and of sets, and of the command. -/
def GalleyQueues (s : State) (k : Lc) (f : CtF) (t : State) (P : Map GEntry → Map GSet → GalleyCmd → Prop) : Prop :=
  ∃ u c, t = u.queueGalley k c ∧ TablesOnly s u ∧ c.OfLine s k f ∧ P u.galley u.gsets c

/-- A galley row accepted. -/
theorem galley_accepted {i : Instr} {op : Nat} {chk : Lc → State → Chk} {act : Lc → State → State → State}
    {P : Map GEntry → Map GSet → GalleyCmd → Prop} (hc : condHolds s n f) (h : OneSlot s n l i) (hx : exec i s = issue l i s)
    (hd : slotOf i = some (subSlotDef f true op chk act)) (hop : cmdOp (s.caseWords n (s.x n f.xa)) = op)
    (hact : GalleyQueues s (s.lc n l) f (act (s.lc n l) s s) P) :
    ∃ t c, exec i s = .next t ∧ ControlQueued s t n (.galley c) (markField f.markEn f.mark) ∧ c.op = op ∧
      c.seq = s.nextCmd ∧ c.words = s.caseWords n (s.x n f.xa) ∧ P t.galley t.gsets c := by
  obtain ⟨u, c, hdo, hu, ⟨hcop, hseq, hwords, hmark⟩, hP⟩ := hact
  obtain ⟨t, hexec, hqueued, -, hstreams, hsets⟩ := sub_accepted h hx hd hc hop (hdo.trans (queueGalley_eq ..)) hu hmark
  exact ⟨t, c, hexec, hqueued, hcop.trans hop, hseq, hwords, hstreams ▸ hsets ▸ hP⟩

theorem gentry_setGentry (s : State) (h j : Nat) (e : GEntry) :
    (s.setGentry h e).gentry j = if h = j then e else s.gentry j := mget_mput ..

theorem gentry_holdEntry (s : State) (h j : Nat) :
    (s.holdEntry h).gentry j = if h = j then { s.gentry h with refs := (s.gentry h).refs + 1 } else s.gentry j :=
  gentry_setGentry ..

/-- A stream that a command holds and then changes. -/
theorem gentry_changed (s : State) (h : Nat) (g : GEntry → GEntry) :
    ((s.holdEntry h).setGentry h (g ((s.holdEntry h).gentry h))).gentry h =
      g { s.gentry h with refs := (s.gentry h).refs + 1 } := by
  rw [gentry_setGentry, if_pos rfl, gentry_holdEntry, if_pos rfl]

/-- CREATE that finds a handle and two sets makes a stream of them; one that does not is refused. -/
theorem galleyCreate_queues (ho : s.openRegion k.n = none) : GalleyQueues s k f (doGalleyCreate k s s f) fun m _ c =>
    ∀ g, s.freeGalley = some g →
      (c.refused = false → c.new = g ∧ c.stream = g ∧ (mget {} m g).cur ≠ none ∧ (mget {} m g).spare ≠ none) ∧
      (c.refused = true → m = s.galley) := by
  unfold doGalleyCreate
  dsimp only
  split
  · next g a b v hg hv =>
    have hu (x : GSet) (e : GEntry) : TablesOnly s ((v.setGset a x).setGentry g e) :=
      .setGentry (.setGset (.twoSets (tablesOnly_refl s) hv))
    have hnew (x : GSet) (e : GEntry) : mget {} ((v.setGset a x).setGentry g e).galley g = e :=
      (gentry_setGentry ..).trans (if_pos rfl)
    rw [galleyBorn_outside (((hu ..).openRegion _).trans ho)]
    refine ⟨_, _, rfl, hu .., ⟨rfl, rfl, rfl, rfl⟩, fun g' hg' => ⟨fun _ => ?_, nofun⟩⟩
    obtain rfl : g = g' := Option.some.inj (hg.symm.trans hg')
    refine ⟨rfl, rfl, ?_⟩
    rw [hnew]
    exact ⟨nofun, nofun⟩
  · exact ⟨_, _, rfl, tablesOnly_refl s, ⟨rfl, rfl, rfl, rfl⟩, fun _ _ => ⟨nofun, fun _ => rfl⟩⟩

section
variable {h : Nat} (ho : s.openRegion k.n = none) (hs : cmdStream (s.caseWords k.n (k.x f.xa)) = h)
include ho hs

/-- FORK takes a reference to its source; one that finds a handle and two sets makes a stream that holds them. -/
theorem galleyFork_queues (hh : mhas s.galley h = true) : GalleyQueues s k f (doGalleyFork k s s f) fun m sets c =>
    (mget {} m h).refs = (s.gentry h).refs + 1 ∧ (c.refused = true → sets = s.gsets) ∧
      ∀ g, s.freeGalley = some g → c.refused = false → c.new = g ∧ (mget {} m g).isOpen = true ∧ (mget {} m g).refs = 1 ∧
        (mget {} m g).cur = none ∧ (mget {} m g).extra.length = 2 := by
  unfold doGalleyFork
  dsimp only
  split
  · next g a b v hg hv =>
    have hne : h ≠ g := fun e => Bool.false_ne_true ((not_mhas_of_mfree hg).symm.trans (e ▸ hh))
    have hu (e : GEntry) : TablesOnly s (v.setGentry g e) := .setGentry (.twoSets (tablesOnly_refl s) hv)
    have hsource (e : GEntry) : ((v.setGentry g e).holdEntry h).gentry h =
        { s.gentry h with refs := (s.gentry h).refs + 1 } := by
      have hv' : v.gentry h = s.gentry h := congrArg (mget ({} : GEntry) · h) (galley_twoSets hv)
      rw [gentry_holdEntry, if_pos rfl, gentry_setGentry, if_neg hne.symm, hv']
    have hnew (e : GEntry) : ((v.setGentry g e).holdEntry h).gentry g = e := by
      rw [gentry_holdEntry, if_neg hne, gentry_setGentry, if_pos rfl]
    rw [galleyBorn_outside (((hu _).openRegion _).trans ho), acceptGalley_outside (((hu _).openRegion _).trans ho)]
    subst hs
    refine ⟨_, _, rfl, .holdEntry (hu _), ⟨rfl, rfl, rfl, rfl⟩, congrArg GEntry.refs (hsource _), nofun, fun g' hg' _ => ?_⟩
    obtain rfl : g = g' := Option.some.inj (hg.symm.trans hg')
    exact ⟨rfl, congrArg GEntry.isOpen (hnew _), congrArg GEntry.refs (hnew _), congrArg GEntry.cur (hnew _),
      congrArg (·.extra.length) (hnew _)⟩
  · rw [acceptGalley_outside ho]
    subst hs
    have hheld := (gentry_holdEntry s (cmdStream (s.caseWords k.n (k.x f.xa))) _).trans (if_pos rfl)
    exact ⟨_, _, rfl, .holdEntry (tablesOnly_refl s), ⟨rfl, rfl, rfl, rfl⟩, congrArg GEntry.refs hheld, fun _ => rfl,
      fun _ _ => nofun⟩

/-- A command on a stream that only takes its reference. -/
theorem holds_queues {c : GalleyCmd} (hc : c.OfLine s k f) (hcs : c.stream = cmdStream (s.caseWords k.n (k.x f.xa))) :
    GalleyQueues s k f (s.acceptGalley k c) fun m _ _ => (mget {} m h).refs = (s.gentry h).refs + 1 := by
  have hrefs : ((s.holdEntry h).gentry h).refs = (s.gentry h).refs + 1 := by rw [gentry_holdEntry, if_pos rfl]
  rw [acceptGalley_outside ho, hcs.trans hs]
  exact ⟨_, _, rfl, .holdEntry (tablesOnly_refl s), hc, hrefs⟩

/-- RESET and LOAD raise the generation of acceptance besides. -/
theorem raises_queues {c : GalleyCmd} (hc : c.OfLine s k f) (hcs : c.stream = cmdStream (s.caseWords k.n (k.x f.xa))) :
    GalleyQueues s k f ((s.acceptGalley k c).setGentry c.stream { (s.acceptGalley k c).gentry c.stream with
        agen := ((s.acceptGalley k c).gentry c.stream).agen + 1 }) fun m _ _ =>
      (mget {} m h).refs = (s.gentry h).refs + 1 ∧ (mget {} m h).agen = (s.gentry h).agen + 1 := by
  have hnew := gentry_changed s h fun e => { e with agen := e.agen + 1 }
  rw [acceptGalley_outside ho, hcs.trans hs]
  exact ⟨(s.holdEntry h).setGentry h { (s.holdEntry h).gentry h with agen := ((s.holdEntry h).gentry h).agen + 1 }, c, rfl,
    .setGentry (.holdEntry (tablesOnly_refl s)), hc, congrArg GEntry.refs hnew, congrArg GEntry.agen hnew⟩

/-- RELEASE closes the stream. -/
theorem galleyRelease_queues (hb : (s.gentry h).bound = none) : GalleyQueues s k f (doGalleyRelease k s s f) fun m _ _ =>
    (mget {} m h).isOpen = false ∧ (mget {} m h).refs = (s.gentry h).refs := by
  have hnew := gentry_changed s h fun e => { e with isOpen := false, refs := e.refs - 1, bound := none }
  have hunbound (c : GalleyCmd) : (((s.holdEntry h).queueGalley k c).gentry h).bound = none :=
    (congrArg GEntry.bound ((gentry_holdEntry s h h).trans (if_pos rfl))).trans hb
  have hstream : (k.galleyCmd s f (s.caseWords k.n (k.x f.xa))).stream = h := hs
  unfold doGalleyRelease
  dsimp only
  rw [acceptGalley_outside ho, hstream, hunbound]
  exact ⟨(s.holdEntry h).setGentry h { (s.holdEntry h).gentry h with
    isOpen := false, refs := ((s.holdEntry h).gentry h).refs - 1, bound := none }, _, rfl,
    .setGentry (.holdEntry (tablesOnly_refl s)), ⟨rfl, rfl, rfl, rfl⟩, congrArg GEntry.isOpen hnew,
    (congrArg GEntry.refs hnew).trans (Nat.add_sub_cancel ..)⟩

end

/-- A check that passes has passed each of its parts. -/
theorem eq_none_of_firstOf {cs : List (Option (Status × W64))} (h : firstOf cs = none) {c : Option (Status × W64)}
    (hc : c ∈ cs) : c = none := List.findSome?_eq_none_iff.1 h c hc

/-- The stream that a FORK names stands in the table. -/
theorem OneSlot.forkSource (h : OneSlot s n l (.galleyFork l f)) :
    mhas s.galley (cmdStream (s.caseWords n (s.x n f.xa))) = true := by
  have hpre : (chkGalleyFork (s.lc n l) s f).pre = none := h.checked_sub (g := true) rfl
  have hcmd := eq_none_of_firstOf hpre (List.mem_cons_of_mem _ (List.mem_singleton.2 rfl))
  have howned : s.galleyOwned (s.lc n l) (cmdStream (s.caseWords n (s.x n f.xa))) = none := by
    refine eq_none_of_firstOf ((Option.orElse_eq_none ..).1 hcmd).2 ?_
    exact List.mem_cons_of_mem _ (List.mem_cons_of_mem _ (List.mem_cons_self ..))
  unfold State.galleyOwned at howned
  split at howned
  · next hm => exact mhas_of_mfind hm
  · cases howned

end

theorem galleyCommandsAccepted : Claims.GalleyCommandsAccepted := by
  intro s n l f hc ws h e mark go
  refine ⟨fun h1 hop _ => ?_, fun h1 hop _ => ?_, fun h1 hop _ => ?_, fun h1 hop _ => ?_, fun h1 hop _ => ?_,
    fun h1 hop _ => ?_, fun h1 hop _ => ?_, fun h1 hop _ => ?_, fun h1 hop hb => ?_, fun h1 hop _ => ?_⟩
  · exact (galley_accepted hc h1 rfl rfl hop (galleyCreate_queues h1.outside) :)
  · exact (galley_accepted hc h1 rfl rfl hop (holds_queues h1.outside rfl ⟨rfl, rfl, rfl, rfl⟩ rfl) :)
  · exact (galley_accepted hc h1 rfl rfl hop (galleyFork_queues h1.outside rfl h1.forkSource) :)
  · exact (galley_accepted hc h1 rfl rfl hop (raises_queues h1.outside rfl ⟨rfl, rfl, rfl, rfl⟩ rfl) :)
  · exact (galley_accepted hc h1 rfl rfl hop (raises_queues h1.outside rfl ⟨rfl, rfl, rfl, rfl⟩ rfl) :)
  · exact (galley_accepted hc h1 rfl rfl hop (holds_queues h1.outside rfl ⟨rfl, rfl, rfl, rfl⟩ rfl) :)
  · exact (galley_accepted hc h1 rfl rfl hop (holds_queues h1.outside rfl ⟨rfl, rfl, rfl, rfl⟩ rfl) :)
  · exact (galley_accepted hc h1 rfl rfl hop (holds_queues h1.outside rfl ⟨rfl, rfl, rfl, rfl⟩ rfl) :)
  · exact (galley_accepted hc h1 rfl rfl hop (galleyRelease_queues h1.outside rfl (hb (by decide))) :)
  · exact (galley_accepted hc h1 rfl rfl hop (holds_queues h1.outside rfl ⟨rfl, rfl, rfl, rfl⟩ rfl) :)

/-- Settles O54: each command by the lemma of what its row's effect queues. -/
theorem serviceCommandsAccepted : Obligations.ServiceCommandsAccepted := ⟨kernCommandsAccepted, galleyCommandsAccepted⟩

end Sys2Proof.Machine
end
